-- ==== Sys2Proof/Word.lean ====
section
/-! DEFINITION. The word types of the module: bytes, 32-bit registers and cells. -/
set_option Elab.async false
namespace Sys2Proof

/-- One byte of memory or of a packet. -/
abbrev Byte := BitVec 8

/-- A BAR0 register, a sync-cell value, an epoch, a host tag (all 32 bits wide). -/
abbrev Word := BitVec 32

end Sys2Proof
end

