-- ==== Sys2Proof/Syntax.lean ====
section
/-! DEFINITION. The commands of the block: one constructor of `Instr` for each row of spec/opcode_table.json, and the
types of their operands. The table gives no row any bits, so an operand is what the spec's own layouts give it. -/
namespace Sys2Proof

/-- The source of an Ilzan packet (R17, R250): a host queue, a fabric sender by rank (0xFFFF: a module of no group), an MCTP endpoint. -/
inductive Source where
  | host (queue : Nat)
  | fabric (sender : Nat)
  | mctp (endpoint : Nat)
  deriving DecidableEq, Repr

/-- An Ilzan packet as the Binnacle takes it (R244), without its OPCODE, which the row gives. `params` are the parameter
bytes the slot, the message or PARAM_ADDR holds; the three `resv` fields are the reserved header bytes 7:5, 23:20 and 59:32. -/
structure Packet where
  src : Source
  flags : Nat := 0
  ctx : Nat := 0xFF
  resv5 : Nat := 0
  hostTag : Word := 0
  paramLen : Nat := 0
  epoch : Word := 0
  resv20 : Nat := 0
  paramAddr : Nat := 0
  resv32 : Nat := 0
  crc : Word := 0
  params : List Byte := []
  deriving DecidableEq, Repr

/-- The requester of a sync-cell operation (R216): its unit ID, its context, the logical cluster its work belongs to (R349), the
rank of a remote module (R219), the work item that waits and the number that orders one requester's waits (R218). -/
structure Requester where
  unit : Nat
  ctx : Option Nat := none
  cluster : Option Nat := none
  rank : Option Nat := none
  work : Option Nat := none
  deriving DecidableEq, Repr

/-- The sync-cell operations of R216, with their operands. -/
inductive SyncAct where
  | read
  | write (v : Word)
  | add (v : Word)
  | cas (c v : Word)
  | waitEq (v : Word)
  | waitGe (v : Word)
  | arrive (v t : Word)
  deriving DecidableEq, Repr

/-- The states of a unit in the chart (R20). -/
inductive UnitState where
  | healthy | spare | testing | quarantined | failed | absent
  deriving DecidableEq, Repr

/-- Kind of an access that is translated (R199). -/
inductive Access where
  | read | write | turned | sync | shard
  deriving DecidableEq, Repr

/-- A PCIe request that gets a completion error or times out (R196, R241, R245). -/
inductive PcieRequest where
  /-- the read of a submission slot of queue `q` -/
  | slot (q : Nat)
  /-- the read of the indirect parameters of a packet with this opcode -/
  | params (opcode : Nat) (p : Packet)
  /-- a read, write or turned read of context `ctx` of a page whose target is the host or CXL (work item `work`) -/
  | target (ctx va : Nat) (access : Access) (work : Nat)
  /-- an ingest shard read of context `ctx` by a media engine -/
  | shard (ctx va unit : Nat)
  deriving DecidableEq, Repr

/-- What the ECC of a stack found in a 64-byte block, or the SECDED of the stack cache in a word of its line (R203 to R206). -/
inductive EccFinding where
  | clean | correctable | uncorrectable | lineSingle | lineDouble
  deriving DecidableEq, Repr

/-- An IEEE 754 binary format (R50). -/
inductive Bin where
  | b16 | b32 | b64
  deriving DecidableEq, Repr

/-- The rounding attributes of R50. -/
inductive Rm where
  | rne | rtz | rup | rdn
  deriving DecidableEq, Repr

/-- The number formats an operand may be in: Kyonex (R34), binary (R50) and integers. -/
inductive Fmt where
  | kl8a | kl8b | kl16 | bin (b : Bin)
  deriving DecidableEq, Repr

/-- The rounding rules of R43. -/
inductive Round where
  | nearest | towardZero | stochastic
  deriving DecidableEq, Repr

/-- The relations of a comparison (R50, R52). -/
inductive Rel where
  | eq | ne | lt | le | gt | ge | unordered | ordered | notGreater | lessUnordered | notLess | greaterUnordered
  deriving DecidableEq, Repr

/-- An element that an operation of a kernel image reads or writes: its tensor's ID and base address, the row pitch in bytes, the columns of
the tensor's logical shape (R55), and its row and column. Its scale is that of the tensor's record and block (R36, R92, R93). -/
structure Elem where
  tensor : Nat
  base : Nat
  pitch : Nat := 0
  cols : Nat := 1
  row : Nat := 0
  col : Nat := 0
  deriving DecidableEq, Repr

/-- One operation of a kernel image's body on the vector units and arrays (R37 to R58, R75). The body's encoding is the toolchain's own
(R263), so the operations it performs are the operand of the PROGRAM row. -/
inductive VecOp where
  | add (f : Bin) (m : Rm) (a b d : Elem)
  | sub (f : Bin) (m : Rm) (a b d : Elem)
  | mul (f : Bin) (m : Rm) (a b d : Elem)
  | fma (f : Bin) (m : Rm) (a b c d : Elem)
  | div (f : Bin) (m : Rm) (a b d : Elem)
  | sqrt (f : Bin) (m : Rm) (a d : Elem)
  | convert (src dst : Bin) (m : Rm) (a d : Elem)
  /-- Conversion to an integer at address `d`; `exact` is the IEEE 754 form that raises inexact. -/
  | toInt (f : Bin) (m : Rm) (bits : Nat) (signed exact : Bool) (a : Elem) (d : Nat)
  /-- Conversion of the integer at address `a`; `stochastic` asks for STOCHASTIC in place of the attribute, which R50 offers in binary16. -/
  | ofInt (f : Bin) (m : Rm) (stochastic : Bool) (bits : Nat) (signed : Bool) (a : Nat) (d : Elem)
  | minimum (f : Fmt) (r : Round) (a b d : Elem)
  | maximum (f : Fmt) (r : Round) (a b d : Elem)
  /-- A comparison; its truth is a 32-bit number at address `d`, and a signalling predicate raises invalid on any NaN. -/
  | compare (f : Fmt) (rel : Rel) (signalling : Bool) (a b : Elem) (d : Nat)
  /-- Conversion between any two formats under R46, R47, R48 or R49, to a pair when `pair` holds (R59). -/
  | conv (src dst : Fmt) (r : Round) (pair : Bool) (a d : Elem)
  | klAdd (fa fb fd : Fmt) (r : Round) (pair : Bool) (a b d : Elem)
  | klMul (fa fb fd : Fmt) (r : Round) (a b d : Elem)
  /-- A reduction on the arrays (R37 to R42): the products of moving and stationary elements in the order given, into one output element. -/
  | dot (fm fs fd : Fmt) (r : Round) (pair : Bool) (terms : List (Elem × Elem)) (d : Elem)
  /-- Copies `len` bytes of the kernel's arguments (ARGS_VA, ARGS_LEN of R263) from `src` on into the store of a logical cluster. -/
  | args (src cluster off len : Nat)
  /-- A random draw (R54, R55) with a purpose code of R56; its four words go to address `d`. For the purposes of R57 `index` is the
  sample ID, `tensor` the draw number and `pass` the data pass. -/
  | draw (purpose tensor index pass d : Nat)
  /-- Copies between the address space and the context's part of the store of a logical cluster. -/
  | stage (cluster va off len : Nat)
  | unstage (cluster off va len : Nat)
  /-- A turned read of a 64 × 64 tile of a cluster store, element width in bytes (R75); the turned tile is delivered at offset `d` of the
  store. -/
  | turn (cluster width base pitch d : Nat)
  deriving DecidableEq, Repr

/-- One JPEG component before the inverse DCT: blocks of 64 dequantised coefficients in row-major block order, and the
horizontal and vertical subsampling of its samples (R171). -/
structure JpegComp where
  blocksPerRow : Nat
  blocks : List (List Int)
  subH : Nat := 1
  subV : Nat := 1
  deriving DecidableEq, Repr

/-- What the decoders of the published standards (R170) give for one field, before the integer rules of R171 and R175. -/
inductive Decoded where
  | jpeg (w h : Nat) (comps : List JpegComp)
  /-- PNG samples per pixel after filtering: channels 1 (grey), 2 (grey, alpha), 3, 4 (with alpha); bit depth; palette already named by index in `palette` when given. -/
  | png (w h channels depth : Nat) (samples : List Nat) (palette : List (Nat × Nat × Nat))
  /-- AV1 frames in display order: luma plane and, unless monochrome, two chroma planes with their subsampling; `level` is the level index of the
  sequence header, 13 for level 5.1. -/
  | av1 (w h depth : Nat) (mono : Bool) (subH subV level : Nat) (frames : List (List Nat × List Nat × List Nat))
  /-- FLAC: rate, bit depth, one list of samples a channel. -/
  | flac (rate depth : Nat) (channels : List (List Int))
  /-- Opus: output of the fixed-point reference decoder, one list a channel. -/
  | opus (channels : List (List Int))
  /-- TEXT and RAW values are taken from the record's body itself. -/
  | ofBody
  /-- The decoder found an error inside a supported profile (0x05) or refused the profile (0x06). -/
  | bad (reason : Nat)
  deriving DecidableEq, Repr

/-- One element of a collective chunk as it travels: the format code (2 KL16, 3 binary16, 1 KL8B), hi and lo codes, pair or not, HELD_SCALE. -/
structure CollElem where
  fmt : Nat
  hi : Nat
  lo : Nat := 0
  pair : Bool := false
  scale : Int := 0
  deriving DecidableEq, Repr

/-- The signature of a collective (R292). -/
structure CollSig where
  op : Nat
  flags : Nat
  fmtRound : Nat
  root : Nat
  collId : Nat
  step : Nat
  elements : Nat
  deriving DecidableEq, Repr

/-- A record of the group chart (R282). -/
structure GroupRec where
  rank : Nat
  role : Nat := 0
  state : Nat := 0
  level : Nat := 3
  feed : Nat := 0
  consort : Nat := 0xFFFF
  changeEpoch : Word := 1
  serialLow : Word := 0
  deriving DecidableEq, Repr

/-- A native flit (R271): its header and its 240 bytes of payload, of which `len` are in use. -/
structure Flit where
  cls : Nat
  transit : Bool := false
  dest : Nat
  src : Nat
  seq : Nat
  ack : Nat
  len : Nat
  payload : List Byte
  deriving DecidableEq, Repr

/-- A flit on the wire as it arrives (R271): its 256 bytes, and whether the codeword it came in was right. -/
structure FlitIn where
  bytes : List Byte
  codewordOk : Bool
  deriving DecidableEq, Repr

/-- A part of a DMA_SUBMIT's work (R200 to R202): the descriptor's place in it, and how many granules run at most. -/
structure DmaPart where
  index : Nat
  count : Nat
  deriving DecidableEq, Repr

/-- What a memory read meets (R192, R206): the error checking's finding, and the context and VA of the read where a translation led to it. -/
structure ReadFound where
  ecc : EccFinding
  access : Option (Nat × Nat)
  deriving DecidableEq, Repr

/-- What a RoCEv2 packet asks for (R272). -/
inductive RoceOp where
  | send | writeImm | read | atomic | datagram | other
  deriving DecidableEq, Repr

/-- What a training found on one physical lane of a port (R273, R274): usable or not, inverted polarity, the logical lane its frames name. -/
structure LaneFound where
  good : Bool
  inverted : Bool := false
  logical : Nat
  deriving DecidableEq, Repr

/-- What a training found of the peer (R274). -/
inductive PeerFound where
  | none | samegroup | foreign | otherMode | self
  deriving DecidableEq, Repr

/-- The read-back of one strap, in millivolts through the pull-up and through the pull-down (R379). -/
structure StrapRead where
  up : Nat
  down : Nat
  deriving DecidableEq, Repr

/-- One entry of a straggler decision (R289): rank and KIND (0x1 DEFERRED, 0x2 DROPPED, 0x3 EXPIRED). -/
structure LateEntry where
  rank : Nat
  kind : Nat
  deriving DecidableEq, Repr

/-- What CLOSE(n) carries (R286, R312, R133, R340), with the CK_AON time in µs at which it is observed. -/
structure CloseMsg where
  step : Nat
  fix : Bool := false
  stop : Bool := false
  freq : Nat := 1600
  timeUs : Nat := 0
  deriving DecidableEq, Repr

/-- A temperature reading: the unit ID of the sensor group (R357), hottest junction in units of 1/16 °C. -/
structure TempRead where
  unit : Nat
  temp : Int
  deriving DecidableEq, Repr

/-- What the boot ROM finds of one firmware image (R359). -/
structure ImageFound where
  crcOk : Bool
  signatureOk : Bool
  deriving DecidableEq, Repr

/-- One failing unit of a built-in self-test (R372). -/
structure BistFail where
  unit : Nat
  cls : Nat
  permanent : Bool
  code : Word
  deriving DecidableEq, Repr

/-- One lane's margin measurement (R371). -/
structure LaneEye where
  eyeMv : Nat
  eyeMui : Nat
  horiz : List Nat
  vert : List Nat
  deriving DecidableEq, Repr

/-- The commands of the block: one constructor for each row of spec/opcode_table.json, in the table's order. -/
inductive Instr where
  /-- NOP (R251). Command with no parameters that only completes. -/
  | nop (p : Packet)
  /-- IDENTIFY (R251). Fills a 64-byte slot with device ID, firmware versions, straps and serial number. -/
  | identify (p : Packet)
  /-- QUEUE_CREATE (R239). Creates a context submission/completion queue pair after checking context, existence, depth and bases. -/
  | queueCreate (p : Packet)
  /-- QUEUE_DELETE (R239). Deletes a context queue unless it does not exist or still owes completions. -/
  | queueDelete (p : Packet)
  /-- RESULT_READ (R257). Copies a range of a ready result slot to DEST or the reply, or reports not ready. -/
  | resultRead (p : Packet)
  /-- RESULT_RELEASE (R258). Frees a result slot now, or when its producer finishes. -/
  | resultRelease (p : Packet)
  /-- CHART_GET (R251). Returns the chart epoch, the logical-to-physical map and every unit record in a slot. -/
  | chartGet (p : Packet)
  /-- SKEW_LOG_GET (R251). Returns the chart-skew log records, oldest first, in a slot. -/
  | skewLogGet (p : Packet)
  /-- STATUS_GET (R251). Returns DEVICE_STATE and CHART_EPOCH in VALUE. -/
  | statusGet (p : Packet)
  /-- REG_READ (R251). Reads a BAR0 register with the same effect as a BAR0 read. -/
  | regRead (p : Packet)
  /-- CONFIG_BEGIN (R363). Opens an empty staging buffer and, from READY, enters HOLD with detail 0x0E12. -/
  | configBegin (p : Packet)
  /-- CONFIG_WRITE (R364). Writes image bytes at OFFSET into the open staging buffer. -/
  | configWrite (p : Packet)
  /-- CONFIG_COMMIT (R365). Runs the configuration checks in order and either applies the image or stays in HOLD with the failing code. -/
  | configCommit (p : Packet)
  /-- CONFIG_COMMIT_APPLIED (R365). The committed image has been applied and the module enters READY within 50 ms. -/
  | configCommitApplied
  /-- CONFIG_ABORT (R365). Closes the buffer and returns to READY under the recorded configuration, or stays in HOLD. -/
  | configAbort (p : Packet)
  /-- CONFIG_READ (R367). Copies the recorded configuration image into a result slot. -/
  | configRead (p : Packet)
  /-- LIVE_SET (R369). Accepts one live section to be applied at the next boundary, or within 100 µs with no bound context. -/
  | liveSet (p : Packet)
  /-- CONTEXT_SET (R221). Loads a context with its demand, slice, ring, flags and save area. -/
  | contextSet (p : Packet)
  /-- CONTEXT_GET (R252). Returns the context's parameters, residency, parking, records and queues. -/
  | contextGet (p : Packet)
  /-- CONTEXT_CLEAR (R221). Unloads a context unless it has work, fault records or queues. -/
  | contextClear (p : Packet)
  /-- SCALE_SET_CREATE_REPLACE (R252). Creates or replaces a scale record, setting GFMT, TS and MAXK_HIST and initialising the block table when required. -/
  | scaleSetCreateReplace (p : Packet)
  /-- SCALE_SET_DELETE (R252). Marks a scale record deleted for later descriptors. -/
  | scaleSetDelete (p : Packet)
  /-- SCALE_RECORD_REMOVE (R252). Removes a deleted record once every earlier descriptor using it has completed and merged. -/
  | scaleRecordRemove (ctx tensor : Nat)
  /-- SCALE_GET (R252). Returns a 64-byte scale record in a slot. -/
  | scaleGet (p : Packet)
  /-- GROUP_SET (R146). Queues a group table edit to apply at a named step boundary. -/
  | groupSet (p : Packet)
  /-- ASTK_SET (R135). Sets the activation stack region, its segments and window. -/
  | astkSet (p : Packet)
  /-- JOB_START (R132). Binds job contexts, sets the step number, enters RUN and on a manager forwards to workers. -/
  | jobStart (p : Packet)
  /-- JOB_STOP (R133). Requests the job stop at the next step boundary. -/
  | jobStop (p : Packet)
  /-- PT_ROOT_SET (R252). Sets the DPA of a context's level 0 page table. -/
  | ptRootSet (p : Packet)
  /-- TLB_INVALIDATE (R198). Starts dropping translation cache entries overlapping a range. -/
  | tlbInvalidate (p : Packet)
  /-- TLB_INVALIDATE_COMPLETE (R198). Completes once entries are dropped and every access that used them has completed. -/
  | tlbInvalidateComplete
  /-- DMA_SUBMIT (R252). Checks all carried DMA descriptors, epoch included, and queues them or refuses the whole command. -/
  | dmaSubmit (p : Packet)
  /-- COPY (R200). DMA copy of LENGTH bytes from source to destination in 256-byte granules. -/
  | copy (ctx id : Nat) (part : DmaPart)
  /-- FILL (R200). DMA fill of the destination with the repeating PATTERN. -/
  | fill (ctx id : Nat) (part : DmaPart)
  /-- COPY_2D (R200). DMA copy of ROWS rows with source and destination pitches. -/
  | copy2d (ctx id : Nat) (part : DmaPart)
  /-- DMA_GRANULE_WRITE_ACK (R201). A granule write is acknowledged and the engine advances its lowest unwritten granule. -/
  | dmaGranuleWriteAck (ctx id index granule : Nat)
  /-- SYNC_ALLOC (R215). Allocates a range of sync cells to a context, set to 0. -/
  | syncAlloc (p : Packet)
  /-- SYNC_FREE (R252). Returns an owned sync-cell range unless a wait is pending. -/
  | syncFree (p : Packet)
  /-- SYNC_OP (R252). Host-submitted sync-cell operation on a local or remote cell. -/
  | syncOp (p : Packet)
  /-- READ (R216). Sync-cell operation returning the value. -/
  | read (r : Requester) (cell : Nat)
  /-- WRITE (R216). Sync-cell operation setting the value and returning the old one. -/
  | write (r : Requester) (cell : Nat) (v : Word)
  /-- ADD (R216). Sync-cell operation adding v modulo 2^32 and releasing satisfied waits. -/
  | add (r : Requester) (cell : Nat) (v : Word)
  /-- CAS (R216). Sync-cell compare-and-swap. -/
  | cas (r : Requester) (cell : Nat) (c v : Word)
  /-- WAIT_EQ (R216). Sync-cell wait until the value equals v, taking a wait-list entry. -/
  | waitEq (r : Requester) (cell : Nat) (v : Word)
  /-- WAIT_GE (R216). Sync-cell wait until the value is at least v in wrapping order. -/
  | waitGe (r : Requester) (cell : Nat) (v : Word)
  /-- ARRIVE (R216). Sync-cell ADD followed by WAIT_GE, used for musters. -/
  | arrive (r : Requester) (cell : Nat) (v t : Word)
  /-- WAIT_RELEASE_WAVE (R349). Delivers one of 16 staggered release waves 125 ns apart. -/
  | waitReleaseWave (wave : Nat)
  /-- WAIT_ENTRY_FREE (R218). A wait held at its requester is presented again when a wait-list entry frees. -/
  | waitEntryFree (die : Nat)
  /-- REMOTE_SYNC_OPERATION (R219). Arrival of a remote sync operation, applied to REMOTE cells or discarded and counted. -/
  | remoteSyncOperation (rank cell : Nat) (act : SyncAct)
  /-- KERNEL_DISPATCH (R262). Accepts a kernel descriptor, checking step, stack, claims and parity and applying push or pop. -/
  | kernelDispatch (p : Packet)
  /-- CONV (R110). Convolution kernel as an ordered tap sum on the arrays. -/
  | conv (ctx id : Nat)
  /-- CONV_T (R116). Transposed convolution kernel computed by output phases. -/
  | convT (ctx id : Nat)
  /-- POOL_MAX (R118). Max pooling kernel on the vector units. -/
  | poolMax (ctx id : Nat)
  /-- POOL_AVG (R119). Average pooling kernel in binary64 on the vector units. -/
  | poolAvg (ctx id : Nat)
  /-- ARGMAX_C (R120). Argmax over channels writing 16-bit indices. -/
  | argmaxC (ctx id : Nat)
  /-- MATMUL (R77). Matrix product C = A × B split into chains on the arrays. -/
  | matmul (ctx id : Nat)
  /-- GATHER_SUM (R143). Sums the present gradient slots in ascending index in binary32. -/
  | gatherSum (ctx id : Nat)
  /-- UPDATE (R147). Reference update kernel writing H, L and V for every listed parameter. -/
  | update (ctx id : Nat)
  /-- PROGRAM (R263). Runs a kernel image on the vector units and arrays. -/
  | program (ctx id : Nat) (ops : List VecOp)
  /-- DEFERRED_IDLE_ISSUE (R140). Issues a deferred weight-gradient descriptor to a cluster with no other issuable descriptor. -/
  | deferredIdleIssue (ctx id : Nat)
  /-- DESCRIPTOR_ISSUE (R27). A descriptor reaches its units and is epoch-checked as a whole. -/
  | descriptorIssue (ctx id : Nat)
  /-- CHAIN_START (R78). A chain takes X and clears its accumulators before its first tile. -/
  | chainStart (ctx id chain cluster gang : Nat)
  /-- SHADOW_LOAD_COMPLETE (R69). The last shadow row of a tile has been written. -/
  | shadowLoadComplete (cluster gang : Nat)
  /-- SWAP_TOKEN (R71). A SWAP token issues once the shadow tile is loaded and copies shadow to live registers. -/
  | swapToken (cluster gang : Nat)
  /-- CHAIN_COMPLETE (R77). A chain's last vector reaches the accumulators and its set hands over to drain. -/
  | chainComplete (cluster gang : Nat)
  /-- DRAIN_COMPLETE (R79). An accumulator set has been rounded and written, and its counts merge. -/
  | drainComplete (cluster gang : Nat)
  /-- VECTOR_GRANULE_COMPLETE (R98). A vector-unit granule completes and merges its counts. -/
  | vectorGranuleComplete (ctx id granule : Nat)
  /-- KERNEL_COMPLETE (R264). Every output is written and counted; SIGNAL is applied and the completion posted. -/
  | kernelComplete (ctx id : Nat)
  /-- HALO_STAMP (R123). Stamps an EDGE or DONE cell once the covered rows' writes are acknowledged. -/
  | haloStamp (ctx id stripe : Nat) (done : Bool)
  /-- STRIPE_SET (R121). Defines a stripe set, effective after the next boundary. -/
  | stripeSet (p : Packet)
  /-- STRIPE_GET (R121). Returns a stripe set with boundaries and latched BUSY and WAIT. -/
  | stripeGet (p : Packet)
  /-- INGEST_SCHEDULE (R166). Sets a context's shard schedule after checks. -/
  | ingestSchedule (p : Packet)
  /-- INGEST_START (R188). Starts or resumes ingest from the cursor and pending list. -/
  | ingestStart (p : Packet)
  /-- INGEST_STOP (R188). Halts decoding and assembly, discarding samples in decode. -/
  | ingestStop (p : Packet)
  /-- TOKEN_TABLE_LOAD (R173). Loads the merge table into all four media dies after checks. -/
  | tokenTableLoad (p : Packet)
  /-- MANIFEST_GET (R182). Copies a batch manifest into a result slot. -/
  | manifestGet (p : Packet)
  /-- XRS_FRAME_PARSE (R163). The frame parser reads and checks a record's frame and CBOR body. -/
  | xrsFrameParse (ctx stream engine : Nat)
  /-- SAMPLE_DECODE_COMPLETE (R172). A sample's last field finishes decoding, tokenising and augmentation. -/
  | sampleDecodeComplete (ctx stream ticks : Nat) (fields : List Decoded)
  /-- ASSEMBLY_START (R183). Begins assembling the next batch when a ring entry and ready depth allow. -/
  | assemblyStart (ctx : Nat)
  /-- SAMPLE_SLOW (R179). A sample's decode time passes the slow threshold. -/
  | sampleSlow (ctx stream ticks : Nat)
  /-- DECODE_TIMEOUT (R177). A sample's decode reaches 2 s and is dropped or abandoned. -/
  | decodeTimeout (ctx stream : Nat)
  /-- PORT_STATUS_GET (R299). Returns telemetry sets 0x10 and 0x11 with live values. -/
  | portStatusGet (p : Packet)
  /-- GROUP_JOIN (R283). A module asks the manager to join as worker or standby and receives a rank. -/
  | groupJoin (p : Packet)
  /-- GROUP_CHART_GET (R282). Returns the group chart in a result slot. -/
  | groupChartGet (p : Packet)
  /-- COLLECTIVE_SUBMIT (R291). Accepts a collective descriptor after checks. -/
  | collectiveSubmit (p : Packet)
  /-- REDUCE (R292). Reduction whose result goes to ROOT. -/
  | reduce (ctx id : Nat)
  /-- ALL_REDUCE (R292). Reduction whose result goes to every member. -/
  | allReduce (ctx id : Nat)
  /-- ALL_GATHER (R292). Copies codes and block scales from every member to all. -/
  | allGather (ctx id : Nat)
  /-- REDUCE_SCATTER (R292). Reduction whose chunk results go to their slice holders. -/
  | reduceScatter (ctx id : Nat)
  /-- BROADCAST (R292). Copies codes and block scales from ROOT to all members. -/
  | broadcast (ctx id : Nat)
  /-- COLLECTIVE_SIGNATURE (R292). An owner receives a signature and aborts the collective on any mismatch. -/
  | collectiveSignature (rank : Nat) (sig : CollSig)
  /-- COLLECTIVE_CHUNK_RECEIVE (R293). An owner receives a contribution chunk and forms tree nodes whose inputs are present. -/
  | collectiveChunkReceive (rank collId step gen chunk : Nat) (data : List CollElem)
  /-- COLLECTIVE_RESULT_RECEIVE (R294). A member receives a result chunk, rounds it and writes it under its scale record. -/
  | collectiveResultReceive (collId step gen chunk : Nat) (sums : List (BitVec 32)) (codes : List CollElem)
  /-- COLLECTIVE_CHUNK_ACK (R286). A contribution chunk is acknowledged, and HANDOVER is sent when all are. -/
  | collectiveChunkAck (collId step chunk owner : Nat)
  /-- EPOCH_ABORT (R297). Discards provisional accumulators of a GEN from a step onward and aborts their descriptors. -/
  | epochAbort (p : Packet)
  /-- DEADLINE_SET (R287). Sets the deadline mode, straggler policy and muster limit on the manager. -/
  | deadlineSet (p : Packet)
  /-- FAULT_GET (R252). Copies a context's pending fault records into a slot. -/
  | faultGet (p : Packet)
  /-- FAULT_RESOLVE (R232). Resolves a pending fault record with a named action. -/
  | faultResolve (p : Packet)
  /-- RETRY (R232). Resumes the faulted descriptor at its resume point. -/
  | retry (ctx index : Nat)
  /-- ABORT_DESCRIPTOR (R232). Completes the faulted descriptor with ST_ABORTED and records the abort. -/
  | abortDescriptor (ctx index : Nat)
  /-- ABORT_CONTEXT (R232). Aborts every accepted descriptor of the context and clears its records. -/
  | abortContext (ctx index : Nat)
  /-- UNIT_STATE_SET (R334). Orders a permitted unit state change, as a planned move for clusters. -/
  | unitStateSet (p : Packet)
  /-- PLANNED_MOVE (R305). Moves a logical identity at a chain boundary once the cluster is idle and acknowledged. -/
  | plannedMove (logical phys : Nat) (state : UnitState)
  /-- FIX_REQUEST (R313). Requests a Fix at the next boundary. -/
  | fixRequest (p : Packet)
  /-- FIX_STATUS_GET (R335). Returns the FIX_STATUS payload. -/
  | fixStatusGet (p : Packet)
  /-- FIX_EXPORT (R334). Exports the latest group-sealed Fix to host memory. -/
  | fixExport (p : Packet)
  /-- FIX_RESTORE (R332). Restores a named Fix from an own slot or host memory, starting a rollback on the manager. -/
  | fixRestore (p : Packet)
  /-- FIX_RESTORE_COMPLETE (R332). The Fix copy-back ends and its restore effects are applied. -/
  | fixRestoreComplete
  /-- ROLE_SET (R283). Sets the manager or worker role and GROUP_ID outside any group. -/
  | roleSet (p : Packet)
  /-- STANDBY_ASSUME (R330). A standby takes a lost member's rank and pulls its Fix and manifests. -/
  | standbyAssume (p : Packet)
  /-- STANDBY_PULL_COMPLETE (R330). The standby's pull from the consort ends and its restore begins. -/
  | standbyPullComplete
  /-- FEED_OVERRIDE (R326). Sets whether shared-feed pairs are formed at the next pairing. -/
  | feedOverride (p : Packet)
  /-- STEP_MANIFEST_GET (R321). Returns a step manifest from the own or partner's log. -/
  | stepManifestGet (p : Packet)
  /-- TELEMETRY_GET (R267). Returns a telemetry set of latched values. -/
  | telemetryGet (p : Packet)
  /-- STEP_REPORT_GET (R253). Returns the step report of the latest closed step. -/
  | stepReportGet (p : Packet)
  /-- POWER_CAP_SET (R348). Sets CAP_W from the next power sample. -/
  | powerCapSet (p : Packet)
  /-- FREQ_SET (R339). Sets the target compute frequency. -/
  | freqSet (p : Packet)
  /-- ANCHOR_ENTER (R354). Begins entry to the ANCHORED sleep state. -/
  | anchorEnter (p : Packet)
  /-- ANCHOR_ENTER_COMPLETE (R355). Self-refresh and PLL stop done; completion posted and state becomes ANCHORED. -/
  | anchorEnterComplete
  /-- ANCHOR_EXIT (R356). Begins leaving ANCHORED, or has no effect in other states. -/
  | anchorExit (p : Packet)
  /-- ANCHOR_EXIT_COMPLETE (R356). PLLs, HBM and supervisors resumed; completion posted and state becomes READY. -/
  | anchorExitComplete
  /-- BIST_RUN (R372). Starts the selected built-in self-test classes. -/
  | bistRun (p : Packet)
  /-- BIST_COMPLETE (R372). BIST ends, failing units are marked and the module enters HOLD with 0x0E11. -/
  | bistComplete (tested : Nat) (fails : List BistFail)
  /-- CLUSTER_TEST (R370). Starts or stops testing clusters one per die in order. -/
  | clusterTest (p : Packet)
  /-- CLUSTER_TEST_RESULT (R370). A 20 ms cluster test ends and the cluster becomes SPARE or QUARANTINED. -/
  | clusterTestResult (phys : Nat) (pass : Bool)
  /-- MARGIN_SCAN (R371). Starts an eye margin scan of the named ports. -/
  | marginScan (p : Packet)
  /-- MARGIN_SCAN_COMPLETE (R371). The scan ends and its 3,072-byte result slot becomes ready. -/
  | marginScanComplete (eyes : List LaneEye)
  /-- HBM_RECAL (R371). Requests recalibration of the named stacks. -/
  | hbmRecal (p : Packet)
  /-- HBM_RECAL_STACK_COMPLETE (R371). A stack's 200 µs recalibration ends, and the next stack of its quadrant starts. -/
  | hbmRecalStackComplete (stack : Nat)
  /-- SQ_TAIL (R240). Doorbell write giving a queue its new tail, checked for queue errors. -/
  | sqTail (q : Nat) (v : Word)
  /-- CQ_HEAD (R242). Doorbell write freeing completion entries, checked for queue errors. -/
  | cqHead (q : Nat) (v : Word)
  /-- SQ_FETCH (R240). The Binnacle fetches one command from a queue in rotation when the CQ has room. -/
  | sqFetch (q : Nat)
  /-- COMPLETION_POST (R242). Posts a ready completion when its CQ has a free entry, then sends MSI-X. -/
  | completionPost (q : Nat)
  /-- PCIE_COMPLETION_TIMEOUT (R196). A PCIe request gets a completion error or times out. -/
  | pcieCompletionTimeout (r : PcieRequest)
  /-- EVENT_CAUSE (R265). W1C write clearing event bits. -/
  | eventCause (v : Word)
  /-- EVENT_MASK (R265). Write of the event mask, sending MSI-X when an already-set bit is unmasked. -/
  | eventMask (v : Word)
  /-- QUEUE_ERR (R241). Read-clear of the latched queue error. -/
  | queueErr
  /-- ADMIN_ENABLE (R239). ADMIN_CTRL.ENABLE set to 1 starts the admin queue after checking its registers. -/
  | adminEnable (v : Word)
  /-- ADMIN_DISABLE (R239). ADMIN_CTRL.ENABLE set to 0 stops fetching; READY falls when in-flight commands complete. -/
  | adminDisable (v : Word)
  /-- FP_FLAGS (R266). W1C write clearing floating-point flags, applied to the save image when saved out. -/
  | fpFlags (ctx : Nat) (v : Word)
  /-- REGISTER_WRITE (R7). Write to a register that has no row of its own, under its access code. -/
  | registerWrite (off : Nat) (v : Word)
  /-- PERST_N (R358). Resets the host port state, queues and queue registers only. -/
  | perstN (asserted : Bool)
  /-- CXL_MEM_ACCESS (R220). Host CXL.mem access through the window, or poisoned or ignored outside it. -/
  | cxlMemAccess (write : Bool) (off len : Nat) (data : List Byte)
  /-- FABRIC_PACKET (R268). An Ilzan packet arrives over the fabric and is checked against group membership and epoch. -/
  | fabricPacket (sender : Nat) (bytes : List Byte)
  /-- MCTP_ILZAN_REQUEST (R269). An Ilzan packet arrives as an MCTP vendor-defined message. -/
  | mctpIlzanRequest (endpoint : Nat) (bytes : List Byte)
  /-- SET_ENDPOINT_ID (R382). MCTP control command assigning the endpoint ID. -/
  | setEndpointId (eid : Nat)
  /-- GET_ENDPOINT_ID (R382). MCTP control command returning the endpoint ID. -/
  | getEndpointId
  /-- GET_MCTP_VERSION_SUPPORT (R382). MCTP control command returning supported versions. -/
  | getMctpVersionSupport (type : Nat)
  /-- GET_MESSAGE_TYPE_SUPPORT (R382). MCTP control command returning supported message types. -/
  | getMessageTypeSupport
  /-- GET_VENDOR_DEFINED_MESSAGE_SUPPORT (R382). MCTP control command returning vendor message support. -/
  | getVendorDefinedMessageSupport
  /-- UNSUPPORTED_MCTP_CONTROL_COMMAND (R382). Any other MCTP control command, refused with ERROR_UNSUPPORTED_CMD. -/
  | unsupportedMctpControlCommand (cmd : Nat)
  /-- PLDM_DISCOVERY (R383). PLDM Base discovery command. -/
  | pldmDiscovery (cmd : Nat)
  /-- GET_SENSOR_READING (R383). Returns a numeric PLDM sensor reading. -/
  | getSensorReading (sensor : Nat)
  /-- GET_STATE_SENSOR_READINGS (R383). Returns PLDM state sensor readings. -/
  | getStateSensorReadings (sensor : Nat)
  /-- SET_EVENT_RECEIVER (R383). Sets the receiver of PlatformEventMessage events. -/
  | setEventReceiver (enable : Bool) (eid : Nat)
  /-- FRU_DATA_READ (R383). Returns the PLDM FRU data. -/
  | fruDataRead
  /-- PLDM_FIRMWARE_UPDATE (R384). Transfers and verifies a firmware image into the image not running. -/
  | pldmFirmwareUpdate (first : Bool) (bytes : List Byte) (checksOk last : Bool)
  /-- ACTIVATE_FIRMWARE (R384). Names activation of the new image at the next power-up. -/
  | activateFirmware
  /-- PWR_EN_RISE (R375). PWR_EN high with J1 in range for 10 ms starts the converters and the boot. -/
  | pwrEnRise (j1mv : Int)
  /-- PWR_EN_FALL (R375). PWR_EN falls while running, treated as a loss of input power. -/
  | pwrEnFall
  /-- AUX_3V3_RISE (R379). AUX_3V3 rises, starting CK_AON, the heartbeat and the first strap latch. -/
  | aux3v3Rise (slot feed : List StrapRead)
  /-- AUX_3V3_LOSS (R249). AUX_3V3 is lost and the module goes OFF. -/
  | aux3v3Loss
  /-- INPUT_POWER_LOSS (R374). J1 below 38 V for 1 ms or above 66 V: hold-up actions and entry to FAILED. -/
  | inputPowerLoss (j1mv : Int)
  /-- FIRMWARE_IMAGE_SELECT (R359). The boot ROM checks images and chooses the active Binnacle. -/
  | firmwareImageSelect (baOk : Bool) (imgA imgB : ImageFound)
  /-- BOOT_COMPLETE (R361). Boot ends in HOLD with epoch 1, or in FAILED. -/
  | bootComplete (quickFail : List Nat) (trainFail : Bool) (fabricFail : List Nat) (ports : List (PeerFound × List LaneFound))
  /-- POWER_SAMPLE (R345). Every 2 µs the input power is sampled, energy accumulated and the bubble count set. -/
  | powerSample (milliwatts : Nat) (j1mv j1ma : Int)
  /-- THERMAL_READING (R352). Every 100 µs the sensors are read and thermal reef and throttle requests updated. -/
  | thermalReading (temps : List TempRead) (inlet : Int) (flow : Nat)
  /-- THERMAL_REEF_DECAY (R352). Every 1 ms TB falls by 4 once sensors are below T_w − 2 °C. -/
  | thermalReefDecay
  /-- COOLANT_FLOW_LOW (R352). Flow below the minimum for 1 s counts as the inlet at limit or shutdown temperature. -/
  | coolantFlowLow (flow : Nat)
  /-- LEAK_LOOP_SAMPLE (R380). Every 10 ms the leak loop resistance is measured and classed. -/
  | leakLoopSample (ohms : Nat)
  /-- LEAK_TIMEOUT (R380). A leak held for 100 ms causes the protective shutdown. -/
  | leakTimeout
  /-- STRAP_READ (R379). Every 1 s the straps are read back and strap faults flagged. -/
  | strapRead (slot feed : List StrapRead)
  /-- HEARTBEAT (R265). The HEARTBEAT register adds 1 every 1 ms of CK_AON. -/
  | heartbeat
  /-- AVS_ADJUST (R342). Every 10 µs a compute die's rail moves by 2.5 mV. -/
  | avsAdjust (die : Nat) (up : Bool)
  /-- DROOP_STRETCH (R343). A droop begins lengthening clock periods by one quarter. -/
  | droopStretch (die : Nat)
  /-- DROOP_STRETCH_END (R343). Stretching stops on recovery or after 16 periods. -/
  | droopStretchEnd (die periods : Nat)
  /-- CHART_CHANGE_DECISION (R25). The Binnacle decides a chart change, allocates an epoch and fences units. -/
  | chartChangeDecision (changes : List (Nat × UnitState)) (moves : List (Nat × Nat))
  /-- FENCE_ACK (R25). All memory and fabric dies have acknowledged the fence list additions. -/
  | fenceAck
  /-- SUPERVISOR_APPLY_ACK (R25). Affected supervisors have applied the new states and mapping. -/
  | supervisorApplyAck
  /-- BINNACLE_MIRROR_ACK (R25). The standby Binnacle has mirrored the chart change. -/
  | binnacleMirrorAck
  /-- FENCED_OUTPUT_DISCARD (R29). A memory or fabric die discards output from a fenced unit and logs a skew record. -/
  | fencedOutputDiscard (die unit : Nat) (epoch : Word)
  /-- SUPERVISOR_STATE_MISMATCH (R32). A supervisor reports a state that differs from the chart and the unit is reconciled. -/
  | supervisorStateMismatch (unit : Nat) (reported : UnitState) (epoch : Word)
  /-- STALE_PROGRESS_REPORT (R31). A unit reports progress under a former identity; progress ignored and unit reconciled. -/
  | staleProgressReport (unit : Nat) (epoch : Word)
  /-- CLUSTER_FAULT (R304). A cluster self-check fault quarantines the cluster and moves its identity. -/
  | clusterFault (phys : Nat) (array : Option Nat) (permanent : Bool)
  /-- CLUSTER_WATCHDOG (R303). A cluster makes no progress for 10 µs and is handled as a cluster fault. -/
  | clusterWatchdog (cluster : Nat)
  /-- SUPERVISOR_HEARTBEAT_MISS (R306). Two missed heartbeats restart a supervisor, or fail its die on a second fault. -/
  | supervisorHeartbeatMiss (sup : Nat)
  /-- SUPERVISOR_RESTART_END (R306). The restart ends, work is replayed and a restating chart change published. -/
  | supervisorRestartEnd (sup : Nat)
  /-- BINNACLE_TAKEOVER (R307). The standby Binnacle takes over after four missed mirror heartbeats or a reported fault. -/
  | binnacleTakeover
  /-- BINNACLE_TAKEOVER_END (R307). Takeover ends; boundary actions, publication and queues resume. -/
  | binnacleTakeoverEnd
  /-- MEDIA_ENGINE_FAULT (R302). A media engine fails checks or stalls 10 ms; its queue moves. -/
  | mediaEngineFault (unit : Nat)
  /-- ADDRESS_TRANSLATION (R194). An access is translated through the caches or a page walk. -/
  | addressTranslation (ctx va unit : Nat) (access : Access)
  /-- MEMORY_READ (R206). A stack block is read, corrected, reconstructed or found poisoned. -/
  | memoryRead (stack off : Nat) (found : ReadFound)
  /-- ARMOURED_WRITE (R208). The stripe owner applies a write to an armoured stripe with parity. -/
  | armouredWrite (dpa : Nat) (data : List Byte)
  /-- ARMOURED_WRITE_ACK (R208). Both stacks acknowledge and the owner acknowledges the writer. -/
  | armouredWriteAck (quadrant stripe : Nat)
  /-- PATROL_SCRUB (R204). Background scrubbing of a stack block. -/
  | patrolScrub (stack off : Nat) (finding : EccFinding)
  /-- STACK_LOSS (R210). A stack is lost; armour degrades, requests reissue, or LOST and MODULE_LOSS. -/
  | stackLoss (stack : Nat)
  /-- REBUILD_STRIPE (R212). The owner rebuilds one stripe into the reserve and advances the cursor. -/
  | rebuildStripe (quadrant : Nat) (error : Option Nat)
  /-- SLICE_EXPIRY (R223). A resident context's slice expires and the scheduler reconsiders residency. -/
  | sliceExpiry (ctx : Nat)
  /-- CONTEXT_SAVE_COMPLETE (R225). The save area is written and resources go to the next context. -/
  | contextSaveComplete (ctx : Nat)
  /-- CONTEXT_RESTORE (R227). Writes saved state back and releases the context's descriptors. -/
  | contextRestore (ctx : Nat)
  /-- HANDOVER (R286). The manager receives a member's HANDOVER and sends DECISION when all are in. -/
  | handover (rank step : Nat)
  /-- DEADLINE_EXPIRY (R287). D(n) passes; the straggler record is written and DECISION sent. -/
  | deadlineExpiry (step : Nat)
  /-- DECISION (R288). A member receives DECISION(n), making its cut if DEFERRED. -/
  | decision (step : Nat) (entries : List LateEntry)
  /-- MANIFEST_FINALISE (R320). Finalises the step manifest and sends it to the consort. -/
  | manifestFinalise
  /-- STEP_MANIFEST_RECEIVE (R320). The consort stores a partner's finalised manifest and acknowledges it. -/
  | stepManifestReceive (bytes : List Byte)
  /-- STEP_MANIFEST_ACK (R320). The consort's acknowledgement of the step manifest arrives. -/
  | stepManifestAck (step : Nat)
  /-- CLOSE (R158). A member observes the muster's completion and runs the six boundary actions. -/
  | close (m : CloseMsg)
  /-- WATCH_SLOT_WRITE (R102). Writes latched watch slots and WATCH_STEP within 100 µs of the boundary. -/
  | watchSlotWrite (ctx : Nat)
  /-- RETUNE_COMPLETE (R341). All 16 dies resume issue together after relock. -/
  | retuneComplete
  /-- DESCRIPTOR_RELEASE_WAVE (R349). Releases held descriptors of logical clusters L mod 16 in one wave. -/
  | descriptorReleaseWave (wave : Nat)
  /-- MUSTER_LIMIT_EXPIRY (R290). A member's ARRIVE is missing MUSTER_LIMIT_MS after the deadline and it is declared failed. -/
  | musterLimitExpiry (rank : Nat)
  /-- GROUP_HEARTBEAT_SEND (R285). Every 100 µs a GROUP heartbeat is sent with sea state and flags. -/
  | groupHeartbeatSend
  /-- GROUP_HEARTBEAT_RECEIVE (R329). A GROUP heartbeat arrives and restarts its loss timer. -/
  | groupHeartbeatReceive (rank sea : Nat) (reefHigh thermal : Bool)
  /-- HEARTBEAT_TIMEOUT (R329). No heartbeat for 1 ms; probes are sent on two ports. -/
  | heartbeatTimeout (rank : Nat)
  /-- PROBE_TIMEOUT (R329). Probes unanswered for 200 µs; the member or manager is declared lost. -/
  | probeTimeout (rank : Nat)
  /-- FAILED_NOTICE (R329). The manager receives a member's FAILED notice and declares it lost. -/
  | failedNotice (rank : Nat)
  /-- GROUP_CHART_CHANGE (R282). The manager mirrors a group chart change to the deputy and publishes it and route tables. -/
  | groupChartChange (recs : List GroupRec) (routes : List (Nat × List Nat))
  /-- PORT_TRAINING (R273). A port starts training at power-up, after a mode commit or on its 1 s retry. -/
  | portTraining (port : Nat)
  /-- PORT_TRAINING_COMPLETE (R274). Training ends with an outcome and miswiring corrections. -/
  | portTrainingComplete (port : Nat) (peer : PeerFound) (lanes : List LaneFound)
  /-- LANE_FAILURE (R276). A native lane fails; the port narrows, replays and quarantines the lane. -/
  | laneFailure (port lane : Nat)
  /-- PORT_DOWN (R277). A port goes down; traffic is rerouted and unacknowledged messages resent. -/
  | portDown (port : Nat)
  /-- FLIT_RECEIVE (R271). A native flit arrives; it is delivered, forwarded in transit or refused for replay. -/
  | flitReceive (port : Nat) (flit : FlitIn)
  /-- FLIT_REPLAY (R271). The transmitter replays from a refused flit out of its replay buffer. -/
  | flitReplay (port seq : Nat)
  /-- ROCE_PACKET_RECEIVE (R272). A RoCEv2 packet arrives; unsupported requests are NAKed and ECN-CE triggers a CNP. -/
  | rocePacketReceive (port qp : Nat) (op : RoceOp) (ecnCe : Bool) (timeUs : Nat)
  /-- CNP_RECEIVE (R272). A congestion notification halves the queue pair's send rate. -/
  | cnpReceive (port qp : Nat)
  /-- SEND_RATE_RISE (R272). After 50 µs without notification the send rate rises by 1/16 of the port rate. -/
  | sendRateRise (port qp : Nat)
  /-- FIX_QUIESCE_COMPLETE (R388). In-flight work is done; region pages are translated and copying begins or the Fix aborts. -/
  | fixQuiesceComplete
  /-- FIX_COPY_COMPLETE (R315). Copying of MSTATE and regions ends and the header is written. -/
  | fixCopyComplete
  /-- FIX_HEADER_ACK (R315). The COMPLETE header is acknowledged; RUN resumes and the stream starts. -/
  | fixHeaderAck (timeUs : Nat)
  /-- FIX_STREAM_CHUNK_RECEIVE (R317). The consort writes and checks a 64 MiB Fix chunk and acknowledges it. -/
  | fixStreamChunkReceive (chunk : Nat) (bytes : List Byte) (crc : Word)
  /-- FIX_CHUNK_ACK (R317). The owner receives a chunk acknowledgement or resends a failed chunk. -/
  | fixChunkAck (chunk : Nat) (ok : Bool)
  /-- SEAL_ACK (R317). The owner receives SEAL_ACK, sets SEALED and reports to the manager. -/
  | sealAck (timeMs : Nat)
  /-- FIX_SEAL_REPORT (R319). The manager records a member's seal and marks the Fix group-sealed when all are. -/
  | fixSealReport (rank step : Nat)
  /-- ILZAN_REPLY_RECEIVE (R268). A module receives the completion reply to an Ilzan packet it sent over the fabric, for example GROUP_JOIN, JOB_START or FIX_RESTORE. -/
  | ilzanReplyReceive (rank opcode status : Nat) (value : BitVec 64)
  /-- GROUP_CHART_PUBLICATION (R282). A member receives a published group chart change with its route tables and applies it, for instance removing a FAILED requester's waits or abandoning a stream to a FAILED consort. -/
  | groupChartPublication (epoch : Word) (gen manager deputy : Nat) (recs : List GroupRec) (routes : List (Nat × List Nat))
  /-- REMOTE_SYNC_REPLY (R298). The reply to a remote sync-cell operation returns to the requesting module with the value of R216 and completes its waiting operation. -/
  | remoteSyncReply (seq : Nat) (value : Word)
  /-- PROBE_RECEIVE (R285). A module receives a loss probe from the manager or deputy on one of its ports and answers it. -/
  | probeReceive (rank port : Nat)
  /-- LANE_DOWN_RECEIVE (R276). The peer end of a native port receives LANE_DOWN on its surviving lanes, stops using the lane and restripes. -/
  | laneDownReceive (port lane : Nat)
  /-- HOST_LINK_DL_ACTIVE (R199). The PCIe data link layer of the host port reports DL_Active after training, or loses it, changing whether host and CXL targets are reachable. -/
  | hostLinkDlActive (active : Bool)
  /-- FIX_EXPORT_COMPLETE (R334). A FIX_EXPORT finishes copying its slot to host memory, makes its result slot ready and stops holding the Fix trigger. -/
  | fixExportComplete
  /-- ROLLING_TEST (R305). The module's own rolling test takes a cluster, lane, array or media engine to TESTING or moves an identity by a planned move. -/
  | rollingTest (unit : Nat) (carrier : Option Nat)
  /-- FIX_PULL_REQUEST (R330). The consort receives a standby's pull for the sealed Fix at f and manifests f to t − 1 and streams them to it. -/
  | fixPullRequest (rank step upTo : Nat)
  deriving DecidableEq, Repr

end Sys2Proof
end

