-- ==== Sys2Proof/Config.lean ====
section
/-! DEFINITION. What an implementation fixes and the spec leaves open: free values, constants without a body, so that no proof
can see what they are. -/
namespace Sys2Proof

/-- A free value of 64 bits, drawn with the state's counter `free`: a value the spec leaves open (log 1). -/
opaque Config.freeValue : Nat → BitVec 64

/-- The integer that a conversion gives which IEEE 754 calls invalid, by the conversion and the value converted: R50 does not state it
(log 10). -/
opaque Config.invalidInt : List Nat → BitVec 64

/-- The bytes of a PDR repository, FRU table or discovery answer that the spec names without giving (log 9), by command and byte. -/
opaque Config.freeByte : Nat → Nat → BitVec 8

/-- A field of MSTATE (R310) as its bytes hold it, named by numbers: the spec states no layout of MSTATE (log 58). -/
opaque Config.mstate : List (BitVec 8) → List Nat → Nat

/-- The 8-bit level of a PNG grey sample of fewer than 8 bits, by depth and sample: R171 states no rule (log 32). -/
opaque Config.greyLevel : Nat → Nat → BitVec 8

/-- The set of a stack cache that a line belongs to, by the line's key: R192 gives 16 ways and no rule of placing (log 156). -/
opaque Config.cacheSet : Nat → Nat

/-- The bytes of a message to another module that native flits carry, by the number of messages sent before it: R278 states what a message
carries and no layout (log 160). -/
opaque Config.messageBytes : Nat → List (BitVec 8)

/-- Whether the peer of a port has a rank, by port and rank: a flit sent to a peer that is not its DEST has TRANSIT set (R279; log 160). -/
opaque Config.peerIs : Nat → Nat → Bool

end Sys2Proof
end

