-- ==== Sys2Proof/Machine/State.lean ====
section
/-! DEFINITION. The state of the module, as plain data. Default values of the fields are the values right after reset, which
is the start of the boot (DEVICE_STATE.STATE resets to BOOT, R265) with AUX_3V3 and J1 present. Where the spec gives no
reset value, the log entry named in the field's docstring names the one taken. -/
namespace Sys2Proof.Machine

/-- Why the machine stops with a fault. The spec gives every access and every error of this module an effect (a fault record, poison, a
completion status, a queue error, an entry of a state), so no meaning stops with a fault and the type has no constructor. -/
inductive Fault where
  deriving DecidableEq, Repr

/-- Why a command has no meaning here. -/
inductive Refusal where
  /-- Raised by exec's arm of a command the model does not give a meaning. Safe: nothing is claimed of it. -/
  | notModelled (mnemonic : String)
  /-- Raised by the row of an internal event or message that the state does not allow (a chain that no gang runs, an
  acknowledgement of nothing): the hardware cannot present it there and the spec gives it no effect. Safe. -/
  | notEnabled (why : String)
  deriving DecidableEq, Repr

/-- A sparse table by number, in ascending order of its keys, with no key twice. -/
abbrev Table (α : Type) := List (Nat × α)

/-- A list of memory bytes in the canonical form of `Memory.wf`. -/
abbrev Mem := List Host.Cell

/-! ### Host side, registers, device -/

/-- What lies outside the module and the model needs: host memory and CXL-attached memory by bus address, the host link (R199,
R358), the value the latest host read returned, the CXL read data (`none` is poison, R220), MSI-X entries sent, oldest first, and of the
MSI-X table the entries masked and those pending under their mask (R243; log 145). -/
structure HostSide where
  mem : Mem := []
  cxlMem : Mem := []
  linkUp : Bool := false
  perst : Bool := false
  readback : Word := 0
  cxlData : Option (List Byte) := none
  msix : List Nat := []
  msixMasked : List Nat := []
  msixPending : List Nat := []
  deriving DecidableEq, Repr

/-- Device registers of BAR0 (R265). -/
structure Regs where
  eventCause : Word := 0
  eventMask : Word := 0xFFFFFFFF
  queueErrCode : Nat := 0
  queueErrQueue : Nat := 0
  adminSqBase : BitVec 64 := 0
  adminCqBase : BitVec 64 := 0
  adminEnable : Bool := false
  adminReady : Bool := false
  adminIrq : Bool := false
  adminDepthM1 : Nat := 0xFF
  heartbeat : Word := 0
  deriving DecidableEq, Repr

/-- DEVICE_STATE.STATE (R249, R265). -/
inductive DevState where
  | off | boot | hold | ready | run | fixing | anchored | standby | failed
  deriving DecidableEq, Repr

/-- Device-wide state: STATE and hold detail (R265, R362), behaviour level in force, the active Binnacle (false BA, true BB), the
step number (R132), JOB_STOP asked for (R133), stop carried by CLOSE; the commands that an entry to ANCHORED and an exit from it in progress owe (R355, R356); the
commands accepted in FIXING that start when the Fix stop ends, with their opcodes, in the order of acceptance (R248). -/
structure Device where
  st : DevState := .boot
  detail : Nat := 0
  level : Nat := 0
  bbActive : Bool := false
  standbyBinnacle : Bool := true
  takeover : Bool := false
  step : Nat := 0
  jobRunning : Bool := false
  stopAsked : Bool := false
  anchoring : Option Packet := none
  leaving : List Packet := []
  starts : List (Nat × Packet) := []
  deriving DecidableEq, Repr

/-! ### Chart -/

/-- A unit's record (R20, R24). -/
structure UnitRec where
  st : UnitState
  change : Word
  deriving DecidableEq, Repr

/-- A chart change: state changes, moves of logical identities (logical, physical), units restated in the state they hold when it is
published (R21, R32), and whether its moves take identities off a faulted cluster (R304). -/
structure Change where
  units : List (Nat × UnitState) := []
  moves : List (Nat × Nat) := []
  restate : List Nat := []
  spared : Bool := false
  deriving DecidableEq, Repr

/-- A chart change in publication (R25): its epoch and the steps of the table completed so far. -/
structure Publication where
  change : Change
  epoch : Word
  fenced : Bool := false
  applied : Bool := false
  mirrored : Bool := false
  deriving DecidableEq, Repr

/-- A chart-skew record (R33). -/
structure SkewRec where
  unit : Nat
  cause : Nat
  reporter : Nat
  carried : Word
  chart : Word
  stepLow : Word
  deriving DecidableEq, Repr

/-- The chart (R20 to R33). `units` and `map` hold only what differs from `UnitRec` and mapping at reset (R14). Before the boot
builds the chart the epoch is 0 (log 2). `faulted` are units that faulted in this power-up (R21, R306); `planned` the identities to move by a planned move (R305): logical
cluster, the carrier it must go to (0xFFFF: chosen under R304), the state its old carrier goes to; `restarting` the supervisors that
restart (R306); `discards` the pairs of
receiving die, unit and epoch already recorded for cause 0x2 (R33); `diagnosis` the array group unit ID of a physical cluster's latest
fault that named one (R85). -/
structure Chart where
  epoch : Word := 0
  units : Table UnitRec := []
  map : Table Nat := []
  fence : List Nat := []
  pub : Option Publication := none
  waiting : List Change := []
  skews : List SkewRec := []
  skewCount : Nat := 0
  discards : List (Nat × Nat × Word) := []
  faulted : List Nat := []
  planned : List (Nat × Nat × UnitState) := []
  restarting : List Nat := []
  diagnosis : Table Nat := []
  deriving DecidableEq, Repr

/-! ### Queues and result slots -/

/-- A completion to post (R246). -/
structure Completion where
  hostTag : Word
  opcode : Nat
  status : Nat
  slot : Nat := 0xFFFF
  detail : Nat := 0
  second : Bool := false
  value : BitVec 64 := 0
  deriving DecidableEq, Repr

/-- A queue pair (R238 to R242). `head` and `sqTail` are SQ indices, `cqHead` the host's CQ index, `cqTail` the next entry to post,
`cqUsed` the entries posted and not freed, `ready` the completions to post, `held` the commands fetched and not yet accepted, each
with its number in the order of fetching, its opcode and packet (a FENCE, R259; a parked context, R230; a Fix stop, R248), `stopping` an admin queue whose ENABLE went to 0 (R239). -/
structure Queue where
  depth : Nat
  sqBase : Nat
  cqBase : Nat
  irq : Bool
  head : Nat := 0
  sqTail : Nat := 0
  cqHead : Nat := 0
  cqTail : Nat := 0
  phase : Bool := true
  stopped : Bool := false
  owing : Nat := 0
  cqUsed : Nat := 0
  stopping : Bool := false
  ready : List Completion := []
  held : List (Nat × Nat × Packet) := []
  deriving DecidableEq, Repr

/-- The queue pairs that exist, and the queue of the latest turn (R240). -/
structure Queues where
  q : Table Queue := []
  lastTurn : Nat := 64
  deriving DecidableEq, Repr

/-- The three sources that own slots (R255): all host queues are one. -/
inductive Owner where
  | host | fabric | mctp
  deriving DecidableEq, Repr

/-- A result slot (R255 to R258). -/
structure Slot where
  gen : Nat
  owner : Owner
  units : Nat
  ready : Bool := false
  status : Nat := 0
  detail : Nat := 0
  payload : List Byte := []
  reads : Nat := 0
  autoRelease : Bool := false
  releaseLate : Bool := false
  deriving DecidableEq, Repr

/-- The result pool (R255): allocated slots, and the latest generation of each slot number (reset 0: log 3). -/
structure Slots where
  s : Table Slot := []
  gens : Table Nat := []
  deriving DecidableEq, Repr

/-! ### Configuration -/

/-- The staging buffer (R363, R364). -/
structure Staging where
  length : Nat
  bytes : Table Byte := []
  deriving DecidableEq, Repr

/-- An accepted live section (R369): its number in the order of acceptance, its type and body. -/
structure LiveSection where
  seq : Nat
  type : Nat
  body : List Byte
  deriving DecidableEq, Repr

/-- The recorded image's sections in force (R362 to R369): section type and body; the staging buffer; the recorded image; the live
sections accepted and not applied; the commit whose application is under way (slot, packet, unused); `mustCommit` after a full BIST (R372). -/
structure Conf where
  staging : Option Staging := none
  recorded : Option (List Byte) := none
  sections : Table (List Byte) := []
  live : List LiveSection := []
  applying : Option (Nat × Packet × Nat) := none
  mustCommit : Bool := false
  deriving DecidableEq, Repr

/-! ### Memory -/

/-- Armour of a quadrant (R209, R214); the cursor counts stripes. Before the first commit A = 0, so the state is NONE. -/
structure Armour where
  st : Nat := 0
  lostJ : Nat := 0xF
  secondJ : Nat := 0xF
  cursor : Nat := 0
  deriving DecidableEq, Repr

/-- The four counters of a stack (R214), live and latched. -/
structure MemCounts where
  ce : Nat := 0
  ue : Nat := 0
  recon : Nat := 0
  poison : Nat := 0
  deriving DecidableEq, Repr

/-- An entry of a translation cache (R197): the unit that holds it (a cluster or a memory die), context, first VA, page size, the leaf
entry, its level and its DPA (R199). -/
structure TlbEntry where
  unit : Nat
  ctx : Nat
  va : Nat
  size : Nat
  entry : Nat
  level : Nat
  dpa : Nat
  deriving DecidableEq, Repr

/-- A TLB_INVALIDATE under way (R198). -/
structure Invalidate where
  ctx : Nat
  va : Nat
  length : Nat
  packet : Packet
  deriving DecidableEq, Repr

/-- A line of a stack cache (R192): the stack key of its 128 bytes, divided by 128, and whether it is dirty. A line of the armoured view goes
by the place of its data granule. -/
structure Line where
  key : Nat
  dirty : Bool
  deriving DecidableEq, Repr

/-- An armoured write in its owner's stripe buffer (R208): the owner, the stripe, the new data and parity by stack key, the unit that wrote. -/
structure StripeWrite where
  owner : Nat
  q : Nat
  stripe : Nat
  bytes : List (Nat × Byte)
  unit : Option Nat := none
  deriving DecidableEq, Repr

/-- HBM and its protection. `hbm` is what an access finds, by stack × 48 GiB + stack offset, whether in a stack or in its cache (R192);
unlisted bytes read 0 (log 4). `poison` holds the keys / 64 of poisoned blocks (R205); `lost` the stacks lost; `plainLoss` the dirty plain
lines lost (R210); `cache` the lines of the eight stack caches; `unacked` the armoured writes in the stripe buffers, oldest first (R208);
`walker` the unit whose translation cache serves the accesses of the row under way (R197). -/
structure MemSys where
  hbm : Mem := []
  poison : List Nat := []
  armour : List Armour := [{}, {}, {}, {}]
  lost : List Nat := []
  plainLoss : Nat := 0
  cache : List Line := []
  unacked : List StripeWrite := []
  counts : Table MemCounts := []
  latched : Table MemCounts := []
  tlb : List TlbEntry := []
  walker : Option Nat := none
  invalidates : List Invalidate := []
  recalQueue : List Nat := []
  deriving DecidableEq, Repr

/-! ### Sync cells -/

/-- A range given by SYNC_ALLOC (R215). -/
structure CellRange where
  first : Nat
  count : Nat
  ctx : Nat
  remote : Bool
  deriving DecidableEq, Repr

/-- A wait in a wait list (R217, R218): WAIT_EQ (`ge` false) or WAIT_GE of `v`; `shared` when it took a shared entry. -/
structure Wait where
  cell : Nat
  ge : Bool
  v : Word
  who : Requester
  shared : Bool := false
  deriving DecidableEq, Repr

/-- A released wait that a wave still has to deliver (R349), with the value R217 fixes and the number of the operation that released it. -/
structure Release where
  wave : Nat
  who : Requester
  value : Word
  op : Nat := 0
  deriving DecidableEq, Repr

/-- Sync cells (R215 to R218, R298): values (unlisted read 0), ranges, wait lists, waits held at their requesters for want of an entry, releases under
way and the number of operations that released one, replies delivered (newest first), operations sent to other modules (number, rank, cell, operation, requester) and their count. -/
structure SyncSys where
  cells : Table Word := []
  ranges : List CellRange := []
  waits : List Wait := []
  held : List Wait := []
  releases : List Release := []
  opSeq : Nat := 0
  replies : List (Requester × Word) := []
  remoteOut : List (Nat × Nat × Nat × SyncAct × Requester) := []
  remoteSeq : Nat := 0
  remoteRefused : Nat := 0
  hostWaits : List (Nat × Packet) := []
  deriving DecidableEq, Repr

/-! ### Contexts -/

/-- Census and histogram counts of one tensor in the current step (R98, R100), merged counts only. `ops` holds work number, host tag,
saturations and flushes of the first writing descriptors. -/
structure WatchLive where
  elements : Nat := 0
  zeros : Nat := 0
  saturated : Nat := 0
  nonfinite : Nat := 0
  flushed : Nat := 0
  maxk : Option Int := none
  bins : Table Nat := []
  ops : List (Nat × Word × Nat × Nat) := []
  overrun : Bool := false
  ovfBlocks : List Nat := []
  deriving DecidableEq, Repr

/-- A scale record (R89). `hist` is MAXK_HIST, latest first, `none` empty; `shadow` the counts latched at the last boundary with the
TS in force during that step (R102), `latched` once there is one, `slotDue` when its slot is to be written; `deletedAt` the next work number when SCALE_SET deleted it (R252). -/
structure ScaleRec where
  id : Nat
  ts : Int
  initScale : Int
  fmt : Nat
  mode : Nat
  delay : Nat
  margin : Nat
  decay : Nat
  gfmt : Nat
  gradHist : Nat
  hist : List (Option Int) := [none, none, none, none]
  rows : Nat
  cols : Nat
  blocksVa : Nat
  ovfVa : Nat
  watchVa : Nat
  live : WatchLive := {}
  shadow : WatchLive := {}
  shadowTs : Int := 0
  latched : Bool := false
  slotDue : Bool := false
  deletedAt : Nat := 0
  deriving DecidableEq, Repr

/-- Totals of a context's watch registers (R106). -/
structure WatchTotals where
  sat : Nat := 0
  nonfinite : Nat := 0
  flush : Nat := 0
  ovfBlocks : Nat := 0
  clamps : Nat := 0
  deriving DecidableEq, Repr

/-- The DETAIL of a fault record (R229). -/
inductive FaultDetail where
  | translation (va unit access level reason target entry entryDpa : Nat)
  | memory (dpa unit access : Nat)
  | stack (code segment top own : Nat)
  | overrun (batch needed : Nat)
  deriving DecidableEq, Repr

/-- A fault record (R229); `work` names the work item that faulted (`none`: ingest, a restore, an access of the module's own), `own` marks
the last two, which leave nothing to resume. -/
structure FaultRec where
  cls : Nat
  queue : Nat
  hostTag : Word
  opcode : Nat
  epoch : Word
  step : Nat
  resume : Nat
  detail : FaultDetail
  work : Option Nat
  own : Bool := false
  deriving DecidableEq, Repr

/-- A frame of the activation stack (R136): start, length, tag, origin step, micro-batch, output tensor, bytes of the tensor. -/
structure Frame where
  va : Nat
  len : Nat
  tag : Word
  step : Nat
  mb : Nat
  tensor : Nat
  bytes : Nat := 0
  deriving DecidableEq, Repr

/-- The activation stack of a context (R134 to R139): region, window, frames of each segment (top first), popped frames not yet
freed with their reading work items, the windows of the logical clusters as parts (frame start, bytes), newest first (R138), and the registers of
R139; `missLive` marks a read of HBM. -/
structure AStack where
  base : Nat := 0
  size : Nat := 0
  window : Nat := 256
  segs : Table (List Frame) := []
  freeing : List (Nat × Frame × List Nat) := []
  held : Table (List (Nat × Nat)) := []
  peakLive : Nat := 0
  peak : Nat := 0
  missLive : Nat := 0
  miss : Nat := 0
  leftover : Nat := 0
  deriving DecidableEq, Repr

/-- Where an accepted descriptor stands. -/
inductive WorkState where
  | waiting | deferred | issued | faulted | done
  deriving DecidableEq, Repr

/-- Counts held by a chain or granule until it completes (R98), and for a granule the unit that computes it; none when that unit was fenced
and the granule is to be reissued (R30). -/
structure Held where
  part : Nat
  tensor : Nat
  counts : WatchLive
  flags : Word
  unit : Option Nat := none
  deriving DecidableEq, Repr

/-- One DMA descriptor of a DMA_SUBMIT (R200, R201): the epoch it carries, whether it started, the lowest granule not yet written, the granules
acknowledged. -/
structure DmaRun where
  epoch : Word := 0
  started : Bool := false
  written : Nat := 0
  acked : List Nat := []
  done : Bool := false
  deriving DecidableEq, Repr

/-- A stripe set (R121) with its measurements, live and latched (R126), and a definition that takes effect after the next boundary (R128). -/
structure StripeSet where
  flags : Nat
  maxMove : Nat
  minRows : Nat
  deadband : Nat
  height : Nat
  haloBase : Nat
  haloCount : Nat
  clusters : List Nat
  bound : List Nat
  busy : List Nat := []
  wait : List Nat := []
  busyLatched : List Nat := []
  waitLatched : List Nat := []
  deriving DecidableEq, Repr

/-- A wait of a consumer's stripe on a halo cell that has not ended (R124). -/
structure HaloWait where
  stripe : Nat
  cell : Nat
  value : Word
  deriving DecidableEq, Repr

/-- An accepted descriptor of a context: a kernel (R262), a DMA_SUBMIT (R252), a SYNC_OP or a collective (R291). `raw` are its
parameter bytes. `outVa` and `movVa` are replaced under R136 and R137; `waitOn` are the works it waits for (R137, R140), `back` marks the
backward pass of its micro-batch (R152), `redo` holds for a chain to restart how many tiles it had passed (R84), `abandoned` the chains
to be reissued under the epoch then current with the logical cluster each was on (R30), `outSet` and `inFrom` the stripe sets it goes by from the boundary that fixes its step's
boundaries on (R122), `halo` the waits of its stripes that have not ended, `ran` the stripes that the vector units have run, `doomed` that a
replayed ABORT_CONTEXT took it too (R233). -/
structure Work where
  id : Nat
  queue : Nat
  hostTag : Word
  opcode : Nat
  epoch : Word
  raw : List Byte
  step : Nat := 0
  mb : Nat := 0
  lag : Nat := 0
  outVa : Nat := 0
  movVa : Nat := 0
  st : WorkState := .waiting
  waitOn : List Nat := []
  back : Bool := false
  promoted : Bool := false
  started : Bool := false
  parts : Nat := 0
  partsDone : List Nat := []
  held : List Held := []
  xexp : Int := 0
  dma : List DmaRun := []
  stamps : List Nat := []
  resume : Nat := 0
  second : Bool := false
  autoRelease : Bool := false
  redo : Table Nat := []
  abandoned : Table Nat := []
  outSet : Option StripeSet := none
  inFrom : Option StripeSet := none
  halo : List HaloWait := []
  ran : List Nat := []
  doomed : Bool := false
  deriving DecidableEq, Repr

/-- A shard entry of a schedule (R166). -/
structure Shard where
  shard : Nat
  records : Nat
  addr : Nat
  length : Nat
  indexVa : Nat
  deriving DecidableEq, Repr

/-- A field map entry (R169). -/
structure Field where
  key : List Byte
  kind : Nat
  flags : Nat
  outH : Nat
  outW : Nat
  outLen : Nat
  smin : Nat
  smax : Nat
  rmin : Nat
  rmax : Nat
  p0 : Nat
  p1 : Nat
  deriving DecidableEq, Repr

/-- A schedule (R166). -/
structure Sched where
  firstStep : Nat
  cursor0 : Nat
  batchSize : Nat
  readyDepth : Nat
  lowWater : Nat
  policy : Nat
  window : Nat
  tableId : Nat
  ringVa : Nat
  batchBytes : Nat
  manifestVa : Nat
  manifestEntries : Nat
  shards : List Shard
  fields : List Field
  deriving DecidableEq, Repr

/-- One field's decoded output (R175, R181): its bytes before padding and its count. -/
structure FieldOut where
  bytes : List Byte
  count : Nat
  deriving DecidableEq, Repr

/-- A sample the context has read: its stream index and ID, the values of its fields as parsed (`none` missing), its output once
decoded, its drop reason when corrupt, whether it is slow, and the engines that decode its fields (R172). -/
structure Sample where
  stream : Nat
  id : Nat
  engine : Nat
  values : List (Option (List Byte)) := []
  decoded : Option (List FieldOut) := none
  truncated : Bool := false
  corrupt : Option Nat := none
  slow : Bool := false
  engines : List Nat := []
  deriving DecidableEq, Repr

/-- A filled slot of the batch in assembly: ID, flags of R181, the sample's outputs. -/
structure Filled where
  id : Nat
  flags : Nat
  outs : List FieldOut
  deriving DecidableEq, Repr

/-- A manifest event (R182). -/
structure IngEvent where
  kind : Nat
  reason : Nat
  slot : Nat
  id : Nat
  deriving DecidableEq, Repr

/-- Ingest counters of R189. -/
structure IngRegs where
  samples : Nat := 0
  dropped : Nat := 0
  padded : Nat := 0
  slow : Nat := 0
  lateJoin : Nat := 0
  abandoned : Nat := 0
  depthMin : Nat := 0
  lowwater : Nat := 0
  starve : Nat := 0
  deriving DecidableEq, Repr

/-- A batch manifest (R182), with the pending list before the batch (R186). -/
structure BatchManifest where
  batch : Nat
  cursorBefore : Nat
  cursorAfter : Nat
  ids : List Nat
  events : List IngEvent
  committed : Bool
  pendingBefore : List (Nat × Nat) := []
  deriving DecidableEq, Repr

/-- Ingest of a context (R165 to R189). `heldSince` orders contexts whose ring waits for admission (R224); `pendingList` holds (sample ID, stream index); `times` the decode times of the last 1,023
completed samples in CK_AON ticks; `marks` the cursor and pending list before each sealed batch of a step that has not closed (R186). -/
structure Ingest where
  sched : Option Sched := none
  running : Bool := false
  admitted : Bool := false
  heldSince : Nat := 0
  faultStopped : Bool := false
  needsSchedule : Bool := false
  cursor : Nat := 0
  batch : Nat := 0
  assembling : Bool := false
  cursorBefore : Nat := 0
  pendingBefore : List (Nat × Nat) := []
  filled : List Filled := []
  events : List IngEvent := []
  pendingList : List (Nat × Nat) := []
  samples : List Sample := []
  sealed : List Nat := []
  manifests : List BatchManifest := []
  rebuild : List BatchManifest := []
  marks : Table (Nat × List (Nat × Nat)) := []
  times : List Nat := []
  live : IngRegs := {}
  latched : IngRegs := {}
  alarmRun : Bool := false
  deriving DecidableEq, Repr

/-- A GROUP_SET edit waiting for its boundary (R146), with its number in the order of acceptance. -/
structure GroupEdit where
  seq : Nat
  step : Nat
  tableVa : Nat
  group : Nat
  entry : List Byte
  deriving DecidableEq, Repr

/-- A block table entry (R90): HELD_SCALE, OFFSET, CLEAN, OVF, LAST_STEP. -/
structure BlockEntry where
  held : Int
  offset : Int := 0
  clean : Nat := 0
  ovf : Bool := false
  last : Nat
  deriving DecidableEq, Repr

/-- A hardware context (R221 to R234). `params` are the 24 bytes of CONTEXT_SET; `savedHeader`, `savedUse` and `savedCrc` the header written
last into the save area, the areas in use (offset, bytes) and the CRC-32C over them (R226); `savedRegs` the registers of its block
as they stood then (R266); `savedWaits` the waits pre-emption removed, to be presented again (R218, R227); `groupTables` the group tables (VA, count) that UPDATE
descriptors have named (R146, R156); `scratch` the block tables of the update kernel's scratch tensors, whose records are in `scales`
(R150; the spec names no place for them in memory, log 29); `store` the context's part of each logical cluster's store (R75, R221). -/
structure Ctx where
  params : List Byte
  resident : Bool := false
  parked : Bool := false
  savedOut : Bool := false
  savedHeader : List Byte := []
  savedUse : List (Nat × Nat) := []
  savedCrc : Word := 0
  savedRegs : List Nat := []
  saving : Bool := false
  savedWaits : List Wait := []
  sliceRun : Bool := false
  saveCount : Nat := 0
  waitSince : Nat := 0
  bound : Bool := false
  root : Option Nat := none
  faults : Table FaultRec := []
  lateFaults : List FaultRec := []
  scales : Table ScaleRec := []
  dead : List ScaleRec := []
  scaleEdits : List (List Byte) := []
  fpFlags : Word := 0
  watchStep : Word := 0xFFFFFFFF
  totals : WatchTotals := {}
  liveClamps : Nat := 0
  orphanSat : Nat := 0
  orphanNonfinite : Nat := 0
  orphanFlush : Nat := 0
  orphanOvf : Nat := 0
  latchedStep : Nat := 0
  watchDue : Bool := false
  astk : AStack := {}
  works : List Work := []
  dwgQueuedLive : Nat := 0
  dwgPromotedLive : Nat := 0
  dwgIdleLive : Nat := 0
  dwgQueued : Nat := 0
  dwgPromoted : Nat := 0
  dwgIdle : Nat := 0
  stripes : Table StripeSet := []
  newStripes : Table StripeSet := []
  edits : List GroupEdit := []
  groupTables : List (Nat × Nat) := []
  scratch : Table (Table BlockEntry) := []
  store : Table Mem := []
  ingest : Ingest := {}
  deriving DecidableEq, Repr

/-! ### Arrays -/

/-- One accumulator (R39, R41, R42). -/
structure Acc where
  a : Int := 0
  stuck : Bool := false
  nan : Bool := false
  pinf : Bool := false
  ninf : Bool := false
  nanSign : Bool := false
  nanSeen : Bool := false
  deriving DecidableEq, Repr

/-- A chain on a gang (R77, R78): the gang mode it runs under (R64), tile last swapped in, tile loaded in the shadow registers, the live
tile's codes, its accumulators. -/
structure ChainRun where
  ctx : Nat
  id : Nat
  chain : Nat
  mode : Nat := 0
  gang : Nat := 0
  nextLoad : Nat := 0
  shadow : Option (Nat × List Nat) := none
  live : List Nat := []
  passed : Nat := 0
  accs : List Acc := []
  deriving DecidableEq, Repr

/-- A gang of a logical cluster (R64, R79): the chain that accumulates and the set that drains. -/
structure Gang where
  run : Option ChainRun := none
  drain : Option ChainRun := none
  deriving DecidableEq, Repr

/-- The counters of R86; `ran` notes that a gang of the cluster has held a chain in the step. -/
structure ArrayCounts where
  issue : Nat := 0
  reef : Nat := 0
  swap : Nat := 0
  out : Nat := 0
  feed : Nat := 0
  restart : Nat := 0
  chains : Nat := 0
  ran : Bool := false
  deriving DecidableEq, Repr

/-- The arrays of the logical clusters. A gang's chain stands under 4 × L + a with a the lowest of the arrays it joins, its draining set
with a the lowest whose accumulator file it uses (R64, R79; log 164). `turns` holds the context whose chain a gang took last (R222), `idents`
by 4 × p + a of a physical cluster the identity whose chain it took last (R304); counters by L, live and latched. -/
structure Arrays where
  gangs : Table Gang := []
  turns : Table Nat := []
  idents : Table Nat := []
  counts : Table ArrayCounts := []
  latched : Table ArrayCounts := []
  deriving DecidableEq, Repr

/-! ### Fabric, group, collectives -/

/-- A fabric port (R270 to R277, R299): `replay` are the flits sent and not acknowledged, `queue` those that wait for room among them. -/
structure Port where
  mode : Nat := 2
  outcome : Nat := 3
  up : Bool := false
  width : Nat := 0
  polarity : Nat := 0
  laneMap : List Nat := [0, 1, 2, 3, 4, 5, 6, 7]
  active : List Nat := []
  training : Bool := false
  rxSeq : Nat := 0
  txSeq : Nat := 0
  replay : List Flit := []
  queue : List Flit := []
  refusing : Bool := false
  txBytes : Nat := 0
  rxBytes : Nat := 0
  fecCorrected : Nat := 0
  fecUncorrected : Nat := 0
  replays : Nat := 0
  retrains : Nat := 0
  protoRefused : Nat := 0
  cnpRx : Nat := 0
  rates : Table Nat := []
  lastCnp : Table Nat := []
  deriving DecidableEq, Repr

/-- A message sent to another module: class (R278), destination rank, name and numbers it carries. -/
structure Msg where
  cls : Nat
  dest : Nat
  name : String
  args : List Nat := []
  deriving DecidableEq, Repr

/-- The fabric (R270 to R280): ports, route table, payloads delivered to this module, messages sent (newest first), completion
replies sent over the fabric (newest first): sender, completion and the bytes of the reply (R246, R268); flits sent, by port (newest
first), and flits that no port carries yet (R271, R279); `laneFails` counts lane failures in the step (R323). -/
structure Fabric where
  ports : List Port := [{}, {}, {}, {}, {}, {}]
  routes : Table (List Nat) := []
  delivered : List Flit := []
  sent : List Msg := []
  wire : List (Nat × List Byte) := []
  waiting : List Flit := []
  replies : List (Nat × Completion × List Byte) := []
  portsLatched : List Port := [{}, {}, {}, {}, {}, {}]
  laneFails : Nat := 0
  laneFailsLatched : Nat := 0
  laneLatched : List (List Byte) := []
  deriving DecidableEq, Repr

/-- The latest heartbeat of a member (R329, R340). -/
structure Beat where
  sea : Nat := 0
  reefHigh : Bool := false
  thermal : Bool := false
  timedOut : Bool := false
  deriving DecidableEq, Repr

/-- DEADLINE_SET parameters in force (R287). Reset: MODE NONE, POLICY DEFER, FACTOR 320, ABS_US 1,000 (log 5), MUSTER_LIMIT_MS 10,000. -/
structure Deadline where
  mode : Nat := 0
  policy : Nat := 0
  factor : Nat := 320
  absUs : Nat := 1000
  limitMs : Nat := 10000
  deriving DecidableEq, Repr

/-- The group (R281 to R290, R340). `manager` is the role in force, `joined` that GROUP_JOIN completed with ST_OK; `decisionSent` is the manager's latest decision, `decided` the
latest one this module has received; `prevLate` are the members DEFERRED at the step before, `owing` those whose HANDOVER of it the manager still misses (R288); `lostNow` and
`lostTimes` count the members newly marked FAILED (R323): since the last boundary, and by the time of the boundary that followed. -/
structure Group where
  manager : Bool := false
  joined : Bool := false
  rank : Nat := 0xFFFF
  managerRank : Nat := 0xFFFF
  deputy : Nat := 0xFFFF
  groupId : Nat := 0
  epoch : Word := 0
  gen : Nat := 0
  recs : List GroupRec := []
  deadline : Deadline := {}
  newDeadline : Option Deadline := none
  stepTimes : List Nat := []
  handovers : List Nat := []
  decided : Option (Nat × List LateEntry) := none
  decisionSent : Option (Nat × List LateEntry) := none
  prevLate : List Nat := []
  owing : List Nat := []
  arrived : List Nat := []
  beats : Table Beat := []
  late : Table (Nat × Nat × Nat) := []
  lateLatched : Table (Nat × Nat × Nat) := []
  lastD : Option Nat := none
  lostNow : Nat := 0
  lostTimes : List Nat := []
  freq : Nat := 1600
  target : Nat := 1600
  highRun : Nat := 0
  cleanRun : Nat := 0
  lowerings : Nat := 0
  raises : Nat := 0
  feedOverride : Bool := false
  pairingDue : Bool := false
  pairStatus : Nat := 3
  consort : Nat := 0xFFFF
  retune : Bool := false
  curFreq : Nat := 1600
  deriving DecidableEq, Repr

/-- Counts of a completed collective that its epoch has not committed (R98, R296): context, work number, host tag, step, GEN, the counts. -/
structure Uncommitted where
  ctx : Nat
  work : Nat
  tag : Word
  step : Nat
  gen : Nat
  held : Held
  deriving DecidableEq, Repr

/-- A collective in flight (R291 to R297): context and work item, its signature, the GEN it was started under, the chunks sent and not
acknowledged with their owners; `sent` once the slices of an ALL_GATHER or BROADCAST are out, `done` once its completion is posted. -/
structure Coll where
  ctx : Nat
  work : Nat
  sig : CollSig
  gen : Nat
  unacked : List (Nat × Nat) := []
  sent : Bool := false
  done : Bool := false
  deriving DecidableEq, Repr

/-- A signature this module has of a rank, with the GEN it was taken in (R292, R297). -/
structure SigIn where
  rank : Nat
  gen : Nat
  sig : CollSig
  deriving DecidableEq, Repr

/-- The sum of a chunk as its owner formed it, tagged with STEP and GEN (R293, R296). -/
structure CollSum where
  collId : Nat
  step : Nat
  gen : Nat
  chunk : Nat
  sums : List (BitVec 32)
  deriving DecidableEq, Repr

/-- A contribution an owner holds (R295, R296); `elems` is ELEMENTS of its collective where the owner has its signature. -/
structure Contribution where
  collId : Nat
  step : Nat
  gen : Nat
  rank : Nat
  chunk : Nat
  data : List CollElem
  deferred : Bool := false
  committed : Bool := false
  elems : Option Nat := none
  deriving DecidableEq, Repr

/-- A result chunk that has reached this member and is not yet written (R294), with the GEN of its data (R296). -/
structure CollResult where
  collId : Nat
  step : Nat
  gen : Nat
  chunk : Nat
  sums : List (BitVec 32)
  codes : List CollElem
  deriving DecidableEq, Repr

/-- Collectives and their counters (set 0x12 of R299): those in flight, signatures by rank (R292), collectives ended by a signature that
differs, contributions held as owner, sums formed, results not yet written, counts not yet committed, DIGEST so far (R322), GEN and
STEP of the latest epoch abort (R297). -/
structure Colls where
  flight : List Coll := []
  sigs : List SigIn := []
  mismatched : List (Nat × Nat) := []
  holds : List Contribution := []
  unwritten : List CollResult := []
  uncommitted : List Uncommitted := []
  sums : List CollSum := []
  completed : Nat := 0
  aborted : Nat := 0
  staleGen : Nat := 0
  deferredIn : Nat := 0
  expired : Nat := 0
  bytesSent : Nat := 0
  digest : Word := 0
  abortedFrom : Option (Nat × Nat) := none
  latched : List Nat := [0, 0, 0, 0, 0, 0]
  deriving DecidableEq, Repr

/-! ### Fixes, manifests, recovery -/

/-- What a Fix secures of one context: scale table with block tables inside the regions and those of scratch tensors, ingest state (R99, R186). -/
structure FixCtx where
  ctx : Nat
  scales : Table ScaleRec
  scratch : Table (Table BlockEntry)
  batch : Nat
  cursor : Nat
  pendingList : List (Nat × Nat)
  deriving DecidableEq, Repr

/-- A Fix in a slot (R309 to R311): header fields and secured state. Each region is (context, VA, bytes that are not 0 as offset and byte). -/
structure FixImage where
  step : Nat
  seed : Nat
  level : Nat
  complete : Bool
  sealed : Bool
  rank : Nat
  chartEpoch : Word
  groupEpoch : Word
  gen : Nat
  s : Nat
  dataCrc : Word
  ctxs : List FixCtx
  regions : List (Nat × Nat × Nat × Mem)
  chart : Option Chart := none
  recs : List GroupRec := []
  crcOk : Bool := true
  deriving DecidableEq, Repr

/-- What a standby was before it took a lost member's place (R330): its rank, consort and GEN, and the configuration sections. -/
structure Home where
  rank : Nat
  consort : Nat
  gen : Nat
  sections : Table (List Byte)
  deriving DecidableEq, Repr

/-- A record of a step manifest (R320): type and body. -/
structure ManRec where
  type : Nat
  body : List Byte
  deriving DecidableEq, Repr

/-- A step manifest (R320). -/
structure Manifest where
  step : Nat
  gen : Nat
  recs : List ManRec := []
  digest : Word := 0
  final : Bool := false
  acked : Bool := false
  deriving DecidableEq, Repr

/-- A restore under way (R332): its packet, source, STEP, REPLAY_TO, GEN, slot index (0xFFFF: the manager's own), and the image read. -/
structure Restore where
  packet : Packet
  opcode : Nat
  source : Nat
  step : Nat
  replayTo : Nat
  gen : Nat
  slot : Nat
  image : Option FixImage
  deriving DecidableEq, Repr

/-- The stages of a Fix stop (R315). -/
inductive FixStage where
  | none | quiesce | copying | header | stream
  deriving DecidableEq, Repr

/-- A recovery the manager runs (R329): the lost ranks to substitute (none: a ROLLBACK), the recovery point f, the step t that was in
progress, the ranks whose restore has not completed, the standbys chosen (lost rank, standby), the standbys that refused or were lost. -/
structure Recovery where
  lost : List Nat
  point : Nat
  upTo : Nat
  waiting : List Nat
  standbys : List (Nat × Nat) := []
  tried : List Nat := []
  deriving DecidableEq, Repr

/-- Fixes, consorts, manifests, recovery, Sextant (R309 to R335). `absorbed` counts the ABSORBED faults in the step (R302), `absorbedHw`
those of them that Sextant input 0x5 counts, `absorbedTimes` the latter by the time of the boundary that followed each. `exports` are the images written to host memory, by address;
`pulls` the pulls served (rank, STEP, t); `abortDue` when a context fault struck during the Fix stop (R235), `resumeDue` when the stop has ended
and a retune still runs (R350). -/
structure FixSys where
  slot0 : Option FixImage := none
  slot1 : Option FixImage := none
  consortSlot : Option FixImage := none
  consortChunks : List Nat := []
  stage : FixStage := .none
  draft : Option FixImage := none
  triggered : Bool := false
  requested : Bool := false
  stepsSince : Nat := 0
  lastStopEndUs : Nat := 0
  acks : List Nat := []
  fails : Table Nat := []
  seals : List (Nat × Nat) := []
  recoveryStep : Option Nat := none
  lastFixStep : Option Nat := none
  heldCause : Nat := 0
  abortCause : Nat := 0
  taken : Nat := 0
  aborted : Nat := 0
  deferred : Nat := 0
  uncoveredMs : Nat := 0
  rollbacks : Nat := 0
  substitutions : Nat := 0
  lastStopUs : Nat := 0
  lastStreamMs : Nat := 0
  streamStartMs : Option Nat := none
  exporting : Option (Packet × Nat) := none
  restore : Option Restore := none
  replayTo : Option Nat := none
  replayLog : List Manifest := []
  recoverySlots : List Nat := []
  checkpoint : Bool := false
  log : List Manifest := []
  partnerLog : List (Nat × List Byte) := []
  assume : Option Restore := none
  pulls : List (Nat × Nat × Nat) := []
  exports : List (Nat × FixImage) := []
  levels : List Nat := [0, 0, 0, 0, 0, 0, 0]
  sea : Nat := 0
  absorbed : Nat := 0
  absorbedHw : Nat := 0
  absorbedTimes : List Nat := []
  recovering : Option Recovery := none
  stopDelayed : Bool := false
  abortDue : Bool := false
  resumeDue : Bool := false
  logAt : Nat := 0
  clogAt : Nat := 0
  home : Option Home := none
  deriving DecidableEq, Repr

/-! ### Power, thermal, clocks -/

/-- A compute die's rail, droop counters and thermal bubbles (R342, R343, R352). Voltages in units of 0.5 mV; reset 750 mV (log 6). -/
structure DiePower where
  volt : Nat := 1500
  voltMin : Nat := 1500
  voltMax : Nat := 1500
  droop : Nat := 0
  stretch : Nat := 0
  stretching : Bool := false
  droopLatched : Nat := 0
  stretchLatched : Nat := 0
  minLatched : Nat := 1500
  maxLatched : Nat := 1500
  tb : Nat := 0
  tbFull : Nat := 0
  reefed : Bool := false
  deriving DecidableEq, Repr

/-- A sensor group (R352, R357): latest temperature, maximum in the step, shutdown readings in a row. Units of 1/16 °C. -/
structure Sensor where
  temp : Int
  max : Int
  hot : Nat := 0
  maxLatched : Int := 0
  stage : Nat := 0
  deriving DecidableEq, Repr

/-- Power, energy, thermal (R344 to R352). `samples` are the latest 500 samples in mW, latest first. -/
structure PowerSys where
  samples : List Nat := []
  capW : Nat := 4200
  bubbles : Nat := 0
  energyUj : Nat := 0
  energyRem : Nat := 0
  energyLatched : Nat := 0
  meanSum : Nat := 0
  meanCount : Nat := 0
  maxW : Nat := 0
  capped : Nat := 0
  reefSum : Nat := 0
  meanW : Nat := 0
  maxWLatched : Nat := 0
  reefShare : Nat := 0
  cappedLatched : Nat := 0
  reefHigh : Bool := false
  thermalReq : Bool := false
  thermalLatched : Bool := false
  coolReadings : Nat := 0
  dies : List DiePower := List.replicate 16 {}
  sensors : Table Sensor := []
  inlet : Int := 0
  inletHot : Nat := 0
  flow : Nat := 0
  flowStage : Nat := 0
  deriving DecidableEq, Repr

/-! ### Board, management, firmware, tests -/

/-- J1, PWR_EN, AUX_3V3, straps, leak loop (R374 to R381). Right after reset: AUX_3V3 present, PWR_EN high, J1 at 48 V (log 7). -/
structure Board where
  aux : Bool := true
  pwrEn : Bool := true
  pwrWaits : Bool := false
  converters : Bool := true
  selfRefresh : Bool := false
  j1mv : Int := 48000
  j1ma : Int := 0
  slotId : Nat := 0xFF
  feedId : Nat := 0xFF
  strapFault : Nat := 0
  leak : Nat := 0
  leakHeld : Nat := 0
  intactRun : Nat := 0
  deriving DecidableEq, Repr

/-- A response over MCTP (R269, R382, R383). -/
inductive MctpReply where
  | ilzan (endpoint : Nat) (c : Completion) (data : List Byte)
  | control (code : Nat) (data : List Nat)
  | pldm (code : Nat) (data : List Byte)
  | reading (sensor : Nat) (value : Int)
  | event (sensor state previous : Nat)
  deriving DecidableEq, Repr

/-- Management: endpoint ID (0 is the null ID), event receiver, outstanding requests by endpoint, replies (newest first). -/
structure Mgmt where
  eid : Nat := 0
  receiver : Option Nat := none
  outstanding : Table Nat := []
  replies : List MctpReply := []
  deriving DecidableEq, Repr

/-- A firmware image in flash: its bytes and whether its header passed at the last update. -/
structure FwImage where
  version : Word := 0
  bytes : List Byte := []
  deriving DecidableEq, Repr

/-- SPI flash (R359 to R361, R1): images A and B, the image preferred and the image running (false A, true B), the update transfer,
the stored manager role and port modes. Versions at reset are 0 and the stored role is worker, the ordering code ZT4800-A24L of the two that R1
lists: the model's choices (log 8). -/
structure Flash where
  imgA : FwImage := {}
  imgB : FwImage := {}
  preferB : Bool := false
  runningB : Bool := false
  selected : Bool := false
  stuck : Bool := false
  transfer : Option (List Byte) := none
  verified : Bool := false
  managerRole : Bool := false
  modes : List Nat := [2, 2, 2, 2, 2, 2]
  serial : List Byte := List.replicate 16 0
  deriving DecidableEq, Repr

/-- Self-tests under way (R370 to R372): the slot and CLASSES of BIST_RUN; of CLUSTER_TEST the mask, REPEAT, slot, the clusters in test or
on their way to it, those tested in this pass, the results in order of first test (cluster, 0 pass or 1 fail); the slot and mask of
MARGIN_SCAN; HBM_RECAL's packet, and whether it waits for the step boundary. -/
structure SelfTest where
  bist : Option (Nat × Nat) := none
  clusterMask : Nat := 0
  clusterRepeat : Bool := false
  clusterSlot : Option Nat := none
  clusterRun : List Nat := []
  clusterDone : List Nat := []
  results : List (Nat × Nat) := []
  margin : Option (Nat × Nat) := none
  recal : Option Packet := none
  recalHeld : Bool := false
  deriving DecidableEq, Repr

/-- The step report (R253), the waves still to run at a release (R349), the cut of the current step and of the step before (R154: step,
DEFER_WHOLE, DEFER_BACK, DROPPED), and the micro-batches that have issued: any descriptor, a backward one, one with LAG 1 (R152); `backSeen` the context, micro-batch and origin
step of the backward passes accepted.
`updated` are the contexts whose UPDATE of the step completed (R157), `handed` the step whose HANDOVER is out, `skewStep` the skew events since
the last boundary. -/
structure Boundary where
  report : List Byte := []
  lastClose : Option (Nat × Nat) := none
  waves : List Nat := []
  cut : Option (Nat × Nat × Nat × Nat) := none
  prevCut : Option (Nat × Nat × Nat × Nat) := none
  begun : List Nat := []
  begunBack : List Nat := []
  begunLag : List Nat := []
  backSeen : List (Nat × Nat × Nat) := []
  entered : Option Nat := none
  updated : List Nat := []
  handed : Option Nat := none
  skewStep : Nat := 0
  deriving DecidableEq, Repr

/-- The state of the module. -/
structure State where
  pending : List Instr := []
  free : Nat := 0
  nextId : Nat := 1
  host : HostSide := {}
  regs : Regs := {}
  dev : Device := {}
  chart : Chart := {}
  queues : Queues := {}
  slots : Slots := {}
  conf : Conf := {}
  mem : MemSys := {}
  sync : SyncSys := {}
  ctxs : Table Ctx := []
  arrays : Arrays := {}
  tokens : List Byte := []
  fab : Fabric := {}
  grp : Group := {}
  colls : Colls := {}
  fix : FixSys := {}
  pow : PowerSys := {}
  board : Board := {}
  mgmt : Mgmt := {}
  flash : Flash := {}
  test : SelfTest := {}
  bnd : Boundary := {}
  deriving DecidableEq, Repr

/-- Right after reset: the boot has begun (R265), nothing is queued. -/
def State.reset : State := {}

/-- The outcome of a command. -/
abbrev Out := Host.Outcome State Fault Refusal

end Sys2Proof.Machine
end

