-- ==== Sys2Proof/Machine/Bytes.lean ====
section
/-! DEFINITION. Byte order, CRC-32C, sparse tables and the canonical memory list. -/
namespace Sys2Proof.Machine

/-- The number a little-endian byte list spells (00, Conventions). -/
def leNat : List Byte → Nat
  | [] => 0
  | b :: r => b.toNat + 256 * leNat r

/-- The `n` low bytes of `v`, little-endian. -/
def leBytes : Nat → Nat → List Byte
  | 0, _ => []
  | n + 1, v => BitVec.ofNat 8 v :: leBytes n (v / 256)

/-- The field of `len` bytes at offset `off`. -/
def fieldAt (l : List Byte) (off len : Nat) : Nat := leNat ((l.drop off).take len)

/-- `n` zero bytes. -/
def zeros (n : Nat) : List Byte := List.replicate n 0

/-- Bits `lo` to `lo + n - 1` of a number. -/
def bitsAt (v lo n : Nat) : Nat := v / 2 ^ lo % 2 ^ n

/-- Bit `i` of a number. -/
def bitAt (v i : Nat) : Bool := v / 2 ^ i % 2 == 1

/-- A signed 16-bit or 8-bit field of `n` bits. -/
def signedOf (n v : Nat) : Int := if v < 2 ^ (n - 1) then (v : Int) else (v : Int) - (2 ^ n : Nat)

/-- The `n`-bit two's-complement code of an integer. -/
def unsignedOf (n : Nat) (v : Int) : Nat := (v % ((2 ^ n : Nat) : Int)).toNat

/-- A saturating counter of `n` bits (R9). -/
def satAdd (n v d : Nat) : Nat := min (v + d) (2 ^ n - 1)

/-- Saturating 32-bit increment (R9). -/
def sat32 (v d : Nat) : Nat := satAdd 32 v d

/-- One bit step of the reflected CRC-32C. -/
def crcBit (c : Nat) : Nat := if c % 2 = 1 then (c / 2) ^^^ 0x82F63B78 else c / 2

/-- `n` bit steps. -/
def crcBits : Nat → Nat → Nat
  | 0, c => c
  | n + 1, c => crcBits n (crcBit c)

/-- The running CRC-32C over bytes. -/
def crcRun : Nat → List Byte → Nat
  | c, [] => c
  | c, b :: r => crcRun (crcBits 8 (c ^^^ b.toNat)) r

/-- CRC-32C, Castagnoli polynomial. -/
def crc32c (l : List Byte) : Word := BitVec.ofNat 32 (crcRun 0xFFFFFFFF l ^^^ 0xFFFFFFFF)

/-- The entry of a table. -/
def tget {α : Type} (t : Table α) (k : Nat) : Option α := t.lookup k

/-- Sets an entry, keeping the keys ascending. -/
def tset {α : Type} : Table α → Nat → α → Table α
  | [], k, v => [(k, v)]
  | (j, w) :: r, k, v => if k < j then (k, v) :: (j, w) :: r else if k = j then (k, v) :: r else (j, w) :: tset r k v

/-- Drops an entry. -/
def tdel {α : Type} (t : Table α) (k : Nat) : Table α := t.filter (fun e => e.1 != k)

/-- Changes an entry that is there. -/
def tmod {α : Type} (t : Table α) (k : Nat) (f : α → α) : Table α :=
  t.map (fun e => if e.1 = k then (e.1, f e.2) else e)

/-- Replaces entry `i` of a list. -/
def lset {α : Type} (l : List α) (i : Nat) (v : α) : List α := l.set i v

/-- Changes entry `i` of a list. -/
def lmod {α : Type} (l : List α) (i : Nat) (f : α → α) : List α :=
  match l[i]? with
  | some v => l.set i (f v)
  | none => l

/-- Inserts a number into an ascending list without repeats. -/
def ninsert : List Nat → Nat → List Nat
  | [], k => [k]
  | j :: r, k => if k < j then k :: j :: r else if k = j then j :: r else j :: ninsert r k

/-- What a byte of memory that nothing has written reads as (log 4). -/
def Memory.fill : Byte := 0

/-- The canonical form of a memory list whose keys exceed `lo` (all keys when `none`): strictly rising, no entry equal to the fill. -/
def Memory.wfFrom : Option Nat → Mem → Bool
  | _, [] => true
  | none, (a, b) :: r => b != Memory.fill && Memory.wfFrom (some a) r
  | some lo, (a, b) :: r => decide (lo < a) && b != Memory.fill && Memory.wfFrom (some a) r

/-- The canonical form of a memory list. -/
def Memory.wf (m : Mem) : Bool := Memory.wfFrom none m

/-- Reads a byte. -/
def Memory.get : Mem → Nat → Byte
  | [], _ => Memory.fill
  | (a, b) :: r, k => if a = k then b else if k < a then Memory.fill else Memory.get r k

/-- Writes a byte, keeping the canonical form. -/
def Memory.set : Mem → Nat → Byte → Mem
  | [], k, v => if v = Memory.fill then [] else [(k, v)]
  | (a, b) :: r, k, v =>
    if k < a then (if v = Memory.fill then (a, b) :: r else (k, v) :: (a, b) :: r)
    else if k = a then (if v = Memory.fill then r else (k, v) :: r)
    else (a, b) :: Memory.set r k v

/-- Reads `n` bytes from `k` upward. -/
def Memory.getN (m : Mem) (k : Nat) : Nat → List Byte
  | 0 => []
  | n + 1 => Memory.get m k :: Memory.getN m (k + 1) n

/-- Writes bytes from `k` upward. -/
def Memory.setN (m : Mem) (k : Nat) : List Byte → Mem
  | [] => m
  | b :: r => Memory.setN (Memory.set m k b) (k + 1) r

end Sys2Proof.Machine
end

