-- ==== Sys2Proof/Machine/Draw.lean ====
section
/-! DEFINITION. Random draws: Philox-4×32-10 and the key and counter mappings (R54 to R58). -/
namespace Sys2Proof.Machine

/-- The four words of a draw. -/
structure Words where
  x0 : Nat
  x1 : Nat
  x2 : Nat
  x3 : Nat
  deriving DecidableEq, Repr

/-- `n` rounds of R54 from round `r`. -/
def philoxGo : Nat → Nat → Nat → Nat → Words → Words
  | 0, _, _, _, w => w
  | n + 1, r, k0, k1, w =>
    let k0 := if r > 0 then (k0 + 0x9E3779B9) % 2 ^ 32 else k0
    let k1 := if r > 0 then (k1 + 0xBB67AE85) % 2 ^ 32 else k1
    let p0 := 0xD2511F53 * w.x0
    let p1 := 0xCD9E8D57 * w.x2
    philoxGo n (r + 1) k0 k1
      ⟨(p1 / 2 ^ 32) ^^^ w.x1 ^^^ k0, p1 % 2 ^ 32, (p0 / 2 ^ 32) ^^^ w.x3 ^^^ k1, p0 % 2 ^ 32⟩

/-- Philox-4×32-10 (R54). -/
def philox (k0 k1 c0 c1 c2 c3 : Nat) : Words := philoxGo 10 0 k0 k1 ⟨c0, c1, c2, c3⟩

/-- A tensor draw (R55): purpose, tensor ID, element index, step. -/
def tensorDraw (seed purpose tensor index step : Nat) : Words :=
  philox (seed % 2 ^ 32) ((seed / 2 ^ 32 % 2 ^ 32) ^^^ (step / 2 ^ 32 % 2 ^ 32)) (index % 2 ^ 32)
    (index / 2 ^ 32 % 2 ^ 16 + purpose * 2 ^ 16) tensor (step % 2 ^ 32)

/-- A sample draw (R57): purpose, sample ID, draw number, data pass. -/
def sampleDraw (seed purpose sample number pass : Nat) : Words :=
  philox (seed % 2 ^ 32) ((seed / 2 ^ 32 % 2 ^ 32) ^^^ (pass / 2 ^ 32 % 2 ^ 32)) (sample % 2 ^ 32)
    (sample / 2 ^ 32 % 2 ^ 16 + purpose * 2 ^ 16) (sample / 2 ^ 48 % 2 ^ 16 + number * 2 ^ 16) (pass % 2 ^ 32)

/-- The value u of R45: bits 15:0 of x0 of the draw of purpose 0x0001. -/
def stochasticU (seed tensor index step : Nat) : Nat := (tensorDraw seed 1 tensor index step).x0 % 65536

end Sys2Proof.Machine
end

