-- ==== Sys2Proof/Machine/Ieee.lean ====
section
/-! DEFINITION. IEEE 754-2019 arithmetic of the vector units, exact and then rounded once (R46, R50 to R53). -/
namespace Sys2Proof
open Sys2Proof.Machine

/-- FP_FLAGS bits (R53). -/
def fINEXACT : Nat := 1
def fUNDERFLOW : Nat := 2
def fOVERFLOW : Nat := 4
def fDIVZERO : Nat := 8
def fINVALID : Nat := 16
def fKLFLUSH : Nat := 32
def fKLSAT : Nat := 64
def fKLNONFINITE : Nat := 128

/-- A value: NaN with sign and trailing significand left-aligned to 52 bits, an infinity, or (−1)^sign × m × 2^e. -/
inductive Val where
  | nan (sign : Bool) (pay : Nat)
  | inf (sign : Bool)
  | fin (sign : Bool) (m : Nat) (e : Int)
  deriving DecidableEq, Repr

/-- Exponent bits of a format. -/
def Bin.ebits : Bin → Nat
  | .b16 => 5 | .b32 => 8 | .b64 => 11

/-- Trailing significand bits. -/
def Bin.mbits : Bin → Nat
  | .b16 => 10 | .b32 => 23 | .b64 => 52

/-- Width in bits. -/
def Bin.width : Bin → Nat
  | .b16 => 16 | .b32 => 32 | .b64 => 64

/-- Exponent bias. -/
def Bin.bias (b : Bin) : Nat := 2 ^ (b.ebits - 1) - 1

/-- The exponent of the smallest subnormal's unit. -/
def Bin.qmin (b : Bin) : Int := 1 - (b.bias : Int) - b.mbits

/-- A sign bit placed at the top of a format. -/
def Bin.signBit (b : Bin) (s : Bool) : Nat := if s then 2 ^ (b.width - 1) else 0

/-- The code of +Inf. -/
def Bin.infCode (b : Bin) : Nat := (2 ^ b.ebits - 1) * 2 ^ b.mbits

/-- The value a code denotes. -/
def Bin.decode (b : Bin) (c : Nat) : Val :=
  let s := bitAt c (b.width - 1)
  let ex := bitsAt c b.mbits b.ebits
  let t := c % 2 ^ b.mbits
  if ex = 2 ^ b.ebits - 1 then (if t = 0 then .inf s else .nan s (t * 2 ^ (52 - b.mbits)))
  else if ex = 0 then .fin s t b.qmin
  else .fin s (2 ^ b.mbits + t) (b.qmin + (ex - 1 : Nat))

/-- The code of a quiet NaN of this format from a 52-bit payload (R51). -/
def Bin.nanCode (b : Bin) (s : Bool) (pay : Nat) : Nat :=
  b.signBit s + b.infCode + (pay / 2 ^ (52 - b.mbits)) % 2 ^ (b.mbits - 1) + 2 ^ (b.mbits - 1)

/-- The default quiet NaN (R51). -/
def Val.defaultNan : Val := .nan false (2 ^ 51)

/-- Floor of log2; 0 for 0. -/
def ilog (m : Nat) : Nat := Nat.log2 m

/-- Rounds m / 2^k to an integer under an attribute, for a value of the given sign. -/
def roundShift (rm : Rm) (s : Bool) (m k : Nat) : Nat :=
  let q := m / 2 ^ k
  let r := m % 2 ^ k
  let up : Bool := match rm with
    | .rne => decide (2 * r > 2 ^ k) || (decide (2 * r = 2 ^ k) && decide (q % 2 = 1))
    | .rtz => false
    | .rup => decide (r ≠ 0) && !s
    | .rdn => decide (r ≠ 0) && s
  if up then q + 1 else q

/-- The significand of a value in units of 2^q, and whether it was exact. -/
def toQuantum (rm : Rm) (s : Bool) (m : Nat) (e q : Int) : Nat × Bool :=
  if q ≤ e then (m * 2 ^ (e - q).toNat, true)
  else (roundShift rm s m (q - e).toNat, m % 2 ^ (q - e).toNat == 0)

/-- Rounds (−1)^s × m × 2^e into a binary format: code and flags, tininess after rounding (R50). -/
def Bin.round (b : Bin) (rm : Rm) (s : Bool) (m : Nat) (e : Int) : Nat × Nat :=
  if m = 0 then (b.signBit s, 0)
  else
    let top : Int := (ilog m : Int) + e
    let q0 : Int := top - b.mbits
    let q : Int := max q0 b.qmin
    let (i, exact) := toQuantum rm s m e q
    let (iu, _) := toQuantum rm s m e q0
    let tiny : Bool := decide (q0 < b.qmin) && decide (iu < 2 ^ (b.mbits + (b.qmin - q0).toNat))
    let code := (q - b.qmin).toNat * 2 ^ b.mbits + i
    if code ≥ b.infCode then
      let toInf : Bool := match rm with
        | .rne => true | .rtz => false | .rup => !s | .rdn => s
      (b.signBit s + (if toInf then b.infCode else b.infCode - 1), fOVERFLOW ||| fINEXACT)
    else (b.signBit s + code, (if exact then 0 else fINEXACT) ||| (if tiny && !exact then fUNDERFLOW else 0))

/-- The code of a value under an attribute, with the flags of the rounding. -/
def Bin.encode (b : Bin) (rm : Rm) : Val → Nat × Nat
  | .nan s p => (b.nanCode s p, 0)
  | .inf s => (b.signBit s + b.infCode, 0)
  | .fin s m e => b.round rm s m e

/-- Whether a NaN is signalling. -/
def Val.signalling : Val → Bool
  | .nan _ p => !bitAt p 51
  | _ => false

/-- Whether a value is a NaN. -/
def Val.isNan : Val → Bool
  | .nan _ _ => true
  | _ => false

/-- The first NaN of a list, quieted (R51). -/
def firstNan : List Val → Option Val
  | [] => none
  | .nan s p :: _ => some (.nan s (if bitAt p 51 then p else p + 2 ^ 51))
  | _ :: r => firstNan r

/-- INVALID for a signalling operand. -/
def sigFlag (l : List Val) : Nat := if l.any Val.signalling then fINVALID else 0

/-- Signed significand. -/
def sgn (s : Bool) (m : Nat) : Int := if s then -(m : Int) else m

/-- The exact sum of two finite values; a zero sum takes the sign IEEE 754 gives it under `rm`. -/
def addFin (rm : Rm) (s1 : Bool) (m1 : Nat) (e1 : Int) (s2 : Bool) (m2 : Nat) (e2 : Int) : Val :=
  let e := min e1 e2
  let v := sgn s1 (m1 * 2 ^ (e1 - e).toNat) + sgn s2 (m2 * 2 ^ (e2 - e).toNat)
  if v = 0 then
    .fin (if m1 = 0 ∧ m2 = 0 ∧ s1 = s2 then s1 else rm == .rdn) 0 0
  else .fin (decide (v < 0)) v.natAbs e

/-- Exact sum of two values and its flags. -/
def Val.add (rm : Rm) (a b : Val) : Val × Nat :=
  match firstNan [a, b] with
  | some n => (n, sigFlag [a, b])
  | none =>
    match a, b with
    | .inf s, .inf t => if s = t then (.inf s, 0) else (.defaultNan, fINVALID)
    | .inf s, _ => (.inf s, 0)
    | _, .inf t => (.inf t, 0)
    | .fin s1 m1 e1, .fin s2 m2 e2 => (addFin rm s1 m1 e1 s2 m2 e2, 0)
    | _, _ => (.defaultNan, 0)

/-- Changes the sign of a value (NaNs keep theirs, R51). -/
def Val.neg : Val → Val
  | .nan s p => .nan s p
  | .inf s => .inf (!s)
  | .fin s m e => .fin (!s) m e

/-- Exact product and its flags. -/
def Val.mul (a b : Val) : Val × Nat :=
  match firstNan [a, b] with
  | some n => (n, sigFlag [a, b])
  | none =>
    match a, b with
    | .inf s, .inf t => (.inf (xor s t), 0)
    | .inf s, .fin t m _ => if m = 0 then (.defaultNan, fINVALID) else (.inf (xor s t), 0)
    | .fin s m _, .inf t => if m = 0 then (.defaultNan, fINVALID) else (.inf (xor s t), 0)
    | .fin s m e, .fin t n f => (.fin (xor s t) (m * n) (e + f), 0)
    | _, _ => (.defaultNan, 0)

/-- Exact a × b + c and its flags (R50, R51). -/
def Val.fma (rm : Rm) (a b c : Val) : Val × Nat :=
  let zeroInf : Bool := match a, b with
    | .fin _ 0 _, .inf _ => true
    | .inf _, .fin _ 0 _ => true
    | _, _ => false
  match firstNan [a, b, c] with
  | some n => (n, sigFlag [a, b, c] ||| (if zeroInf then fINVALID else 0))
  | none =>
    if zeroInf then (.defaultNan, fINVALID)
    else
      match Val.add rm (Val.mul a b).1 c with
      | (v, f) => (v, f)

/-- Quotient with enough bits and a sticky bit for any format, and its flags. -/
def Val.div (a b : Val) : Val × Nat :=
  match firstNan [a, b] with
  | some n => (n, sigFlag [a, b])
  | none =>
    match a, b with
    | .inf _, .inf _ => (.defaultNan, fINVALID)
    | .inf s, .fin t _ _ => (.inf (xor s t), 0)
    | .fin s _ _, .inf t => (.fin (xor s t) 0 0, 0)
    | .fin s m e, .fin t n f =>
      if n = 0 then (if m = 0 then (.defaultNan, fINVALID) else (.inf (xor s t), fDIVZERO))
      else if m = 0 then (.fin (xor s t) 0 0, 0)
      else
        let k := 70 + ilog n
        let q := m * 2 ^ k / n
        let r := m * 2 ^ k % n
        (.fin (xor s t) (2 * q + (if r = 0 then 0 else 1)) (e - f - k - 1), 0)
    | _, _ => (.defaultNan, 0)

/-- Bits of the floor of a square root, from bit `n - 1` down. -/
def isqrtGo (v : Nat) : Nat → Nat → Nat
  | 0, r => r
  | n + 1, r => if (r + 2 ^ n) * (r + 2 ^ n) ≤ v then isqrtGo v n (r + 2 ^ n) else isqrtGo v n r

/-- Floor of the square root. -/
def isqrt (v : Nat) : Nat := isqrtGo v (ilog v / 2 + 1) 0

/-- Square root with enough bits and a sticky bit, and its flags. -/
def Val.sqrt (a : Val) : Val × Nat :=
  match firstNan [a] with
  | some n => (n, sigFlag [a])
  | none =>
    match a with
    | .inf s => if s then (.defaultNan, fINVALID) else (.inf false, 0)
    | .fin s m e =>
      if m = 0 then (.fin s 0 0, 0)
      else if s then (.defaultNan, fINVALID)
      else
        let odd := e % 2 ≠ 0
        let m1 := (if odd then 2 * m else m) * 2 ^ 128
        let e1 := (if odd then e - 1 else e) - 128
        let r := isqrt m1
        (.fin false (2 * r + (if r * r = m1 then 0 else 1)) (e1 / 2 - 1), 0)
    | v => (v, 0)

/-- Compares two finite or infinite values: −1, 0, 1 (−0 equals +0). -/
def Val.cmp : Val → Val → Int
  | .inf s, .inf t => if s = t then 0 else if s then -1 else 1
  | .inf s, _ => if s then -1 else 1
  | _, .inf t => if t then 1 else -1
  | .fin s m e, .fin t n f =>
    let g := min e f
    let a := sgn s (m * 2 ^ (e - g).toNat)
    let b := sgn t (n * 2 ^ (f - g).toNat)
    if a < b then -1 else if b < a then 1 else 0
  | _, _ => 0

/-- The sign of a value. -/
def Val.sign : Val → Bool
  | .nan s _ => s
  | .inf s => s
  | .fin s _ _ => s

/-- a ranks below b in the order of minimum and maximum, −0 below +0 (R52). -/
def Val.below (a b : Val) : Bool :=
  let c := Val.cmp a b
  c == -1 || (c == 0 && a.sign && !b.sign)

/-- IEEE 754-2019 maximum (R52). -/
def Val.maximum (a b : Val) : Val × Nat :=
  match firstNan [a, b] with
  | some n => (n, sigFlag [a, b])
  | none => (if Val.below a b then b else a, 0)

/-- IEEE 754-2019 minimum (R52). -/
def Val.minimum (a b : Val) : Val × Nat :=
  match firstNan [a, b] with
  | some n => (n, sigFlag [a, b])
  | none => (if Val.below b a then b else a, 0)

/-- A binary operation on codes: exact operation, one rounding. -/
def Bin.op2 (b : Bin) (rm : Rm) (f : Val → Val → Val × Nat) (x y : Nat) : Nat × Nat :=
  match f (b.decode x) (b.decode y) with
  | (v, fl) => match b.encode rm v with
    | (c, g) => (c, fl ||| g)

/-- binary32 addition, roundTiesToEven. -/
def add32 (x y : Nat) : Nat := (Bin.op2 .b32 .rne (Val.add .rne) x y).1

/-- binary64 operations, roundTiesToEven. -/
def add64 (x y : Nat) : Nat := (Bin.op2 .b64 .rne (Val.add .rne) x y).1
def sub64 (x y : Nat) : Nat := (Bin.op2 .b64 .rne (fun a b => Val.add .rne a b.neg) x y).1
def mul64 (x y : Nat) : Nat := (Bin.op2 .b64 .rne Val.mul x y).1
def div64 (x y : Nat) : Nat := (Bin.op2 .b64 .rne Val.div x y).1

/-- A value rounded to nearest into a binary format. -/
def Bin.ofVal (b : Bin) (v : Val) : Nat := (b.encode .rne v).1

/-- The range of integers of `bits` bits: least and one past the largest. -/
def intRange (bits : Nat) (signed : Bool) : Int × Int :=
  if signed then (-(2 ^ (bits - 1) : Nat), (2 ^ (bits - 1) : Nat)) else (0, (2 ^ bits : Nat))

/-- Conversion to an integer of `bits` bits; `none` for what IEEE 754 calls invalid. R50 names the conversions without their form: both of
IEEE 754-2019 are offered, `inexact` being the one that raises INEXACT (log 10). -/
def Val.toInt (rm : Rm) (bits : Nat) (signed inexact : Bool) : Val → Option (Int × Nat)
  | .fin s m e =>
    let (i, exact) := toQuantum rm s m e 0
    let v := sgn s i
    if (intRange bits signed).1 ≤ v ∧ v < (intRange bits signed).2 then some (v, if exact || !inexact then 0 else fINEXACT) else none
  | _ => none

end Sys2Proof
end

