-- ==== Sys2Proof/Machine/Kyonex.lean ====
section
/-! DEFINITION. The Kyonex log formats: codes, tables, products, the accumulator, rounding, conversions, pairs, behaviour levels
(R34 to R49, R59 to R61). -/
namespace Sys2Proof.Machine

/-- A Kyonex format. -/
inductive Kl where
  | a | b | w
  deriving DecidableEq, Repr

/-- Code steps per octave F (R34). -/
def Kl.steps : Kl → Nat
  | .a => 8 | .b => 4 | .w => 256

/-- Bias (R34). -/
def Kl.bias : Kl → Nat
  | .a => 64 | .b => 64 | .w => 16384

/-- Width in bits (R34). -/
def Kl.width : Kl → Nat
  | .a => 8 | .b => 8 | .w => 16

/-- The largest finite code at a behaviour level (R34, R61). -/
def Kl.emax (k : Kl) (level : Nat) : Nat :=
  match k with
  | .w => if level = 1 then 0x7FFF else 0x7FFD
  | _ => 0x7E

/-- The NaN code (R35). -/
def Kl.nan : Kl → Nat
  | .w => 0x7FFE
  | _ => 0x7F

/-- Whether 2t − 1 is at most 2^(24 + n/m), that is (2t − 1)^m ≤ 2^(24m + n). -/
def tableFits (m n t : Nat) : Bool := decide ((2 * t - 1) ^ m ≤ 2 ^ (24 * m + n))

/-- The largest t that fits, from bit `i - 1` down. -/
def tableGo (m n : Nat) : Nat → Nat → Nat
  | 0, t => t
  | i + 1, t => if tableFits m n (t + 2 ^ i) then tableGo m n i (t + 2 ^ i) else tableGo m n i t

/-- 2^(23 + n/m) rounded to the nearest integer (R38; no tie but for exact entries). -/
def tableEntry (m n : Nat) : Nat := if n = m then 0x1000000 else tableGo m n 24 0

/-- T_F(f), with T_F(F) taken as 0x1000000 (R38). -/
def tabT (F f : Nat) : Nat := tableEntry F f

/-- U_F(f) (R38). -/
def tabU (F f : Nat) : Nat := tableEntry (2 * F) (2 * f + 1)

/-- A Kyonex operand taken apart (R34, R35). -/
inductive KVal where
  | nan (s : Bool)
  | inf (s : Bool)
  | zero (s : Bool)
  | num (s : Bool) (e : Nat)
  deriving DecidableEq, Repr

/-- Reads a code at a behaviour level (R35, R61). -/
def Kl.decode (k : Kl) (level c : Nat) : KVal :=
  let s := bitAt c (k.width - 1)
  let e := c % 2 ^ (k.width - 1)
  if e = 0 then .zero s
  else if k = .w ∧ level = 1 then .num s e
  else if e = k.nan then .nan s
  else if k = .w ∧ e = 0x7FFF then .inf s
  else .num s e

/-- The sign bit of a code. -/
def Kl.signBit (k : Kl) (s : Bool) : Nat := if s then 2 ^ (k.width - 1) else 0

/-- q and f of a log offset p (R38): q is the floor. -/
def offsetQ (F : Nat) (p : Int) : Int := p / (F : Int)
def offsetF (F : Nat) (p : Int) : Nat := (p % (F : Int)).toNat

/-- The exact value of a finite Kyonex code at scale s (R47). -/
def Kl.value (k : Kl) (level : Nat) (scale : Int) (c : Nat) : Val :=
  match k.decode level c with
  | .nan s => .nan s (2 ^ 51)
  | .inf s => .inf s
  | .zero s => .fin s 0 0
  | .num s e =>
    let p : Int := (e : Int) - k.bias + k.steps * scale
    .fin s (tabT k.steps (offsetF k.steps p)) (offsetQ k.steps p - 23)

/-! ### Rounding into a Kyonex format -/

/-- What a rounding wrote: code, saturation, flush. -/
structure Rounded where
  code : Nat
  sat : Bool := false
  flush : Bool := false
  deriving DecidableEq, Repr

/-- The largest j below F whose table entry is at most M × 2^(23 − n), from bit `i - 1` down (the floor search of R44). -/
def floorGo (F M n : Nat) : Nat → Nat → Nat
  | 0, lo => lo
  | i + 1, lo =>
    let j := lo + 2 ^ i
    if j < F ∧ tabT F j * 2 ^ n ≤ M * 2 ^ 23 then floorGo F M n i j else floorGo F M n i lo

/-- The range check that ends R44 and R49. -/
def Kl.place (k : Kl) (level : Nat) (s : Bool) (e : Int) : Rounded :=
  if e > k.emax level then ⟨k.signBit s + k.emax level, true, false⟩
  else if e < 1 then ⟨k.signBit s, false, true⟩
  else ⟨k.signBit s + e.toNat, false, false⟩

/-- R44: a non-zero value (−1)^s × M × 2^X into a format at output scale `sOut`. -/
def Kl.round (k : Kl) (level : Nat) (r : Round) (u : Nat) (sOut : Int) (s : Bool) (M : Nat) (X : Int) : Rounded :=
  let F := k.steps
  let n := ilog M
  let o : Int := (n : Int) + X
  let lo := floorGo F M n 8 0
  let f := match r with
    | .nearest =>
      let a := M * 2 ^ 23
      let b := tabU F lo * 2 ^ n
      if a > b then lo + 1 else if a < b then lo
      else if ((k.bias : Int) + F * (o - sOut) + lo) % 2 = 0 then lo else lo + 1
    | .towardZero => lo
    | .stochastic =>
      let num := M * 2 ^ 23 - tabT F lo * 2 ^ n
      let den := (tabT F (lo + 1) - tabT F lo) * 2 ^ n
      if u < num * 65536 / den then lo + 1 else lo
  let o' := if f = F then o + 1 else o
  let f' := if f = F then 0 else f
  k.place level s ((k.bias : Int) + F * (o' - sOut) + f')

/-! ### Products and the accumulator -/

/-- The product offset p of R37 and its F: both formats, codes and scales. `none` for a pair R65 does not list. -/
def productOffset (ka kb : Kl) (ea eb : Nat) (sa sb : Int) : Option (Nat × Int) :=
  match ka, kb with
  | .a, .a => some (8, (ea : Int) - 64 + ((eb : Int) - 64) + 8 * (sa + sb))
  | .b, .b => some (4, (ea : Int) - 64 + ((eb : Int) - 64) + 4 * (sa + sb))
  | .a, .b => some (8, (ea : Int) - 64 + 2 * ((eb : Int) - 64) + 8 * (sa + sb))
  | .b, .a => some (8, (eb : Int) - 64 + 2 * ((ea : Int) - 64) + 8 * (sa + sb))
  | .w, .w => some (256, (ea : Int) - 16384 + ((eb : Int) - 16384) + 256 * (sa + sb))
  | _, _ => none

/-- Qtop of R39. -/
def qtop (ka kb : Kl) : Int :=
  match ka, kb with
  | .a, .a => 16
  | .b, .b => 32
  | .w, .w => 128
  | _, _ => 24

/-- An operand element as the arrays see it: format, code, scale, NaN mark of R105. -/
structure Operand where
  kl : Kl
  code : Nat
  scale : Int := 0
  mark : Bool := false
  deriving DecidableEq, Repr

/-- The value of an operand at a level, its NaN mark included (R61, R105). -/
def Operand.val (o : Operand) (level : Nat) : KVal :=
  if o.mark then .nan (bitAt o.code (o.kl.width - 1)) else o.kl.decode level o.code

/-- The exact value of an operand at its scale, its NaN mark included (R47, R61, R105). -/
def Operand.value (o : Operand) (level : Nat) : Val :=
  match o.val level with
  | .nan s => .nan s (2 ^ 51)
  | _ => o.kl.value level o.scale o.code

/-- Exact widening to KL16 (R105). -/
def Operand.widen (o : Operand) (level : Nat) : Operand :=
  match o.kl with
  | .w => o
  | k =>
    let s := Kl.signBit .w (bitAt o.code 7)
    match k.decode level o.code with
    | .nan _ => { kl := .w, code := s + 0x7FFE, scale := o.scale, mark := true }
    | .num _ e => { kl := .w, code := s + (16384 + (if k = .a then 32 else 64) * ((e : Int) - 64)).toNat, scale := o.scale }
    | _ => { kl := .w, code := s, scale := o.scale }

/-- The bound of an accumulator (R41). -/
def accBound : Int := 2 ^ 47 - 1

/-- Adds a linear product to an accumulator with the saturation of R41. -/
def Acc.addLinear (c : Acc) (v : Int) : Acc :=
  if c.stuck then c
  else if c.a + v > accBound then { c with a := accBound, stuck := true }
  else if c.a + v < -accBound then { c with a := -accBound, stuck := true }
  else { c with a := c.a + v }

/-- The integer a finite product enters the accumulator as (R40). -/
def linearProduct (X : Int) (s : Bool) (F : Nat) (p : Int) : Int :=
  let t := tabT F (offsetF F p)
  let sh := offsetQ F p - 23 - X
  sgn s (if sh ≥ 0 then t * 2 ^ sh.toNat else t / 2 ^ (-sh).toNat)

/-- One product: moving operand `m`, stationary operand `b` (R37 to R42). -/
def Acc.mac (level : Nat) (X : Int) (c : Acc) (m b : Operand) : Acc :=
  let setNan (s : Bool) (seen : Bool) : Acc :=
    { c with nan := true, nanSign := if c.nanSeen then c.nanSign else (seen && s), nanSeen := c.nanSeen || seen }
  match m.val level, b.val level with
  | .nan s, _ => setNan s true
  | _, .nan s => setNan s true
  | .inf _, .zero _ => setNan false false
  | .zero _, .inf _ => setNan false false
  | .inf s, .inf t => if xor s t then { c with ninf := true } else { c with pinf := true }
  | .inf s, .num t _ => if xor s t then { c with ninf := true } else { c with pinf := true }
  | .num s _, .inf t => if xor s t then { c with ninf := true } else { c with pinf := true }
  | .num s ea, .num t eb =>
    match productOffset m.kl b.kl ea eb m.scale b.scale with
    | some (F, p) => c.addLinear (linearProduct X (xor s t) F p)
    | none => c
  | _, _ => c

/-- A reduction: products in the order given (R40). -/
def Acc.run (level : Nat) (X : Int) (c : Acc) : List (Operand × Operand) → Acc
  | [] => c
  | (m, b) :: r => Acc.run level X (Acc.mac level X c m b) r

/-! ### Outputs -/

/-- A value to write: resolved from an accumulator or a vector operation. `stuck` marks the saturated magnitude of R41, `kl` the Kyonex
code (format, scale, code) it is taken from, so that R49 applies. -/
structure OutVal where
  v : Val
  stuck : Bool := false
  kl : Option (Kl × Int × Nat) := none
  deriving DecidableEq, Repr

/-- Resolves an accumulator (R42). -/
def Acc.resolve (X : Int) (c : Acc) : OutVal :=
  if c.nan ∨ (c.pinf ∧ c.ninf) then { v := .nan c.nanSign (2 ^ 51) }
  else if c.pinf then { v := .inf false }
  else if c.ninf then { v := .inf true }
  else if c.a = 0 ∧ ¬ c.stuck then { v := .fin false 0 0 }
  else { v := .fin (decide (c.a < 0)) c.a.natAbs X, stuck := c.stuck }

/-- What one written element gives: codes, what the watch counts (R96, R100), FP_FLAGS bits. -/
structure Written where
  hi : Nat
  lo : Nat := 0
  sat : Bool := false
  flush : Bool := false
  nonfinite : Bool := false
  zero : Bool := false
  k : Option Int := none
  flags : Nat := 0
  deriving DecidableEq, Repr

/-- The octave floor(log2 |x|) of a finite non-zero value (R96). -/
def Val.octave : Val → Option Int
  | .fin _ m e => if m = 0 then none else some ((ilog m : Int) + e)
  | _ => none

/-- KL flag bits of a written Kyonex element (R53). -/
def klFlags (nf sat fl : Bool) : Nat :=
  (if nf then fKLNONFINITE else 0) ||| (if sat then fKLSAT else 0) ||| (if fl then fKLFLUSH else 0)

/-- Writes a value into a Kyonex format (R42, R44, R48, R61). A value that flushes to zero is finite and not zero before its rounding, so its
octave counts for MAXK_LIVE: the model's reading of R96, which also says that zeros are never counted (log 152). At level 1 a NaN that goes
into KL16 as a zero raises KL_NONFINITE with its count, though no Kyonex NaN is produced: the model's choice (log 153). -/
def Kl.write (k : Kl) (level : Nat) (r : Round) (u : Nat) (sOut : Int) (o : OutVal) : Written :=
  match o.v with
  | .nan s _ =>
    if k = .w ∧ level = 1 then { hi := k.signBit s, nonfinite := true, flags := klFlags true false false }
    else { hi := k.signBit s + k.nan, nonfinite := true, flags := klFlags true false false }
  | .inf s =>
    if k = .w ∧ level ≠ 1 then { hi := k.signBit s + 0x7FFF, nonfinite := true, flags := klFlags true false false }
    else { hi := k.signBit s + k.emax level, sat := true, flags := klFlags false true false }
  | .fin s m e =>
    if m = 0 then { hi := k.signBit s, zero := true }
    else if o.stuck then { hi := k.signBit s + k.emax level, sat := true, k := Val.octave o.v, flags := klFlags false true false }
    else
      let w := k.round level r u sOut s m e
      { hi := w.code, sat := w.sat, flush := w.flush, k := Val.octave o.v, flags := klFlags false w.sat w.flush }

/-- STOCHASTIC into binary16 (R46): floor code, then up when u < t. The lower representable value and the step up are taken of the
magnitude for either sign, as R44 does in the Kyonex formats: R46 does not say so of a negative value (log 153). -/
def stochastic16 (u : Nat) (s : Bool) (m : Nat) (e : Int) : Nat × Bool × Bool :=
  let top : Int := (ilog m : Int) + e
  let q : Int := max (top - 10) Bin.b16.qmin
  let (i, exact) := toQuantum .rtz s m e q
  let rest := if q ≤ e then 0 else m % 2 ^ (q - e).toNat
  let t := if q ≤ e then 0 else rest * 65536 / 2 ^ (q - e).toNat
  let i' := if u < t then i + 1 else i
  ((q - Bin.b16.qmin).toNat * 2 ^ 10 + i', exact, decide (i' < 2 ^ 10) && decide (q = Bin.b16.qmin))

/-- What a saturation in binary16 raises (R46). -/
def satFlags16 : Nat := fKLSAT ||| fOVERFLOW ||| fINEXACT

/-- Rounds a value into a binary format under a rounding attribute and writes it; `fl` are flags raised before. In binary16 a magnitude
above 65504 under roundTowardZero and an overflow are saturations (R46; under the two directed attributes the overflow's count is the
model's choice, log 153). -/
def Bin.write (b : Bin) (m : Rm) (v : Val) (fl : Nat) : Written :=
  match b.encode m v with
  | (c, g) =>
    if b = .b16 then
      match v with
      | .fin _ n _ =>
        let mag := c % 2 ^ 15
        let sat := g &&& fOVERFLOW != 0 || (m == .rtz && mag == 0x7BFF && g &&& fINEXACT != 0)
        { hi := c, sat := sat, nonfinite := mag == 0x7C00, k := if n = 0 ∨ mag = 0x7C00 then none else Val.octave v, zero := mag == 0
          flags := fl ||| g ||| (if sat then satFlags16 else 0) }
      | _ => { hi := c, nonfinite := true, flags := fl ||| g }
    else { hi := c, nonfinite := v.isNan, flags := fl ||| g }

/-- Writes a value into binary16 (R46): counts and flags. An accumulator stuck under R41 gives the largest finite magnitude whatever ROUND
says, and raises what a saturation of R46 raises: the model's choice, as R41 names no flag (log 153). A value whose code is zero counts its
octave, as in the Kyonex formats (log 152). -/
def write16 (r : Round) (u : Nat) (o : OutVal) : Written :=
  match o.v, r with
  | .fin s m e, .stochastic =>
    if m = 0 then { hi := Bin.b16.signBit s, zero := true }
    else match stochastic16 u s m e with
      | (c, exact, tiny) =>
        if o.stuck ∨ c ≥ 0x7C00 ∨ Val.cmp (.fin false m e) (.fin false 65504 0) = 1 then
          { hi := Bin.b16.signBit s + 0x7BFF, sat := true, k := Val.octave o.v, flags := satFlags16 }
        else
          { hi := Bin.b16.signBit s + c, k := Val.octave o.v, zero := c == 0,
            flags := (if exact then 0 else fINEXACT) ||| (if tiny && !exact then fUNDERFLOW else 0) }
  | .fin s m _, _ =>
    if o.stuck ∧ m ≠ 0 then { hi := Bin.b16.signBit s + 0x7BFF, sat := true, k := Val.octave o.v, flags := satFlags16 }
    else Bin.write .b16 (if r = .towardZero then .rtz else .rne) o.v 0
  | v, _ => Bin.write .b16 .rne v 0

/-- The value a written code of an output format denotes. -/
def outCodeValue (fmt : Fmt) (level : Nat) (scale : Int) (c : Nat) : Val :=
  match fmt with
  | .kl8a => Kl.value .a level scale c
  | .kl8b => Kl.value .b level scale c
  | .kl16 => Kl.value .w level scale c
  | .bin b => b.decode c

/-- The Kyonex format of a format. -/
def Fmt.kl : Fmt → Option Kl
  | .kl8a => some .a | .kl8b => some .b | .kl16 => some .w | .bin _ => none

/-- A log offset of `num` / `den` octaves placed in a Kyonex format (R49): rounded to a whole destination unit. -/
def Kl.placeOffset (d : Kl) (level : Nat) (r : Round) (u : Nat) (sOut : Int) (g : Bool) (num den : Int) : Rounded :=
  let n := num * d.steps
  let fl := n / den
  let rem := n % den
  let base : Int := d.bias - d.steps * sOut
  let up : Bool := match r with
    | .nearest => decide (2 * rem > den) || (decide (2 * rem = den) && decide ((base + fl) % 2 ≠ 0))
    | .towardZero => false
    | .stochastic => decide ((u : Int) < rem * 65536 / den)
  d.place level g (base + fl + (if up then 1 else 0))

/-- Conversion between two Kyonex formats on codes (R49): `c` at scale `s` into `d` at scale `sOut`. At level 1 a NaN of a KL8 format goes
into KL16 as R61's table says of a binary NaN and of the accumulator's: a zero with its sign, counted non-finite. The table does not name
this source; that it goes the same way is the model's choice (log 153). -/
def klToKl (k d : Kl) (level : Nat) (r : Round) (u : Nat) (s sOut : Int) (c : Nat) : Written :=
  match k.decode level c with
  | .num g e =>
    let w := d.placeOffset level r u sOut g ((e : Int) - k.bias + k.steps * s) k.steps
    { hi := w.code, sat := w.sat, flush := w.flush, k := Val.octave (k.value level s c), flags := klFlags false w.sat w.flush }
  | _ => d.write level r u sOut { v := k.value level s c }

/-- Writes a value into any narrow output format. -/
def writeOne (fmt : Fmt) (level : Nat) (r : Round) (u : Nat) (sOut : Int) (o : OutVal) : Written :=
  match Fmt.kl fmt, o.kl with
  | some d, some (k, s, c) => klToKl k d level r u s sOut c
  | some d, none => d.write level r u sOut o
  | none, _ =>
    match fmt with
    | .bin .b32 => Bin.write .b32 .rne o.v 0
    | .bin .b64 => Bin.write .b64 .rne o.v 0
    | _ => write16 r u o

/-- Rounding of lo in a pair (R59, R61). -/
def loRound (level : Nat) : Round := if level = 3 then .nearest else .towardZero

/-- FP_FLAGS bits of IEEE 754 alone (R53). -/
def ieeeFlags (f : Nat) : Nat := f % 32

/-- Writes a compensated pair (R59, R60): hi by NEAREST, lo the rounded residual. lo raises the IEEE flags of its own rounding (R46); a flush
of lo counts nowhere and raises nothing (log 153). -/
def writePair (fmt : Fmt) (level : Nat) (sOut : Int) (o : OutVal) : Written :=
  let h := writeOne fmt level .nearest 0 sOut { o with kl := none }
  let hv := outCodeValue fmt level sOut h.hi
  let special := h.sat || h.flush || h.nonfinite || h.zero
  if special then { h with lo := 0 }
  else
    let lo := writeOne fmt level (loRound level) 0 sOut { v := (Val.add .rne o.v hv.neg).1 }
    { h with lo := if lo.flush then 0 else lo.hi, flags := h.flags ||| ieeeFlags lo.flags }

/-- Format of a code of R66's table. -/
def fmtOfCode : Nat → Fmt
  | 0 => .kl8a | 1 => .kl8b | 2 => .kl16 | 3 => .bin .b16 | 4 => .bin .b32 | _ => .bin .b64

/-- Bytes of one element. -/
def Fmt.bytes : Fmt → Nat
  | .kl8a => 1 | .kl8b => 1 | .kl16 => 2 | .bin .b16 => 2 | .bin .b32 => 4 | .bin .b64 => 8

/-- Ftop by format code (R97). -/
def ftop : Nat → Int
  | 0 => 7 | 1 => 15 | 2 => 63 | _ => 15

/-- Rounding rule of a ROUND field (R43). -/
def roundOfCode : Nat → Round
  | 0 => .nearest | 1 => .towardZero | _ => .stochastic

end Sys2Proof.Machine
end

