-- ==== Sys2Proof/Machine/Ops.lean ====
section
/-! DEFINITION. The named operations over the state: events, chart, memory, completions, result slots, contexts, sync cells. -/
namespace Sys2Proof.Machine

/-- Runs a step only where the state allows the event. -/
def gate (c : Bool) (why : String) (t : State) : Out := if c then .next t else .refused (.notEnabled why)

/-- Whether a field lies in a range. -/
def within (lo v hi : Nat) : Bool := decide (lo ≤ v) && decide (v ≤ hi)

/-! ### Events and device state -/

/-- Sends the message of an MSI-X entry; an entry that is masked becomes pending instead (R243). -/
def sendMsix (n : Nat) (s : State) : State :=
  if n ∈ s.host.msixMasked then { s with host := { s.host with msixPending := if n ∈ s.host.msixPending then s.host.msixPending else s.host.msixPending ++ [n] } }
  else { s with host := { s.host with msix := s.host.msix ++ [n] } }

/-- Sets an EVENT_CAUSE bit; sends MSI-X entry 65 when it goes from 0 to 1 unmasked (R265). -/
def raiseEvent (bit : Nat) (s : State) : State :=
  let was := s.regs.eventCause.getLsbD bit
  let s1 := { s with regs := { s.regs with eventCause := s.regs.eventCause ||| BitVec.ofNat 32 (2 ^ bit) } }
  if !was && !(s.regs.eventMask.getLsbD bit) then sendMsix 65 s1 else s1

/-- DEVICE_STATE.STATE codes (R265). -/
def DevState.code : DevState → Nat
  | .off => 0 | .boot => 1 | .hold => 2 | .ready => 3 | .run => 4 | .fixing => 5 | .anchored => 6 | .standby => 7 | .failed => 8

/-- PlatformEventMessage for the change of a PLDM state sensor, when an event receiver is set (R383). -/
def sensorEvent (sensor old new : Nat) (s : State) : State :=
  if old ≠ new ∧ s.mgmt.receiver.isSome then { s with mgmt := { s.mgmt with replies := .event sensor new old :: s.mgmt.replies } } else s

/-- Enters a device state: STATE, DETAIL, EVENT_CAUSE.STATE_CHANGE, the event of the DEVICE_STATE sensor (R249, R362, R383). -/
def enterState (st : DevState) (detail : Nat) (s : State) : State :=
  if s.dev.st = st then { s with dev := { s.dev with detail := detail } }
  else sensorEvent 0x10 s.dev.st.code st.code (raiseEvent 2 { s with dev := { s.dev with st := st, detail := detail } })

/-- The transmitters of all ports go to electrical idle, trained settings kept (R362). -/
def idlePorts (s : State) : State := { s with fab := { s.fab with ports := s.fab.ports.map (fun p => { p with up := false, training := false }) } }

/-- A port takes up its committed mode (R366): UP in the same mode it resumes with its trained settings, otherwise it is down until
PORT_TRAINING starts its training; a DISABLED port stays idle. A change of mode gives up the settings trained in the old one. -/
def portMode (mode : Nat) (x : Port) : Port :=
  if x.mode ≠ mode then { x with mode := mode, up := false, training := false, width := 0, active := [] }
  else { x with up := decide (x.outcome ≤ 2 ∧ x.width > 0), training := false }

/-- Every port resumes in the mode it has. -/
def resumePorts (s : State) : State := { s with fab := { s.fab with ports := s.fab.ports.map (fun p => portMode p.mode p) } }

/-- Enters HOLD with a detail: the fabric's transmitters go to electrical idle (R362). -/
def enterHold (detail : Nat) (s : State) : State := enterState .hold detail (idlePorts s)

/-- A fault of class ABSORBED (R253, R302). -/
def noteSoft (s : State) : State := { s with fix := { s.fix with absorbed := s.fix.absorbed + 1 } }

/-- A free value and the state with its counter advanced (log 1). -/
def freshValue (s : State) : BitVec 64 × State := (Config.freeValue s.free, { s with free := s.free + 1 })

/-- A new work or operation number. -/
def freshId (s : State) : Nat × State := (s.nextId, { s with nextId := s.nextId + 1 })

/-! ### The fabric's flits (R271, R278, R279) -/

/-- A flit's header and payload, then the CRC-32C over both (R271). -/
def flitBytes (f : Flit) : List Byte :=
  let b := leBytes 1 f.cls ++ leBytes 1 (if f.transit then 1 else 0) ++ leBytes 2 f.dest ++ leBytes 2 f.src ++ leBytes 2 f.seq ++ leBytes 2 f.ack ++
    leBytes 1 f.len ++ zeros 1 ++ f.payload
  b ++ leBytes 4 (crc32c b).toNat

/-- The flit that 256 bytes hold (R271). -/
def flitOf (b : List Byte) : Flit :=
  { cls := fieldAt b 0 1, transit := bitAt (fieldAt b 1 1) 0, dest := fieldAt b 2 2, src := fieldAt b 4 2, seq := fieldAt b 6 2, ack := fieldAt b 8 2
    len := fieldAt b 10 1, payload := (b.drop 12).take 240 }

/-- The flit carries GROUP_JOIN or its reply (R246, R274, R283): the header and the 32 bytes of the one, or the completion entry of the other. -/
def joinFlit (f : Flit) : Bool :=
  f.cls == 3 && ((f.len == 96 && fieldAt f.payload 0 2 == 0x0510) || (f.len == 32 && fieldAt f.payload 4 2 == 0x0510))

/-- Whether a port carries a flit: up, and on a FOREIGN port only GROUP_JOIN and its reply (R274). -/
def portCarries (x : Port) (f : Flit) : Bool := x.up && (x.outcome != 7 || joinFlit f)

/-- A port of this module (R270). -/
def Fabric.port (b : Fabric) (k : Nat) : Port := (b.ports[k]?).getD {}

/-- The port a flit leaves by: the first port its destination's route lists that carries it (R279, R280). -/
def Fabric.route (b : Fabric) (f : Flit) : Option Nat := ((tget b.routes f.dest).getD []).find? (fun k => portCarries (b.port k) f)

/-- The flit of a port's queue served next: of the lowest class, the earliest (R278). -/
def nextQueued (l : List Flit) : Option Flit := let c := (l.map Flit.cls).foldl min 255; l.find? (fun f => f.cls == c)

/-- Takes up to `n` queued flits into the replay buffer of 1,024 flits: each takes the link's sequence number and the acknowledgement of the
last flit received (R271). The port after it and the flits sent. -/
def pumpPort (k : Nat) : Nat → Port → Port × List Flit
  | 0, x => (x, [])
  | n + 1, x =>
    match if x.up && decide (x.replay.length < 1024) then nextQueued x.queue else none with
    | none => (x, [])
    | some f =>
      let g : Flit := { f with seq := x.txSeq, ack := (x.rxSeq + 65535) % 65536, transit := !Config.peerIs k f.dest }
      let y : Port := { x with queue := x.queue.erase f, replay := x.replay ++ [g], txSeq := (x.txSeq + 1) % 65536 }
      match pumpPort k n y with
      | (z, l) => (z, g :: l)

/-- Sends what a port's queue holds, as far as its replay buffer has room. -/
def Fabric.pump (k : Nat) (b : Fabric) : Fabric :=
  match pumpPort k (b.port k).queue.length (b.port k) with
  | (x, l) => { b with ports := lmod b.ports k (fun _ => x), wire := (l.map (fun f => (k, flitBytes f))).reverse ++ b.wire }

/-- Puts a flit on a port's link. -/
def Fabric.sendOn (k : Nat) (f : Flit) (b : Fabric) : Fabric :=
  Fabric.pump k { b with ports := lmod b.ports k (fun x => { x with queue := x.queue ++ [f] }) }

/-- Sends a flit by its route: on a NATIVE port as a flit, in ETHERNET mode by the transport of R272; without a port it waits (R277, R279). -/
def Fabric.emit (f : Flit) (b : Fabric) : Fabric :=
  match b.route f with
  | some k => if (b.port k).mode = 0 then b.sendOn k f else b
  | none => { b with waiting := b.waiting ++ [f] }

/-- Sends again what waits for a port, in order. -/
def Fabric.retry (b : Fabric) : Fabric := b.waiting.foldl (fun c f => c.emit f) { b with waiting := [] }

/-- Pieces of at most 240 bytes, one at least. -/
def flitPieces : Nat → List Byte → List (List Byte)
  | 0, l => [l.take 240]
  | n + 1, l => if l.length ≤ 240 then [l] else l.take 240 :: flitPieces n (l.drop 240)

/-- Sends bytes to a rank in a class as flits (R271, R278); payload bytes that LEN does not count are free. -/
def Fabric.sendBytes (cls dest src : Nat) (l : List Byte) (b : Fabric) : Fabric :=
  (flitPieces l.length l).foldl (fun c d =>
    c.emit { cls := cls, dest := dest, src := src, seq := 0, ack := 0, len := d.length
             payload := d ++ (List.range (240 - d.length)).map (fun i => Config.freeByte (0xF000 + d.length) i) }) b

/-- Sends a message to another module (R278): it is recorded, and its bytes leave as flits (log 160). Destination 0xFFFF is the peer of a link. -/
def sendMsg (cls dest : Nat) (name : String) (args : List Nat) (s : State) : State :=
  let b : Fabric := { s.fab with sent := ⟨cls, dest, name, args⟩ :: s.fab.sent }
  { s with fab := if dest = 0xFFFF then b else b.sendBytes cls dest s.grp.rank (Config.messageBytes s.fab.sent.length) }

/-! ### Units and the chart -/

/-- Unit kinds and index ranges (R19). -/
def unitValid (u : Nat) : Bool :=
  let k := u / 4096
  let i := u % 4096
  match k with
  | 1 => decide (i < 832) | 2 => decide (i < 3328) | 3 => decide (i < 8) | 4 => decide (i < 24)
  | 5 => decide (i < 64) && decide (i % 16 < 9) | 6 => decide (i < 6) | 7 => decide (i < 48) | 8 => decide (i < 2) | 9 => decide (i < 30)
  | _ => false

/-- Unit IDs of things by their number (R19). -/
def uCluster (p : Nat) : Nat := 0x1000 + p
def uMemDie (m : Nat) : Nat := 0x3000 + m
def uStack (n : Nat) : Nat := 0x4000 + n
def uEngine (q e : Nat) : Nat := 0x5000 + 16 * q + e
def uPort (k : Nat) : Nat := 0x6000 + k
def uLane (k l : Nat) : Nat := 0x7000 + 8 * k + l
def uSup (n : Nat) : Nat := 0x9000 + n

/-- The unit ID of the active Binnacle (R216). -/
def binnacleUnit (s : State) : Nat := if s.dev.bbActive then 0x8001 else 0x8000

/-- A unit's state before any change: spares at positions 50 and 51, BB the standby (R14, R20). -/
def unitDefault (u : Nat) : UnitState :=
  if u / 4096 = 1 ∧ u % 4096 % 52 ≥ 50 then .spare else if u = 0x8001 then .spare else .healthy

/-- A unit's record. -/
def unitRec (s : State) (u : Nat) : UnitRec := (tget s.chart.units u).getD ⟨unitDefault u, 1⟩

/-- A unit's charted state and change epoch (R20, R24). -/
def unitState (s : State) (u : Nat) : UnitState := (unitRec s u).st
def changeEpoch (s : State) (u : Nat) : Word := (unitRec s u).change

/-- The physical cluster that carries a logical cluster (R14). -/
def carrier (s : State) (l : Nat) : Nat := (tget s.chart.map l).getD (52 * (l / 50) + l % 50)

/-- The logical identities a physical cluster carries, ascending. -/
def identities (s : State) (p : Nat) : List Nat :=
  ((List.range 50).map (fun i => 50 * (p / 52) + i)).filter (fun l => carrier s l == p)

/-- Epoch X is older than epoch Y (R22). -/
def epochOlder (x y : Word) : Bool := let d := (y - x).toNat; decide (1 ≤ d) && decide (d ≤ 2 ^ 31 - 1)

/-- The epoch after an epoch (R22). -/
def epochNext (e : Word) : Word := if e = 0xFFFFFFFF then 1 else e + 1

/-- Codes of the unit states (R20). -/
def UnitStateCode : UnitState → Nat
  | .healthy => 0 | .spare => 1 | .testing => 2 | .quarantined => 3 | .failed => 4 | .absent => 5

/-- The unit state of a code. -/
def unitStateOf : Nat → Option UnitState
  | 0 => some .healthy | 1 => some .spare | 2 => some .testing | 3 => some .quarantined | 4 => some .failed | 5 => some .absent
  | _ => none

/-- Whether R21 permits a transition of a unit of kind `k`. -/
def transitionOk (k : Nat) (a b : UnitState) : Bool :=
  match a, b with
  | .absent, _ => false
  | _, .failed => a != .failed
  | .healthy, .quarantined => true
  | .healthy, .testing => k == 1 || k == 2 || k == 5 || k == 7
  | .healthy, .spare => k == 1
  | .spare, .healthy => k == 1 || k == 8
  | .spare, .testing => k == 1
  | .spare, .quarantined => true
  | .testing, .quarantined => true
  | .testing, .spare => k == 1
  | .testing, .healthy => k == 7 || k == 2 || k == 5
  | .quarantined, .testing => k == 1 || k == 2 || k == 5 || k == 7
  | _, _ => false

/-- Whether a change takes a unit onto the fence list (R25, step 2). -/
def fences (a b : UnitState) : Bool := (a == .healthy && b != .healthy) || (a == .testing && b != .healthy && b != .testing)

/-- Begins the publication of a change, or queues it behind the one in publication (R23, R25). -/
def decideChange (c : Change) (s : State) : State :=
  match s.chart.pub with
  | some _ => { s with chart := { s.chart with waiting := s.chart.waiting ++ [c] } }
  | none => { s with chart := { s.chart with pub := some { change := c, epoch := epochNext s.chart.epoch } } }

/-- A new unit record under a change: the change epoch moves only when the state or the identity does (R24). -/
def changedRec (s : State) (e : Word) (u : Nat) (st : UnitState) (moved : Bool) : UnitRec :=
  if (unitRec s u).st = st ∧ ¬ moved then unitRec s u else ⟨st, e⟩

/-- Physical clusters whose identity a change alters: the carriers it leaves and the ones it takes. -/
def movedPhys (s : State) (c : Change) : List Nat := c.moves.flatMap (fun m => [carrier s m.1, m.2])

/-- Applies a change's unit records (R21, R24). -/
def applyUnits (s : State) (e : Word) (moved : List Nat) : List (Nat × UnitState) → Table UnitRec → Table UnitRec
  | [], t => t
  | (u, st) :: r, t => applyUnits s e moved r (tset t u (changedRec s e u st (decide (u ∈ moved.map uCluster))))

/-- Moved clusters that the change names no state for keep their state and take the new change epoch (R24). -/
def applyMovedUnits (s : State) (e : Word) (named : List Nat) : List Nat → Table UnitRec → Table UnitRec
  | [], t => t
  | p :: r, t =>
    applyMovedUnits s e named r (if uCluster p ∈ named then t else tset t (uCluster p) ⟨(unitRec s (uCluster p)).st, e⟩)

/-- Applies moves to the map (R14). -/
def applyMoves : List (Nat × Nat) → Table Nat → Table Nat
  | [], t => t
  | (l, p) :: r, t => applyMoves r (tset t l p)

/-- The array groups of a physical cluster (R19). -/
def arrayGroups (p : Nat) : List Nat := (List.range 4).map (fun a => 0x2000 + 4 * p + a)

/-- The states a cluster's change gives its array groups: TESTING while the cluster is TESTING, and no state of their own otherwise (R20,
R85). -/
def groupStates (s : State) (x : Nat × UnitState) : List (Nat × UnitState) :=
  if x.1 / 4096 = 1 then
    (if x.2 = .testing then (arrayGroups (x.1 % 4096)).map (fun g => (g, .testing))
     else if unitState s x.1 = .testing then (arrayGroups (x.1 % 4096)).map (fun g => (g, .healthy)) else [])
  else []

/-- Every unit a change gives a state: those it names, the array groups that follow their cluster, and the units it restates, each in the
state it holds then (R21, R32). -/
def fullUnits (s : State) (c : Change) : List (Nat × UnitState) :=
  c.units ++ c.units.flatMap (groupStates s) ++
    ((c.restate.filter (fun u => decide (u ∉ c.units.map Prod.fst))).map (fun u => (u, unitState s u)))

/-- Whether R21 permits a unit's change from the state it holds: a transition of its table or a restatement. -/
def permits (s : State) (x : Nat × UnitState) : Bool := x.2 == unitState s x.1 || transitionOk (x.1 / 4096) (unitState s x.1) x.2

/-- A change as it may still be made when its turn comes: a transition that R21 no longer permits falls away (log 148). -/
def lawful (s : State) (c : Change) : Change := { c with units := c.units.filter (permits s) }

/-- A carrier that takes an identity starts with an empty window (R138). -/
def emptyWindows (ls : List Nat) (e : Nat × Ctx) : Nat × Ctx :=
  (e.1, { e.2 with astk := { e.2.astk with held := e.2.astk.held.filter (fun h => decide (h.1 ∉ ls)) } })

/-- Publishes a change: epoch, states, map, fence list (R25 step 5, R29); the moved identities' windows are empty (R138). -/
def publishChange (c : Change) (e : Word) (s : State) : State :=
  let moved := movedPhys s c
  let units := fullUnits s c
  let us := applyMovedUnits s e (units.map Prod.fst) moved (applyUnits s e moved units s.chart.units)
  let off := (units.filter (fun x => x.2 == .healthy)).map Prod.fst
  { s with ctxs := s.ctxs.map (emptyWindows (c.moves.map Prod.fst)), chart := { s.chart with
      epoch := e, units := us, map := applyMoves c.moves s.chart.map, pub := none
      fence := s.chart.fence.filter (fun u => decide (u ∉ off)) } }

/-- Adds units to the fence list (R25 step 2). -/
def fenceUnits (c : Change) (s : State) : State :=
  let add := ((fullUnits s c).filter (fun x => fences (unitState s x.1) x.2)).map Prod.fst
  { s with chart := { s.chart with fence := add.foldl ninsert s.chart.fence } }

/-- A change decided and not yet published takes a unit out of HEALTHY (R25). -/
def leaving (s : State) (u : Nat) : Bool :=
  ((match s.chart.pub with
    | some b => [b.change]
    | none => []) ++ s.chart.waiting).any (fun c => c.units.any (fun x => x.1 == u && x.2 != .healthy))

/-- The supervisor of a unit's die: of a physical cluster, a memory die, a media engine or a port. -/
def supervisorOf (u : Nat) : Nat :=
  match u / 4096 with
  | 1 => u % 4096 / 52
  | 3 => 16 + u % 4096
  | 5 => 24 + u % 4096 / 16
  | 6 => 28 + u % 4096 / 3
  | _ => u % 4096

/-- The die of a unit restarts: its units hold their charted states and issue nothing (R306). -/
def restarts (s : State) (u : Nat) : Bool := decide (supervisorOf u ∈ s.chart.restarting)

/-- A unit takes part in work: HEALTHY, not leaving, on a die that does not restart. -/
def unitServes (s : State) (u : Nat) : Bool := unitState s u == .healthy && !leaving s u && !restarts s u

/-- The carrier of a logical cluster may take work: HEALTHY, not fenced or leaving, its supervisor not restarting, no retune, no planned move of one
of its identities due (R16, R29, R305, R306, R341). -/
def clusterServes (s : State) (l : Nat) : Bool :=
  let p := carrier s l
  unitState s (uCluster p) == .healthy && decide (uCluster p ∉ s.chart.fence) && !leaving s (uCluster p) &&
    decide (p / 52 ∉ s.chart.restarting) && !s.chart.planned.any (fun m => carrier s m.1 == p) && !s.grp.retune

/-- Writes a chart-skew record: the log keeps the latest 256 (R33), and EVENT_CAUSE.CHART_SKEW is set (R265). -/
def logSkew (unit cause reporter : Nat) (carried : Word) (s : State) : State :=
  let r : SkewRec := ⟨unit, cause, reporter, carried, changeEpoch s unit, BitVec.ofNat 32 s.dev.step⟩
  let l := s.chart.skews ++ [r]
  raiseEvent 3 { s with chart := { s.chart with
    skews := if l.length > 256 then l.drop (l.length - 256) else l
    skewCount := sat32 s.chart.skewCount 1 }, bnd := { s.bnd with skewStep := s.bnd.skewStep + 1 } }

/-! ### Configuration sections in force -/

/-- A field of a section in force, or `d` when the section is not there. -/
def secField (s : State) (type off len d : Nat) : Nat :=
  match tget s.conf.sections type with
  | some b => fieldAt b off len
  | none => d

/-- Whether a section is in force. -/
def hasSec (s : State) (type : Nat) : Bool := (tget s.conf.sections type).isSome

/-- Armour size A of a quadrant in GiB (R190). -/
def armourGib (s : State) (q : Nat) : Nat := 5 * secField s 3 q 1 0

/-- Plain part P of a stack in GiB (R190). -/
def plainGib (s : State) (q : Nat) : Nat := 48 - armourGib s q - armourGib s q / 5

/-- MB_COUNT (R129, the training section). -/
def mbCount (s : State) : Nat := secField s 2 0 1 1

/-- The job seed (the identity section). -/
def jobSeed (s : State) : Nat := secField s 1 8 8 0

/-! ### Memory -/

/-- 2^30. -/
def gib : Nat := 2 ^ 30

/-- Key of a stack's byte. -/
def hbmKey (stack off : Nat) : Nat := stack * (48 * gib) + off

/-- Where a DPA lies (R190, R191, R207). -/
inductive Place where
  | plain (stack off : Nat)
  | armour (q stripe granule byte : Nat)
  | beyond
  deriving DecidableEq, Repr

/-- Locates a DPA. -/
def locate (s : State) (dpa : Nat) : Place :=
  let q := dpa / 2 ^ 40
  let o := dpa % 2 ^ 39
  if q ≥ 4 then .beyond
  else if bitAt dpa 39 then
    if o < 5 * armourGib s q * gib then .armour q (o / 20480) (o % 20480 / 4096) (o % 4096) else .beyond
  else
    if o < 6 * plainGib s q * gib then .plain (6 * q + o / 4096 % 6) (o / 24576 * 4096 + o % 4096) else .beyond

/-- The armour of a quadrant. -/
def armourOf (s : State) (q : Nat) : Armour := (s.mem.armour[q]?).getD {}

/-- Sets the armour of a quadrant; a change of STATE sets EVENT_CAUSE.ARMOUR (R265). -/
def setArmour (q : Nat) (a : Armour) (s : State) : State :=
  let s1 := { s with mem := { s.mem with armour := lset s.mem.armour q a } }
  if (armourOf s q).st = a.st then s1 else raiseEvent 1 s1

/-- The quadrant stack of the parity granule of a stripe (R207). -/
def parityJ (stripe : Nat) : Nat := 5 - stripe % 6

/-- The quadrant stack of a data granule of a stripe (R207). -/
def dataJ (stripe granule : Nat) : Nat := if granule < parityJ stripe then granule else granule + 1

/-- The surviving quadrant stacks in ascending order (R212). -/
def survivors (lost : Nat) : List Nat := (List.range 6).filter (fun j => j != lost)

/-- Key of a byte of the granule of a stripe on quadrant stack j (R207). -/
def poolKey (s : State) (q stripe j byte : Nat) : Nat := hbmKey (6 * q + j) (plainGib s q * gib + stripe * 4096 + byte)

/-- Key of a byte of the reserve copy of a stripe's lost granule (R212). -/
def reserveKey (s : State) (q stripe byte lost : Nat) : Nat :=
  hbmKey (6 * q + ((survivors lost)[stripe % 5]?).getD 0) ((plainGib s q + armourGib s q) * gib + stripe / 5 * 4096 + byte)

/-- Whether a lost granule is served from the reserve: REBUILT, or REBUILDING below the cursor (R209). -/
def fromReserve (a : Armour) (stripe : Nat) : Bool := a.st == 4 || (a.st == 3 && decide (stripe < a.cursor))

/-- Whether a stripe keeps parity: INTACT, DEGRADED, REBUILDING at or above the cursor (R209). -/
def keepsParity (a : Armour) (stripe : Nat) : Bool := a.st == 1 || a.st == 2 || (a.st == 3 && decide (stripe ≥ a.cursor))

/-- Why a read of device memory gives no data: poison (R205), or a place that does not exist (R191). -/
inductive MemErr where
  | poison (dpa : Nat)
  | beyond (dpa : Nat)
  deriving DecidableEq, Repr

/-- A byte of a stack, unless its block is poisoned. -/
def rawByte (s : State) (key : Nat) : Option Byte := if key / 64 ∈ s.mem.poison then none else some (Memory.get s.mem.hbm key)

/-- The exclusive-or of the bytes of a stripe on the given quadrant stacks. -/
def xorBytes (s : State) (q stripe byte : Nat) : List Nat → Option Byte
  | [] => some 0
  | j :: r => match rawByte s (poolKey s q stripe j byte), xorBytes s q stripe byte r with
    | some a, some b => some (a ^^^ b)
    | _, _ => none

/-- A byte of the armoured view (R209, R213). -/
def armourByte (s : State) (q stripe granule byte : Nat) : Option Byte :=
  let a := armourOf s q
  let j := dataJ stripe granule
  if a.st = 5 then none
  else if a.st ≥ 2 ∧ j = a.lostJ then
    if fromReserve a stripe then rawByte s (reserveKey s q stripe byte a.lostJ)
    else xorBytes s q stripe byte (survivors a.lostJ)
  else rawByte s (poolKey s q stripe j byte)

/-- The DPA of the 64-byte block of a DPA. -/
def blockDpa (dpa : Nat) : Nat := dpa / 64 * 64

/-- Reads a byte of device memory; poison is reported by its block (R191, R205, R206, R209). -/
def devByte (s : State) (dpa : Nat) : Except MemErr Byte :=
  match locate s dpa with
  | .beyond => .error (.beyond dpa)
  | .plain st off =>
    if st ∈ s.mem.lost then .error (.poison (blockDpa dpa))
    else match rawByte s (hbmKey st off) with
      | some b => .ok b
      | none => .error (.poison (blockDpa dpa))
  | .armour q r g b =>
    match armourByte s q r g b with
    | some v => .ok v
    | none => .error (.poison (blockDpa dpa))

/-- Reads `n` bytes of device memory. -/
def devRead (s : State) (dpa : Nat) : Nat → Except MemErr (List Byte)
  | 0 => .ok []
  | n + 1 =>
    match devByte s dpa, devRead s (dpa + 1) n with
    | .ok b, .ok r => .ok (b :: r)
    | .error e, _ => .error e
    | _, .error e => .error e

/-- Writes a raw stack byte. -/
def rawSet (key : Nat) (v : Byte) (s : State) : State := { s with mem := { s.mem with hbm := Memory.set s.mem.hbm key v } }

/-- Writes a byte of the armoured view: data and parity under R208, R209 and R211; refused in LOST. -/
def armourSet (q stripe granule byte : Nat) (v : Byte) (s : State) : State :=
  let a := armourOf s q
  let j := dataJ stripe granule
  let pj := parityJ stripe
  let pk := poolKey s q stripe pj byte
  if a.st = 5 then s
  else if a.st ≥ 2 ∧ fromReserve a stripe then
    if j = a.lostJ then rawSet (reserveKey s q stripe byte a.lostJ) v s else rawSet (poolKey s q stripe j byte) v s
  else if a.st ≥ 2 ∧ pj = a.lostJ then rawSet (poolKey s q stripe j byte) v s
  else if a.st ≥ 2 ∧ j = a.lostJ then
    let others := (survivors a.lostJ).filter (fun k => k != pj)
    rawSet pk (others.foldl (fun x k => x ^^^ Memory.get s.mem.hbm (poolKey s q stripe k byte)) v) s
  else
    let old := Memory.get s.mem.hbm (poolKey s q stripe j byte)
    rawSet pk (Memory.get s.mem.hbm pk ^^^ old ^^^ v) (rawSet (poolKey s q stripe j byte) v s)

/-- Writes a byte of device memory. -/
def devSet (dpa : Nat) (v : Byte) (s : State) : State :=
  match locate s dpa with
  | .beyond => s
  | .plain st off => if st ∈ s.mem.lost then s else rawSet (hbmKey st off) v s
  | .armour q r g b => armourSet q r g b v s

/-- Writes bytes upward. -/
def devSetN (dpa : Nat) : List Byte → State → State
  | [], s => s
  | b :: r, s => devSetN (dpa + 1) r (devSet dpa b s)

/-- The stack key of the 64-byte block of a DPA's own data, if it has one. -/
def blockOf (s : State) (dpa : Nat) : Option Nat :=
  match locate s dpa with
  | .plain st off => some (hbmKey st off / 64)
  | .armour q r g b =>
    let a := armourOf s q
    if a.st ≥ 2 ∧ dataJ r g = a.lostJ then (if fromReserve a r then some (reserveKey s q r b a.lostJ / 64) else none)
    else some (poolKey s q r (dataJ r g) b / 64)
  | .beyond => none

/-! ### Stack caches and stripe buffers (R192, R207, R208) -/

/-- The key of the cache line that holds a DPA (R192): its place in a stack, or that of its data granule. -/
def lineOf (s : State) (dpa : Nat) : Option Nat :=
  match locate s dpa with
  | .plain st off => some (hbmKey st off / 128)
  | .armour q r g b => some (poolKey s q r (dataJ r g) b / 128)
  | .beyond => none

/-- The stack of a line, and the memory die that serves the stack (R11). -/
def lineStack (key : Nat) : Nat := key * 128 / (48 * gib)
def lineDie (key : Nat) : Nat := lineStack key / 3

/-- Lines of the set that a line belongs to, in its die's cache. -/
def lineSet (s : State) (key : Nat) : List Line :=
  s.mem.cache.filter (fun l => lineDie l.key == lineDie key && Config.cacheSet l.key % 49152 == Config.cacheSet key % 49152)

/-- A line enters its cache; in a set whose 16 ways are full, a line that no rule names leaves, written back where it is dirty (R192; log 156). -/
def placeLine (key : Nat) (dirty : Bool) (s : State) : State :=
  let set := lineSet s key
  if set.length < 16 then { s with mem := { s.mem with cache := s.mem.cache ++ [⟨key, dirty⟩] } }
  else match freshValue s with
    | (f, t) =>
      let out := (set[f.toNat % set.length]?).map Line.key
      { t with mem := { t.mem with cache := t.mem.cache.filter (fun l => some l.key != out) ++ [⟨key, dirty⟩] } }

/-- An access meets a line: a write makes it dirty; on a miss it is allocated only under the CACHE bit (R192). -/
def touchLine (alloc write : Bool) (key : Nat) (s : State) : State :=
  if s.mem.cache.any (fun l => l.key == key) then
    if write then { s with mem := { s.mem with cache := s.mem.cache.map (fun l => if l.key = key then { l with dirty := true } else l) } } else s
  else if alloc then placeLine key write s else s

/-- The lines of `n` bytes from a DPA. -/
def linesOf (s : State) (dpa n : Nat) : List Nat :=
  (List.range ((dpa + n + 127) / 128 - dpa / 128)).filterMap (fun i => lineOf s (128 * (dpa / 128 + i)))

/-- An access of `n` bytes passes through the stack caches (R192). -/
def touchLines (alloc write : Bool) (dpa n : Nat) (s : State) : State :=
  if alloc || !s.mem.cache.isEmpty then (linesOf s dpa n).foldl (fun t k => touchLine alloc write k t) s else s

/-- The owner of a stripe (R207). -/
def stripeOwner (q stripe : Nat) : Nat := uMemDie (2 * q + stripe % 2)

/-- The armoured stripes that `n` bytes from a DPA lie in. -/
def armourStripes (s : State) (dpa n : Nat) : List (Nat × Nat) :=
  ([dpa, dpa + (n - 1)].filterMap (fun a => match locate s a with
    | .armour q r _ _ => some (q, r)
    | _ => none)).eraseDups

/-- The owner still applies a write to a stripe (R208). -/
def stripeBusy (s : State) (q stripe : Nat) : Bool := s.mem.unacked.any (fun e => e.q == q && e.stripe == stripe)

/-- The bytes that an armoured write puts on the stacks, by key: new data, in the reserve where the granule is served from there, and new
parity where it is kept (R208, R209, R211); `s` is the state after the write. -/
def stripeBytes (s : State) (q stripe dpa n : Nat) : List (Nat × Byte) :=
  (List.range n).flatMap (fun i => match locate s (dpa + i) with
    | .armour q' r g b =>
      if q' = q ∧ r = stripe then
        ((if keepsParity (armourOf s q) r then [parityJ r] else []) ++ [dataJ r g]).filterMap (fun j =>
          if (armourOf s q).st ≥ 2 ∧ j = (armourOf s q).lostJ then
            (if fromReserve (armourOf s q) r ∧ j = dataJ r g then
              some (reserveKey s q r b j, Memory.get s.mem.hbm (reserveKey s q r b j)) else none)
          else some (poolKey s q r j b, Memory.get s.mem.hbm (poolKey s q r j b)))
      else []
    | _ => [])

/-- An armoured write, of the unit at work, is in its owner's stripe buffer until both stacks have acknowledged it (R208). -/
def holdStripe (dpa n : Nat) (s : State) : State :=
  { s with mem := { s.mem with unacked := s.mem.unacked ++
      (armourStripes s dpa n).map (fun e => ⟨stripeOwner e.1 e.2, e.1, e.2, stripeBytes s e.1 e.2 dpa n, s.mem.walker⟩) } }

/-- Every armoured write that a unit issued has been acknowledged (R208, R217). -/
def writesAcked (s : State) (unit : Nat) : Bool := s.mem.unacked.all (fun e => e.unit != some unit)

/-- Blocks a write from `dpa` of `n` bytes covers whole. -/
def wholeBlocks (s : State) (dpa n : Nat) : List Nat :=
  let first := (dpa + 63) / 64
  ((List.range ((dpa + n) / 64 - first)).map (fun i => blockOf s (64 * (first + i)))).filterMap id

/-- Writes to device memory; a write of a whole block clears its poison (R205). -/
def devWrite (dpa : Nat) (l : List Byte) (s : State) : State :=
  let clean := wholeBlocks s dpa l.length
  let s1 := devSetN dpa l s
  { s1 with mem := { s1.mem with poison := s1.mem.poison.filter (fun b => decide (b ∉ clean)) } }

/-- A write to device memory through the stack caches and, in the armoured view, the stripe's owner (R192, R208); `alloc` is the CACHE bit of
the entry that translated it. -/
def devPut (alloc : Bool) (dpa : Nat) (l : List Byte) (s : State) : State :=
  holdStripe dpa l.length (touchLines alloc true dpa l.length (devWrite dpa l s))

/-- A write to device memory that no CACHE bit lets allocate a line. -/
def devStore (dpa : Nat) (l : List Byte) (s : State) : State := devPut false dpa l s

/-- The counters of a stack. -/
def memCounts (s : State) (stack : Nat) : MemCounts := (tget s.mem.counts stack).getD {}

/-- Changes the counters of a stack. -/
def countMem (stack : Nat) (f : MemCounts → MemCounts) (s : State) : State :=
  { s with mem := { s.mem with counts := tset s.mem.counts stack (f (memCounts s stack)) } }

/-- Poisons a block by its key / 64. -/
def poisonBlock (block : Nat) (s : State) : State :=
  { s with mem := { s.mem with poison := ninsert s.mem.poison block } }

/-- Host-memory bytes. -/
def hostRead (s : State) (addr n : Nat) : List Byte := Memory.getN s.host.mem addr n
def hostWrite (addr : Nat) (l : List Byte) (s : State) : State :=
  { s with host := { s.host with mem := Memory.setN s.host.mem addr l } }

/-! ### Completions and queues -/

/-- The 32 bytes of a completion entry (R246): FLAGS are bit 0 PHASE, bit 1 SECOND. -/
def completionBytes (q head phase : Nat) (epoch : Word) (c : Completion) : List Byte :=
  leBytes 4 c.hostTag.toNat ++ leBytes 2 c.opcode ++ leBytes 2 c.status ++ leBytes 2 c.slot ++ leBytes 2 head ++ leBytes 1 q ++
    leBytes 1 (phase + (if c.second then 2 else 0)) ++ zeros 2 ++ leBytes 4 c.detail ++ leBytes 4 epoch.toNat ++ leBytes 8 c.value.toNat

/-- What a reply over the fabric (QUEUE 0x7E) or MCTP (0x7F) carries: the completion entry, whose SQ_HEAD and PHASE have no queue and are
free (log 12), then the RESULT_READ data (R246, R268, R269). -/
def replyBytes (q : Nat) (c : Completion) (data : List Byte) (s : State) : List Byte × State :=
  match freshValue s with
  | (v, t) => (completionBytes q (v.toNat % 65536) (v.toNat / 65536 % 2) s.chart.epoch c ++ data, t)

/-- Where completions of a packet go: the queue's list of ready completions, the fabric reply, the MCTP response (R17, R242, R268, R269). -/
def postTo (src : Source) (c : Completion) (data : List Byte) (s : State) : State :=
  match src with
  | .host q => { s with queues := { s.queues with q := tmod s.queues.q q (fun x => { x with ready := x.ready ++ [c] }) } }
  | .fabric r => match replyBytes 0x7E c data s with
    | (b, t) => { t with fab := Fabric.sendBytes 3 r t.grp.rank b { t.fab with replies := (r, c, b) :: t.fab.replies } }
  | .mctp e => match replyBytes 0x7F c data s with
    | (b, t) =>
      { t with mgmt := { t.mgmt with replies := .ilzan e c b :: t.mgmt.replies
                                     outstanding := tmod t.mgmt.outstanding e (fun n => n - 1) } }

/-- A command owes its completion from here (R242). -/
def owe (p : Packet) (s : State) : State :=
  match p.src with
  | .host q => { s with queues := { s.queues with q := tmod s.queues.q q (fun x => { x with owing := x.owing + 1 }) } }
  | .mctp e => { s with mgmt := { s.mgmt with outstanding := tset s.mgmt.outstanding e ((tget s.mgmt.outstanding e).getD 0 + 1) } }
  | .fabric _ => s

/-- A number the spec may leave open: the one given, else a free value (log 12). -/
def orFree (v : Option Nat) (s : State) : Nat × State :=
  match v with
  | some n => (n, s)
  | none => match freshValue s with
    | (f, t) => (f.toNat % 2 ^ 32, t)

/-- A VALUE the spec may leave open (log 12). -/
def valueOrFree (v : Option (BitVec 64)) (s : State) : BitVec 64 × State :=
  match v with
  | some n => (n, s)
  | none => freshValue s

/-- Completes a packet's command; DETAIL and VALUE are free where the spec gives none (log 12). -/
def complete (p : Packet) (opcode status : Nat) (detail : Option Nat) (value : Option (BitVec 64)) (slot : Nat) (data : List Byte)
    (s : State) : State :=
  match orFree detail s with
  | (d, s1) => match valueOrFree value s1 with
    | (v, s2) => postTo p.src { hostTag := p.hostTag, opcode := opcode, status := status, slot := slot, detail := d, value := v } data s2

/-- Completes with a status and a detail. -/
def completeWith (p : Packet) (opcode status detail : Nat) (s : State) : State :=
  complete p opcode status (some detail) none 0xFFFF [] s

/-- Completes with a status for which the spec names no detail. -/
def completeOpen (p : Packet) (opcode status : Nat) (s : State) : State := complete p opcode status none none 0xFFFF [] s

/-- Completes with ST_OK. -/
def completeOk (p : Packet) (opcode : Nat) (s : State) : State := completeOpen p opcode 0 s

/-- Status codes (R254). -/
def stPENDING : Nat := 0x0001
def stNOTREADY : Nat := 0x0002
def stBUSY : Nat := 0x0010
def stHOLD : Nat := 0x0011
def stFAILED : Nat := 0x0012
def stWRONGSTATE : Nat := 0x0013
def stBADOPCODE : Nat := 0x0020
def stBADPARAM : Nat := 0x0021
def stBADCRC : Nat := 0x0022
def stNOTPERMITTED : Nat := 0x0023
def stFAULTPENDING : Nat := 0x0030
def stPREEMPTED : Nat := 0x0031
def stABORTED : Nat := 0x0032
def stCHARTSTALE : Nat := 0x0040
def stROLE : Nat := 0x0041
def stSHAREDFEED : Nat := 0x0050
def stLEVEL : Nat := 0x0060
def stREPLAY : Nat := 0x0070
def stSTEPEXPIRED : Nat := 0x0071

/-- A queue error: stops the queue, latches the first error since the last read, sets EVENT_CAUSE.QUEUE_ERROR (R241). -/
def queueError (q code : Nat) (s : State) : State :=
  let r := if s.regs.queueErrCode = 0 then { s.regs with queueErrCode := code, queueErrQueue := q } else s.regs
  raiseEvent 0 { s with regs := r, queues := { s.queues with q := tmod s.queues.q q (fun x => { x with stopped := true }) } }

/-! ### Result slots -/

/-- The owner a source is (R255). -/
def ownerOf : Source → Owner
  | .host _ => .host | .fabric _ => .fabric | .mctp _ => .mctp

/-- 64 KiB units a payload is charged (R255); an empty one holds none. -/
def slotUnits (bytes : Nat) : Nat := (bytes + 65535) / 65536

/-- Units in use. -/
def unitsUsed (s : State) : Nat := (s.slots.s.map (fun e => e.2.units)).sum

/-- The lowest free slot number, if any. -/
def freeSlot (s : State) : Option Nat := (List.range 512).find? (fun i => (tget s.slots.s i).isNone)

/-- Whether a slot of this charge can be allocated (R255). -/
def slotFree (bytes : Nat) (s : State) : Bool := (freeSlot s).isSome && decide (unitsUsed s + slotUnits bytes ≤ 512)

/-- Allocates a slot: its index and the state; the generation advances (R255). The lowest free number is taken (log 3). -/
def allocSlot (p : Packet) (bytes : Nat) (s : State) : Nat × State :=
  match freeSlot s with
  | none => (0xFFFF, s)
  | some n =>
    let g := ((tget s.slots.gens n).getD 0 + 1) % 64
    (n + 512 * g, { s with slots := {
      s := tset s.slots.s n { gen := g, owner := ownerOf p.src, units := slotUnits bytes, autoRelease := bitAt p.flags 1 }
      gens := tset s.slots.gens n g } })

/-- The slot an index names, if it is allocated with that generation to this owner (R255, R257). -/
def slotNamed (s : State) (idx : Nat) (o : Owner) : Option Slot :=
  match tget s.slots.s (idx % 512) with
  | some sl => if sl.gen = idx / 512 % 64 ∧ idx < 32768 ∧ sl.owner = o then some sl else none
  | none => none

/-- Makes a slot ready, or frees it when it was released early (R256, R258). -/
def slotReady (idx status detail : Nat) (payload : List Byte) (s : State) : State :=
  match tget s.slots.s (idx % 512) with
  | none => s
  | some sl =>
    if sl.releaseLate then { s with slots := { s.slots with s := tdel s.slots.s (idx % 512) } }
    else
      let sl' := { sl with ready := true, status := status, detail := detail, payload := payload, units := slotUnits payload.length }
      { s with slots := { s.slots with s := tset s.slots.s (idx % 512) sl' } }

/-- Frees a slot (R256). -/
def slotDrop (idx : Nat) (s : State) : State := { s with slots := { s.slots with s := tdel s.slots.s (idx % 512) } }

/-- A producer marked "Slot" completes with its payload (R256). -/
def finishSlot (p : Packet) (opcode idx status : Nat) (payload : List Byte) (s : State) : State :=
  match orFree none s with
  | (d, t) => complete p opcode status (some d) none idx [] (slotReady idx status d payload t)

/-- A pending slot becomes ready: EVENT_CAUSE.RESULT_READY (R256). -/
def finishPending (idx status detail : Nat) (payload : List Byte) (s : State) : State :=
  raiseEvent 8 (slotReady idx status detail payload s)

/-! ### Contexts -/

/-- A loaded context. -/
def ctxOf (s : State) (c : Nat) : Option Ctx := tget s.ctxs c

/-- Changes a loaded context. -/
def ctxMod (c : Nat) (f : Ctx → Ctx) (s : State) : State := { s with ctxs := tmod s.ctxs c f }

/-- Fields of CONTEXT_SET (R221). -/
def Ctx.sliceMs (c : Ctx) : Nat := fieldAt c.params 1 1
def Ctx.clFirst (c : Ctx) : Nat := fieldAt c.params 2 2
def Ctx.clCount (c : Ctx) : Nat := fieldAt c.params 4 2
def Ctx.storeKib (c : Ctx) : Nat := fieldAt c.params 6 2
def Ctx.waits (c : Ctx) : Nat := fieldAt c.params 8 2
def Ctx.ring (c : Ctx) : Nat := fieldAt c.params 10 2
def Ctx.job (c : Ctx) : Bool := bitAt (fieldAt c.params 12 1) 0
def Ctx.saveVa (c : Ctx) : Nat := fieldAt c.params 16 8

/-- Whether a context claims a logical cluster. -/
def Ctx.claims (c : Ctx) (l : Nat) : Bool := decide (c.clFirst ≤ l) && decide (l < c.clFirst + c.clCount)

/-- A work item of a context. -/
def Ctx.work (c : Ctx) (id : Nat) : Option Work := c.works.find? (fun w => w.id == id)

/-- Changes a work item. -/
def workMod (c id : Nat) (f : Work → Work) (s : State) : State :=
  ctxMod c (fun x => { x with works := x.works.map (fun w => if w.id = id then f w else w) }) s

/-- Drops a work item whose final completion is out. -/
def workDrop (c id : Nat) (s : State) : State :=
  ctxMod c (fun x => { x with works := x.works.filter (fun w => w.id != id) }) s

/-- Notes that an UPDATE of the current step has been carried out (R157). -/
def noteUpdate (c : Nat) (w : Work) (s : State) : State :=
  if w.opcode = 0x0300 ∧ fieldAt w.raw 0 1 = 0x11 ∧ w.step = s.dev.step then
    { s with bnd := { s.bnd with updated := ninsert s.bnd.updated c } }
  else s

/-- The abort record (R233) of a descriptor in the manifest of its step that dead reckoning follows (R331): the action taken, found by step,
host tag and context. -/
def replayedAbort (s : State) (c step : Nat) (tag : Word) : Option Nat :=
  if s.fix.replayTo.any (fun t => decide (s.dev.step < t)) then
    ((s.fix.replayLog.flatMap (fun m => m.recs)).find? (fun r => r.type == 4 && fieldAt r.body 0 8 == step &&
      fieldAt r.body 8 4 == tag.toNat && fieldAt r.body 12 1 == c)).map (fun r => fieldAt r.body 13 1)
  else none

/-- The status a work item ends with: in dead reckoning a descriptor with an abort record is aborted at its end at the latest (R233; log 157). -/
def finalStatus (s : State) (c : Nat) (w : Work) (status : Nat) : Nat :=
  if status = 0 ∧ (w.doomed || (replayedAbort s c w.step w.hostTag).isSome) then stABORTED else status

/-- A record of ABORT_CONTEXT that dead reckoning meets aborts every descriptor then accepted, each at its end at the latest (R232, R233; log
157). -/
def doomAll (c : Nat) (w : Work) (s : State) : State :=
  if replayedAbort s c w.step w.hostTag = some 2 then ctxMod c (fun x => { x with works := x.works.map (fun v => { v with doomed := true }) }) s else s

/-- Posts the final completion of a work item and drops it (R242, R264, R232). -/
def finishWork (c : Nat) (w : Work) (status : Nat) (detail : Option Nat) (value : Option (BitVec 64)) (s : State) : State :=
  let st := finalStatus s c w status
  match orFree detail (if st = 0 then noteUpdate c w s else s) with
  | (d, s1) => match valueOrFree value s1 with
    | (v, s2) =>
      doomAll c w (workDrop c w.id (postTo (.host w.queue)
        { hostTag := w.hostTag, opcode := w.opcode, status := st, detail := d, value := v, second := w.second } [] s2))

/-- Whether the context has an accepted descriptor that has not completed. -/
def Ctx.busy (c : Ctx) : Bool := !c.works.isEmpty

/-- A context is runnable: loaded, not parked, with accepted work or running ingest (R223); one whose ring entries do not fit is not (R224). -/
def Ctx.runnable (c : Ctx) : Bool := !c.parked && (!c.ingest.running || c.ingest.admitted) && (c.busy || c.ingest.running)

/-- Whether a set of contexts fits (R222). -/
def fits (l : List Ctx) : Bool :=
  decide ((l.map Ctx.waits).sum ≤ 3584) && decide ((l.map Ctx.ring).sum ≤ 1024) &&
  l.all (fun c => [c.clFirst].all (fun p => decide (((l.filter (fun d => d.claims p)).map Ctx.storeKib).sum ≤ 1536)))

/-- The range that holds a cell. -/
def rangeOf (s : State) (c : Nat) : Option CellRange :=
  s.sync.ranges.find? (fun r => decide (r.first ≤ c) && decide (c < r.first + r.count))

/-- The context a wait is charged to: the requester's, or for a remote wait the cell's owner (R218). -/
def chargedCtx (s : State) (w : Wait) : Option Nat :=
  match w.who.rank with
  | some _ => (rangeOf s w.cell).map CellRange.ctx
  | none => w.who.ctx

/-- The scheduler's choice (R223): every runnable context is resident when all fit; otherwise those that fit beside the resident ones,
longest waiting first, lower ID first. -/
def admitFits : List (Nat × Ctx) → List Ctx → List Nat
  | [], _ => []
  | (i, c) :: r, held => if fits (c :: held) then i :: admitFits r (c :: held) else admitFits r held

/-- Inserts a waiting context in the order of longest wait, then lower ID. -/
def insertWaiting (e : Nat × Ctx) : List (Nat × Ctx) → List (Nat × Ctx)
  | [] => [e]
  | h :: r => if e.2.waitSince < h.2.waitSince ∨ (e.2.waitSince = h.2.waitSince ∧ e.1 < h.1) then e :: h :: r else h :: insertWaiting e r

/-- The contexts that hold after the scheduler's choice. A context saved out becomes resident by CONTEXT_RESTORE only; one that is
not runnable gives up its resources (R223, rule 4); `now` marks the start of a wait (rule 3). -/
def settle (now : Nat) (new : List Nat) (e : Nat × Ctx) : Nat × Ctx :=
  if e.2.runnable then
    if e.2.resident then e
    else if e.1 ∈ new then (e.1, { e.2 with resident := true, sliceRun := true, waitSince := 0 })
    else if e.2.waitSince = 0 then (e.1, { e.2 with waitSince := now }) else e
  else (e.1, { e.2 with resident := false, sliceRun := false, waitSince := 0 })

/-- A runnable context without residency waits from now on, unless it waits already (R223, rule 3). -/
def noteWaiting (now : Nat) (e : Nat × Ctx) : Nat × Ctx :=
  if e.2.runnable && !e.2.resident && e.2.waitSince == 0 then (e.1, { e.2 with waitSince := now }) else e

/-- The waiting contexts that come next, those saved out among them, in order of longest wait, then lower ID: all of them when every runnable
context fits, else those that fit beside the ones that stay (R223). -/
def nextResidents (l : List (Nat × Ctx)) : List Nat :=
  let run := l.filter (fun e => e.2.runnable)
  let stay := run.filter (fun e => e.2.resident || e.2.saving)
  let wait := (run.filter (fun e => !e.2.resident && !e.2.saving)).foldr insertWaiting []
  if fits (run.map Prod.snd) then wait.map Prod.fst else admitFits wait (stay.map Prod.snd)

/-- A context that gives up its residency gives up its own wait entries: the waits it still has stand in shared ones (R218, R223 rule 4, R230). -/
def shareWaits (s : State) (lost : List Nat) (w : Wait) : Wait :=
  if (chargedCtx s w).any (fun c => decide (c ∈ lost)) then { w with shared := true } else w

/-- Reconsiders residency after a change (R223). A context saved out that comes next becomes resident by its restore. -/
def reschedule (s : State) : State :=
  let l := s.ctxs.map (noteWaiting s.nextId)
  let next := (nextResidents l).filter (fun i => !(tget l i).any (fun x => x.savedOut))
  let lost := (l.filter (fun e => e.2.resident && !e.2.runnable)).map Prod.fst
  { s with ctxs := l.map (settle s.nextId next), nextId := s.nextId + 1
           sync := { s.sync with waits := s.sync.waits.map (shareWaits s lost) } }

/-- Ring entries of the admitted contexts (R224). -/
def admittedRings (s : State) : Nat := ((s.ctxs.filter (fun e => e.2.ingest.admitted)).map (fun e => e.2.ring)).sum

/-- The context whose ring is admitted next: longest held, then lower ID (R224). -/
def nextHeld (s : State) : Option (Nat × Ctx) :=
  (s.ctxs.filter (fun e => e.2.ingest.running && !e.2.ingest.admitted && decide (admittedRings s + e.2.ring ≤ 1024))).foldl
    (fun b e => match b with
      | none => some e
      | some d => if e.2.ingest.heldSince < d.2.ingest.heldSince then some e else some d) none

/-- Admits held rings that fit, `n` at most (R224). -/
def admitRings : Nat → State → State
  | 0, s => s
  | n + 1, s =>
    match nextHeld s with
    | none => s
    | some (c, _) => admitRings n (ctxMod c (fun x => { x with ingest := { x.ingest with admitted := true, heldSince := 0 } }) s)

/-- Rings and residency after a change of ingest (R223, R224). -/
def settleIngest (s : State) : State := reschedule (admitRings 16 s)

/-! ### Context faults -/

/-- The 8 bytes 39:32 of a record (R229): the first field of its DETAIL. -/
def FaultDetail.first : FaultDetail → Nat
  | .translation va _ _ _ _ _ _ _ => va
  | .memory dpa _ _ => dpa
  | .stack code seg top _ => code + seg * 2 ^ 16 + top * 2 ^ 32
  | .overrun b _ => b

/-- Class codes (R229). -/
def FaultDetail.cls : FaultDetail → Nat
  | .translation .. => 1 | .memory .. => 2 | .stack .. => 3 | .overrun .. => 4

/-- The lowest free record index (R229). -/
def freeRecord (c : Ctx) : Option Nat := (List.range 16).find? (fun i => (tget c.faults i).isNone)

/-- Adds a fault record, or keeps it until a slot frees (R230); sets EVENT_CAUSE.FAULT_RECORD. The context is parked unless the fault
is an ingest fault. A context fault during a Fix stop aborts the Fix (R235). -/
def addFault (c : Nat) (f : FaultRec) (park : Bool) (s0 : State) : State :=
  match ctxOf s0 c with
  | none => s0
  | some x =>
    let s : State := { s0 with fix := { s0.fix with abortDue := s0.fix.abortDue || (decide (s0.fix.stage ∈ [.quiesce, .copying, .header]) && decide (f.cls ≤ 2)) } }
    match freeRecord x with
    | none => ctxMod c (fun y => { y with lateFaults := y.lateFaults ++ [f] }) s
    | some i =>
      let s1 := raiseEvent 4 (ctxMod c (fun y => { y with faults := tset y.faults i f, parked := y.parked || park }) s)
      match f.work with
      | none => s1
      | some _ =>
        postTo (.host f.queue) { hostTag := f.hostTag, opcode := f.opcode, status := stFAULTPENDING, detail := i
                                 value := BitVec.ofNat 64 f.detail.first, second := false } [] s1

/-- A work item faults: it stops at its resume point, its record is made and the context parked (R229, R230). -/
def faultWork (c : Nat) (w : Work) (d : FaultDetail) (resume : Nat) (s : State) : State :=
  reschedule (addFault c ⟨d.cls, w.queue, w.hostTag, w.opcode, w.epoch, w.step, resume, d, some w.id, false⟩ true
    (workMod c w.id (fun y => { y with st := .faulted, resume := resume, second := true }) s))

/-! ### Sync cells -/

/-- A cell's value (R215). -/
def cellValue (s : State) (c : Nat) : Word := (tget s.sync.cells c).getD 0

/-- The halo waits that a cell's new value ends; those of a pre-empted context are tested again when it resumes (R124, R125). -/
def endHalos (c : Nat) (v : Word) (e : Nat × Ctx) : Nat × Ctx :=
  if !e.2.savedOut && !e.2.saving then
    (e.1, { e.2 with works := e.2.works.map (fun w => { w with halo := w.halo.filter (fun h => !(h.cell == c && h.value == v)) }) })
  else e

/-- Sets a cell, keeping unlisted cells at 0. -/
def setCell (c : Nat) (v : Word) (s : State) : State :=
  { s with
    sync := { s.sync with cells := if v = 0 then tdel s.sync.cells c else tset s.sync.cells c v }
    ctxs := s.ctxs.map (endHalos c v) }

/-- Whether a context owns a cell. -/
def ownsCell (s : State) (ctx c : Nat) : Bool :=
  match rangeOf s c with
  | some r => r.ctx == ctx
  | none => false

/-- X ≥ Y in wrapping order (R216). -/
def wrapGe (x y : Word) : Bool := decide ((x - y).toNat < 2 ^ 31)

/-- Whether a wait's condition holds of a value. -/
def Wait.holds (w : Wait) (v : Word) : Bool := if w.ge then wrapGe v w.v else v == w.v

/-- The wave that releases a waiter (R349). -/
def waveOf (r : Requester) : Nat :=
  match r.rank, r.cluster with
  | none, some l => l % 16
  | _, _ => 0

/-- Delivers a value to a requester: a SYNC_OP completes and residency is reconsidered (R223), a remote module gets its reply, anything else goes on (R216, R298). -/
def deliver (r : Requester) (v : Word) (s : State) : State :=
  let s1 := { s with sync := { s.sync with replies := (r, v) :: s.sync.replies } }
  match r.rank with
  | some k => sendMsg 2 k "SYNC_REPLY" [v.toNat] s1
  | none =>
    match r.ctx, r.work with
    | some c, some id =>
      match (ctxOf s1 c).bind (fun x => x.work id) with
      | some w => if w.opcode = 0x0222 then reschedule (finishWork c w 0 none (some (BitVec.ofNat 64 v.toNat)) s1) else s1
      | none => s1
    | _, _ => s1

/-- Releases every wait of a cell whose condition holds just after an operation, in order of arrival (R217). -/
def releaseWaits (cell : Nat) (s : State) : State :=
  let v := cellValue s cell
  let go := s.sync.waits.filter (fun w => w.cell == cell && w.holds v)
  { s with sync := { s.sync with
      waits := s.sync.waits.filter (fun w => !(w.cell == cell && w.holds v)), opSeq := s.sync.opSeq + 1
      releases := s.sync.releases ++ go.map (fun w => ⟨waveOf w.who, w.who, v, s.sync.opSeq⟩) } }

/-- WAITS entries the resident contexts claim on each die (R218). -/
def claimedWaits (s : State) : Nat := ((s.ctxs.filter (fun e => e.2.resident)).map (fun e => e.2.waits)).sum

/-- Which entry a wait takes: `some false` its context's own, `some true` a shared one, `none` no free entry (R218). -/
def waitEntry (s : State) (w : Wait) : Option Bool :=
  let here := s.sync.waits.filter (fun x => x.cell / 8192 == w.cell / 8192)
  match chargedCtx s w with
  | none => if (here.filter (fun x => (chargedCtx s x).isNone)).length < 512 then some false else none
  | some c =>
    let own := (here.filter (fun x => !x.shared && chargedCtx s x == some c)).length
    let shared := (here.filter (fun x => x.shared)).length
    let mine := match ctxOf s c with
      | some x => if x.resident then x.waits else 0
      | none => 0
    if own < mine then some false else if shared + claimedWaits s < 3584 then some true else none

/-- The source of a wait: two waits of one module, unit and context come from one requester (R218). -/
def sourceOf (r : Requester) : Option Nat × Nat × Option Nat := (r.rank, r.unit, r.ctx)

/-- Presents a wait: released at once when its condition holds, entered, or held at its requester, always behind an earlier wait of that
requester that is held (R217, R218). -/
def presentWait (w : Wait) (s : State) : State :=
  if s.sync.held.any (fun h => sourceOf h.who == sourceOf w.who) then { s with sync := { s.sync with held := s.sync.held ++ [w] } }
  else if w.holds (cellValue s w.cell) then deliver w.who (cellValue s w.cell) s
  else match waitEntry s w with
    | some sh => { s with sync := { s.sync with waits := s.sync.waits ++ [{ w with shared := sh }] } }
    | none => { s with sync := { s.sync with held := s.sync.held ++ [w] } }

/-- A new value of a cell: written, waits released (R216, R217). -/
def cellWrite (cell : Nat) (v : Word) (s : State) : State := releaseWaits cell (setCell cell v s)

/-- Applies a sync-cell operation of a requester (R216, R217). -/
def syncApply (r : Requester) (cell : Nat) (act : SyncAct) (s : State) : State :=
  let old := cellValue s cell
  match act with
  | .read => deliver r old s
  | .write v => deliver r old (cellWrite cell v s)
  | .add v => deliver r old (cellWrite cell (old + v) s)
  | .cas c v => deliver r old (if old = c then cellWrite cell v s else releaseWaits cell s)
  | .waitEq v => presentWait ⟨cell, false, v, r, false⟩ s
  | .waitGe v => presentWait ⟨cell, true, v, r, false⟩ s
  | .arrive v t => presentWait ⟨cell, true, t, r, false⟩ (cellWrite cell (old + v) s)

/-- SYNC_ADD on completion (R201, R264): a plain addition, with no requester to answer. -/
def syncAdd (cell : Nat) (v : Word) (s : State) : State := cellWrite cell (cellValue s cell + v) s

end Sys2Proof.Machine
end

