-- ==== Sys2Proof/Machine/Operands.lean ====
section
/-! DEFINITION. Operand forms: address translation and accesses by virtual address, fields of packets and descriptors, elements of tensors. -/
namespace Sys2Proof.Machine

/-- How a walk or an access ended (R199): level, reason, target, entry, its DPA. -/
structure TFault where
  level : Nat
  reason : Nat
  target : Nat := 0xFF
  entry : Nat := 0
  entryDpa : Nat := 0xFFFFFFFFFFFFFFFF
  deriving DecidableEq, Repr

/-- What an access reaches, and the CACHE bit of a device page (R195, R196). -/
inductive Target where
  | dev (dpa : Nat) (cache : Bool)
  | host (addr : Nat)
  | cxl (addr : Nat)
  deriving DecidableEq, Repr

/-- Why an access by VA fails: a translation fault at a VA, or a poisoned block (R206). -/
inductive AccErr where
  | tf (va : Nat) (f : TFault)
  | mem (dpa : Nat)
  deriving DecidableEq, Repr

/-- Reads a table entry: value, or the fault of R199 (reasons 6 and 8). -/
def readEntry (s : State) (level dpa : Nat) : Except TFault Nat :=
  match devRead s dpa 8 with
  | .ok l => .ok (leNat l)
  | .error (.poison _) => .error { level := level, reason := 6, entryDpa := dpa }
  | .error (.beyond _) => .error { level := level, reason := 8, entryDpa := dpa }

/-- ADDR of an entry (R195). -/
def entryAddr (e : Nat) : Nat := bitsAt e 8 44 * 256

/-- The walk from a level (R194, R195): leaf entry, its page size in bits, level and DPA. `levels` are (level, shift, index bits). -/
def walkGo (s : State) (va : Nat) : List (Nat × Nat × Nat) → Nat → Except TFault (Nat × Nat × Nat × Nat)
  | [], _ => .error { level := 3, reason := 4 }
  | (lv, sh, n) :: r, table =>
    let dpa := table + bitsAt va sh n * 8
    match readEntry s lv dpa with
    | .error f => .error f
    | .ok e =>
      let leaf := bitAt e 1
      let bad : Except TFault (Nat × Nat × Nat × Nat) :=
        .error { level := lv, reason := 4, target := if leaf ∧ lv ≠ 0 then bitsAt e 2 2 else 0xFF, entry := e, entryDpa := dpa }
      if ¬ bitAt e 0 then .error { level := lv, reason := 1, entry := e, entryDpa := dpa }
      else if bitsAt e 52 12 ≠ 0 ∨ bitsAt e 6 2 ≠ 0 then bad
      else if leaf then
        if lv = 0 ∨ bitsAt e 2 2 = 3 ∨ entryAddr e % 2 ^ sh ≠ 0 then bad else .ok (e, sh, lv, dpa)
      else if lv = 3 ∨ bitsAt e 2 2 ≠ 0 then bad
      else walkGo s va r (entryAddr e)

/-- The levels of R194. -/
def walkLevels : List (Nat × Nat × Nat) := [(0, 39, 13), (1, 30, 9), (2, 21, 9), (3, 16, 5)]

/-- A leaf entry for a VA in the translation cache of a unit (R197). -/
def tlbFind (s : State) (unit ctx va : Nat) : Option TlbEntry :=
  s.mem.tlb.find? (fun t => t.unit == unit && t.ctx == ctx && decide (t.va ≤ va) && decide (va < t.va + t.size))

/-- The leaf that translates a VA, with its page size in bits, level and DPA: from the translation cache of the unit at work or a walk; a
context without a root has none (R194, R197). -/
def leafOf (s : State) (ctx va : Nat) : Except TFault (Nat × Nat × Nat × Nat) :=
  if va ≥ 2 ^ 52 then .error { level := 0, reason := 5 }
  else match (ctxOf s ctx).bind Ctx.root with
    | none => .error { level := 0, reason := 1 }
    | some root => match s.mem.walker.bind (fun u => tlbFind s u ctx va) with
      | some t => .ok (t.entry, ilog t.size, t.level, t.dpa)
      | none => walkGo s va walkLevels root

/-- Runs a row whose accesses one unit makes, through its translation cache (R197). -/
def asUnit (u : Nat) (f : State → State) (s : State) : State :=
  let t := f { s with mem := { s.mem with walker := some u } }
  { t with mem := { t.mem with walker := none } }

/-- CXL is enabled by the memory section (R199, R220). -/
def cxlEnabled (s : State) : Bool := secField s 3 5 1 0 == 1

/-- Translates a VA (R194 to R199). -/
def translate (s : State) (ctx va : Nat) (write : Bool) : Except TFault Target :=
  match leafOf s ctx va with
  | .error f => .error f
  | .ok (e, sh, lv, dpa) =>
    let t := bitsAt e 2 2
    let addr := entryAddr e + va % 2 ^ sh
    let fail (reason : Nat) : Except TFault Target := .error { level := lv, reason := reason, target := t, entry := e, entryDpa := dpa }
    if write ∧ ¬ bitAt e 4 then fail 2
    else if t = 0 then (if locate s addr = .beyond then fail 8 else .ok (.dev addr (bitAt e 5)))
    else if ¬ s.host.linkUp ∨ s.host.perst then fail 3
    else if t = 1 then .ok (.host addr)
    else if ¬ cxlEnabled s then fail 3 else .ok (.cxl addr)

/-- Pieces of an access that do not cross a 64 KiB page: (VA, length). -/
def pieces : Nat → Nat → Nat → List (Nat × Nat)
  | 0, _, _ => []
  | k + 1, va, n =>
    let here := min n (65536 - va % 65536)
    if n = 0 then [] else (va, here) :: pieces k (va + here) (n - here)

/-- Reads one piece. -/
def readPiece (s : State) (ctx va n : Nat) : Except AccErr (List Byte) :=
  match translate s ctx va false with
  | .error f => .error (.tf va f)
  | .ok (.host a) => .ok (Memory.getN s.host.mem a n)
  | .ok (.cxl a) => .ok (Memory.getN s.host.cxlMem a n)
  | .ok (.dev a _) =>
    match devRead s a n with
    | .ok l => .ok l
    | .error (.poison d) => .error (.mem d)
    | .error (.beyond d) => .error (.mem d)

/-- Reads pieces in order. -/
def readPieces (s : State) (ctx : Nat) : List (Nat × Nat) → Except AccErr (List Byte)
  | [] => .ok []
  | (va, n) :: r =>
    match readPiece s ctx va n with
    | .error e => .error e
    | .ok l => match readPieces s ctx r with
      | .error e => .error e
      | .ok t => .ok (l ++ t)

/-- Reads `n` bytes of a context's space. -/
def vaRead (s : State) (ctx va n : Nat) : Except AccErr (List Byte) := readPieces s ctx (pieces (n / 65536 + 2) va n)

/-- Writes one piece, through the stack caches and the owners of armoured stripes (R192, R208). -/
def writePiece (ctx va : Nat) (l : List Byte) (s : State) : Except AccErr State :=
  match translate s ctx va true with
  | .error f => .error (.tf va f)
  | .ok (.host a) => .ok (hostWrite a l s)
  | .ok (.cxl a) => .ok { s with host := { s.host with cxlMem := Memory.setN s.host.cxlMem a l } }
  | .ok (.dev a k) => .ok (devPut k a l s)

/-- Writes pieces in order. -/
def writePieces (ctx : Nat) : List (Nat × Nat) → List Byte → State → Except AccErr State
  | [], _, s => .ok s
  | (va, n) :: r, l, s =>
    match writePiece ctx va (l.take n) s with
    | .error e => .error e
    | .ok t => writePieces ctx r (l.drop n) t

/-- Writes bytes of a context's space; the access stops before a byte of a piece that faults (R199). -/
def vaWrite (ctx va : Nat) (l : List Byte) (s : State) : Except AccErr State :=
  writePieces ctx (pieces (l.length / 65536 + 2) va l.length) l s

/-- Reads a little-endian number of a context's space. -/
def vaNum (s : State) (ctx va n : Nat) : Except AccErr Nat :=
  match vaRead s ctx va n with
  | .ok l => .ok (leNat l)
  | .error e => .error e

/-- Codes of an access (R199). -/
def accessCode : Access → Nat
  | .read => 1 | .write => 2 | .turned => 3 | .sync => 4 | .shard => 5

/-- The detail of a fault record for an access error (R199, R229). -/
def accDetail (e : AccErr) (unit : Nat) (acc : Access) : FaultDetail :=
  match e with
  | .tf va f => .translation va unit (accessCode acc) f.level f.reason f.target f.entry f.entryDpa
  | .mem d => .memory d unit (accessCode acc)

/-- Counts a read of a poisoned block against its stack. -/
def poisonRead (dpa : Nat) (s : State) : State :=
  match blockOf s dpa with
  | some b => countMem (b * 64 / (48 * gib)) (fun m => { m with poison := sat32 m.poison 1 }) s
  | none => s

/-- Counts a read that met poison, of data or of a page walk (R206, R214). -/
def countPoison (e : AccErr) (s : State) : State :=
  match e with
  | .mem d => poisonRead d s
  | .tf _ f => if f.reason = 6 then poisonRead f.entryDpa s else s

/-- The memory dies' number of a cell and of a stack (R215, R11). -/
def dieOfCell (c : Nat) : Nat := c / 8192

/-! ### Packets -/

/-- A parameter field. -/
def pf (p : Packet) (off len : Nat) : Nat := fieldAt p.params off len

/-- The first 60 header bytes of a packet with an opcode (R244). -/
def headerBytes (opcode : Nat) (p : Packet) : List Byte :=
  leBytes 2 opcode ++ leBytes 2 p.flags ++ leBytes 1 p.ctx ++ leBytes 3 p.resv5 ++ leBytes 4 p.hostTag.toNat ++
    leBytes 4 p.paramLen ++ leBytes 4 p.epoch.toNat ++ leBytes 4 p.resv20 ++ leBytes 8 p.paramAddr ++ leBytes 28 p.resv32

/-- The bytes the CRC covers after the header (R244). -/
def crcParams (p : Packet) : List Byte := p.params.take (if bitAt p.flags 0 then p.paramLen else min p.paramLen 448)

/-- The CRC a packet must carry (R244). -/
def packetCrc (opcode : Nat) (p : Packet) : Word := crc32c (headerBytes opcode p ++ crcParams p)

/-- Reads a packet from a header's bytes and its parameter bytes. -/
def parsePacket (src : Source) (h params : List Byte) : Packet :=
  { src := src, flags := fieldAt h 2 2, ctx := fieldAt h 4 1, resv5 := fieldAt h 5 3, hostTag := BitVec.ofNat 32 (fieldAt h 8 4)
    paramLen := fieldAt h 12 4, epoch := BitVec.ofNat 32 (fieldAt h 16 4), resv20 := fieldAt h 20 4, paramAddr := fieldAt h 24 8
    resv32 := fieldAt h 32 28, crc := BitVec.ofNat 32 (fieldAt h 60 4), params := params }

/-! ### Kernel descriptors (R262, R263) -/

/-- A field of a descriptor. -/
def wf (w : Work) (off len : Nat) : Nat := fieldAt w.raw off len

def Work.op (w : Work) : Nat := wf w 0 1
def Work.gang (w : Work) : Nat := bitsAt (wf w 1 1) 0 2
def Work.round (w : Work) : Nat := bitsAt (wf w 1 1) 2 2
def Work.pair (w : Work) : Bool := bitAt (wf w 1 1) 4
def Work.turnMov (w : Work) : Bool := bitAt (wf w 1 1) 5
def Work.turnSta (w : Work) : Bool := bitAt (wf w 1 1) 6
def Work.fmtMov (w : Work) : Nat := bitsAt (wf w 2 1) 0 4
def Work.fmtSta (w : Work) : Nat := bitsAt (wf w 2 1) 4 4
def Work.fmtOut (w : Work) : Nat := bitsAt (wf w 3 1) 0 4
def Work.astk (w : Work) : Nat := bitsAt (wf w 3 1) 4 2
def Work.deferWg (w : Work) : Bool := bitAt (wf w 4 1) 0
def Work.batchWait (w : Work) : Bool := bitAt (wf w 4 1) 1
def Work.parMov (w : Work) : Bool := bitAt (wf w 4 1) 2
def Work.parSta (w : Work) : Bool := bitAt (wf w 4 1) 3
def Work.signal (w : Work) : Bool := bitAt (wf w 4 1) 4
def Work.frameTag (w : Work) : Nat := wf w 12 4
def Work.clFirst (w : Work) : Nat := wf w 24 2
def Work.clCount (w : Work) : Nat := wf w 26 2
def Work.m (w : Work) : Nat := wf w 28 4
def Work.k (w : Work) : Nat := wf w 32 4
def Work.n (w : Work) : Nat := wf w 36 4
def Work.outTensor (w : Work) : Nat := wf w 48 4
def Work.movPitch (w : Work) : Nat := wf w 80 4
def Work.staPitch (w : Work) : Nat := wf w 84 4
def Work.outPitch (w : Work) : Nat := wf w 88 4
def Work.syncCell (w : Work) : Nat := wf w 92 2
def Work.syncAdd (w : Work) : Word := BitVec.ofNat 32 (wf w 96 4)

/-- The origin step (R130). -/
def Work.origin (w : Work) : Nat := w.step - w.lag

/-- Parity of R155. -/
def Work.parity (w : Work) : Nat := w.origin % 2

/-- Tensor and address of the moving and stationary operands under R155 and R137. -/
def Work.movTensor (w : Work) : Nat := wf w 40 4 + (if w.parMov then w.parity else 0)
def Work.staTensor (w : Work) : Nat := wf w 44 4 + (if w.parSta then w.parity else 0)
def Work.movBase (w : Work) : Nat := w.movVa + (if w.parMov then w.parity * wf w 104 8 else 0)
def Work.staBase (w : Work) : Nat := wf w 64 8 + (if w.parSta then w.parity * wf w 112 8 else 0)

/-- Gang rows and columns (R64). -/
def gangRows (g : Nat) : Nat := if g = 2 ∨ g = 3 then 128 else 64
def gangCols (g : Nat) : Nat := if g = 1 ∨ g = 3 then 128 else 64

/-- Gangs of a cluster (R64). -/
def gangCount (g : Nat) : Nat := if g = 0 then 4 else if g = 3 then 1 else 2

/-! ### Elements of tensors -/

/-- A tensor's record, unless deleted for descriptors accepted later (R87, R252). -/
def scaleOf (s : State) (c tensor : Nat) : Option ScaleRec := (ctxOf s c).bind (fun x => tget x.scales tensor)

/-- MODE bits (R89). -/
def ScaleRec.linear (r : ScaleRec) : Bool := bitAt r.mode 0
def ScaleRec.histogram (r : ScaleRec) : Bool := bitAt r.mode 1
def ScaleRec.grad (r : ScaleRec) : Bool := bitAt r.mode 2
def ScaleRec.pin (r : ScaleRec) : Bool := bitAt r.mode 3

/-- Block of an element index (R88). -/
def ScaleRec.block (r : ScaleRec) (i : Nat) : Nat :=
  if r.linear then i / 1024 else i / r.cols / 32 * ((r.cols + 31) / 32) + i % r.cols / 32

/-- Number of blocks (R88). -/
def ScaleRec.blocks (r : ScaleRec) : Nat :=
  if r.linear then (r.rows * r.cols + 1023) / 1024 else (r.rows + 31) / 32 * ((r.cols + 31) / 32)

/-- The deleted records that a work item accepted before the delete still uses (R252), the earliest delete of each tensor. -/
def deadFor (x : Ctx) (work : Nat) : List ScaleRec :=
  (x.dead.filter (fun r => decide (work < r.deletedAt))).foldl
    (fun l r => if l.any (fun k => k.id == r.id) then l else l ++ [r]) []

/-- Runs a step of a work item with the records it was accepted under (R252). -/
def withRecords (c work : Nat) (f : State → State) (s : State) : State :=
  match ctxOf s c with
  | none => f s
  | some x =>
    match deadFor x work with
    | [] => f s
    | ds =>
      let t := f (ctxMod c (fun y => { y with scales := ds.foldl (fun m r => tset m r.id r) y.scales }) s)
      ctxMod c (fun y => { y with
        dead := y.dead.map (fun r =>
          if ds.any (fun d => d.id == r.id && d.deletedAt == r.deletedAt) then (tget y.scales r.id).getD r else r),
        scales := ds.foldl (fun m d => match tget x.scales d.id with
          | some r => tset m d.id r
          | none => tdel m d.id) y.scales }) t

/-- HELD_SCALE of a block (R90, R92). -/
def heldScale (s : State) (c : Nat) (r : ScaleRec) (b : Nat) : Except AccErr Int :=
  match vaNum s c (r.blocksVa + 16 * b) 2 with
  | .ok v => .ok (signedOf 16 v)
  | .error e => .error e

/-- A tensor operand of an array or vector kernel: format code, tensor, base, row pitch, columns of the stored matrix. -/
structure Tensor where
  fmt : Nat
  id : Nat
  base : Nat
  pitch : Nat
  cols : Nat
  deriving DecidableEq, Repr

/-- Address of the element at stored row r, column c; GRAD tensors are dense by element index (R104). -/
def Tensor.addr (t : Tensor) (g : Option Nat) (r c : Nat) : Nat :=
  match g with
  | some 1 => t.base + (r * t.cols + c)
  | some 2 => t.base + 2 * (r * t.cols + c)
  | some _ => t.base + 4 * (r * t.cols + c)
  | none => t.base + r * t.pitch + c * Fmt.bytes (fmtOfCode t.fmt)

/-- GFMT of a GRAD tensor, `none` for another (R104). -/
def gradFmt (s : State) (c tensor : Nat) : Option Nat :=
  (scaleOf s c tensor).bind (fun r => if r.grad then some r.gfmt else none)

/-- The Kyonex format of a format code or GFMT. -/
def klOfCode : Nat → Kl
  | 0 => .a | 1 => .b | _ => .w

/-- Reads an element for the arrays: one operand, or hi and lo of a GRAD pair (R92, R104, R105). -/
def readOperand (s : State) (c : Nat) (t : Tensor) (r col : Nat) : Except AccErr (List Operand) :=
  let g := gradFmt s c t.id
  let a := t.addr g r col
  let sc : Except AccErr Int := match scaleOf s c t.id with
    | some rec => heldScale s c rec (rec.block (r * t.cols + col))
    | none => .ok 0
  match sc with
  | .error e => .error e
  | .ok sc =>
    let kl := match g with
      | some gf => klOfCode gf
      | none => klOfCode t.fmt
    match g with
    | some 3 =>
      match vaNum s c a 2, vaNum s c (a + 2) 2 with
      | .ok h, .ok l => .ok [⟨.w, h, sc, false⟩, ⟨.w, l, sc, false⟩]
      | .error e, _ => .error e
      | _, .error e => .error e
    | _ =>
      match vaNum s c a (kl.width / 8) with
      | .ok v => .ok [⟨kl, v, sc, false⟩]
      | .error e => .error e

/-- A pair read by the vector units: value(hi) + value(lo) in binary32, with the flags of the conversions and the addition (R105). -/
def pairValue (level : Nat) (h l : Operand) : Val × Nat :=
  match Bin.b32.encode .rne (Kl.value .w level h.scale h.code), Bin.b32.encode .rne (Kl.value .w level l.scale l.code) with
  | (a, f), (b, g) => match Bin.op2 .b32 .rne (Val.add .rne) a b with
    | (c, k) => (Bin.b32.decode c, f ||| g ||| k)

/-- Reads an element for the vector units (R47, R105): its value, the Kyonex code it is, and flags. -/
def readValue (s : State) (c : Nat) (t : Tensor) (r col : Nat) : Except AccErr (OutVal × Nat) :=
  match fmtOfCode t.fmt with
  | .bin b =>
    match vaNum s c (t.addr none r col) (b.width / 8) with
    | .ok v => .ok ({ v := b.decode v }, 0)
    | .error e => .error e
  | _ =>
    match readOperand s c t r col with
    | .error e => .error e
    | .ok [o] => .ok ({ v := Kl.value o.kl s.dev.level o.scale o.code, kl := some (o.kl, o.scale, o.code) }, 0)
    | .ok (h :: l :: _) => match pairValue s.dev.level h l with
      | (v, f) => .ok ({ v := v }, f)
    | .ok [] => .ok ({ v := .fin false 0 0 }, 0)

/-- Maps a reading function over a list, stopping at the first error. -/
def mapAcc {α β : Type} (f : α → Except AccErr β) : List α → Except AccErr (List β)
  | [] => .ok []
  | x :: r =>
    match f x with
    | .error e => .error e
    | .ok y => match mapAcc f r with
      | .error e => .error e
      | .ok t => .ok (y :: t)

end Sys2Proof.Machine
end

