-- ==== Sys2Proof/Machine/Accept.lean ====
section
/-! DEFINITION. How the active Binnacle accepts an Ilzan packet (R244 to R250, R268, R269): the opcode table, device states, the order
of checks, commands that wait for their acceptance. -/
namespace Sys2Proof.Machine

/-- A row of the table of opcodes (R250): context scope, and whether the admin queue, a context queue, the fabric and MCTP may send it. -/
structure OpRow where
  ctx : Bool
  admin : Bool
  ctxq : Bool
  fabric : Bool
  mctp : Bool
  deriving DecidableEq, Repr

/-- The first half of the table of opcodes (R250). -/
def opTableLow : Table OpRow := [
  (0x0000, ⟨false, true, true, true, true⟩),
  (0x0001, ⟨false, true, false, true, true⟩),
  (0x0002, ⟨true, true, false, false, false⟩),
  (0x0003, ⟨true, true, false, false, false⟩),
  (0x0010, ⟨false, true, true, true, true⟩),
  (0x0011, ⟨false, true, true, true, true⟩),
  (0x0020, ⟨false, true, false, true, true⟩),
  (0x0021, ⟨false, true, false, true, true⟩),
  (0x0030, ⟨false, true, false, true, true⟩),
  (0x0031, ⟨false, true, false, true, true⟩),
  (0x0100, ⟨false, true, false, false, false⟩),
  (0x0101, ⟨false, true, false, false, false⟩),
  (0x0102, ⟨false, true, false, false, false⟩),
  (0x0103, ⟨false, true, false, false, false⟩),
  (0x0104, ⟨false, true, false, false, true⟩),
  (0x0108, ⟨false, true, false, true, false⟩),
  (0x0110, ⟨true, true, false, false, false⟩),
  (0x0111, ⟨true, true, false, false, false⟩),
  (0x0112, ⟨true, true, false, false, false⟩),
  (0x0120, ⟨true, true, true, false, false⟩),
  (0x0121, ⟨true, true, true, false, false⟩),
  (0x0132, ⟨true, true, true, false, false⟩),
  (0x0134, ⟨true, true, true, false, false⟩),
  (0x0140, ⟨false, true, false, true, false⟩),
  (0x0141, ⟨false, true, false, true, false⟩),
  (0x0200, ⟨true, true, true, false, false⟩),
  (0x0201, ⟨true, true, true, false, false⟩),
  (0x0210, ⟨true, false, true, false, false⟩),
  (0x0220, ⟨true, true, true, false, false⟩),
  (0x0221, ⟨true, true, true, false, false⟩),
  (0x0222, ⟨true, false, true, false, false⟩),
  (0x0300, ⟨true, false, true, false, false⟩),
  (0x0310, ⟨true, true, true, false, false⟩)
]

/-- The second half. -/
def opTableHigh : Table OpRow := [
  (0x0311, ⟨true, true, true, false, false⟩),
  (0x0400, ⟨true, true, true, false, false⟩),
  (0x0401, ⟨true, true, true, false, false⟩),
  (0x0402, ⟨true, true, true, false, false⟩),
  (0x0410, ⟨false, true, false, false, false⟩),
  (0x0420, ⟨true, true, true, false, false⟩),
  (0x0500, ⟨false, true, false, true, true⟩),
  (0x0510, ⟨false, false, false, true, false⟩),
  (0x0511, ⟨false, true, false, true, true⟩),
  (0x0520, ⟨true, false, true, false, false⟩),
  (0x0521, ⟨false, false, false, true, false⟩),
  (0x0530, ⟨false, true, false, true, false⟩),
  (0x0600, ⟨true, true, true, false, false⟩),
  (0x0601, ⟨true, true, true, false, false⟩),
  (0x0602, ⟨false, true, false, false, true⟩),
  (0x0610, ⟨false, true, false, true, false⟩),
  (0x0611, ⟨false, true, false, true, true⟩),
  (0x0612, ⟨false, true, false, false, false⟩),
  (0x0613, ⟨false, true, false, true, false⟩),
  (0x0620, ⟨false, true, false, true, false⟩),
  (0x0621, ⟨false, false, false, true, false⟩),
  (0x0622, ⟨false, true, false, false, false⟩),
  (0x0630, ⟨false, true, false, true, false⟩),
  (0x0700, ⟨false, true, false, true, true⟩),
  (0x0701, ⟨false, true, false, true, true⟩),
  (0x0710, ⟨false, true, false, true, true⟩),
  (0x0711, ⟨false, true, false, true, false⟩),
  (0x0720, ⟨false, true, false, false, true⟩),
  (0x0721, ⟨false, true, false, false, true⟩),
  (0x0800, ⟨false, true, false, false, true⟩),
  (0x0801, ⟨false, true, false, false, true⟩),
  (0x0802, ⟨false, true, false, false, true⟩),
  (0x0803, ⟨false, true, false, false, false⟩)]

/-- The row of an opcode. -/
def opRow (op : Nat) : Option OpRow := tget (opTableLow ++ opTableHigh) op

/-- Whether a row permits a source (R250); a queue that PERST_N took away keeps what it permitted (R358). -/
def OpRow.permits (r : OpRow) : Source → Bool
  | .host q => if q % 1000 = 0 then r.admin else r.ctxq
  | .fabric _ => r.fabric
  | .mctp _ => r.mctp

/-- The context of a context queue (R238). -/
def ctxOfQueue (q : Nat) : Nat := (q - 1) / 4

/-- Whether CONTEXT follows R250: 0xFF for a device command, a context for a context command, the queue's own on a context queue. -/
def OpRow.ctxOk (r : OpRow) (p : Packet) : Bool :=
  if r.ctx then
    decide (p.ctx < 16) && (match p.src with
      | .host q => q % 1000 == 0 || ctxOfQueue (q % 1000) == p.ctx
      | _ => true)
  else p.ctx == 0xFF

/-- The state whose row of R248 applies: that of ANCHORED from the moment ANCHOR_ENTER is accepted (R355). -/
def admitState (s : State) : DevState := if s.dev.st = .ready ∧ s.dev.anchoring.isSome then .anchored else s.dev.st

/-- The refusal of R248 for a device state, if it does not admit the opcode: status, and detail where the spec gives one. -/
def stateRefusal0 (s : State) (op : Nat) (src : Source) : Option (Nat × Option Nat) :=
  let g := op / 256
  match admitState s with
  | .off => some (stWRONGSTATE, none)
  | .boot =>
    let mctp := match src with
      | .mctp _ => true
      | _ => false
    if mctp && (op == 0x0001 || op == 0x0030) then none else some (stWRONGSTATE, none)
  | .hold =>
    if g == 0 || (decide (0x0100 ≤ op) && decide (op ≤ 0x0104)) || op == 0x0620 || (g == 7 && op != 0x0711) || g == 8 then none
    else some (stHOLD, some s.dev.detail)
  | .ready => none
  | .run | .fixing => if op = 0x0100 ∨ op = 0x0800 then some (stBUSY, none) else none
  | .anchored => if g = 0 ∨ op = 0x0700 ∨ op = 0x0721 then none else some (stWRONGSTATE, none)
  | .standby =>
    if op ∈ [0x0100, 0x0140, 0x0141, 0x0300, 0x0210, 0x0222, 0x0520, 0x0401, 0x0800] then some (stWRONGSTATE, none) else none
  | .failed =>
    if op ∈ [0x0000, 0x0001, 0x0010, 0x0011, 0x0020, 0x0021, 0x0030, 0x0031, 0x0700, 0x0701] then none else some (stFAILED, none)

/-- The refusal of R248; that of BIST_RUN carries detail 0x0E60 (R372). -/
def stateRefusal (s : State) (op : Nat) (src : Source) : Option (Nat × Option Nat) :=
  (stateRefusal0 s op src).map (fun r => if op = 0x0800 then (r.1, some 0x0E60) else r)

/-- Whether the module belongs to a group (R268). -/
def inGroup (s : State) : Bool := (s.grp.manager && s.grp.recs.any (fun r => r.rank != s.grp.rank)) || s.grp.joined

/-- The refusal of a fabric sender (R268). -/
def senderRefusal (s : State) (op sender : Nat) : Option (Nat × Option Nat) :=
  if op = 0x0510 then (if s.grp.manager then none else some (stROLE, none))
  else if inGroup s then
    (if sender = s.grp.managerRank ∨ sender = s.grp.deputy then none else some (stNOTPERMITTED, none))
  else if op = 0x0620 then none else some (stNOTPERMITTED, none)

/-- The refusal of a source (check 3). -/
def sourceRefusal (s : State) (row : OpRow) (op : Nat) (p : Packet) : Option (Nat × Option Nat) :=
  if row.permits p.src then
    match p.src with
    | .fabric r => senderRefusal s op r
    | _ => none
  else some (stNOTPERMITTED, none)

/-- What a command's own layout says of a packet: its parameter length, its reserved fields and enumerations, the units its parameters
name (R28), the largest payload of its result slot (R255), a conflicting activity with its detail, and whether CONTEXT names the context that
its parameters are about (R239). `enumDetail` is the detail of an enumeration that is not listed, where the spec gives one. -/
structure Checks where
  lenOk : Bool
  ctxNamed : Bool := true
  fieldsOk : Bool := true
  enumDetail : Option Nat := none
  units : List Nat := []
  charge : Option Nat := none
  busy : Option (Option Nat) := none
  deriving DecidableEq, Repr

/-- Whether the header's reserved fields are 0 and PARAM_ADDR is as R244 says. -/
def headerOk (p : Packet) : Bool :=
  decide (p.flags < 8) && p.resv5 == 0 && p.resv20 == 0 && p.resv32 == 0 &&
    (if bitAt p.flags 0 then p.paramAddr % 4 == 0 else p.paramAddr == 0)

/-- Whether a source may use INDIRECT (R268, R269). -/
def indirectOk (p : Packet) : Bool :=
  match p.src with
  | .host _ => true
  | _ => !bitAt p.flags 0

/-- PARAM_LEN is what R244 allows: up to 448 inline, 1 to 16 MiB with INDIRECT. -/
def lenOfForm (p : Packet) : Bool := if bitAt p.flags 0 then within 1 p.paramLen (16 * 2 ^ 20) else decide (p.paramLen ≤ 448)

/-- Check 5: CONTEXT, INDIRECT, PARAM_LEN, reserved fields and enumerations. The detail of the last is not stated (log 12). -/
def paramRefusal (row : OpRow) (c : Checks) (p : Packet) : Option (Nat × Option Nat) :=
  if !row.ctxOk p || (c.lenOk && !c.ctxNamed) then some (stBADPARAM, some 0x0A03)
  else if !indirectOk p then some (stBADPARAM, some 0x0A09)
  else if !c.lenOk || !lenOfForm p then some (stBADPARAM, some 0x0A05)
  else if c.enumDetail.isSome then some (stBADPARAM, c.enumDetail)
  else if !headerOk p || !c.fieldsOk then some (stBADPARAM, none)
  else none

/-- The units that carry logical clusters named in parameters (R28). No command's parameters carry a data address of R18 (log 146). -/
def clusterUnits (s : State) (l : List Nat) : List Nat := (l.filter (fun k => decide (k < 800))).map (fun k => uCluster (carrier s k))

/-- The physical clusters a context holds (R28). -/
def ctxUnits (s : State) (c : Nat) : List Nat :=
  match ctxOf s c with
  | some x => (List.range x.clCount).map (fun i => uCluster (carrier s (x.clFirst + i)))
  | none => []

/-- The change epoch of this module's own group record (R268, R282). -/
def ownGroupChange (s : State) : Option Word := (s.grp.recs.find? (fun r => r.rank == s.grp.rank)).map GroupRec.changeEpoch

/-- Check 6: the epoch under R28, or R268 over the fabric. -/
def epochRefusal (s : State) (op : Nat) (c : Checks) (p : Packet) : Option (Nat × Option Nat) :=
  if p.epoch = 0 then (if op / 256 = 0 ∨ op / 256 = 7 ∨ op / 256 = 8 then none else some (stCHARTSTALE, none))
  else match p.src with
    | .fabric _ =>
      (match ownGroupChange s with
       | some e => if epochOlder p.epoch e then some (stCHARTSTALE, none) else none
       | none => none)
    | _ =>
      if (c.units ++ ctxUnits s p.ctx).any (fun u => epochOlder p.epoch (changeEpoch s u)) then some (stCHARTSTALE, none) else none

/-- Check 7: a result slot, the outstanding requests of an MCTP endpoint (R269), conflicting activity. -/
def busyRefusal (s : State) (c : Checks) (p : Packet) : Option (Nat × Option Nat) :=
  let full := match p.src with
    | .mctp e => decide ((tget s.mgmt.outstanding e).getD 0 > 4)
    | _ => false
  if full then some (stBUSY, some 0x0A40)
  else match c.charge with
    | some n => if slotFree n s then c.busy.map (fun d => (stBUSY, d)) else some (stBUSY, some 0x0A06)
    | none => c.busy.map (fun d => (stBUSY, d))

/-- The first check of R247 that fails, of checks 1 to 7. -/
def acceptance (s : State) (op : Nat) (c : Checks) (p : Packet) : Option (Nat × Option Nat) :=
  if p.crc ≠ packetCrc op p then some (stBADCRC, none)
  else match opRow op with
    | none => some (stBADOPCODE, none)
    | some row =>
      (sourceRefusal s row op p).or ((stateRefusal s op p.src).or ((paramRefusal row c p).or
        ((epochRefusal s op c p).or (busyRefusal s c p))))

/-- Opcodes whose commands are descriptors of a context's dispatcher (R230). -/
def isDescriptor (op : Nat) : Bool := op == 0x0210 || op == 0x0222 || op == 0x0300 || op == 0x0520

/-- Commands that touch compute, memory or ingest as soon as they start: accepted in FIXING they start when the Fix stop ends (R248; log 13). -/
def waitsForStop (op : Nat) : Bool := op ∈ [0x0120, 0x0200, 0x0201, 0x0220, 0x0221, 0x0222, 0x0400, 0x0401, 0x0402, 0x0410, 0x0601, 0x0801]

/-- A descriptor of a context was fetched before number `seq` and still waits: the context's dispatcher accepts in order (R259). -/
def descriptorHeld (s : State) (c seq : Nat) : Bool :=
  s.queues.q.any (fun e => e.2.held.any (fun h => decide (h.1 < seq) && isDescriptor h.2.1 && h.2.2.ctx == c))

/-- Whether a fetched command, number `seq` in the order of fetching, must wait for its acceptance: behind FENCE with `earlier` commands of
its queue owing completions (R259), or for a parked context (R230). -/
def waitsNow (s : State) (op : Nat) (p : Packet) (seq earlier : Nat) : Bool :=
  (bitAt p.flags 2 && decide (0 < earlier)) ||
  (isDescriptor op && ((match ctxOf s p.ctx with
    | some x => x.parked
    | none => false) || descriptorHeld s p.ctx seq))

/-- Whether a command that has just been fetched must wait. -/
def mustWait (s : State) (op : Nat) (p : Packet) : Bool :=
  match p.src with
  | .host q =>
    match tget s.queues.q q with
    | some x => waitsNow s op p s.nextId (x.owing - 1)
    | none => waitsNow s op p s.nextId 0
  | _ => false

/-- Runs a command past the checks: its slot is allocated and its body runs with the slot's index; a command that waits for the end of a Fix
stop is put behind those accepted before it (R248). -/
def acceptPacket (op : Nat) (c : Checks) (body : Nat → State → State) (p : Packet) (s : State) : State :=
  match acceptance s op c p with
  | some (st, d) => complete p op st d none 0xFFFF [] s
  | none =>
    if waitsForStop op && s.dev.st == .fixing then { s with dev := { s.dev with starts := s.dev.starts ++ [(op, p)] } }
    else match c.charge with
    | some n => match allocSlot p n s with
      | (idx, t) => body idx t
    | none => body 0xFFFF s

/-- Whether a queue already holds commands that wait: later ones wait behind them (R259). -/
def behindHeld (s : State) (p : Packet) : Bool :=
  match p.src with
  | .host q => (match tget s.queues.q q with
      | some x => !x.held.isEmpty
      | none => false)
  | _ => false

/-- Puts a fetched command behind the commands of its queue that wait. -/
def holdCommand (op : Nat) (p : Packet) (s : State) : State :=
  match p.src with
  | .host q => { s with
      nextId := s.nextId + 1, queues := { s.queues with q := tmod s.queues.q q (fun x => { x with held := x.held ++ [(s.nextId, op, p)] }) } }
  | _ => s

/-- A refusal at check 8: the slot is freed, SLOT is 0xFFFF (R256). -/
def refuse8 (p : Packet) (op st : Nat) (detail : Option Nat) (idx : Nat) (s : State) : State :=
  complete p op st detail none 0xFFFF [] (if idx = 0xFFFF then s else slotDrop idx s)

/-- A command as it reaches the active Binnacle: it owes its completion (R242), waits or is checked and run. -/
def runPacket (op : Nat) (accept : Packet → State → State) (p : Packet) (s : State) : State :=
  let t := owe p s
  if behindHeld t p || mustWait t op p then holdCommand op p t else accept p t

/-- A packet row: the module must have power. -/
def packetOut (op : Nat) (accept : Packet → State → State) (p : Packet) (s : State) : Out :=
  gate (s.dev.st != .off) "no power" (runPacket op accept p s)

/-- A context command whose context is not loaded is refused; the spec states no detail but for QUEUE_CREATE and INGEST_SCHEDULE (log 14). -/
def withCtx (p : Packet) (op idx : Nat) (s : State) (body : Ctx → State) : State :=
  match ctxOf s p.ctx with
  | some x => body x
  | none => refuse8 p op stBADPARAM none idx s

end Sys2Proof.Machine
end

