-- ==== Sys2Proof/Machine/Flags.lean ====
section
/-! DEFINITION. What writing an element counts and flags: block scales (R93, R94), overflow bitmaps (R95), the numeric watch (R96, R98,
R100, R101), FP_FLAGS (R53), and the writing of output elements. -/
namespace Sys2Proof.Machine

/-- Histogram bin of a written code (R101). -/
def histBin (fmt : Nat) (code : Nat) : Option Nat :=
  match fmt with
  | 3 =>
    match Bin.b16.decode code with
    | .fin _ m e => if m = 0 then none else some ((ilog m : Int) + e - 15 + 63).toNat
    | _ => none
  | f =>
    let k := klOfCode f
    let e := code % 2 ^ (k.width - 1)
    if e = 0 then none else some (((e : Int) - k.bias) / k.steps - ftop f + 63).toNat

/-- Adds one written element to the counts a part holds (R96, R100). `fmt` is the format code of the bins. -/
def countWritten (hist : Bool) (fmt block : Nat) (w : Written) (l : WatchLive) : WatchLive :=
  { l with
    elements := satAdd 64 l.elements 1
    zeros := sat32 l.zeros (if w.zero then 1 else 0)
    saturated := sat32 l.saturated (if w.sat then 1 else 0)
    nonfinite := sat32 l.nonfinite (if w.nonfinite then 1 else 0)
    flushed := sat32 l.flushed (if w.flush then 1 else 0)
    maxk := match w.k, l.maxk with
      | some k, some m => some (max k m)
      | some k, none => some k
      | none, m => m
    bins := if hist && !w.nonfinite && !w.flush then
        (match histBin fmt w.hi with
         | some b => tset l.bins b (sat32 ((tget l.bins b).getD 0) 1)
         | none => l.bins)
      else l.bins
    ovfBlocks := if w.sat then ninsert l.ovfBlocks block else l.ovfBlocks }

/-- The larger of two maxima (R96). -/
def maxK (a b : Option Int) : Option Int :=
  match a, b with
  | some x, some y => some (max x y)
  | some x, none => some x
  | none, y => y

/-- Adds bins (R98). -/
def addBins (a : Table Nat) : Table Nat → Table Nat
  | [] => a
  | (b, n) :: r => addBins (tset a b (sat32 ((tget a b).getD 0) n)) r

/-- Adds to an OPS entry. -/
def addOp (sat fl : Nat) (o : Nat × Word × Nat × Nat) : Nat × Word × Nat × Nat := (o.1, o.2.1, sat32 o.2.2.1 sat, sat32 o.2.2.2 fl)

/-- The OPS entry of a descriptor, by its work number (R100): the first 16 in order of first merge; later ones add into entry 15 and set
OPS_OVERRUN. -/
def addOps (id : Nat) (tag : Word) (sat fl : Nat) (l : WatchLive) : WatchLive :=
  match l.ops.findIdx? (fun o => o.1 == id) with
  | some i => { l with ops := lmod l.ops i (addOp sat fl) }
  | none =>
    if l.ops.length < 16 then { l with ops := l.ops ++ [(id, tag, sat, fl)] }
    else { l with ops := lmod l.ops 15 (addOp sat fl), overrun := true }

/-- Merges the counts of a completed part (R98). -/
def mergeLive (hist : Bool) (id : Nat) (tag : Word) (d l : WatchLive) : WatchLive :=
  let m : WatchLive := { l with
    elements := satAdd 64 l.elements d.elements
    zeros := sat32 l.zeros d.zeros
    saturated := sat32 l.saturated d.saturated
    nonfinite := sat32 l.nonfinite d.nonfinite
    flushed := sat32 l.flushed d.flushed
    maxk := maxK l.maxk d.maxk
    bins := addBins l.bins d.bins
    ovfBlocks := d.ovfBlocks.foldl ninsert l.ovfBlocks }
  if hist then addOps id tag d.saturated d.flushed m else m

/-- Raises FP_FLAGS bits of a context (R53). -/
def raiseFp (c : Nat) (f : Nat) (s : State) : State :=
  ctxMod c (fun x => { x with fpFlags := x.fpFlags ||| BitVec.ofNat 32 f }) s

/-- Bytes of a block table entry (R90). -/
def blockEntry (held : Int) (offset clean : Nat) (ovf : Bool) (last : Nat) : List Byte :=
  leBytes 2 (unsignedOf 16 held) ++ leBytes 1 offset ++ leBytes 1 clean ++ leBytes 1 (if ovf then 1 else 0) ++ leBytes 3 0 ++ leBytes 8 last

/-- The block procedure of R93 on an entry: new OFFSET, CLEAN and whether it clamped. `off` is the signed OFFSET. -/
def blockStep (decay : Nat) (off : Int) (clean : Nat) (ovf valid : Bool) : Int × Nat × Bool :=
  if ovf then (if off < 127 then (off + 1, 0, false) else (off, 0, true))
  else if valid then
    let cl := if clean < 255 then clean + 1 else clean
    if decay ≠ 0 ∧ cl ≥ decay ∧ off > 0 then (off - 1, 0, false) else (off, cl, false)
  else (off, clean, false)

/-- The first write of a block in a step (R93): the entry, its HELD_SCALE. -/
def touchBlock (c : Nat) (r : ScaleRec) (b step : Nat) (s : State) : Except AccErr (State × Int) :=
  match vaRead s c (r.blocksVa + 16 * b) 16 with
  | .error e => .error e
  | .ok l =>
    let last := fieldAt l 8 8
    if last = step then .ok (s, signedOf 16 (fieldAt l 0 2))
    else
      match blockStep r.decay (signedOf 8 (fieldAt l 2 1)) (fieldAt l 3 1) (bitAt (fieldAt l 4 1) 0) (last != 2 ^ 64 - 1) with
      | (off, cl, clamped) =>
        let held : Int := if r.fmt = 3 ∧ ¬ r.grad then 0 else r.ts + off
        match vaWrite c (r.blocksVa + 16 * b) (blockEntry held (unsignedOf 8 off) cl false step) s with
        | .error e => .error e
        | .ok t => .ok (ctxMod c (fun x => { x with liveClamps := sat32 x.liveClamps (if clamped then 1 else 0) }) t, held)

/-- Start of the overflow bitmap of a step (R95). -/
def bitmapVa (r : ScaleRec) (step : Nat) : Nat :=
  r.ovfVa + (if step % 2 = 1 then 64 * (((r.blocks + 7) / 8 + 63) / 64) else 0)

/-- Sets a bit or a flag in a byte of a context's space. -/
def orByte (c va v : Nat) (s : State) : Except AccErr State :=
  match vaNum s c va 1 with
  | .error e => .error e
  | .ok o => vaWrite c va [BitVec.ofNat 8 (o ||| v)] s

/-- Marks a block's overflow: OVF in its entry, its bit in the live bitmap (R94, R95). -/
def markOverflow (c : Nat) (r : ScaleRec) (b step : Nat) (s : State) : Except AccErr State :=
  match orByte c (r.blocksVa + 16 * b + 4) 1 s with
  | .error e => .error e
  | .ok t => orByte c (bitmapVa r step + b / 8) (2 ^ (b % 8)) t

/-- The fault record of an access the module makes of itself (R235): no descriptor made it, so the descriptor's fields and the resume point
are free (log 23). -/
def moduleFault (c : Nat) (e : AccErr) (acc : Access) (s : State) : State :=
  match freshValue s with
  | (a, s1) => match freshValue s1 with
    | (b, s2) => match freshValue s2 with
      | (k, s3) =>
        let d := accDetail e (binnacleUnit s) acc
        reschedule (addFault c { cls := d.cls, queue := 0, hostTag := a.setWidth 32, opcode := b.toNat % 65536, epoch := (a >>> 32).setWidth 32
                                 step := b.toNat / 65536, resume := k.toNat, detail := d, work := none, own := true } true (countPoison e s3))

/-- Marks the overflows of a tensor's blocks (R94). -/
def markBlocks (c step : Nat) (r : ScaleRec) (l : List Nat) (s : State) : State :=
  l.foldl (fun t b => match markOverflow c r b step t with
    | .ok u => u
    | .error e => moduleFault c e .write t) s

/-- Merges a part's counts into its tensor's record and marks its overflows; counts of a deleted record stay in the step totals (R98, R252). -/
def mergeHeld (c id : Nat) (tag : Word) (step : Nat) (h : Held) (s : State) : State :=
  let s1 := raiseFp c h.flags.toNat s
  match scaleOf s1 c h.tensor with
  | none =>
    ctxMod c (fun x => { x with orphanSat := sat32 x.orphanSat h.counts.saturated
                                orphanNonfinite := sat32 x.orphanNonfinite h.counts.nonfinite
                                orphanFlush := sat32 x.orphanFlush h.counts.flushed
                                orphanOvf := sat32 x.orphanOvf h.counts.ovfBlocks.length }) s1
  | some r =>
    markBlocks c step r h.counts.ovfBlocks
      (ctxMod c (fun x => { x with scales := tmod x.scales h.tensor (fun r => { r with live := mergeLive r.histogram id tag h.counts r.live }) }) s1)

/-- How an output is written (R67, R104): tensor, format code, pair, rounding rule, base, row pitch, columns. -/
structure OutSpec where
  tensor : Nat
  fmt : Nat
  pair : Bool
  round : Round
  base : Nat
  pitch : Nat
  cols : Nat
  deriving DecidableEq, Repr

/-- Format, pair and rounding an output really takes: GRAD tensors take GFMT and a pair is NEAREST (R104, R105). -/
def outForm (g : Option Nat) (o : OutSpec) : Nat × Bool × Round :=
  match g with
  | some 1 => (1, false, o.round)
  | some 2 => (2, false, o.round)
  | some _ => (2, true, .nearest)
  | none => (o.fmt, o.pair, o.round)

/-- Address of output element `i` (R104; a pair of another tensor is hi then lo, log 11). -/
def outAddr (g : Option Nat) (o : OutSpec) (i : Nat) : Nat :=
  match g with
  | some 1 => o.base + i
  | some 2 => o.base + 2 * i
  | some _ => o.base + 4 * i
  | none => o.base + i / o.cols * o.pitch + i % o.cols * (if o.pair then 2 * Fmt.bytes (fmtOfCode o.fmt) else Fmt.bytes (fmtOfCode o.fmt))

/-- Bytes of a written element. -/
def outBytes (fmt : Nat) (pair : Bool) (w : Written) : List Byte :=
  let n := Fmt.bytes (fmtOfCode fmt)
  if pair then leBytes n w.hi ++ leBytes n w.lo else leBytes n w.hi

/-- Writes an element that `emit` gives for its HELD_SCALE (R93 to R96, R100): state, counts, flags. `fmt` and `pair` are the form it
takes. An overflow is marked when the counts merge (R98); a mark that would fault stops the write. -/
def putElem (c : Nat) (o : OutSpec) (fmt : Nat) (pair : Bool) (step i : Nat) (emit : Int → Written) (st : State × WatchLive × Nat) :
    Except AccErr (State × WatchLive × Nat) :=
  match st with
  | (s, l, f) =>
    let g := gradFmt s c o.tensor
    match scaleOf s c o.tensor with
      | none =>
        let w := emit 0
        match vaWrite c (outAddr g o i) (outBytes fmt pair w) s with
        | .error e => .error e
        | .ok t => .ok (t, l, f ||| w.flags)
      | some r =>
        let b := r.block i
        match touchBlock c r b step s with
        | .error e => .error e
        | .ok (s1, held) =>
          let w := emit held
          match vaWrite c (outAddr g o i) (outBytes fmt pair w) s1 with
          | .error e => .error e
          | .ok s2 =>
            match if w.sat then markOverflow c r b step s2 else .ok s2 with
            | .error e => .error e
            | .ok _ => .ok (s2, countWritten r.histogram fmt b w l, f ||| w.flags)

/-- Writes a value as one output element, rounded into the form its tensor takes (R44 to R46, R59, R104). -/
def writeElem (c : Nat) (o : OutSpec) (step origin i : Nat) (v : OutVal) (st : State × WatchLive × Nat) :
    Except AccErr (State × WatchLive × Nat) :=
  match outForm (gradFmt st.1 c o.tensor) o with
  | (fmt, pair, round) =>
    putElem c o fmt pair step i (fun sc =>
      if pair then writePair (fmtOfCode fmt) st.1.dev.level sc v
      else writeOne (fmtOfCode fmt) st.1.dev.level round (stochasticU (jobSeed st.1) o.tensor i origin) sc v) st

/-- Writes output elements one by one, in order. -/
def writeEach (c : Nat) (o : OutSpec) (step origin : Nat) : List (Nat × OutVal) → State × WatchLive × Nat →
    Except AccErr (State × WatchLive × Nat)
  | [], st => .ok st
  | (i, v) :: r, st =>
    match writeElem c o step origin i v st with
    | .error e => .error e
    | .ok t => writeEach c o step origin r t

/-- Bytes of a range that lie in the 64-byte block `b`. -/
def bytesIn (b : Nat) (e : Nat × Nat) : Nat := min (e.1 + e.2) (64 * b + 64) - max e.1 (64 * b)

/-- The 64-byte blocks that disjoint ranges of addresses cover whole. -/
def coveredBlocks (l : List (Nat × Nat)) : List Nat :=
  ((l.map (fun e => e.1 / 64)).eraseDups).filter (fun b => decide ((l.map (bytesIn b)).sum = 64))

/-- The poison of a block goes with a write of the whole block (R205). -/
def cleanBlock (c : Nat) (s : State) (b : Nat) : State :=
  match translate s c (64 * b) true with
  | .ok (.dev a _) => { s with mem := { s.mem with poison := s.mem.poison.filter (fun k => some k != blockOf s a) } }
  | _ => s

/-- The range an output element takes. -/
def elemRange (s : State) (c : Nat) (o : OutSpec) (i : Nat) : Nat × Nat :=
  let g := gradFmt s c o.tensor
  match outForm g o with
  | (fmt, pair, _) => (outAddr g o i, if pair then 2 * Fmt.bytes (fmtOfCode fmt) else Fmt.bytes (fmtOfCode fmt))

/-- Blocks that a part's elements cover whole are written whole: their poison goes (R205). -/
def cleanWritten (c : Nat) (o : OutSpec) (ids : List Nat) (s : State) : State :=
  if s.mem.poison.isEmpty then s else (coveredBlocks (ids.map (elemRange s c o))).foldl (cleanBlock c) s

/-- Writes the output elements of a part in order; blocks they cover whole lose their poison. -/
def writeElems (c : Nat) (o : OutSpec) (step origin : Nat) (l : List (Nat × OutVal)) (st : State × WatchLive × Nat) :
    Except AccErr (State × WatchLive × Nat) :=
  match writeEach c o step origin l st with
  | .error e => .error e
  | .ok (t, counts, f) => .ok (cleanWritten c o (l.map Prod.fst) t, counts, f)

/-- The memory space of `n` blocks' fresh entries (R93). -/
def freshBlocks (held : Int) : Nat → List Byte
  | 0 => []
  | n + 1 => blockEntry held 0 0 false (2 ^ 64 - 1) ++ freshBlocks held n

/-- Initialises a record's block table and clears both overflow bitmaps (R93). -/
def initBlocks (c : Nat) (r : ScaleRec) (s : State) : Except AccErr State :=
  let held : Int := if r.fmt = 3 ∧ ¬ r.grad then 0 else r.initScale
  match vaWrite c r.blocksVa (freshBlocks held r.blocks) s with
  | .error e => .error e
  | .ok t =>
    match vaWrite c (bitmapVa r 0) (zeros ((r.blocks + 7) / 8)) t with
    | .error e => .error e
    | .ok t2 => vaWrite c (bitmapVa r 1) (zeros ((r.blocks + 7) / 8)) t2

end Sys2Proof.Machine
end

