-- ==== Sys2Proof/Machine/Device.lean ====
section
/-! DEFINITION. Registers of BAR0 as they read (R265, R266), and the commands of group 0x00xx that do not concern queues:
NOP, IDENTIFY, RESULT_READ, RESULT_RELEASE, CHART_GET, SKEW_LOG_GET, STATUS_GET, REG_READ (R251, R257, R258). -/
namespace Sys2Proof.Machine

/-! ### Registers -/

/-- DEVICE_ID (R265). -/
def deviceId : Nat := 0x4800B107

/-- DEVICE_STATE (R265). -/
def deviceState (s : State) : Nat :=
  (if s.dev.st = .hold then s.dev.detail * 2 ^ 16 else 0) + s.dev.level * 2 ^ 8 + (if s.dev.bbActive then 16 else 0) + s.dev.st.code

/-- ADMIN_CTRL (R265). -/
def adminCtrl (s : State) : Nat :=
  (if s.regs.adminEnable then 2 ^ 31 else 0) + (if s.regs.adminReady then 2 ^ 30 else 0) + (if s.regs.adminIrq then 2 ^ 16 else 0) +
    s.regs.adminDepthM1

/-- Stripes in a quadrant's pool of A GiB on each stack (R207). -/
def poolStripes (s : State) (q : Nat) : Nat := armourGib s q * gib / 4096

/-- ARMOUR_Qq (R214). -/
def armourReg (s : State) (q : Nat) : Nat :=
  let a := armourOf s q
  let progress := if a.st = 4 then 0xFFFF else if a.st = 3 then a.cursor * 65535 / poolStripes s q else 0
  a.st * 2 ^ 24 + a.lostJ * 2 ^ 20 + a.secondJ * 2 ^ 16 + progress

/-- Latched counters of a stack (R214). -/
def memLatched (s : State) (n : Nat) : MemCounts := (tget s.mem.latched n).getD {}

/-- A counter of a stack by its place in the block. -/
def MemCounts.reg (m : MemCounts) : Nat → Nat
  | 0 => m.ce | 1 => m.ue | 2 => m.recon | _ => m.poison

/-- Frames on all segments (R139). -/
def AStack.depth (a : AStack) : Nat := (a.segs.map (fun e => e.2.length)).sum

/-- KiB allocated on all segments (R139): frames on the segments and popped frames whose space is not freed. -/
def AStack.usedKib (a : AStack) : Nat :=
  ((a.segs.map (fun e => (e.2.map Frame.len).sum)).sum + (a.freeing.map (fun e => e.2.1.len)).sum) / 1024

/-- The records of a context whose counts its watch totals sum: its scale table and deleted records still in use. -/
def Ctx.tensors (c : Ctx) : List ScaleRec := c.scales.map Prod.snd ++ c.dead

/-- Saturations merged so far in the current step (R106). -/
def Ctx.liveSat (c : Ctx) : Nat := satAdd 32 ((c.tensors.map (fun r => r.live.saturated)).sum) c.orphanSat

/-- Inserts into an ascending list. -/
def insertTime (t : Nat) : List Nat → List Nat
  | [] => [t]
  | h :: r => if t ≤ h then t :: h :: r else h :: insertTime t r

/-- The median decode time (R179): rank ceil(N / 2), 0 with no sample. -/
def Ingest.median (g : Ingest) : Nat :=
  (((g.times.foldr insertTime [])[(g.times.length + 1) / 2 - 1]?)).getD 0

/-- The batch of a step (R165): step minus FIRST_STEP. -/
def Ingest.firstStep (g : Ingest) : Nat :=
  match g.sched with
  | some d => d.firstStep
  | none => 0

/-- The ready depth (R183): sealed batches for steps after the current one. -/
def Ingest.depth (g : Ingest) (step : Nat) : Nat := (g.sealed.filter (fun b => decide (g.firstStep + b > step))).length

/-- A register of the block of a context that is not saved out, by its offset (R266). -/
def liveReg (step : Nat) (c : Ctx) : Nat → Nat
  | 0x000 => c.fpFlags.toNat
  | 0x010 => c.watchStep.toNat | 0x014 => c.totals.sat | 0x018 => c.totals.nonfinite | 0x01C => c.totals.flush
  | 0x020 => c.totals.ovfBlocks | 0x024 => c.totals.clamps | 0x028 => c.liveSat
  | 0x040 => c.astk.depth | 0x044 => c.astk.usedKib | 0x048 => c.astk.peak | 0x04C => c.astk.miss | 0x050 => c.astk.leftover
  | 0x060 => c.dwgQueued | 0x064 => c.dwgPromoted | 0x068 => c.dwgIdle
  | 0x080 => c.ingest.latched.samples | 0x084 => c.ingest.latched.dropped | 0x088 => c.ingest.latched.padded
  | 0x08C => c.ingest.latched.slow | 0x090 => c.ingest.latched.lateJoin | 0x094 => c.ingest.latched.abandoned
  | 0x098 => c.ingest.depth step | 0x09C => c.ingest.latched.depthMin | 0x0A0 => c.ingest.latched.lowwater
  | 0x0A4 => c.ingest.latched.starve | 0x0A8 => c.ingest.median
  | _ => 0

/-- The registers of a context's block, offsets ascending. -/
def blockRegs (step : Nat) (c : Ctx) : List Nat := (List.range 43).map (fun i => liveReg step c (4 * i))

/-- A register of a context block by its offset: of a saved-out context the value held at its save, but for FP_FLAGS, whose saved image a
write still reaches (R266). -/
def ctxReg (step : Nat) (c : Ctx) (off : Nat) : Nat :=
  if c.savedOut ∧ off ≠ 0 then (if off % 4 = 0 then (c.savedRegs[off / 4]?).getD 0 else 0) else liveReg step c off

/-- A context's block; the registers of a context that is not loaded read as at reset (log 15). -/
def ctxBlockReg (s : State) (c off : Nat) : Nat :=
  match ctxOf s c with
  | some x => ctxReg s.dev.step x off
  | none => if off = 0x010 then 0xFFFFFFFF else 0

/-- What a read of BAR0 returns, its effect apart (R265): aligned listed offsets; every other reads 0. -/
def regValue (s : State) (off : Nat) : Nat :=
  if off % 4 ≠ 0 ∨ off ≥ 0x20000 then 0
  else if off ≥ 0x10000 then ctxBlockReg s ((off - 0x10000) / 0x1000) (off % 0x1000)
  else if off ≥ 0x2100 ∧ off < 0x2100 + 16 * 24 then (memLatched s ((off - 0x2100) / 16)).reg (off % 16 / 4)
  else if off ≥ 0x2000 ∧ off < 0x2010 then armourReg s ((off - 0x2000) / 4)
  else match off with
    | 0x00 => deviceId
    | 0x04 => deviceState s
    | 0x08 => s.chart.epoch.toNat
    | 0x0C => s.dev.step % 2 ^ 32
    | 0x10 => s.dev.step / 2 ^ 32
    | 0x14 => s.regs.heartbeat.toNat
    | 0x18 => s.regs.eventCause.toNat
    | 0x1C => s.regs.eventMask.toNat
    | 0x20 => s.regs.queueErrCode * 2 ^ 16 + s.regs.queueErrQueue
    | 0x30 => s.regs.adminSqBase.toNat % 2 ^ 32
    | 0x34 => s.regs.adminSqBase.toNat / 2 ^ 32
    | 0x38 => s.regs.adminCqBase.toNat % 2 ^ 32
    | 0x3C => s.regs.adminCqBase.toNat / 2 ^ 32
    | 0x40 => adminCtrl s
    | _ => 0

/-- Reads QUEUE_ERR: the value is returned and the field cleared (R7). -/
def clearQueueErr (s : State) : State := { s with regs := { s.regs with queueErrCode := 0, queueErrQueue := 0 } }

/-- A read of BAR0 with its effect (R7, R265). -/
def readReg (off : Nat) (s : State) : Nat × State := (regValue s off, if off = 0x20 then clearQueueErr s else s)

/-- A 64-bit VALUE of which the spec states bits 31:0 (log 12). -/
def value32 (v : Nat) (s : State) : BitVec 64 × State :=
  match freshValue s with
  | (f, t) => (BitVec.ofNat 64 (v % 2 ^ 32 + f.toNat / 2 ^ 32 * 2 ^ 32), t)

/-! ### NOP, IDENTIFY, STATUS_GET, REG_READ -/

def chkNop (p : Packet) : Checks := { lenOk := p.paramLen == 0 }

def acceptNop (p : Packet) (s : State) : State := acceptPacket 0x0000 (chkNop p) (fun _ t => completeOk p 0x0000 t) p s

/-- NOP (R251). -/
def execNop (p : Packet) (s : State) : Out := packetOut 0x0000 acceptNop p s

/-- The payload of IDENTIFY (R251). -/
def identifyPayload (s : State) : List Byte :=
  leBytes 4 deviceId ++ leBytes 4 s.flash.imgA.version.toNat ++ leBytes 4 s.flash.imgB.version.toNat ++
    leBytes 1 (if s.flash.runningB then 1 else 0) ++ leBytes 1 s.board.slotId ++ leBytes 1 s.board.feedId ++ zeros 1 ++
    s.flash.serial ++ zeros 32

def chkIdentify (p : Packet) : Checks := { lenOk := p.paramLen == 0, charge := some 64 }

def acceptIdentify (p : Packet) (s : State) : State :=
  acceptPacket 0x0001 (chkIdentify p) (fun idx t => finishSlot p 0x0001 idx 0 (identifyPayload t) t) p s

/-- IDENTIFY (R251). -/
def execIdentify (p : Packet) (s : State) : Out := packetOut 0x0001 acceptIdentify p s

/-- VALUE of STATUS_GET (R251). -/
def statusValue (s : State) : BitVec 64 := BitVec.ofNat 64 (deviceState s + s.chart.epoch.toNat * 2 ^ 32)

def chkStatusGet (p : Packet) : Checks := { lenOk := p.paramLen == 0 }

def acceptStatusGet (p : Packet) (s : State) : State :=
  acceptPacket 0x0030 (chkStatusGet p) (fun _ t => complete p 0x0030 0 none (some (statusValue t)) 0xFFFF [] t) p s

/-- STATUS_GET (R251). -/
def execStatusGet (p : Packet) (s : State) : Out := packetOut 0x0030 acceptStatusGet p s

def chkRegRead (p : Packet) : Checks := { lenOk := p.paramLen == 4 }

/-- REG_READ's effect (R251). -/
def bodyRegRead (p : Packet) (s : State) : State :=
  match readReg (pf p 0 4) s with
  | (v, s1) => match value32 v s1 with
    | (x, s2) => complete p 0x0031 0 none (some x) 0xFFFF [] s2

def acceptRegRead (p : Packet) (s : State) : State := acceptPacket 0x0031 (chkRegRead p) (fun _ t => bodyRegRead p t) p s

/-- REG_READ (R251). -/
def execRegRead (p : Packet) (s : State) : Out := packetOut 0x0031 acceptRegRead p s

/-! ### CHART_GET and SKEW_LOG_GET -/

/-- The unit IDs of the chart, ascending (R19). -/
def unitIds : List Nat :=
  (List.range 832).map (0x1000 + ·) ++ (List.range 3328).map (0x2000 + ·) ++ (List.range 8).map (0x3000 + ·) ++
    (List.range 24).map (0x4000 + ·) ++ (List.range 4).flatMap (fun q => (List.range 9).map (fun e => uEngine q e)) ++
    (List.range 6).map (0x6000 + ·) ++ (List.range 48).map (0x7000 + ·) ++ (List.range 2).map (0x8000 + ·) ++ (List.range 30).map (0x9000 + ·)

/-- A unit's 8-byte record (R251). -/
def unitBytes (s : State) (u : Nat) : List Byte :=
  leBytes 2 u ++ leBytes 1 (UnitStateCode (unitState s u)) ++ zeros 1 ++ leBytes 4 (changeEpoch s u).toNat

/-- The payload of CHART_GET (R251). -/
def chartPayload (s : State) : List Byte :=
  leBytes 4 s.chart.epoch.toNat ++ leBytes 4 unitIds.length ++ zeros 8 ++
    (List.range 800).flatMap (fun l => leBytes 2 (carrier s l)) ++ unitIds.flatMap (unitBytes s)

def chkChartGet (p : Packet) : Checks := { lenOk := p.paramLen == 0, charge := some (16 + 1600 + 8 * 4314) }

def acceptChartGet (p : Packet) (s : State) : State :=
  acceptPacket 0x0020 (chkChartGet p) (fun idx t => finishSlot p 0x0020 idx 0 (chartPayload t) t) p s

/-- CHART_GET (R251). -/
def execChartGet (p : Packet) (s : State) : Out := packetOut 0x0020 acceptChartGet p s

/-- A chart-skew record's bytes (R33). -/
def skewBytes (r : SkewRec) : List Byte :=
  leBytes 2 r.unit ++ leBytes 1 r.cause ++ leBytes 1 r.reporter ++ leBytes 4 r.carried.toNat ++ leBytes 4 r.chart.toNat ++ leBytes 4 r.stepLow.toNat

/-- The payload of SKEW_LOG_GET (R251). -/
def skewPayload (s : State) : List Byte := leBytes 4 s.chart.skews.length ++ zeros 12 ++ s.chart.skews.flatMap skewBytes

def chkSkewLogGet (p : Packet) : Checks := { lenOk := p.paramLen == 0, charge := some (16 + 16 * 256) }

def acceptSkewLogGet (p : Packet) (s : State) : State :=
  acceptPacket 0x0021 (chkSkewLogGet p) (fun idx t => finishSlot p 0x0021 idx 0 (skewPayload t) t) p s

/-- SKEW_LOG_GET (R251). -/
def execSkewLogGet (p : Packet) (s : State) : Out := packetOut 0x0021 acceptSkewLogGet p s

/-! ### RESULT_READ and RESULT_RELEASE -/

/-- The longest LENGTH of a RESULT_READ by source (R257). -/
def readLimit : Source → Nat
  | .host _ => 4194304
  | .fabric _ => 4096
  | .mctp _ => 1024

/-- Whether data is written to host memory. -/
def isHost : Source → Bool
  | .host _ => true
  | _ => false

def chkResultRead (p : Packet) : Checks :=
  { lenOk := p.paramLen == 20
    fieldsOk := pf p 2 2 == 0 && decide (1 ≤ pf p 8 4) && decide (pf p 8 4 ≤ readLimit p.src) || (!isHost p.src && pf p 12 8 != 0 && pf p 2 2 == 0) }

/-- A read of a ready slot (R257, R258). -/
def readSlot (p : Packet) (idx : Nat) (sl : Slot) (s : State) : State :=
  let off := pf p 4 4
  let len := pf p 8 4
  let data := (sl.payload.drop off).take len
  let v := BitVec.ofNat 64 (sl.status + sl.reads * 2 ^ 16 + sl.payload.length * 2 ^ 32)
  let s1 := if isHost p.src then hostWrite (pf p 12 8) data s else s
  let s2 := if sl.autoRelease ∧ off + len = sl.payload.length then slotDrop idx s1
    else { s1 with slots := { s1.slots with s := tset s1.slots.s (idx % 512) { sl with reads := satAdd 16 sl.reads 1 } } }
  complete p 0x0010 0 (some sl.detail) (some v) 0xFFFF (if isHost p.src then [] else data) s2

/-- RESULT_READ's effect (R257). -/
def bodyResultRead (p : Packet) (s : State) : State :=
  let idx := pf p 0 2
  if !isHost p.src && pf p 12 8 != 0 then completeWith p 0x0010 stBADPARAM 0x0A0C s
  else match slotNamed s idx (ownerOf p.src) with
    | none => completeWith p 0x0010 stBADPARAM 0x0A07 s
    | some sl =>
      if !sl.ready then completeOpen p 0x0010 stNOTREADY s
      else if pf p 4 4 + pf p 8 4 > sl.payload.length then completeWith p 0x0010 stBADPARAM 0x0A08 s
      else readSlot p idx sl s

def acceptResultRead (p : Packet) (s : State) : State := acceptPacket 0x0010 (chkResultRead p) (fun _ t => bodyResultRead p t) p s

/-- RESULT_READ (R257). -/
def execResultRead (p : Packet) (s : State) : Out := packetOut 0x0010 acceptResultRead p s

def chkResultRelease (p : Packet) : Checks := { lenOk := p.paramLen == 4, fieldsOk := pf p 2 2 == 0 }

/-- RESULT_RELEASE's effect (R258). -/
def bodyResultRelease (p : Packet) (s : State) : State :=
  let idx := pf p 0 2
  match slotNamed s idx (ownerOf p.src) with
  | none => completeWith p 0x0011 stBADPARAM 0x0A07 s
  | some sl =>
    completeOk p 0x0011 (if sl.ready then slotDrop idx s
      else { s with slots := { s.slots with s := tset s.slots.s (idx % 512) { sl with releaseLate := true } } })

def acceptResultRelease (p : Packet) (s : State) : State := acceptPacket 0x0011 (chkResultRelease p) (fun _ t => bodyResultRelease p t) p s

/-- RESULT_RELEASE (R258). -/
def execResultRelease (p : Packet) (s : State) : Out := packetOut 0x0011 acceptResultRelease p s

end Sys2Proof.Machine
end

