-- ==== Sys2Proof/Machine/Setup.lean ====
section
/-! DEFINITION. The configuration image (R362 to R368), its commit (R366, R1 to R3, R214, R309, R310) and live sections (R369). -/
namespace Sys2Proof.Machine

/-! ### Sections of an image -/

/-- A section as it lies in an image: offset, type, reserved field, declared body length, body. -/
structure Sec where
  off : Nat
  type : Nat
  resv : Nat
  body : List Byte
  pad : List Byte
  deriving DecidableEq, Repr

/-- Rounds up to a multiple of 8. -/
def pad8 (n : Nat) : Nat := (n + 7) / 8 * 8

/-- Section types (the table of section types). -/
def sectionTypes : List Nat := [1, 2, 3, 4, 5, 6, 0x10, 0x11, 0x12]

/-- Takes the sections of an image from an offset; a malformed one gives its offset (0x0E04). -/
def takeSections (img : List Byte) : Nat → Nat → Except Nat (List Sec)
  | 0, off => .error off
  | k + 1, off =>
    if off = img.length then .ok []
    else
      let n := fieldAt img (off + 4) 4
      if off + 8 > img.length ∨ off + 8 + pad8 n > img.length ∨ fieldAt img off 2 ∉ sectionTypes then .error off
      else
        let sec : Sec := ⟨off, fieldAt img off 2, fieldAt img (off + 2) 2, (img.drop (off + 8)).take n,
          (img.drop (off + 8 + n)).take (pad8 n - n)⟩
        match takeSections img k (off + 8 + pad8 n) with
        | .ok r => .ok (sec :: r)
        | .error e => .error e

/-- The first section whose type an earlier one has. -/
def duplicated : List Nat → List Sec → Option Nat
  | _, [] => none
  | seen, x :: r => if x.type ∈ seen then some x.off else duplicated (x.type :: seen) r

/-- The body of a type in a list of sections. -/
def bodyOf (l : List Sec) (type : Nat) : Option (List Byte) := (l.find? (fun x => x.type == type)).map Sec.body

/-- Offset of a type's section, 0xFFFFFFFF when it is not there. -/
def offOf (l : List Sec) (type : Nat) : Nat := ((l.find? (fun x => x.type == type)).map Sec.off).getD 0xFFFFFFFF

/-- Whether all bytes are 0. -/
def allZero (l : List Byte) : Bool := l.all (fun b => b == 0)

/-- Range check of the power section but FREQ_MHZ (R348). -/
def powerOk (b : List Byte) : Bool :=
  b.length == 16 && within 2000 (fieldAt b 0 2) 4400 && within 16 (fieldAt b 2 1) 255 && within 1 (fieldAt b 3 1) 75 &&
    within 1 (fieldAt b 4 1) 255 && within 1 (fieldAt b 5 1) 255 && allZero (b.drop 8)

/-- FREQ_MHZ of a power section (R348). -/
def freqOk (f : Nat) : Bool := within 1000 f 1800 && f % 25 == 0

/-- Range check of the Fix policy section (R313). -/
def policyOk (b : List Byte) : Bool :=
  b.length == 8 && decide (fieldAt b 0 1 ≤ 1) && within 1 (fieldAt b 1 1) 60 && within 1 (fieldAt b 4 1) 15 && allZero (b.drop 5)

/-- Range check of the sea-state weights (R324). -/
def weightsOk (b : List Byte) : Bool :=
  b.length == 8 && (b.take 7).all (fun w => decide (w.toNat ≤ 64) || w == 0xFF) && allZero (b.drop 7)

/-- One extent of the memory section. -/
def extentOk (b : List Byte) (k : Nat) : Bool := fieldAt b (8 + 16 * k + 12) 4 == 0

/-- One region of the Fix layout section (R309). -/
def regionOk (b : List Byte) (k : Nat) : Bool :=
  decide (fieldAt b (64 + 16 * k) 1 ≤ 15) && fieldAt b (64 + 16 * k + 1) 3 == 0 && fieldAt b (64 + 16 * k + 8) 8 % 65536 == 0

/-- A DPA in the armoured view, aligned. -/
def armouredAligned (d align : Nat) : Bool := d % align == 0

/-- Range check of a section, but for the fields that later hold codes name (0x0E06). -/
def sectionOk (x : Sec) : Bool :=
  let b := x.body
  x.resv == 0 && allZero x.pad &&
  (match x.type with
   | 1 => b.length == 16 && fieldAt b 1 1 ∈ [0, 1, 0xFF] && decide (fieldAt b 2 1 ≤ 1) && fieldAt b 3 5 == 0
   | 2 => b.length == 8 && within 1 (fieldAt b 0 1) 64 && allZero (b.drop 1)
   | 3 =>
     let e := fieldAt b 6 1
     b.length == 8 + 16 * e && decide (e ≤ 16) && (b.take 4).all (fun a => decide (a.toNat ≤ 8)) &&
       (within 1 (fieldAt b 4 1) 64 || fieldAt b 4 1 == 0xFF) && decide (fieldAt b 5 1 ≤ 1) && fieldAt b 7 1 == 0 &&
       (List.range e).all (extentOk b)
   | 4 =>
     b.length == 160 && (b.take 6).all (fun m => decide (m.toNat ≤ 2)) && decide (fieldAt b 6 1 ≤ 7) && fieldAt b 7 1 == 0 &&
       decide (fieldAt b 12 2 ≤ 4094) && fieldAt b 14 2 == 0 && (List.range 6).all (fun k => fieldAt b (16 + 24 * k + 6) 2 == 0)
   | 5 => b.length == 32 && decide (fieldAt b 16 1 ≤ 1) && allZero (b.drop 17)
   | 6 =>
     let n := fieldAt b 52 2
     b.length == 64 + 16 * n && within 1 n 256 && within 1 (fieldAt b 24 2) 129 && fieldAt b 26 6 == 0 &&
       within 64 (fieldAt b 48 2) 4096 && decide (fieldAt b 50 1 < 64) && within 10 (fieldAt b 51 1) 100 && allZero ((b.drop 54).take 10) &&
       armouredAligned (fieldAt b 0 8) gib && armouredAligned (fieldAt b 8 8) gib && armouredAligned (fieldAt b 16 8) gib &&
       armouredAligned (fieldAt b 32 8) 2097152 && armouredAligned (fieldAt b 40 8) 2097152 && (List.range n).all (regionOk b)
   | 0x10 => powerOk b
   | 0x11 => policyOk b
   | _ => weightsOk b)

/-! ### The later checks -/

/-- A of a quadrant in GiB under a memory section. -/
def armourIn (b : List Byte) (q : Nat) : Nat := 5 * fieldAt b q 1

/-- P of a stack under a memory section. -/
def plainIn (b : List Byte) (q : Nat) : Nat := 48 - armourIn b q - armourIn b q / 5

/-- Whether a DPA range lies in one view of one quadrant under a memory section (R190, R191). -/
def rangeInside (b : List Byte) (dpa len : Nat) : Bool :=
  let q := dpa / 2 ^ 40
  let o := dpa % 2 ^ 39
  decide (q < 4) && decide (o + len ≤ (if bitAt dpa 39 then 5 * armourIn b q else 6 * plainIn b q) * gib)

/-- Whether two ranges overlap. -/
def overlaps (a la b lb : Nat) : Bool := decide (a < b + lb) && decide (b < a + la)

/-- Whether no two ranges of a list overlap. -/
def apart : List (Nat × Nat) → Bool
  | [] => true
  | (a, l) :: r => r.all (fun x => !overlaps a l x.1 x.2) && apart r

/-- Whether a quadrant has a FAILED stack. -/
def quadrantFailed (s : State) (q : Nat) : Bool := (List.range 6).any (fun j => unitState s (uStack (6 * q + j)) == .failed)

/-- The memory layout check (0x0E09; R190, R220). -/
def memoryOk (s : State) (b : List Byte) : Bool :=
  let ex := (List.range (fieldAt b 6 1)).map (fun k => (fieldAt b (8 + 16 * k) 8, fieldAt b (8 + 16 * k + 8) 4 * gib))
  apart ex && ex.all (fun e => rangeInside b e.1 e.2) && decide ((ex.map Prod.snd).sum ≤ 256 * gib) &&
    (List.range 4).all (fun q => !quadrantFailed s q || armourIn b q == 40)

/-- The regions of a Fix layout: context, VA, bytes (R309). -/
def regionsOf (b : List Byte) : List (Nat × Nat × Nat) :=
  (List.range (fieldAt b 52 2)).map (fun i =>
    (fieldAt b (64 + 16 * i) 1, fieldAt b (64 + 16 * i + 8) 8, fieldAt b (64 + 16 * i + 4) 4 * 65536))

/-- S, the secured size in bytes (R310). -/
def securedSize (b : List Byte) : Nat := 64 * 2 ^ 20 + ((regionsOf b).map (fun r => r.2.2)).sum

/-- Slots and logs of a Fix layout (R309). -/
def fixPlaces (b : List Byte) : List (Nat × Nat) :=
  let n := fieldAt b 24 2 * gib
  let m := fieldAt b 48 2 * 2 ^ 20
  [(fieldAt b 0 8, n), (fieldAt b 8 8, n), (fieldAt b 16 8, n), (fieldAt b 32 8, m), (fieldAt b 40 8, m)]

/-- The Fix layout check (0x0E0A; R310). -/
def fixLayoutOk (mem b : List Byte) : Bool :=
  let places := fixPlaces b
  let sz := securedSize b
  places.all (fun x => bitAt x.1 39 && rangeInside mem x.1 x.2) && apart places && decide (sz ≤ 128 * gib) &&
    decide ((sz + gib - 1) / gib ≤ fieldAt b 24 2) &&
    (List.range 16).all (fun c => apart (((regionsOf b).filter (fun r => r.1 == c)).map (fun r => (r.2.1, r.2.2))))

/-- The role an identity section sets (R1): 0xFF takes the stored default. -/
def roleOf (s : State) (b : List Byte) : Bool := if fieldAt b 1 1 = 0xFF then s.flash.managerRole else fieldAt b 1 1 == 1

/-- The feed plan check (0x0E0C; R368). -/
def feedPlanOk (b : List Byte) : Bool :=
  let l := (b.take 16).map (fun x => x.toNat)
  !(decide (l.sum ≥ 2) && decide (2 * l.foldl max 0 > l.sum)) || bitAt (fieldAt b 16 1) 0

/-- Sections an image must hold (0x0E05): the Fix layout when the Fix policy's ENABLE is 1. -/
def requiredTypes (l : List Sec) : List Nat :=
  [1, 2, 3, 4, 0x10, 0x11] ++ (if fieldAt ((bodyOf l 0x11).getD []) 0 1 = 1 then [6] else [])

/-- A failed commit: status, hold code, OFFSET. -/
structure CommitFail where
  status : Nat
  code : Nat
  off : Nat
  deriving DecidableEq, Repr

/-- The first failing check of a list. -/
def firstFail : List (Bool × CommitFail) → Option CommitFail
  | [] => none
  | (bad, f) :: r => if bad then some f else firstFail r

/-- Checks 0x0E05 to 0x0E0C over the sections, in the order of the table of hold detail codes (R365; a LENGTH that is not
CONFIG_BEGIN's: log 162). -/
def commitFailOf (s : State) (img : List Byte) (l : List Sec) : Option CommitFail :=
  let at' (code type : Nat) (st : Nat := stHOLD) : CommitFail := ⟨st, code, offOf l type⟩
  let mem := (bodyOf l 3).getD []
  let badSec := l.find? (fun x => !sectionOk x)
  firstFail [
    ((requiredTypes l).any (fun t => (bodyOf l t).isNone), ⟨stHOLD, 0x0E05, 0xFFFFFFFF⟩),
    (fieldAt img 8 4 != img.length, ⟨stHOLD, 0x0E06, 8⟩),
    (!allZero ((img.drop 16).take 16), ⟨stHOLD, 0x0E06, 16⟩),
    (badSec.isSome, ⟨stHOLD, 0x0E06, (badSec.map Sec.off).getD 0⟩),
    (decide (fieldAt ((bodyOf l 1).getD []) 0 1 > 3), at' 0x0E07 1 stLEVEL),
    (!freqOk (fieldAt ((bodyOf l 0x10).getD []) 6 2), at' 0x0E08 0x10),
    (!memoryOk s mem, at' 0x0E09 3),
    ((match bodyOf l 6 with
      | some b => !fixLayoutOk mem b
      | none => false), at' 0x0E0A 6),
    ((bodyOf l 5).isSome && !roleOf s ((bodyOf l 1).getD []), at' 0x0E0B 5),
    ((match bodyOf l 5 with
      | some b => !feedPlanOk b
      | none => false), at' 0x0E0C 5 stSHAREDFEED)]

/-- The staged bytes, if every byte below LENGTH was written (0x0E01). -/
def stagedBytes (t : Staging) : Option (List Byte) :=
  if t.bytes.length = t.length then some (t.bytes.map Prod.snd) else none

/-- The checks of CONFIG_COMMIT on an image (R365): the failure, or the sections. -/
def commitCheck (s : State) (t : Staging) : Except CommitFail (List Byte × List Sec) :=
  match stagedBytes t with
  | none => .error ⟨stHOLD, 0x0E01, 0xFFFFFFFF⟩
  | some img =>
    if fieldAt img 0 4 ≠ 0x4746435A then .error ⟨stHOLD, 0x0E02, 0⟩
    else if fieldAt img 4 4 ≠ 1 then .error ⟨stHOLD, 0x0E02, 4⟩
    else if fieldAt img 12 4 ≠ (crc32c (img.drop 16)).toNat then .error ⟨stHOLD, 0x0E03, 12⟩
    else match takeSections img img.length 32 with
      | .error off => .error ⟨stHOLD, 0x0E04, off⟩
      | .ok l =>
        match duplicated [] l with
        | some off => .error ⟨stHOLD, 0x0E04, off⟩
        | none => match commitFailOf s img l with
          | some f => .error f
          | none => .ok (img, l)

/-! ### CONFIG_BEGIN, CONFIG_WRITE, CONFIG_ABORT, CONFIG_READ -/

/-- A context is loaded. -/
def anyLoaded (s : State) : Bool := !s.ctxs.isEmpty

/-- A commit is being applied: a conflicting activity of the commands on the image buffer (R247, R365; log 17). -/
def commitBusy (s : State) : Option (Option Nat) := if s.conf.applying.isSome then some none else none

/-- Conflicting activity of CONFIG_BEGIN (R363, R372). -/
def beginBusy (s : State) : Option (Option Nat) :=
  if s.test.bist.isSome then some (some 0x0E61)
  else if s.dev.st = .ready ∧ anyLoaded s then some (some 0x0E45)
  else if s.dev.st = .ready ∧ inGroup s then some (some 0x0E46)
  else commitBusy s

def chkConfigBegin (p : Packet) (s : State) : Checks := { lenOk := p.paramLen == 4, busy := beginBusy s }

/-- CONFIG_BEGIN's effect (R363). -/
def bodyConfigBegin (p : Packet) (s : State) : State :=
  let n := pf p 0 4
  if !within 32 n 1048576 then completeWith p 0x0100 stBADPARAM 0x0E41 s
  else
    let t := { s with conf := { s.conf with staging := some { length := n } } }
    completeOk p 0x0100 (if s.dev.st = .ready then enterHold 0x0E12 t else t)

def acceptConfigBegin (p : Packet) (s : State) : State := acceptPacket 0x0100 (chkConfigBegin p s) (fun _ t => bodyConfigBegin p t) p s

/-- CONFIG_BEGIN (R363). -/
def execConfigBegin (p : Packet) (s : State) : Out := packetOut 0x0100 acceptConfigBegin p s

def chkConfigWrite (p : Packet) (s : State) : Checks :=
  { lenOk := decide (5 ≤ p.paramLen) && decide (p.paramLen ≤ (if bitAt p.flags 0 then 1048580 else 448)), busy := commitBusy s }

/-- Stages bytes upward. -/
def stageBytes : Table Byte → Nat → List Byte → Table Byte
  | t, _, [] => t
  | t, k, b :: r => stageBytes (tset t k b) (k + 1) r

/-- CONFIG_WRITE's effect (R364). -/
def bodyConfigWrite (p : Packet) (s : State) : State :=
  match s.conf.staging with
  | none => completeWith p 0x0101 stBADPARAM 0x0E43 s
  | some g =>
    let data := (p.params.take p.paramLen).drop 4
    if pf p 0 4 + data.length > g.length then completeWith p 0x0101 stBADPARAM 0x0E42 s
    else completeOk p 0x0101 { s with conf := { s.conf with staging := some { g with bytes := stageBytes g.bytes (pf p 0 4) data } } }

def acceptConfigWrite (p : Packet) (s : State) : State := acceptPacket 0x0101 (chkConfigWrite p s) (fun _ t => bodyConfigWrite p t) p s

/-- CONFIG_WRITE (R364). -/
def execConfigWrite (p : Packet) (s : State) : Out := packetOut 0x0101 acceptConfigWrite p s

def chkConfigAbort (p : Packet) (s : State) : Checks := { lenOk := p.paramLen == 0, busy := commitBusy s }

/-- CONFIG_ABORT's effect (R365): back to READY under the recorded configuration, without one to the first hold. After a full BIST the commit
that R372 requires before a context is loaded is still required (log 18). -/
def bodyConfigAbort (p : Packet) (s : State) : State :=
  let t := { s with conf := { s.conf with staging := none } }
  completeOk p 0x0103
    (if s.dev.st ≠ .hold then t
     else if s.conf.recorded.isSome then enterState .ready 0 (resumePorts t)
     else enterState .hold 0 t)

def acceptConfigAbort (p : Packet) (s : State) : State := acceptPacket 0x0103 (chkConfigAbort p s) (fun _ t => bodyConfigAbort p t) p s

/-- CONFIG_ABORT (R365). -/
def execConfigAbort (p : Packet) (s : State) : Out := packetOut 0x0103 acceptConfigAbort p s

def chkConfigRead (p : Packet) : Checks := { lenOk := p.paramLen == 0, charge := some 1048576 }

/-- CONFIG_READ's effect (R367). -/
def bodyConfigRead (p : Packet) (idx : Nat) (s : State) : State :=
  match s.conf.recorded with
  | none => refuse8 p 0x0104 stBADPARAM (some 0x0E44) idx s
  | some img => finishSlot p 0x0104 idx 0 img s

def acceptConfigRead (p : Packet) (s : State) : State := acceptPacket 0x0104 (chkConfigRead p) (bodyConfigRead p) p s

/-- CONFIG_READ (R367). -/
def execConfigRead (p : Packet) (s : State) : Out := packetOut 0x0104 acceptConfigRead p s

/-! ### CONFIG_COMMIT and its application -/

/-- The slot payload of CONFIG_COMMIT (R365). -/
def commitPayload (f : CommitFail) : List Byte := leBytes 2 f.status ++ zeros 2 ++ leBytes 4 f.code ++ leBytes 4 f.off ++ zeros 4

def chkConfigCommit (p : Packet) (s : State) : Checks :=
  { lenOk := p.paramLen == 0, charge := some 16, busy := commitBusy s }

/-- The module stays in HOLD with a commit's code (R365). -/
def stayInHold (code : Nat) (s : State) : State := if s.dev.st = .hold then enterState .hold code s else s

/-- CONFIG_COMMIT's effect (R365): a failure completes at once; on success the application is under way, ST_PENDING (log 17). -/
def bodyConfigCommit (p : Packet) (idx : Nat) (s : State) : State :=
  match s.conf.staging with
  | none => refuse8 p 0x0102 stBADPARAM (some 0x0E43) idx s
  | some g =>
    match commitCheck s g with
    | .error f =>
      complete p 0x0102 f.status (some f.code) none idx []
        (slotReady idx f.status f.code (commitPayload f) (stayInHold f.code s))
    | .ok _ =>
      complete p 0x0102 stPENDING none none idx [] { s with conf := { s.conf with applying := some (idx, p, 0) } }

def acceptConfigCommit (p : Packet) (s : State) : State := acceptPacket 0x0102 (chkConfigCommit p s) (bodyConfigCommit p) p s

/-- CONFIG_COMMIT (R365). -/
def execConfigCommit (p : Packet) (s : State) : Out := packetOut 0x0102 acceptConfigCommit p s

/-- Sets the target frequency (R339): outside any group in READY the retune follows (log 19). -/
def setTarget (mhz : Nat) (s : State) : State :=
  if s.dev.st = .ready ∧ ¬ inGroup s then
    { s with grp := { s.grp with target := mhz, freq := mhz, retune := s.grp.retune || mhz != s.grp.curFreq } }
  else { s with grp := { s.grp with target := mhz } }

/-- Applies one live section (R324, R313, R348, R369). -/
def applyLive (x : LiveSection) (s : State) : State :=
  let t := { s with conf := { s.conf with sections := tset s.conf.sections x.type x.body } }
  if x.type = 0x10 then setTarget (fieldAt x.body 6 2) { t with pow := { t.pow with capW := fieldAt x.body 0 2 } } else t

/-- Armour of a quadrant after a commit that changes the memory section (R214). -/
def armourAfter (s : State) (mem : List Byte) (q : Nat) : Armour :=
  match (List.range 6).find? (fun j => unitState s (uStack (6 * q + j)) == .failed) with
  | some j => { st := 4, lostJ := j }
  | none => { st := if armourIn mem q = 0 then 0 else 1 }

/-- GROUP_JOIN goes to the manager of the group (R283), over whatever link reaches it: GROUP_ID, the role requested, LEVEL, FEED_ID, SLOT_ID,
DEVICE_ID, serial number. Whether the module asks to be a worker or a standby is not stated, and is free (log 171). -/
def askJoin (gid : Nat) (s : State) : State :=
  match freshValue s with
  | (v, t) => sendMsg 3 0xFFFF "GROUP_JOIN" ([gid, v.toNat % 2, t.dev.level, t.board.feedId, t.board.slotId] ++ t.flash.serial.map BitVec.toNat) t

/-- A module takes a role outside any group (R1, R283): a worker asks to join its group; a manager has rank 0 (R281) and a group chart of its own record, whose epoch
starts at 1 (log 20). -/
def takeRole (role : Bool) (gid : Nat) (s : State) : State :=
  if role then
    let own : GroupRec := ⟨0, 1, 0, s.dev.level, s.board.feedId, 0xFFFF, 1, BitVec.ofNat 32 (fieldAt s.flash.serial 0 4)⟩
    if s.grp.manager then { s with grp := { s.grp with groupId := gid } }
    else { s with grp := { s.grp with manager := true, groupId := gid, rank := 0, managerRank := 0, deputy := 0xFFFF, epoch := 1, recs := [own] } }
  else askJoin gid { s with grp := { s.grp with manager := false, groupId := gid, rank := 0xFFFF, managerRank := 0xFFFF, recs := [] } }

/-- Applies the sections of a committed image (R1 to R3, R214, R366). -/
def applyImage (img : List Byte) (l : List Sec) (s : State) : State :=
  let idn := (bodyOf l 1).getD []
  let mem := (bodyOf l 3).getD []
  let fabric := (bodyOf l 4).getD []
  let memChanged := tget s.conf.sections 3 != some mem
  let layoutChanged := tget s.conf.sections 6 != bodyOf l 6
  let armour := if memChanged then (List.range 4).map (armourAfter s mem) else s.mem.armour
  let persist := bitAt (fieldAt idn 2 1) 0
  let role := roleOf s idn
  let level := fieldAt idn 0 1
  let power := (bodyOf l 0x10).getD []
  let secs : Table (List Byte) := l.foldl (fun t x => tset t x.type x.body) []
  let fixNew : FixSys := if memChanged || layoutChanged then
    { s.fix with slot0 := none, slot1 := none, consortSlot := none, lastFixStep := none, recoveryStep := none } else s.fix
  let s1 : State := { s with
    conf := { s.conf with recorded := some img, sections := secs, staging := none, applying := none, mustCommit := false }
    dev := { s.dev with level := if level = 0 then 3 else level }
    mem := { s.mem with hbm := if memChanged || layoutChanged then [] else s.mem.hbm, cache := if memChanged || layoutChanged then [] else s.mem.cache, armour := armour }
    grp := { s.grp with feedOverride := bitAt (fieldAt ((bodyOf l 5).getD []) 16 1) 0 }
    flash := if persist then
        { s.flash with managerRole := role, modes := (List.range 6).map (fun k => fieldAt fabric k 1) } else s.flash
    fab := { s.fab with ports := (List.range 6).map (fun k => portMode (fieldAt fabric k 1) ((s.fab.ports[k]?).getD {})) }
    pow := { s.pow with capW := fieldAt power 0 2 }
    fix := fixNew }
  let s2 := if s1.mem.armour.map Armour.st = s.mem.armour.map Armour.st then s1 else raiseEvent 1 s1
  setTarget (fieldAt power 6 2) (enterState .ready 0 (takeRole role (fieldAt fabric 8 4) s2))

/-- CONFIG_COMMIT_APPLIED (R365, R366): the image takes force, the module enters READY and the commit's slot becomes ready. -/
def execConfigCommitApplied (s : State) : Out :=
  match s.conf.applying, s.conf.staging with
  | some (idx, _, _), some g =>
    match commitCheck s g with
    | .ok (img, l) => gate (s.dev.st == .hold) "the module is not in HOLD" (finishPending idx 0 0 (commitPayload ⟨0, 0, 0xFFFFFFFF⟩) (applyImage img l s))
    | .error f =>
      gate (s.dev.st == .hold) "the module is not in HOLD" (finishPending idx f.status f.code (commitPayload f)
        (stayInHold f.code { s with conf := { s.conf with applying := none } }))
  | _, _ => .refused (.notEnabled "no commit is being applied")

/-! ### LIVE_SET -/

/-- Whether the parameter length of LIVE_SET fits its section. -/
def liveLenOk (p : Packet) : Bool := p.paramLen == 8 + pad8 (pf p 4 4)

/-- The body LIVE_SET carries. -/
def liveBody (p : Packet) : List Byte := (p.params.drop 8).take (pf p 4 4)

/-- Reserved bytes, padding and enumerations of the section LIVE_SET carries (R369), checked at check 5; those of another type are not known. -/
def liveFieldsOk (p : Packet) : Bool :=
  let b := liveBody p
  pf p 2 2 == 0 && (decide (pf p 0 2 ∉ [0x10, 0x11, 0x12]) || (allZero ((p.params.take p.paramLen).drop (8 + pf p 4 4)) &&
    (if pf p 0 2 = 0x10 then b.length == 16 && allZero (b.drop 8) else if pf p 0 2 = 0x11 then policyOk b else weightsOk b)))

def chkLiveSet (p : Packet) : Checks := { lenOk := liveLenOk p, fieldsOk := liveFieldsOk p }

/-- A job is bound. -/
def anyBound (s : State) : Bool := s.ctxs.any (fun e => e.2.bound)

/-- LIVE_SET's effect (R369): a power value outside its table carries detail 0x0D02 (R348, log 147). -/
def bodyLiveSet (p : Packet) (s : State) : State :=
  let type := pf p 0 2
  let b := liveBody p
  if type ∉ [0x10, 0x11, 0x12] then completeWith p 0x0108 stBADPARAM 0x0E50 s
  else if type = 0x10 ∧ ¬ (powerOk b && freqOk (fieldAt b 6 2)) then completeWith p 0x0108 stBADPARAM 0x0D02 s
  else
    let x : LiveSection := ⟨s.nextId, type, b⟩
    completeOk p 0x0108 (if anyBound s then { s with conf := { s.conf with live := s.conf.live ++ [x] }, nextId := s.nextId + 1 } else applyLive x s)

def acceptLiveSet (p : Packet) (s : State) : State := acceptPacket 0x0108 (chkLiveSet p) (fun _ t => bodyLiveSet p t) p s

/-- LIVE_SET (R369). -/
def execLiveSet (p : Packet) (s : State) : Out := packetOut 0x0108 acceptLiveSet p s

end Sys2Proof.Machine
end

