-- ==== Sys2Proof/Machine/GroupChart.lean ====
section
/-! DEFINITION. The group chart and its changes (R281, R282, R285). -/
namespace Sys2Proof.Machine

/-- The ranks of the present workers (R281, R282). -/
def presentWorkers (s : State) : List Nat :=
  (s.grp.recs.filter (fun r => r.rank != s.grp.rank && r.state == 0 && decide (r.rank < 256))).map GroupRec.rank

/-- Sends a message to every rank of a list. -/
def sendAll (cls : Nat) (name : String) (args : List Nat) (ranks : List Nat) (s : State) : State :=
  ranks.foldl (fun t r => sendMsg cls r name args t) s

/-- The group record of a rank. -/
def groupRec (s : State) (rank : Nat) : Option GroupRec := s.grp.recs.find? (fun r => r.rank == rank)

/-- FEED of a rank's record. -/
def feedOf (l : List GroupRec) (rank : Nat) : Nat := ((l.find? (fun r => r.rank == rank)).map GroupRec.feed).getD 0xFF

/-- Inserts a record in ascending order of rank. -/
def insertRec (r : GroupRec) : List GroupRec → List GroupRec
  | [] => [r]
  | h :: t => if r.rank < h.rank then r :: h :: t else h :: insertRec r t

/-- The least rank of a list of records, 0xFFFF when there is none. -/
def leastRank (l : List GroupRec) : Nat := l.foldl (fun m r => min m r.rank) 0xFFFF

/-- The deputy (R285): the present worker of lowest rank whose FEED differs from the manager's, else the present worker of lowest rank. -/
def deputyOf (l : List GroupRec) (manager : Nat) : Nat :=
  let w := l.filter (fun r => r.rank != manager && r.state == 0 && decide (r.rank < 256))
  match w.filter (fun r => r.feed != feedOf l manager) with
  | [] => leastRank w
  | d => leastRank d

/-- Roles of the records: manager, deputy, standby, worker (R282). -/
def withRoles (manager deputy : Nat) (r : GroupRec) : GroupRec :=
  { r with role := if r.rank = manager then 1 else if r.rank = deputy then 2 else if r.rank ≥ 256 then 3 else 0 }

/-- A record takes the new epoch when it changed (R282). -/
def stampRec (old : List GroupRec) (e : Word) (r : GroupRec) : GroupRec :=
  match old.find? (fun o => o.rank == r.rank) with
  | some o => if { o with changeEpoch := r.changeEpoch } = r then { r with changeEpoch := o.changeEpoch } else { r with changeEpoch := e }
  | none => { r with changeEpoch := e }

/-- Who receives the group chart: every member but this module and the FAILED ones. -/
def chartReaders (s : State) : List Nat := (s.grp.recs.filter (fun r => r.rank != s.grp.rank && r.state != 2)).map GroupRec.rank

/-- The manager changes the group chart (R282, R285): epoch, deputy, roles; the mirror to the deputy, then the publication. -/
def changeGroup (recs : List GroupRec) (s : State) : State :=
  let e := epochNext s.grp.epoch
  let d := deputyOf recs s.grp.rank
  let l := recs.map (fun r => stampRec s.grp.recs e (withRoles s.grp.rank d r))
  let own := l.find? (fun r => r.rank == s.grp.rank)
  let t := { s with grp := { s.grp with recs := l, epoch := e, deputy := d, managerRank := s.grp.rank, consort := (own.map GroupRec.consort).getD 0xFFFF } }
  let t1 := if d = 0xFFFF then t else sendMsg 1 d "MIRROR_GROUP_CHART" [e.toNat] t
  sendAll 1 "GROUP_CHART" [e.toNat, s.grp.gen] (chartReaders t1) t1

/-- The present members in ascending (FEED, rank) (R325). -/
def insertFeed (r : GroupRec) : List GroupRec → List GroupRec
  | [] => [r]
  | h :: t => if r.feed < h.feed ∨ (r.feed = h.feed ∧ r.rank < h.rank) then r :: h :: t else h :: insertFeed r t
def byFeed (l : List GroupRec) : List GroupRec := (l.filter (fun r => r.state == 0 && r.role != 3)).foldr insertFeed []

/-- The size of the largest feed domain of a list (R325). -/
def largestFeed (l : List GroupRec) : Nat := (l.map (fun r => (l.filter (fun x => x.feed == r.feed)).length)).foldl max 0

/-- FEED 0xFF shares every domain (R325). -/
def sharesFeed (a b : Nat) : Bool := a == b || a == 0xFF || b == 0xFF

/-- The consort R325 gives a rank among the present members. -/
def consortIn (l : List GroupRec) (rank : Nat) : Option Nat :=
  let b := byFeed l
  match b.findIdx? (fun r => r.rank == rank) with
  | none => none
  | some i => if b.length < 2 then none else (b[(i + largestFeed b) % b.length]?).map GroupRec.rank

/-- PAIR_STATUS of a rank (R326, R335). -/
def pairStatusOf (l : List GroupRec) (rank : Nat) : Nat :=
  match (l.find? (fun r => r.rank == rank)).map GroupRec.consort with
  | some 0xFFFF => (match consortIn l rank with
    | some k => if sharesFeed (feedOf l k) (feedOf l rank) then 2 else 3
    | none => 3)
  | some k => if sharesFeed (feedOf l k) (feedOf l rank) then 1 else 0
  | none => 3

/-- Members that joined become PRESENT, standbys READY (R283); pairing follows a change of the present members (R325). -/
def settleJoins (s : State) : State :=
  if s.grp.recs.any (fun r => r.state == 1) then
    let t := changeGroup (s.grp.recs.map (fun r => if r.state = 1 then { r with state := if r.rank ≥ 256 then 3 else 0 } else r)) s
    if s.grp.recs.any (fun r => r.state == 1 && decide (r.rank < 256)) then { t with grp := { t.grp with pairingDue := true } } else t
  else s

end Sys2Proof.Machine
end

