-- ==== Sys2Proof/Machine/StepLog.lean ====
section
/-! DEFINITION. Step manifests and the step log (R320 to R322), and the opening of a step. -/
namespace Sys2Proof.Machine

/-- A record's bytes (R320). -/
def recBytes (r : ManRec) : List Byte := leBytes 1 r.type ++ zeros 3 ++ leBytes 4 r.body.length ++ r.body

/-- The length of a manifest. -/
def manLength (m : Manifest) : Nat := 32 + (m.recs.map (fun r => (recBytes r).length)).sum

/-- A manifest's header up to its CRC (R320): count, length and DIGEST are 0 while it is open; bytes 7:4 are not stated (log 22). -/
def manHead (m : Manifest) : List Byte :=
  leBytes 4 0x4E414D5A ++ [Config.freeByte 1 0, Config.freeByte 1 1, Config.freeByte 1 2, Config.freeByte 1 3] ++ leBytes 8 m.step ++
    leBytes 2 m.gen ++ (if m.final then leBytes 2 m.recs.length ++ leBytes 4 (manLength m) ++ leBytes 4 m.digest.toNat else zeros 10)

/-- A manifest's bytes (R320). -/
def manBytes (m : Manifest) : List Byte :=
  let body := m.recs.flatMap recBytes
  manHead m ++ (if m.final then leBytes 4 (crc32c (manHead m ++ body)).toNat else zeros 4) ++ body

/-- The manifest of a step in the module's own log. -/
def ownManifest (s : State) (step : Nat) : Option Manifest := s.fix.log.reverse.find? (fun m => m.step == step)

/-- The Fix layout section in force (R309). -/
def fixLayout (s : State) : Option (List Byte) := tget s.conf.sections 6

/-- Bytes at an offset of a ring in device memory: what passes its end goes on at its start, and no byte lies outside it. -/
def storeRing (base size at' : Nat) (l : List Byte) (s : State) : State :=
  devStore base ((l.drop (size - at')).take size) (devStore (base + at') (l.take (size - at')) s)

/-- The manifest of a step as it stands in the step log at LOG_DPA (R320, R321). Where in the ring a manifest begins is not stated: each
follows the one before it (log 170). -/
def storeManifest (step : Nat) (s : State) : State :=
  match fixLayout s, ownManifest s step with
  | some b, some m => storeRing (fieldAt b 32 8) (fieldAt b 48 2 * 2 ^ 20) s.fix.logAt (manBytes m) s
  | _, _ => s

/-- The place in the ring after the manifest last opened. -/
def nextLogAt (s : State) : Nat :=
  (s.fix.logAt + ((s.fix.log.getLast?).map manLength).getD 0) % (fieldAt ((fixLayout s).getD []) 48 2 * 2 ^ 20)

/-- Appends a record to the open manifest of a step; a finalised one takes none (R320). -/
def manRecord (step type : Nat) (body : List Byte) (s : State) : State :=
  storeManifest step { s with fix := { s.fix with log := s.fix.log.map (fun m =>
      if m.step = step ∧ ¬ m.final then { m with recs := m.recs ++ [⟨type, body⟩] } else m) } }

/-- A manifest event's bytes (R182). -/
def eventBytes (e : IngEvent) : List Byte :=
  leBytes 1 e.kind ++ leBytes 1 e.reason ++ leBytes 2 e.slot ++ zeros 4 ++ leBytes 8 e.id

/-- A batch manifest's bytes (R182), before the padding to MSIZE. -/
def batchManBytes (firstStep : Nat) (m : BatchManifest) : List Byte :=
  leBytes 8 (firstStep + m.batch) ++ leBytes 8 m.batch ++ leBytes 8 m.cursorBefore ++ leBytes 8 m.cursorAfter ++
    leBytes 2 m.ids.length ++ leBytes 2 m.events.length ++ leBytes 1 (if m.committed then 2 else 1) ++ zeros 27 ++
    m.ids.flatMap (leBytes 8) ++ m.events.flatMap eventBytes

/-- MSIZE (R182). -/
def mSize (batch : Nat) : Nat := (64 + 8 * batch + 16 * (2 * batch + 64) + 4095) / 4096 * 4096

/-- Address of a batch's manifest entry (R182). -/
def manEntryVa (d : Sched) (b : Nat) : Nat := d.manifestVa + b % d.manifestEntries * mSize d.batchSize

/-- Writes a context's bytes for the module itself: a fault stops only that write and makes its record (R235; log 23). -/
def moduleWrite (c va : Nat) (l : List Byte) (s : State) : State :=
  match vaWrite c va l s with
  | .ok t => t
  | .error e => moduleFault c e .write s

/-- The batch manifests of a context that its step commits (R182). -/
def dueManifests (x : Ctx) (step : Nat) : List BatchManifest :=
  x.ingest.manifests.filter (fun m => x.ingest.firstStep + m.batch == step && !m.committed)

/-- Commits a context's batch manifest for a step: its entry in memory, its record in the step manifest (R182, R320). -/
def commitBatch (step c : Nat) (s : State) : State :=
  match ctxOf s c with
  | none => s
  | some x =>
    match x.ingest.sched, if x.bound then dueManifests x step else [] with
    | some d, m :: _ =>
      let m' := { m with committed := true }
      let s1 := moduleWrite c (manEntryVa d m.batch + 36) [2] s
      let s2 := ctxMod c (fun y => { y with ingest := { y.ingest with
        manifests := y.ingest.manifests.map (fun n => if n.batch = m.batch then m' else n) } }) s1
      manRecord step 1 (leBytes 1 c ++ batchManBytes d.firstStep m') s2
    | _, _ => s

/-- Manifests that must be kept: from the older of the two kept Fixes onward (R321). -/
def keptFrom (s : State) : Nat :=
  match s.fix.slot0, s.fix.slot1 with
  | some a, some b => min a.step b.step
  | some a, none => a.step
  | none, some b => b.step
  | none, none => 0

/-- Opens the manifest of a step with the records decided at its boundary (R320) and commits the batch manifests of its step. -/
def openStepWith (recs : List ManRec) (step : Nat) (s : State) : State :=
  let keep := keptFrom s
  let kept : List Manifest := s.fix.log.filter (fun m => decide (keep ≤ m.step) && m.step != step)
  let m : Manifest := { step := step, gen := s.grp.gen, recs := recs }
  let s1 : State := storeManifest step { s with fix := { s.fix with log := kept ++ [m], logAt := nextLogAt s } }
  (s1.ctxs.map Prod.fst).foldl (fun t c => commitBatch step c t) s1

/-- Opens the manifest of a step. -/
def openStep (step : Nat) (s : State) : State := openStepWith [] step s

/-- Bytes of the step log in use: the ring must hold every kept manifest (R321). -/
def logBytes (s : State) : Nat := (s.fix.log.map manLength).sum

end Sys2Proof.Machine
end

