-- ==== Sys2Proof/Machine/Contexts.lean ====
section
/-! DEFINITION. Context commands (R221 to R223, R252), scale records (R87 to R93, R252), GROUP_SET, ASTK_SET, JOB_START, JOB_STOP (R132,
R133), page-table roots and translation caches (R197, R198). -/
namespace Sys2Proof.Machine

/-! ### CONTEXT_SET, CONTEXT_GET, CONTEXT_CLEAR -/

/-- Ranges of CONTEXT_SET's fields (R221). A store share, waits or a ring beyond all there is of them (R222) is left to check 8, where it is a
demand that cannot be met (log 158). -/
def contextFieldsOk (p : Packet) : Bool :=
  pf p 0 1 == p.ctx && within 1 (pf p 1 1) 100 && decide (pf p 2 2 ≤ 799) && within 1 (pf p 4 2) (800 - pf p 2 2) &&
    decide (64 ≤ pf p 6 2) && pf p 6 2 % 64 == 0 && (pf p 10 2 == 0 || within 4 (pf p 10 2) 258 || decide (1024 < pf p 10 2)) &&
    decide (pf p 12 1 ≤ 1) && pf p 13 3 == 0 && pf p 16 8 % 2097152 == 0

/-- BIST_RUN is under way (R372). -/
def bistBusy (s : State) : Option (Option Nat) := if s.test.bist.isSome then some (some 0x0E61) else none

def chkContextSet (p : Packet) (s : State) : Checks :=
  { lenOk := p.paramLen == 24, fieldsOk := contextFieldsOk p, busy := bistBusy s
    units := clusterUnits s ((List.range (pf p 4 2)).map (fun i => pf p 2 2 + i)) }

/-- Whether a save area overlaps another context's (R221). -/
def saveOverlap (s : State) (p : Packet) : Bool :=
  s.ctxs.any (fun e => e.1 != p.ctx && overlaps e.2.saveVa (16 * 2 ^ 20) (pf p 16 8) (16 * 2 ^ 20))

/-- CONTEXT_SET's effect (R221): refused while R372 requires a commit first (log 18); entries that the translation caches hold of an
earlier context of this number go (log 71). -/
def bodyContextSet (p : Packet) (s : State) : State :=
  let x : Ctx := { params := p.params.take 24 }
  if s.conf.mustCommit then completeWith p 0x0110 stHOLD 0x0E11 s
  else if !fits [x] then completeWith p 0x0110 stBADPARAM 0x0901 s
  else if saveOverlap s p then completeWith p 0x0110 stBADPARAM 0x0902 s
  else if (ctxOf s p.ctx).isSome then completeWith p 0x0110 stBADPARAM 0x0903 s
  else completeOk p 0x0110 { s with ctxs := tset s.ctxs p.ctx x, mem := { s.mem with tlb := s.mem.tlb.filter (fun t => t.ctx != p.ctx) } }

def acceptContextSet (p : Packet) (s : State) : State := acceptPacket 0x0110 (chkContextSet p s) (fun _ t => bodyContextSet p t) p s

/-- CONTEXT_SET (R221). -/
def execContextSet (p : Packet) (s : State) : Out := packetOut 0x0110 acceptContextSet p s

/-- The queues of a context that exist, as bits (R252). -/
def queueBits (s : State) (c : Nat) : Nat :=
  ((List.range 4).map (fun i => if (tget s.queues.q (1 + 4 * c + i)).isSome then 2 ^ i else 0)).sum

/-- The payload of CONTEXT_GET (R252). -/
def contextPayload (s : State) (c : Nat) (x : Ctx) : List Byte :=
  x.params ++ leBytes 1 (if x.resident then 1 else 0) ++ leBytes 1 (if x.parked then 1 else 0) ++ leBytes 1 x.faults.length ++
    leBytes 1 (queueBits s c) ++ zeros 4

def chkContextGet (p : Packet) : Checks := { lenOk := p.paramLen == 0, charge := some 32 }

/-- CONTEXT_GET's effect. -/
def bodyContextGet (p : Packet) (idx : Nat) (s : State) : State :=
  withCtx p 0x0111 idx s (fun x => finishSlot p 0x0111 idx 0 (contextPayload s p.ctx x) s)

def acceptContextGet (p : Packet) (s : State) : State := acceptPacket 0x0111 (chkContextGet p) (bodyContextGet p) p s

/-- CONTEXT_GET (R252). -/
def execContextGet (p : Packet) (s : State) : Out := packetOut 0x0111 acceptContextGet p s

def chkContextClear (p : Packet) : Checks := { lenOk := p.paramLen == 0 }

/-- CONTEXT_CLEAR's effect (R221, R239). -/
def bodyContextClear (p : Packet) (s : State) : State :=
  withCtx p 0x0112 0xFFFF s (fun x =>
    if x.busy || !x.faults.isEmpty || !x.lateFaults.isEmpty then completeOpen p 0x0112 stBUSY s
    else if queueBits s p.ctx ≠ 0 then completeWith p 0x0112 stBUSY 0x0A02 s
    else completeOk p 0x0112 (settleIngest { s with ctxs := tdel s.ctxs p.ctx }))

def acceptContextClear (p : Packet) (s : State) : State := acceptPacket 0x0112 (chkContextClear p) (fun _ t => bodyContextClear p t) p s

/-- CONTEXT_CLEAR (R221). -/
def execContextClear (p : Packet) (s : State) : Out := packetOut 0x0112 acceptContextClear p s

/-! ### SCALE_SET and SCALE_GET -/

/-- The ranges of a scale record given to SCALE_SET (R89); `b` is the 64-byte record. -/
def scaleRangesOk (b : List Byte) : Bool :=
  let grad := bitAt (fieldAt b 9 1) 2
  (within 1 (fieldAt b 10 1) 4 || fieldAt b 10 1 == 0xFF) && (decide (fieldAt b 11 1 ≤ 3) || fieldAt b 11 1 == 0xFF) &&
    decide (-8192 ≤ signedOf 16 (fieldAt b 6 2)) && decide (signedOf 16 (fieldAt b 6 2) ≤ 8191) && (grad || decide (fieldAt b 8 1 ≤ 3)) &&
    decide (1 ≤ fieldAt b 32 4) && decide (1 ≤ fieldAt b 36 4) && decide (fieldAt b 32 4 * fieldAt b 36 4 ≤ 2 ^ 48)

/-- Reserved bytes of a scale record. -/
def scaleReservedOk (b : List Byte) : Bool := decide (fieldAt b 9 1 < 16) && fieldAt b 15 1 == 0 && fieldAt b 26 6 == 0

/-- The record part of SCALE_SET's parameters. -/
def scaleBytes (p : Packet) : List Byte := (p.params.drop 8).take 64

def chkScaleSet (p : Packet) : Checks :=
  { lenOk := p.paramLen == 72
    fieldsOk := decide (pf p 0 1 ≤ 1) && pf p 1 7 == 0 && scaleReservedOk (scaleBytes p) && (pf p 0 1 == 1 || scaleRangesOk (scaleBytes p)) }

/-- GFMT a record starts with (R252). -/
def gfmtStart (mode : Nat) : Nat := if bitAt mode 2 then (if bitAt mode 3 then 3 else 2) else 0

/-- A value that 0xFF leaves to its default (R89). -/
def orDefault (v d : Nat) : Nat := if v = 0xFF then d else v

/-- The record that SCALE_SET makes from its bytes (R89, R97, R252), over the old one if there is one. -/
def scaleRecord (b : List Byte) (old : Option ScaleRec) : ScaleRec :=
  let mode := fieldAt b 9 1
  let init := signedOf 16 (fieldAt b 6 2)
  let keep := match old with
    | some o => o.grad && bitAt mode 2
    | none => false
  { id := fieldAt b 0 4, ts := if fieldAt b 8 1 = 3 ∧ ¬ bitAt mode 2 then 0 else init, initScale := init, fmt := fieldAt b 8 1, mode := mode,
    delay := orDefault (fieldAt b 10 1) 2, margin := orDefault (fieldAt b 11 1) 1, decay := orDefault (fieldAt b 12 1) 64,
    gfmt := if keep then ((old.map ScaleRec.gfmt).getD 0) else gfmtStart mode,
    gradHist := if keep then ((old.map ScaleRec.gradHist).getD 0) else 0,
    rows := fieldAt b 32 4, cols := fieldAt b 36 4, blocksVa := fieldAt b 40 8, ovfVa := fieldAt b 48 8, watchVa := fieldAt b 56 8,
    latched := (old.map ScaleRec.latched).getD false
    live := (old.map ScaleRec.live).getD {}, shadow := (old.map ScaleRec.shadow).getD {}, shadowTs := (old.map ScaleRec.shadowTs).getD 0 }

/-- Whether a replacement leaves the block table as it stands (R93). -/
def sameBlocks (o n : ScaleRec) : Bool := o.blocksVa == n.blocksVa && o.rows == n.rows && o.cols == n.cols && o.linear == n.linear

/-- Applies a create or replace: the record, then its block table when it is new or moved (R93). -/
def applyScale (c : Nat) (b : List Byte) (s : State) : Except AccErr State :=
  let old := scaleOf s c (fieldAt b 0 4)
  let n := scaleRecord b old
  let t := ctxMod c (fun x => { x with scales := tset x.scales n.id n }) s
  match old with
  | some o => if sameBlocks o n then .ok t else initBlocks c n t
  | none => initBlocks c n t

/-- Bytes of the overflow bitmap area (R95). -/
def bitmapArea (r : ScaleRec) : Nat := bitmapVa r 1 - r.ovfVa + (r.blocks + 7) / 8

/-- Regions of a context in the Fix layout in force: VA and bytes (R309, R311); `none` with no Fix layout. -/
def ctxRegions (s : State) (c : Nat) : Option (List (Nat × Nat)) :=
  (tget s.conf.sections 6).map (fun b => ((regionsOf b).filter (fun r => r.1 == c)).map (fun r => (r.2.1, r.2.2)))

/-- Whether a range lies wholly in one region of its context; with no Fix layout nothing is to be covered (R311; log 24). -/
def covered (s : State) (c va n : Nat) : Bool :=
  match ctxRegions s c with
  | none => true
  | some l => l.any (fun r => decide (r.1 ≤ va) && decide (va + n ≤ r.1 + r.2))

/-- Completes a SCALE_SET whose block table could not be written: the context takes a fault record (R199, R229; log 25). -/
def faultScale (p : Packet) (e : AccErr) (s : State) : State :=
  match freshId s with
  | (id, t) =>
    let q := match p.src with
      | .host q => q
      | _ => 0
    let w : Work := { id := id, queue := q, hostTag := p.hostTag, opcode := 0x0120, epoch := p.epoch, raw := p.params.take 72, step := s.dev.step }
    faultWork p.ctx w (accDetail e (binnacleUnit s) .write) 0
      (ctxMod p.ctx (fun x => { x with works := x.works ++ [w] }) (countPoison e t))

/-- SCALE_SET's create or replace (R252, R311): a replacement in a context bound to a job is an edit of the next boundary (R106; log 26). -/
def bodyScaleCreate (p : Packet) (s : State) : State :=
  withCtx p 0x0120 0xFFFF s (fun x =>
    let b := scaleBytes p
    let old := tget x.scales (fieldAt b 0 4)
    let n := scaleRecord b old
    if n.ovfVa % 64 ≠ 0 then completeWith p 0x0120 stBADPARAM 0x0407 s
    else if old.isNone ∧ x.scales.length ≥ 16384 then completeWith p 0x0120 stBADPARAM 0x0403 s
    else if !covered s p.ctx n.blocksVa (16 * n.blocks) || !covered s p.ctx n.ovfVa (bitmapArea n) then
      completeWith p 0x0120 stBADPARAM 0x0C01 s
    else if x.bound ∧ old.isSome then
      completeOk p 0x0120 (ctxMod p.ctx (fun y => { y with scaleEdits := y.scaleEdits ++ [b] }) s)
    else match applyScale p.ctx b s with
      | .ok t => completeOk p 0x0120 t
      | .error e => faultScale p e s)

/-- SCALE_SET's delete (R252). -/
def bodyScaleDelete (p : Packet) (s : State) : State :=
  withCtx p 0x0120 0xFFFF s (fun x =>
    let id := fieldAt (scaleBytes p) 0 4
    match tget x.scales id with
    | none => completeWith p 0x0120 stBADPARAM 0x0406 s
    | some r =>
      completeOk p 0x0120 (ctxMod p.ctx (fun y => { y with
        scales := tdel y.scales id
        dead := y.dead ++ [{ r with deletedAt := s.nextId }]
        scaleEdits := y.scaleEdits.filter (fun b => fieldAt b 0 4 != id) }) s))

/-- SCALE_SET by its ACTION. -/
def bodyScaleSet (p : Packet) (s : State) : State := if pf p 0 1 = 1 then bodyScaleDelete p s else bodyScaleCreate p s

def acceptScaleSet (p : Packet) (s : State) : State := acceptPacket 0x0120 (chkScaleSet p) (fun _ t => bodyScaleSet p t) p s

/-- SCALE_SET with ACTION create or replace (R252). -/
def execScaleSetCreateReplace (p : Packet) (s : State) : Out :=
  if pf p 0 1 = 1 then .refused (.notEnabled "ACTION is delete") else packetOut 0x0120 acceptScaleSet p s

/-- SCALE_SET with ACTION delete (R252). -/
def execScaleSetDelete (p : Packet) (s : State) : Out :=
  if pf p 0 1 = 1 then packetOut 0x0120 acceptScaleSet p s else .refused (.notEnabled "ACTION is not delete")

/-- Whether a descriptor may read or write a tensor; a kernel whose tensors its image or lists name may touch any. -/
def Work.touches (w : Work) (t : Nat) : Bool :=
  if w.opcode = 0x0300 then
    w.op == 0x20 || w.op == 0x11 || w.outTensor == t ||
      (if w.op = 0x10 then decide (wf w 128 4 ≤ t) && decide (t < wf w 128 4 + 2 * 64 * wf w 132 1)
       else w.movTensor == t || w.staTensor == t)
  else if w.opcode = 0x0520 then wf w 24 4 == t || wf w 28 4 == t
  else false

/-- SCALE_RECORD_REMOVE (R252): the first deleted record of the tensor goes once no earlier descriptor still uses it and a slot latched
before the delete is written (R102); its counts stay in the totals. -/
def execScaleRecordRemove (c tensor : Nat) (s : State) : Out :=
  match ctxOf s c with
  | none => .refused (.notEnabled "no such context")
  | some x =>
    match x.dead.find? (fun r => r.id == tensor) with
    | none => .refused (.notEnabled "no deleted record")
    | some r =>
      gate (!x.works.any (fun w => decide (w.id < r.deletedAt) && w.touches tensor) && !(x.watchDue && r.slotDue)) "the record is still used"
        (ctxMod c (fun y => { y with
          dead := y.dead.filter (fun d => !(d.id == tensor && d.deletedAt == r.deletedAt))
          orphanSat := sat32 y.orphanSat r.live.saturated
          orphanNonfinite := sat32 y.orphanNonfinite r.live.nonfinite
          orphanFlush := sat32 y.orphanFlush r.live.flushed
          orphanOvf := sat32 y.orphanOvf r.live.ovfBlocks.length }) s)

/-- A maximum as a signed 16-bit field, 0x8000 when empty (R96). -/
def maxkField (k : Option Int) : Nat :=
  match k with
  | some v => unsignedOf 16 v
  | none => 0x8000

/-- A scale record's 64 bytes (R89). -/
def recordBytes (r : ScaleRec) : List Byte :=
  leBytes 4 r.id ++ leBytes 2 (unsignedOf 16 r.ts) ++ leBytes 2 (unsignedOf 16 r.initScale) ++ leBytes 1 r.fmt ++ leBytes 1 r.mode ++
    leBytes 1 r.delay ++ leBytes 1 r.margin ++ leBytes 1 r.decay ++ leBytes 1 r.gfmt ++ leBytes 1 r.gradHist ++ zeros 1 ++
    (r.hist.take 4).flatMap (fun k => leBytes 2 (maxkField k)) ++ leBytes 2 (maxkField r.live.maxk) ++ zeros 6 ++
    leBytes 4 r.rows ++ leBytes 4 r.cols ++ leBytes 8 r.blocksVa ++ leBytes 8 r.ovfVa ++ leBytes 8 r.watchVa

def chkScaleGet (p : Packet) : Checks := { lenOk := p.paramLen == 4, charge := some 64 }

/-- SCALE_GET's effect (R252). -/
def bodyScaleGet (p : Packet) (idx : Nat) (s : State) : State :=
  withCtx p 0x0121 idx s (fun x =>
    match tget x.scales (pf p 0 4) with
    | none => refuse8 p 0x0121 stBADPARAM (some 0x0406) idx s
    | some r => finishSlot p 0x0121 idx 0 (recordBytes r) s)

def acceptScaleGet (p : Packet) (s : State) : State := acceptPacket 0x0121 (chkScaleGet p) (bodyScaleGet p) p s

/-- SCALE_GET (R252). -/
def execScaleGet (p : Packet) (s : State) : Out := packetOut 0x0121 acceptScaleGet p s

/-! ### GROUP_SET and ASTK_SET -/

/-- A binary32 number from 0 to 1 (R146). -/
def unitFactor (n : Nat) : Bool := decide (n ≤ 0x3F800000) || n == 0x80000000

def chkGroupSet (p : Packet) (s : State) : Checks :=
  { lenOk := p.paramLen == 88
    fieldsOk := decide (s.dev.step ≤ pf p 0 8) && pf p 18 6 == 0 && decide (pf p 48 1 ≤ 3) && decide (pf p 49 1 < 16) && pf p 50 6 == 0 &&
      pf p 72 16 == 0 && unitFactor (pf p 28 4) && unitFactor (pf p 32 4) }

/-- GROUP_SET's effect (R146): the edit waits for the boundary of its step. -/
def bodyGroupSet (p : Packet) (s : State) : State :=
  withCtx p 0x0132 0xFFFF s (fun _ =>
    let e : GroupEdit := ⟨s.nextId, pf p 0 8, pf p 8 8, pf p 16 2, (p.params.drop 24).take 64⟩
    completeOk p 0x0132 (ctxMod p.ctx (fun x => { x with edits := x.edits ++ [e] }) { s with nextId := s.nextId + 1 }))

def acceptGroupSet (p : Packet) (s : State) : State := acceptPacket 0x0132 (chkGroupSet p s) (fun _ t => bodyGroupSet p t) p s

/-- GROUP_SET (R146). -/
def execGroupSet (p : Packet) (s : State) : Out := packetOut 0x0132 acceptGroupSet p s

/-- A segment of a context holds a frame (R135). -/
def holdsFrame (s : State) (c : Nat) : Bool :=
  match ctxOf s c with
  | some x => decide (x.astk.depth ≠ 0)
  | none => false

def chkAstkSet (p : Packet) (s : State) : Checks :=
  { lenOk := p.paramLen == 24
    fieldsOk := pf p 0 8 % 2097152 == 0 && pf p 8 8 % 2097152 == 0 && within 2097152 (pf p 8 8) (256 * gib) &&
      ((decide (pf p 16 2 ≤ 512) && pf p 16 2 % 64 == 0) || pf p 16 2 == 0xFFFF) && pf p 18 6 == 0
    busy := if holdsFrame s p.ctx then some none else none }

/-- ASTK_SET's effect (R135). -/
def bodyAstkSet (p : Packet) (s : State) : State :=
  withCtx p 0x0134 0xFFFF s (fun _ =>
    completeOk p 0x0134 (ctxMod p.ctx (fun x => { x with astk := { x.astk with
      base := pf p 0 8, size := pf p 8 8, window := if pf p 16 2 = 0xFFFF then 256 else pf p 16 2, segs := [] } }) s))

def acceptAstkSet (p : Packet) (s : State) : State := acceptPacket 0x0134 (chkAstkSet p s) (fun _ t => bodyAstkSet p t) p s

/-- ASTK_SET (R135). -/
def execAstkSet (p : Packet) (s : State) : Out := packetOut 0x0134 acceptAstkSet p s

/-! ### JOB_START and JOB_STOP -/

/-- The lowest ready depth of a step starts at the depth at which the step begins (R189). -/
def restartDepth (step : Nat) (x : Ctx) : Ctx :=
  { x with ingest := { x.ingest with live := { x.ingest.live with depthMin := x.ingest.depth step } } }

/-- The job starts on this module (R132): the power averages and counts of its first step begin with it (R347, R357). -/
def startJob (step : Nat) (s : State) : State :=
  let s1 := { s with ctxs := s.ctxs.map (fun e => (e.1, if e.2.job then restartDepth step { e.2 with bound := true } else e.2))
                     dev := { s.dev with step := step, jobRunning := true, stopAsked := false }
                     grp := { s.grp with stepTimes := [], handovers := [], arrived := [], decided := none, decisionSent := none, prevLate := [], owing := [] }
                     bnd := { s.bnd with cut := none, prevCut := none, begun := [], begunBack := [], begunLag := [], backSeen := [], entered := none, updated := [], handed := none, skewStep := 0 }
                     pow := { s.pow with reefSum := 0, meanSum := 0, meanCount := 0, maxW := 0, capped := 0 } }
  openStep step (enterState .run 0 s1)

def chkJobStart (p : Packet) : Checks := { lenOk := p.paramLen == 16, fieldsOk := pf p 8 8 == 0 }

/-- A member of a group that is not its manager takes the command from the host only through its manager (R132, R133). -/
def roleBars (s : State) (p : Packet) : Bool := isHost p.src && inGroup s && !s.grp.manager

/-- JOB_START's effect (R132); outside READY it is refused with ST_BUSY (log 21). -/
def bodyJobStart (p : Packet) (s : State) : State :=
  if roleBars s p then completeOpen p 0x0140 stROLE s
  else if s.dev.st ≠ .ready then completeOpen p 0x0140 stBUSY s
  else if !s.ctxs.any (fun e => e.2.job) then completeWith p 0x0140 stBADPARAM 0x0613 s
  else
    let s1 := if s.grp.manager then settleJoins s else s
    let s2 := if s.grp.manager then sendAll 3 "JOB_START" [pf p 0 8] (presentWorkers s1) s1 else s1
    completeOk p 0x0140 (startJob (pf p 0 8) s2)

def acceptJobStart (p : Packet) (s : State) : State := acceptPacket 0x0140 (chkJobStart p) (fun _ t => bodyJobStart p t) p s

/-- JOB_START (R132). -/
def execJobStart (p : Packet) (s : State) : Out := packetOut 0x0140 acceptJobStart p s

def chkJobStop (p : Packet) : Checks := { lenOk := p.paramLen == 0 }

/-- JOB_STOP's effect (R133). -/
def bodyJobStop (p : Packet) (s : State) : State :=
  if roleBars s p then completeOpen p 0x0141 stROLE s
  else if s.dev.st = .run ∨ s.dev.st = .fixing then completeOk p 0x0141 { s with dev := { s.dev with stopAsked := true } }
  else completeOk p 0x0141 s

def acceptJobStop (p : Packet) (s : State) : State := acceptPacket 0x0141 (chkJobStop p) (fun _ t => bodyJobStop p t) p s

/-- JOB_STOP (R133). -/
def execJobStop (p : Packet) (s : State) : Out := packetOut 0x0141 acceptJobStop p s

/-! ### PT_ROOT_SET and TLB_INVALIDATE -/

def chkPtRootSet (p : Packet) : Checks := { lenOk := p.paramLen == 8 }

/-- PT_ROOT_SET's effect (chapter 8, address spaces and page tables; R252). -/
def bodyPtRootSet (p : Packet) (s : State) : State :=
  withCtx p 0x0200 0xFFFF s (fun x =>
    if x.busy then completeOpen p 0x0200 stBUSY s
    else if pf p 0 8 % 65536 ≠ 0 then completeWith p 0x0200 stBADPARAM 0x0802 s
    else completeOk p 0x0200 (ctxMod p.ctx (fun x => { x with root := some (pf p 0 8) }) s))

def acceptPtRootSet (p : Packet) (s : State) : State := acceptPacket 0x0200 (chkPtRootSet p) (fun _ t => bodyPtRootSet p t) p s

/-- PT_ROOT_SET (R252). -/
def execPtRootSet (p : Packet) (s : State) : Out := packetOut 0x0200 acceptPtRootSet p s

def chkTlbInvalidate (p : Packet) : Checks := { lenOk := p.paramLen == 16 }

/-- TLB_INVALIDATE's effect (R198): the invalidation is under way. -/
def bodyTlbInvalidate (p : Packet) (s : State) : State :=
  withCtx p 0x0201 0xFFFF s (fun _ =>
    { s with mem := { s.mem with invalidates := s.mem.invalidates ++ [⟨p.ctx, pf p 0 8, pf p 8 8, p⟩] } })

def acceptTlbInvalidate (p : Packet) (s : State) : State := acceptPacket 0x0201 (chkTlbInvalidate p) (fun _ t => bodyTlbInvalidate p t) p s

/-- TLB_INVALIDATE (R198). -/
def execTlbInvalidate (p : Packet) (s : State) : Out := packetOut 0x0201 acceptTlbInvalidate p s

/-- A DMA granule of a context is written and not yet acknowledged: an access that has not completed. -/
def granuleInFlight (s : State) (c : Nat) : Bool :=
  match ctxOf s c with
  | some x => x.works.any (fun w => w.dma.any (fun r => decide (r.acked.length < r.written)))
  | none => false

/-- Whether a cached entry overlaps an invalidation; LENGTH 0 is the whole address space. -/
def invalidates (i : Invalidate) (t : TlbEntry) : Bool :=
  t.ctx == i.ctx && (i.length == 0 || overlaps i.va i.length t.va t.size)

/-- TLB_INVALIDATE_COMPLETE (R198): the oldest invalidation ends. -/
def execTlbInvalidateComplete (s : State) : Out :=
  match s.mem.invalidates with
  | [] => .refused (.notEnabled "no invalidation is under way")
  | i :: r =>
    gate (!granuleInFlight s i.ctx) "an access has not completed"
      (completeOk i.packet 0x0201 { s with mem := { s.mem with invalidates := r, tlb := s.mem.tlb.filter (fun t => !invalidates i t) } })

end Sys2Proof.Machine
end

