-- ==== Sys2Proof/Machine/Sync.lean ====
section
/-! DEFINITION. Sync-cell commands and operations (R215 to R219, R252, R298, R349). The arrival of a remote operation, which also carries
the musters of a group, stands with the step boundary. -/
namespace Sys2Proof.Machine

/-- A cell reserved for the Binnacle's musters (R215). -/
def reservedCell (c : Nat) : Bool := decide (c % 8192 ≥ 8128)

/-- Whether a range of cells holds a reserved cell. -/
def touchesReserved (first count : Nat) : Bool :=
  (List.range 8).any (fun m => overlaps first count (8192 * m + 8128) 64)

/-! ### SYNC_ALLOC and SYNC_FREE -/

def chkSyncAlloc (p : Packet) : Checks :=
  { lenOk := p.paramLen == 8, fieldsOk := decide (1 ≤ pf p 2 2) && decide (pf p 4 1 ≤ 1) && pf p 5 3 == 0 }

/-- SYNC_ALLOC's effect (R215). -/
def bodySyncAlloc (p : Packet) (s : State) : State :=
  withCtx p 0x0220 0xFFFF s (fun _ =>
    let f := pf p 0 2
    let n := pf p 2 2
    if f + n > 65536 || touchesReserved f n || s.sync.ranges.any (fun r => overlaps r.first r.count f n) then
      completeWith p 0x0220 stBADPARAM 0x0820 s
    else completeOk p 0x0220 { s with sync := { s.sync with
      ranges := s.sync.ranges ++ [⟨f, n, p.ctx, bitAt (pf p 4 1) 0⟩]
      cells := s.sync.cells.filter (fun e => !(decide (f ≤ e.1) && decide (e.1 < f + n))) } })

def acceptSyncAlloc (p : Packet) (s : State) : State := acceptPacket 0x0220 (chkSyncAlloc p) (fun _ t => bodySyncAlloc p t) p s

/-- SYNC_ALLOC (R215). -/
def execSyncAlloc (p : Packet) (s : State) : Out := packetOut 0x0220 acceptSyncAlloc p s

/-- What is left of a range when cells `f` to `f + n - 1` are taken back. -/
def cutRange (f n : Nat) (r : CellRange) : List CellRange :=
  if !overlaps r.first r.count f n then [r]
  else
    (if r.first < f then [{ r with count := f - r.first }] else []) ++
    (if f + n < r.first + r.count then [{ r with first := f + n, count := r.first + r.count - (f + n) }] else [])

/-- Whether a context owns every cell of a range. -/
def ownsRange (s : State) (c f n : Nat) : Bool := (List.range n).all (fun i => ownsCell s c (f + i))

/-- A wait is pending on a cell of a range. -/
def waitIn (s : State) (f n : Nat) : Bool :=
  (s.sync.waits ++ s.sync.held).any (fun w => decide (f ≤ w.cell) && decide (w.cell < f + n))

def chkSyncFree (p : Packet) : Checks := { lenOk := p.paramLen == 8, fieldsOk := pf p 4 4 == 0 }

/-- SYNC_FREE's effect (R252). -/
def bodySyncFree (p : Packet) (s : State) : State :=
  withCtx p 0x0221 0xFFFF s (fun _ =>
    let f := pf p 0 2
    let n := pf p 2 2
    if n = 0 ∨ ¬ ownsRange s p.ctx f n then completeWith p 0x0221 stBADPARAM 0x0821 s
    else if waitIn s f n then completeWith p 0x0221 stBUSY 0x0822 s
    else completeOk p 0x0221 { s with sync := { s.sync with ranges := s.sync.ranges.flatMap (cutRange f n) } })

def acceptSyncFree (p : Packet) (s : State) : State := acceptPacket 0x0221 (chkSyncFree p) (fun _ t => bodySyncFree p t) p s

/-- SYNC_FREE (R252). -/
def execSyncFree (p : Packet) (s : State) : Out := packetOut 0x0221 acceptSyncFree p s

/-! ### SYNC_OP -/

/-- The operation of a SYNC_OP (R216, R252). -/
def actOf (op : Nat) (v w : Word) : SyncAct :=
  match op with
  | 0 => .read | 1 => .write v | 2 => .add v | 3 => .cas w v | 4 => .waitEq v | 5 => .waitGe v | _ => .arrive v w

/-- The code and operands of an operation, as a message carries them. -/
def SyncAct.args : SyncAct → List Nat
  | .read => [0] | .write v => [1, v.toNat] | .add v => [2, v.toNat] | .cas c v => [3, c.toNat, v.toNat]
  | .waitEq v => [4, v.toNat] | .waitGe v => [5, v.toNat] | .arrive v t => [6, v.toNat, t.toNat]

def chkSyncOp (p : Packet) : Checks :=
  { lenOk := p.paramLen == 16
    fieldsOk := decide (pf p 0 1 ≤ 6) && pf p 1 1 == 0 && pf p 14 2 == 0 && (pf p 0 1 == 3 || pf p 0 1 == 6 || pf p 8 4 == 0) }

/-- The host queue of a packet (a context command's descriptor comes from one). -/
def queueOf (p : Packet) : Nat :=
  match p.src with
  | .host q => q
  | _ => 0xFFFF

/-- Sends a sync operation to another module in class SYNC (R298). -/
def sendRemote (r : Requester) (rank cell : Nat) (act : SyncAct) (s : State) : State :=
  let n := s.sync.remoteSeq
  sendMsg 2 rank "SYNC" (n :: cell :: SyncAct.args act)
    { s with sync := { s.sync with remoteOut := s.sync.remoteOut ++ [(n, rank, cell, act, r)], remoteSeq := n + 1 } }

/-- SYNC_OP's effect (R252): it is an accepted descriptor until its value returns; the requester is the active Binnacle. -/
def bodySyncOp (p : Packet) (s : State) : State :=
  withCtx p 0x0222 0xFFFF s (fun _ =>
    let cell := pf p 2 2
    let rank := pf p 12 2
    let act := actOf (pf p 0 1) (BitVec.ofNat 32 (pf p 4 4)) (BitVec.ofNat 32 (pf p 8 4))
    if rank = 0xFFFF ∧ ¬ ownsCell s p.ctx cell then completeWith p 0x0222 stBADPARAM 0x0821 s
    else match freshId s with
      | (id, t) =>
        let w : Work := { id := id, queue := queueOf p, hostTag := p.hostTag, opcode := 0x0222, epoch := p.epoch,
                          raw := p.params.take 16, step := s.dev.step, st := .issued }
        let t1 := reschedule (ctxMod p.ctx (fun x => { x with works := x.works ++ [w] }) t)
        let r : Requester := { unit := binnacleUnit s, ctx := some p.ctx, work := some id }
        if rank = 0xFFFF then syncApply r cell act t1 else sendRemote r rank cell act t1)

def acceptSyncOp (p : Packet) (s : State) : State := acceptPacket 0x0222 (chkSyncOp p) (fun _ t => bodySyncOp p t) p s

/-- SYNC_OP (R252). -/
def execSyncOp (p : Packet) (s : State) : Out := packetOut 0x0222 acceptSyncOp p s

/-! ### The operations themselves -/

/-- Whether an operation of a requester on this module may act on a cell: the cell exists, its unit is not fenced (R29), and the cell is
its context's own, or reserved when the Binnacle asks for no context (R215). -/
def mayOperate (r : Requester) (cell : Nat) (s : State) : Bool :=
  decide (cell < 65536) && decide (r.unit ∉ s.chart.fence) && r.rank.isNone &&
  (match r.ctx with
   | some c => ownsCell s c cell
   | none => reservedCell cell && r.unit == binnacleUnit s)

/-- A WRITE, ADD, CAS or ARRIVE is applied only after every memory write that its unit issued earlier is acknowledged (R217). -/
def mayChange (r : Requester) (cell : Nat) (s : State) : Bool := mayOperate r cell s && writesAcked s r.unit

/-- READ (R216). -/
def execRead (r : Requester) (cell : Nat) (s : State) : Out :=
  gate (mayOperate r cell s) "not this requester's cell" (syncApply r cell .read s)

/-- WRITE (R216). -/
def execWrite (r : Requester) (cell : Nat) (v : Word) (s : State) : Out :=
  gate (mayChange r cell s) "not this requester's cell, or a write of its unit is in flight" (syncApply r cell (.write v) s)

/-- ADD (R216). -/
def execAdd (r : Requester) (cell : Nat) (v : Word) (s : State) : Out :=
  gate (mayChange r cell s) "not this requester's cell, or a write of its unit is in flight" (syncApply r cell (.add v) s)

/-- CAS (R216). -/
def execCas (r : Requester) (cell : Nat) (c v : Word) (s : State) : Out :=
  gate (mayChange r cell s) "not this requester's cell, or a write of its unit is in flight" (syncApply r cell (.cas c v) s)

/-- WAIT_EQ (R216). -/
def execWaitEq (r : Requester) (cell : Nat) (v : Word) (s : State) : Out :=
  gate (mayOperate r cell s) "not this requester's cell" (syncApply r cell (.waitEq v) s)

/-- WAIT_GE (R216). -/
def execWaitGe (r : Requester) (cell : Nat) (v : Word) (s : State) : Out :=
  gate (mayOperate r cell s) "not this requester's cell" (syncApply r cell (.waitGe v) s)

/-- ARRIVE (R216): ADD, then WAIT_GE. -/
def execArrive (r : Requester) (cell : Nat) (v t : Word) (s : State) : Out :=
  gate (mayChange r cell s) "not this requester's cell, or a write of its unit is in flight" (syncApply r cell (.arrive v t) s)

/-! ### Releases -/

/-- Delivers releases in order. -/
def deliverAll : List Release → State → State
  | [], s => s
  | r :: rs, s => deliverAll rs (deliver r.who r.value s)

/-- An operation's releases stand at a wave: that is the lowest of its waves still to run (R349). -/
def waveDue (s : State) (r : Release) : Bool := s.sync.releases.all (fun k => k.op != r.op || decide (r.wave ≤ k.wave))

/-- The operation whose releases a wave delivers: the earliest that stands at it. -/
def waveOp (s : State) (wave : Nat) : Option Nat := (s.sync.releases.find? (fun r => r.wave == wave && waveDue s r)).map Release.op

/-- WAIT_RELEASE_WAVE (R349): the waiters of one wave of one operation receive the value R217 fixed; an operation's waves run in order. -/
def execWaitReleaseWave (wave : Nat) (s : State) : Out :=
  match waveOp s wave with
  | none => .refused (.notEnabled "no waiter of this wave")
  | some o =>
    .next (deliverAll (s.sync.releases.filter (fun r => r.wave == wave && r.op == o))
      { s with sync := { s.sync with releases := s.sync.releases.filter (fun r => !(r.wave == wave && r.op == o)) } })

/-- Drops the first wait of a list that equals one. -/
def dropWait (w : Wait) : List Wait → List Wait
  | [] => []
  | x :: r => if x = w then r else x :: dropWait w r

/-- A held wait is the earliest of its requester (R218). -/
def firstHeld (s : State) (w : Wait) : Bool := s.sync.held.find? (fun h => sourceOf h.who == sourceOf w.who) == some w

/-- Presents a held wait again: it leaves the held ones and is entered, or released where its condition holds. -/
def presentHeld (w : Wait) (s : State) : State :=
  let t := { s with sync := { s.sync with held := dropWait w s.sync.held } }
  if w.holds (cellValue t w.cell) then deliver w.who (cellValue t w.cell) t
  else match waitEntry t w with
    | some sh => { t with sync := { t.sync with waits := t.sync.waits ++ [{ w with shared := sh }] } }
    | none => s

/-- WAIT_ENTRY_FREE (R218): the first wait held for a die that can take an entry now, with no earlier one of its requester held, is presented
again. -/
def execWaitEntryFree (die : Nat) (s : State) : Out :=
  match s.sync.held.find? (fun w => w.cell / 8192 == die && firstHeld s w && ((waitEntry s w).isSome || w.holds (cellValue s w.cell))) with
  | none => .refused (.notEnabled "no held wait can take an entry")
  | some w => .next (presentHeld w s)

/-- REMOTE_SYNC_REPLY (R298): the value reaches the waiting operation. -/
def execRemoteSyncReply (seq : Nat) (value : Word) (s : State) : Out :=
  match s.sync.remoteOut.find? (fun e => e.1 == seq) with
  | none => .refused (.notEnabled "no such operation")
  | some (_, _, _, _, r) =>
    .next (deliver r value { s with sync := { s.sync with remoteOut := s.sync.remoteOut.filter (fun e => e.1 != seq) } })

end Sys2Proof.Machine
end

