-- ==== Sys2Proof/Machine/Muster.lean ====
section
/-! DEFINITION. The step-close muster on the module's side and the manager's decisions (R157, R286 to R289). -/
namespace Sys2Proof.Machine

/-- Present members: records PRESENT, standbys apart (R281, R282). -/
def presentRecs (s : State) : List GroupRec := s.grp.recs.filter (fun r => r.state == 0 && r.role != 3)
def presentRanks (s : State) : List Nat := (presentRecs s).map GroupRec.rank

/-- A descriptor that carries the step number `n`: kernels and collectives (R129, R291). -/
def Work.carries (w : Work) (n : Nat) : Bool := (w.opcode == 0x0300 || w.opcode == 0x0520) && w.step == n

/-- The first three conditions of R157. -/
def stepWorkDone (s : State) : Bool :=
  s.dev.jobRunning && s.ctxs.all (fun e => !e.2.works.any (fun w => w.carries s.dev.step) && (!e.2.bound || decide (e.1 ∈ s.bnd.updated)))

/-- The manifests a replay follows: that of a step (R331). -/
def replayManifest (s : State) (step : Nat) : Option Manifest :=
  if s.fix.replayTo.any (fun t => decide (step < t)) then s.fix.replayLog.find? (fun m => m.step == step) else none

/-- Dead reckoning is under way at this step (R331). -/
def replaying (s : State) : Bool := s.fix.replayTo.any (fun t => decide (s.dev.step < t))

/-- The straggler record's bytes (R289). -/
def stragglerBytes (step : Nat) (l : List LateEntry) : List Byte :=
  leBytes 8 step ++ leBytes 2 l.length ++ zeros 6 ++ l.flatMap (fun e => leBytes 2 e.rank ++ leBytes 1 e.kind ++ zeros 1)

/-- Reads a straggler record's entries (R289). -/
def stragglerEntries (b : List Byte) : List LateEntry :=
  (List.range (fieldAt b 8 2)).map (fun i => ⟨fieldAt b (16 + 4 * i) 2, fieldAt b (16 + 4 * i + 2) 1⟩)

/-- The entries a replayed step's record gives. -/
def recordedEntries (s : State) (step : Nat) : Option (List LateEntry) :=
  (replayManifest s step).map (fun m => match m.recs.find? (fun r => r.type == 3) with
    | some r => stragglerEntries r.body
    | none => [])

/-- Counts of R299, set 0x13. -/
def countLate (e : LateEntry) (t : Table (Nat × Nat × Nat)) : Table (Nat × Nat × Nat) :=
  match (tget t e.rank).getD (0, 0, 0) with
  | (a, b, c) => tset t e.rank (satAdd 16 a (if e.kind = 1 then 1 else 0), satAdd 16 b (if e.kind = 2 then 1 else 0), satAdd 16 c (if e.kind = 3 then 1 else 0))

/-- A decision as a message carries it. -/
def lateArgs (l : List LateEntry) : List Nat := l.flatMap (fun e => [e.rank, e.kind])

/-- Writes the straggler record into the step's manifest (R289, R320). -/
def recordStragglers (step : Nat) (l : List LateEntry) (s : State) : State := manRecord step 3 (stragglerBytes step l) s

/-- The manager sends DECISION(n): the record first, the mirror to the deputy, the messages to all present members (R285, R286, R289).
Its own is taken by the DECISION row like any member's (log 47). -/
def sendDecision (l : List LateEntry) (s : State) : State :=
  let n := s.dev.step
  let s1 := recordStragglers n l s
  let s2 := { s1 with grp := { s1.grp with
    decisionSent := some (n, l), late := l.foldl (fun t e => countLate e t) s1.grp.late
    owing := (l.filter (fun e => e.kind == 1)).map LateEntry.rank } }
  let s3 := if s.grp.deputy = 0xFFFF then s2 else sendMsg 1 s.grp.deputy "MIRROR_DECISION" (n :: lateArgs l) s2
  sendAll 1 "DECISION" (n :: lateArgs l) ((presentRanks s).filter (fun r => r != s.grp.rank)) s3

/-- Members DEFERRED at the step before whose contributions are not wholly received: they are EXPIRED at DECISION(n) (R288, R295). -/
def expiredEntries (s : State) : List LateEntry := s.grp.owing.map (fun r => ⟨r, 3⟩)

/-- The entries of DECISION(n) when every present member has handed over; a replayed step has exactly the recorded entries (R289). -/
def punctualEntries (s : State) : List LateEntry :=
  match recordedEntries s s.dev.step with
  | some l => l
  | none => expiredEntries s

/-- Ranks whose HANDOVER the manager does not await: those a replayed record lists (R289). -/
def excused (s : State) : List Nat :=
  ((recordedEntries s s.dev.step).getD []).filterMap (fun e => if e.kind ≤ 2 then some e.rank else none)

/-- The manager has sent DECISION(n). -/
def decisionOut (s : State) : Bool := (s.grp.decisionSent.map Prod.fst) == some s.dev.step

/-- This module has received DECISION(n). -/
def decidedNow (s : State) : Bool := (s.grp.decided.map Prod.fst) == some s.dev.step

/-- The manager sends DECISION(n) once every present member has handed over (R286, R289). -/
def decideIfReady (s : State) : State :=
  if s.grp.manager && inGroup s && s.dev.jobRunning && !decisionOut s && !s.fix.checkpoint &&
      (presentRanks s).all (fun r => decide (r ∈ s.grp.handovers) || decide (r ∈ excused s)) then
    sendDecision (punctualEntries s) s
  else s

/-- The manager has a rank's HANDOVER of the current step; after DECISION(n) it settles what a DEFERRED member still owed (R286, R288). -/
def takeHandover (rank : Nat) (s : State) : State :=
  decideIfReady { s with grp := { s.grp with
    handovers := ninsert s.grp.handovers rank
    owing := if decisionOut s then s.grp.owing.filter (fun r => r != rank) else s.grp.owing } }

/-- HANDOVER of the module's own step (R286). -/
def sendHandover (s : State) : State :=
  let t := { s with bnd := { s.bnd with handed := some s.dev.step } }
  if s.grp.manager then takeHandover s.grp.rank t
  else sendMsg 1 s.grp.managerRank "HANDOVER" [s.dev.step, s.grp.rank] t

/-- STEP_REDUCE (R291). -/
def Work.stepReduce (w : Work) : Bool := w.opcode == 0x0520 && bitAt (fieldAt w.raw 1 1) 0

/-- STEP_REDUCE collectives of the current step that have not ended. -/
def openReductions (s : State) : List (Nat × Work) :=
  s.ctxs.flatMap (fun e => (e.2.works.filter (fun w => w.stepReduce && w.step == s.dev.step)).map (fun w => (e.1, w)))

/-- Every STEP_REDUCE contribution of the step is sent and acknowledged: no such collective waits to start, and none, completed or not,
has chunks unacknowledged. -/
def contributionsOut (s : State) : Bool :=
  (openReductions s).all (fun e => s.colls.flight.any (fun f => f.ctx == e.1 && f.work == e.2.id)) &&
    s.colls.flight.all (fun f => f.unacked.isEmpty || !bitAt f.sig.flags 0 || f.sig.step != s.dev.step)

/-- HANDOVER once the STEP_REDUCE contributions of the step are out (R286; log 48). -/
def handoverIfOut (s : State) : State :=
  if inGroup s && s.dev.jobRunning && s.bnd.handed != some s.dev.step && contributionsOut s then sendHandover s else s

/-- HANDOVER where no STEP_REDUCE contribution is left to send when the step's work is done (R286). -/
def offerHandover (s : State) : State :=
  if inGroup s && s.dev.jobRunning && s.bnd.handed != some s.dev.step && stepWorkDone s && contributionsOut s then sendHandover s else s

/-- The step-close muster may be entered as far as the group is concerned: DECISION(n) has been received, or there is no group (R286). -/
def decisionIn (s : State) : Bool := !inGroup s || decidedNow s

/-- The module enters the step-close muster (R157, R286): a member sends ARRIVE, the manager notes its own. -/
def enterMuster (s : State) : State :=
  let t := { s with bnd := { s.bnd with entered := some s.dev.step } }
  if !inGroup s || s.grp.manager then { t with grp := { t.grp with arrived := ninsert t.grp.arrived s.grp.rank } }
  else sendMsg 2 s.grp.managerRank "ARRIVE" [s.dev.step, s.grp.rank] t

/-- A module whose manifest is acknowledged enters the muster when work accepted meanwhile is done (R157). -/
def offerMuster (s : State) : State :=
  if stepWorkDone s && s.bnd.entered != some s.dev.step && (ownManifest s s.dev.step).any (fun m => m.final && m.acked) && !s.fix.checkpoint then enterMuster s
  else s

end Sys2Proof.Machine
end

