-- ==== Sys2Proof/Machine/Dma.lean ====
section
/-! DEFINITION. DMA_SUBMIT and the DMA engines (R200 to R202, R252). -/
namespace Sys2Proof.Machine

/-! ### Descriptors -/

/-- The k-th DMA descriptor of parameters. -/
def dmaBytes (l : List Byte) (k : Nat) : List Byte := (l.drop (64 * k)).take 64

/-- Reserved fields and enumerations of a DMA descriptor (R200). -/
def dmaFieldsOk (d : List Byte) : Bool :=
  decide (fieldAt d 0 1 ≤ 2) && decide (fieldAt d 1 1 ≤ 3) && fieldAt d 2 2 == 0 && fieldAt d 36 4 == 0 && fieldAt d 58 2 == 0

/-- Fields of a DMA descriptor. -/
def dmaOp (d : List Byte) : Nat := fieldAt d 0 1
def dmaSignal (d : List Byte) : Bool := bitAt (fieldAt d 1 1) 0
def dmaOrdered (d : List Byte) : Bool := bitAt (fieldAt d 1 1) 1
def dmaSrc (d : List Byte) : Nat := fieldAt d 8 8
def dmaDst (d : List Byte) : Nat := fieldAt d 16 8
def dmaLen (d : List Byte) : Nat := fieldAt d 24 8
def dmaRows (d : List Byte) : Nat := fieldAt d 32 4
def dmaSrcPitch (d : List Byte) : Nat := fieldAt d 40 4
def dmaDstPitch (d : List Byte) : Nat := fieldAt d 44 4
def dmaCell (d : List Byte) : Nat := fieldAt d 56 2

/-- Length, rows and pitches in range (R200, check 1). -/
def dmaRangesOk (d : List Byte) : Bool :=
  within 1 (dmaLen d) (2 ^ 40) &&
  (if dmaOp d = 2 then within 1 (dmaRows d) (2 ^ 24) && decide (dmaLen d ≤ dmaSrcPitch d) && decide (dmaLen d ≤ dmaDstPitch d)
   else dmaRows d == 1)

/-- Whether the bytes of source row `i` meet a destination row (R200): rows of a side lie a pitch of at least LENGTH apart, so only the
destination rows next to the source row can. -/
def rowMeets (d : List Byte) (i : Nat) : Bool :=
  let a := dmaSrc d + i * dmaSrcPitch d
  let j := (a - dmaDst d) / dmaDstPitch d
  [j, j + 1].any (fun k => decide (k < dmaRows d) && overlaps a (dmaLen d) (dmaDst d + k * dmaDstPitch d) (dmaLen d))

/-- Source and destination byte ranges overlap (R200, check 2), row by row for COPY_2D (log 27). -/
def dmaOverlap (d : List Byte) : Bool :=
  match dmaOp d with
  | 1 => false
  | 2 => (List.range (dmaRows d)).any (rowMeets d)
  | _ => overlaps (dmaSrc d) (dmaLen d) (dmaDst d) (dmaLen d)

/-- The memory dies whose change epoch is newer than a descriptor's EPOCH, by ascending unit ID (R200). -/
def staleDies (s : State) (d : List Byte) : List Nat :=
  ((List.range 8).map uMemDie).filter (fun u => epochOlder (BitVec.ofNat 32 (fieldAt d 4 4)) (changeEpoch s u))

/-- The first check of R200 that a descriptor fails: status and detail. -/
def dmaFail (s : State) (c : Nat) (d : List Byte) : Option (Nat × Nat) :=
  if !dmaRangesOk d then some (stBADPARAM, 0x0811)
  else if dmaOverlap d then some (stBADPARAM, 0x0810)
  else if dmaSignal d && !ownsCell s c (dmaCell d) then some (stBADPARAM, 0x0821)
  else match staleDies s d with
    | u :: _ => some (stCHARTSTALE, u)
    | [] => none

/-- The first failing descriptor of `n`, from the `k`-th. -/
def dmaFirstFail (s : State) (c : Nat) (l : List Byte) : Nat → Nat → Option (Nat × Nat × Nat)
  | 0, _ => none
  | n + 1, k =>
    match dmaFail s c (dmaBytes l k) with
    | some (st, d) => some (k, st, d)
    | none => dmaFirstFail s c l n (k + 1)

/-- Number of descriptors a DMA_SUBMIT carries. -/
def dmaCount (p : Packet) : Nat := p.paramLen / 64

def chkDmaSubmit (p : Packet) : Checks :=
  { lenOk := p.paramLen % 64 == 0 && within 1 (dmaCount p) 4096
    fieldsOk := (List.range (dmaCount p)).all (fun k => dmaFieldsOk (dmaBytes p.params k)) }

/-- A skew record of cause 0x1 for each refusing memory die (R27). -/
def logStale (us : List Nat) (e : Word) (s : State) : State :=
  us.foldl (fun t u => logSkew u 1 ((0x9000 + 16 + (u - 0x3000)) % 256) e t) s

/-- A VALUE of which the spec states bits 15:0 (log 12). -/
def value16 (v : Nat) (s : State) : BitVec 64 × State :=
  match freshValue s with
  | (f, t) => (BitVec.ofNat 64 (v % 65536 + f.toNat / 65536 * 65536), t)

/-- DMA_SUBMIT's effect (R200, R252): every descriptor is checked before any runs. -/
def bodyDmaSubmit (p : Packet) (s : State) : State :=
  withCtx p 0x0210 0xFFFF s (fun _ =>
    match dmaFirstFail s p.ctx p.params (dmaCount p) 0 with
    | some (k, st, d) =>
      let bytes := dmaBytes p.params k
      let s1 := if st = stCHARTSTALE then logStale (staleDies s bytes) (BitVec.ofNat 32 (fieldAt bytes 4 4)) s else s
      (match value16 k s1 with
       | (v, s2) => complete p 0x0210 st (some d) (some v) 0xFFFF [] s2)
    | none =>
      match freshId s with
      | (id, t) =>
        let w : Work := { id := id, queue := queueOf p, hostTag := p.hostTag, opcode := 0x0210, epoch := p.epoch,
                          raw := p.params.take p.paramLen, step := s.dev.step
                          dma := (List.range (dmaCount p)).map (fun k => { epoch := BitVec.ofNat 32 (fieldAt (dmaBytes p.params k) 4 4) }) }
        reschedule (ctxMod p.ctx (fun x => { x with works := x.works ++ [w] }) t))

def acceptDmaSubmit (p : Packet) (s : State) : State := acceptPacket 0x0210 (chkDmaSubmit p) (fun _ t => bodyDmaSubmit p t) p s

/-- DMA_SUBMIT (R252). -/
def execDmaSubmit (p : Packet) (s : State) : Out := packetOut 0x0210 acceptDmaSubmit p s

/-! ### Granules -/

/-- A granule (R201): source and destination address and length. -/
structure Granule where
  src : Nat
  dst : Nat
  len : Nat
  deriving DecidableEq, Repr

/-- The granules of one row: cut at 256-byte boundaries of the destination. -/
def rowGranules : Nat → Nat → Nat → Nat → List Granule
  | 0, _, _, _ => []
  | k + 1, src, dst, n =>
    let here := min n (256 - dst % 256)
    if n = 0 then [] else ⟨src, dst, here⟩ :: rowGranules k (src + here) (dst + here) (n - here)

/-- The granules of a descriptor, row by row in ascending address (R201). -/
def dmaGranules (d : List Byte) : List Granule :=
  (List.range (dmaRows d)).flatMap (fun r =>
    rowGranules (dmaLen d / 256 + 2) (dmaSrc d + r * dmaSrcPitch d) (dmaDst d + r * dmaDstPitch d) (dmaLen d))

/-- The bytes FILL writes at an address (R200). -/
def fillBytes (d : List Byte) (dst : Nat) : Nat → List Byte
  | 0 => []
  | n + 1 => ((d.drop (48 + dst % 8)).headD 0) :: fillBytes d (dst + 1) n

/-- Moves one granule: read whole, then written whole (R201). -/
def moveGranule (c : Nat) (d : List Byte) (g : Granule) (s : State) : Except (AccErr × Access) State :=
  if dmaOp d = 1 then
    match vaWrite c g.dst (fillBytes d g.dst g.len) s with
    | .ok t => .ok t
    | .error e => .error (e, .write)
  else
    match vaRead s c g.src g.len with
    | .error e => .error (e, .read)
    | .ok l =>
      match vaWrite c g.dst l s with
      | .ok t => .ok t
      | .error e => .error (e, .write)

/-- The device address a granule is written to. -/
def granuleDpa (s : State) (c : Nat) (g : Granule) : Option Nat :=
  match translate s c g.dst true with
  | .ok (.dev a _) => some a
  | _ => none

/-- The armoured stripes that a granule is written to. -/
def granuleStripes (s : State) (c : Nat) (g : Granule) : List (Nat × Nat) :=
  match granuleDpa s c g with
  | some a => armourStripes s a g.len
  | none => []

/-- A granule's stripe takes one write at a time (R208). -/
def granuleWaits (s : State) (c : Nat) (g : Granule) : Bool := (granuleStripes s c g).any (fun e => stripeBusy s e.1 e.2)

/-- Moves granules in order until one fails, or must wait for an armoured stripe: the state, how many were written, the failure. -/
def moveGranules (c : Nat) (d : List Byte) : List Granule → State → State × Nat × Option (AccErr × Access)
  | [], s => (s, 0, none)
  | g :: r, s =>
    if granuleWaits s c g then (s, 0, none)
    else match moveGranule c d g s with
      | .error e => (s, 0, some e)
      | .ok t =>
        match moveGranules c d r t with
        | (u, n, e) => (u, n + 1, e)

/-- The module may issue work of a context: resident, not parked or being saved, no Fix stop, no pause (R131, R223, R230, R315). -/
def mayIssue (s : State) (x : Ctx) : Bool :=
  x.resident && !x.parked && !x.saving && !x.savedOut && (s.dev.st == .run || s.dev.st == .ready) &&
    !(x.bound && (s.fix.recovering.isSome || s.fix.stopDelayed))

/-- Work already issued may go on: a parked context's runs to completion (R230). -/
def mayRun (s : State) (x : Ctx) : Bool :=
  mayIssue s x || (x.parked && !x.saving && !x.savedOut && (s.dev.st == .run || s.dev.st == .ready) && !(x.bound && s.fix.recovering.isSome))

/-- ORDERED (R200): every earlier DMA descriptor of the same queue has completed. -/
def earlierDone (x : Ctx) (w : Work) (index : Nat) : Bool :=
  x.works.all (fun v => !(v.queue == w.queue && v.opcode == 0x0210 && decide (v.id < w.id))) &&
    (w.dma.take index).all (fun r => r.done)

/-- The memory dies whose engines run: those that serve, on a die that does not restart (R306). -/
def dmaDies (s : State) : List Nat := (List.range 8).filter (fun m => unitServes s (uMemDie m))

/-- The memory die whose engine runs a granule: the module chooses it (R201), and no rule says which (log 1). -/
def engineDie (s : State) : Nat × State :=
  match freshValue s with
  | (f, t) => (uMemDie (((dmaDies s)[f.toNat % max 1 (dmaDies s).length]?).getD (f.toNat % 8)), t)

/-- A DMA work item as its fault record tells it: with the epoch its descriptor carries (R229). -/
def dmaCarrier (w : Work) (index : Nat) : Work := { w with epoch := ((w.dma[index]?).map DmaRun.epoch).getD w.epoch }

/-- Runs `count` granules of a DMA descriptor from its lowest unwritten one, on an engine of the die `u` (R201, R202); a fault stops the work
item with its record. -/
def runGranulesOn (u c : Nat) (w : Work) (index count : Nat) (s : State) : State :=
  let d := dmaBytes w.raw index
  let start := ((w.dma[index]?).map DmaRun.written).getD 0
  match moveGranules c d (((dmaGranules d).drop start).take count) s with
  | (t, n, e) =>
    let t1 := workMod c w.id (fun y => { y with
      started := true, st := .issued
      dma := lmod y.dma index (fun r => { r with started := true, written := start + n }) }) t
    match e with
    | none => t1
    | some (err, acc) =>
      let t2 := countPoison err t1
      match (ctxOf t2 c).bind (fun x => x.work w.id) with
      | some w' => faultWork c (dmaCarrier w' index) (accDetail err u acc) (start + n) t2
      | none => t2

/-- Runs part of a DMA descriptor on an engine that the module chooses. -/
def runDma (c : Nat) (w : Work) (index count : Nat) (s : State) : State :=
  match engineDie s with
  | (u, t) => asUnit u (runGranulesOn u c w index count) t

/-- The next granule of a DMA descriptor. -/
def nextGranule (w : Work) (index : Nat) : Option Granule :=
  (dmaGranules (dmaBytes w.raw index))[((w.dma[index]?).map DmaRun.written).getD 0]?

/-- A DMA row: descriptor `index` of a work item starts, or goes on, for `count` granules at most (log 64); an interruption comes between two
such rows (R202). -/
def dmaRow (op c id index count : Nat) (s : State) : Out :=
  match ctxOf s c with
  | none => .refused (.notEnabled "no such context")
  | some x =>
    match x.work id with
    | none => .refused (.notEnabled "no such descriptor")
    | some w =>
      let d := dmaBytes w.raw index
      gate (w.opcode == 0x0210 && decide (index < w.dma.length) && dmaOp d == op && (mayIssue s x || (w.st == .issued && mayRun s x)) && w.st != .faulted && !(dmaDies s).isEmpty &&
          (match nextGranule w index with
           | some g => decide (1 ≤ count) && !granuleWaits s c g
           | none => false) && (!dmaOrdered d || earlierDone x w index))
        "the descriptor cannot start" (runDma c w index count s)

/-- COPY (R200). -/
def execCopy (c id : Nat) (p : DmaPart) (s : State) : Out := dmaRow 0 c id p.index p.count s

/-- FILL (R200). -/
def execFill (c id : Nat) (p : DmaPart) (s : State) : Out := dmaRow 1 c id p.index p.count s

/-- COPY_2D (R200). -/
def execCopy2d (c id : Nat) (p : DmaPart) (s : State) : Out := dmaRow 2 c id p.index p.count s

/-- The end of a descriptor whose every granule is acknowledged: SYNC_ADD, and the completion after the last descriptor (R201, R252). -/
def finishDma (c : Nat) (w : Work) (index : Nat) (s : State) : State :=
  let d := dmaBytes w.raw index
  let s1 := workMod c w.id (fun y => { y with dma := lmod y.dma index (fun r => { r with done := true }) }) s
  let s2 := if dmaSignal d then syncAdd (dmaCell d) (BitVec.ofNat 32 (fieldAt d 60 4)) s1 else s1
  if (lmod w.dma index (fun r => { r with done := true })).all (fun r => r.done) then
    reschedule (finishWork c w 0 none none s2)
  else s2

/-- The writes of a granule wait for the owner of an armoured stripe (R208). -/
def ackWaits (s : State) (c : Nat) (d : List Byte) (granule : Nat) : Bool :=
  match (dmaGranules d)[granule]? with
  | some g => granuleWaits s c g
  | none => false

/-- DMA_GRANULE_WRITE_ACK (R201): a written granule is acknowledged, an armoured one after its stripe's owner has acknowledged (R208). -/
def execDmaGranuleWriteAck (c id index granule : Nat) (s : State) : Out :=
  match (ctxOf s c).bind (fun x => x.work id) with
  | none => .refused (.notEnabled "no such descriptor")
  | some w =>
    match w.dma[index]? with
    | none => .refused (.notEnabled "no such descriptor")
    | some r =>
      if granule < r.written ∧ granule ∉ r.acked ∧ ackWaits s c (dmaBytes w.raw index) granule = false then
        let t := workMod c id (fun y => { y with dma := lmod y.dma index (fun q => { q with acked := granule :: q.acked }) }) s
        .next (if r.acked.length + 1 = (dmaGranules (dmaBytes w.raw index)).length then finishDma c w index t else t)
      else .refused (.notEnabled "no such write")

end Sys2Proof.Machine
end

