-- ==== Sys2Proof/Machine/Kernel.lean ====
section
/-! DEFINITION. KERNEL_DISPATCH: the checks of a kernel descriptor, steps and lags, the activation stack, the deferred queue
(R107 to R109, R129 to R141, R152 to R156, R262 to R264), and the issue and completion of descriptors (R27, R264). -/
namespace Sys2Proof.Machine

/-! ### Sliding-window fields (R108, R263) -/

def Work.nimg (w : Work) : Nat := wf w 128 2
def Work.cIn (w : Work) : Nat := wf w 130 2
def Work.cOut (w : Work) : Nat := wf w 132 2
def Work.imH (w : Work) : Nat := wf w 134 2
def Work.imW (w : Work) : Nat := wf w 136 2
def Work.kh (w : Work) : Nat := wf w 138 1
def Work.kw (w : Work) : Nat := wf w 139 1
def Work.sh (w : Work) : Nat := wf w 140 1
def Work.sw (w : Work) : Nat := wf w 141 1
def Work.dh (w : Work) : Nat := wf w 142 1
def Work.dw (w : Work) : Nat := wf w 143 1
def Work.pt (w : Work) : Nat := wf w 144 1
def Work.pb (w : Work) : Nat := wf w 145 1
def Work.pl (w : Work) : Nat := wf w 146 1
def Work.pr (w : Work) : Nat := wf w 147 1
def Work.oph (w : Work) : Nat := wf w 148 1
def Work.opw (w : Work) : Nat := wf w 149 1
def Work.groups (w : Work) : Nat := wf w 150 2
def Work.countPad (w : Work) : Bool := bitAt (wf w 152 1) 0
def Work.stripeSet (w : Work) : Nat := wf w 153 1
def Work.haloRows (w : Work) : Nat := wf w 154 1
def Work.haloPass (w : Work) : Nat := wf w 155 1
def Work.haloBase (w : Work) : Nat := wf w 156 2
def Work.inSet (w : Work) : Nat := wf w 158 1
def Work.inHaloRows (w : Work) : Nat := wf w 159 1
def Work.inHaloPass (w : Work) : Nat := wf w 160 1
def Work.inHaloBase (w : Work) : Nat := wf w 162 2

/-- Fields of GATHER_SUM, UPDATE and PROGRAM (R263). -/
def Work.slotBase (w : Work) : Nat := wf w 128 4
def Work.uses (w : Work) : Nat := wf w 132 1
def Work.slotVa (w : Work) : Nat := wf w 136 8
def Work.slotStride (w : Work) : Nat := wf w 144 8
def Work.groupVa (w : Work) : Nat := wf w 128 8
def Work.groupCount (w : Work) : Nat := wf w 136 2
def Work.paramCount (w : Work) : Nat := wf w 140 4
def Work.paramVa (w : Work) : Nat := wf w 144 8
def Work.scratch (w : Work) : Nat := wf w 152 4
/-- The arguments of a PROGRAM kernel (R263). -/
def Work.argsVa (w : Work) : Nat := wf w 136 8
def Work.argsLen (w : Work) : Nat := wf w 144 4

/-- The kernel image of PROGRAM. -/
def Work.codeVa (w : Work) : Nat := wf w 128 8

/-- A sliding-window kernel; one that runs on the arrays; any that runs on the arrays. -/
def Work.sliding (w : Work) : Bool := decide (w.op ≤ 4)
def Work.isConv (w : Work) : Bool := decide (w.op ≤ 1)
def Work.onArrays (w : Work) : Bool := w.isConv || w.op == 8

/-- Channels of a filter's group, Cg (R110). -/
def Work.cg (w : Work) : Nat := w.cIn / w.groups

/-- One output dimension (R109) from the input's, the window's, the stride, the dilation, both paddings and the output padding. -/
def outDim (op n k st dl p0 p1 o : Nat) : Int :=
  match op with
  | 0 => ((n : Int) + p0 + p1 - dl * ((k : Int) - 1) - 1) / st + 1
  | 1 => ((n : Int) - 1) * st + k - p0 - p1 + o
  | 4 => n
  | _ => ((n : Int) + p0 + p1 - k) / st + 1

/-- HO and WO (R109). -/
def Work.hoInt (w : Work) : Int := outDim w.op w.imH w.kh w.sh w.dh w.pt w.pb w.oph
def Work.woInt (w : Work) : Int := outDim w.op w.imW w.kw w.sw w.dw w.pl w.pr w.opw
def Work.ho (w : Work) : Nat := w.hoInt.toNat
def Work.wo (w : Work) : Nat := w.woInt.toNat

/-- Channels of the output: one for ARGMAX_C, the input's for pooling, which ignores C_OUT (R108, R109). -/
def Work.outChannels (w : Work) : Nat := if w.isConv then w.cOut else if w.op = 4 then 1 else w.cIn

/-- Rows and columns of the moving operand: A, or the filter with one row for each output channel (R107, R110). -/
def Work.movShape (w : Work) : Nat × Nat := if w.op = 8 then (w.m, w.k) else (w.cOut, w.kh * w.kw * w.cg)

/-- Rows and columns of the stationary operand: B, or the image with one row for each row of each plane. -/
def Work.staShape (w : Work) : Nat × Nat := if w.op = 8 then (w.k, w.n) else (w.nimg * w.cIn * w.imH, w.imW)

/-- Rows and columns of an output: C, the output planes, or the view of the output's record (GATHER_SUM and others). -/
def outShape (s : State) (c : Nat) (w : Work) : Nat × Nat :=
  if w.op = 8 then (w.m, w.n)
  else if w.sliding then (w.nimg * w.outChannels * w.ho, w.wo)
  else match scaleOf s c w.outTensor with
    | some r => (r.rows, r.cols)
    | none => (0, 0)

/-- Bytes an output element takes in the descriptor's own format; ARGMAX_C writes 16-bit integers (R120). -/
def Work.outBytes (w : Work) : Nat := if w.op = 4 then 2 else Fmt.bytes (fmtOfCode w.fmtOut) * (if w.pair then 2 else 1)

/-- Bytes a matrix spans from its base: the allocation of a GRAD tensor (R104), or rows by their pitch. -/
def spanLen (grad : Bool) (shape : Nat × Nat) (pitch eb : Nat) : Nat :=
  if grad then 4 * (shape.1 * shape.2) else (shape.1 - 1) * pitch + shape.2 * eb

/-- A shape as it is stored: exchanged when the operand is fetched by turned reads (R75). -/
def stored (turn : Bool) (shape : Nat × Nat) : Nat × Nat := if turn then (shape.2, shape.1) else shape

/-- Whether a tensor is a GRAD tensor. -/
def isGrad (s : State) (c t : Nat) : Bool := (gradFmt s c t).isSome

def movSpan (s : State) (c : Nat) (w : Work) : Nat :=
  spanLen (isGrad s c w.movTensor) (stored w.turnMov w.movShape) w.movPitch (Fmt.bytes (fmtOfCode w.fmtMov))
def staSpan (s : State) (c : Nat) (w : Work) : Nat :=
  spanLen (isGrad s c w.staTensor) (stored w.turnSta w.staShape) w.staPitch (Fmt.bytes (fmtOfCode w.fmtSta))
def outSpan (s : State) (c : Nat) (w : Work) : Nat :=
  spanLen (isGrad s c w.outTensor || w.op == 0x10) (outShape s c w) w.outPitch w.outBytes

/-! ### Checks of the fields alone -/

/-- Bytes from `off` on are reserved. -/
def restZero (w : Work) (off : Nat) : Bool := allZero (w.raw.drop off)

/-- Reserved bytes of the kernel's own half (R263). -/
def ownReservedOk (w : Work) : Bool :=
  if w.sliding then decide (wf w 152 1 ≤ 1) && wf w 161 1 == 0 && restZero w 164
  else match w.op with
    | 0x08 => restZero w 128
    | 0x10 => wf w 133 3 == 0 && restZero w 152
    | 0x11 => wf w 138 2 == 0 && restZero w 156
    | 0x20 => restZero w 148
    | _ => true

/-- Reserved fields of the descriptor (R262). -/
def kernelReservedOk (w : Work) : Bool :=
  !bitAt (wf w 1 1) 7 && decide (wf w 3 1 < 64) && decide (wf w 4 1 < 32) && decide (wf w 5 1 < 128) && wf w 6 2 == 0 && wf w 52 4 == 0 &&
    wf w 94 2 == 0 && wf w 100 4 == 0 && wf w 120 8 == 0 && (w.op == 8 || (w.m == 0 && w.k == 0 && w.n == 0)) && ownReservedOk w

/-- Ranges of R108. The table gives SH and SW a range for CONV and CONV_T and one for pooling; ARGMAX_C takes pooling's, the model's choice
(log 161). -/
def slidingRangesOk (w : Work) : Bool :=
  let kMax := if w.isConv then 64 else 16
  let sMax := if w.isConv then 16 else 255
  let pos := fun v m => within 1 v m
  pos w.nimg 65535 && pos w.cIn 65535 && (!w.isConv || pos w.cOut 65535) && pos w.imH 65535 && pos w.imW 65535 && pos w.kh kMax &&
    pos w.kw kMax && (w.op != 4 || (w.kh == 1 && w.kw == 1)) && pos w.sh sMax && pos w.sw sMax && pos w.dh 16 && pos w.dw 16 &&
    (w.op == 0 || (w.dh == 1 && w.dw == 1)) && decide (w.oph < w.sh) && decide (w.opw < w.sw) && pos w.groups w.cIn &&
    (decide (w.stripeSet < 64) || w.stripeSet == 0xFF) && (decide (w.inSet < 64) || w.inSet == 0xFF)

/-- Ranges of the other kernels (R10, R67, R142, R147 and the argument list of the update kernel, R263); a format code of an array operand
beyond R66's table is left to R66's refusal, and off the arrays every code of that table is in range (log 161). -/
def kernelRangesOk (w : Work) : Bool :=
  decide (w.round ≤ 2) && (w.op == 4 || decide (w.fmtOut ≤ 3)) && (!w.pair || w.op == 4 || w.fmtOut == 2 || w.fmtOut == 3) &&
    !(w.pair && w.round == 2) &&
    (w.onArrays || (decide (w.fmtMov ≤ 5) && decide (w.fmtSta ≤ 5))) &&
  (if w.sliding then slidingRangesOk w
   else match w.op with
    | 0x08 => within 1 w.m (2 ^ 24) && within 1 w.k 65536 && within 1 w.n (2 ^ 24)
    | 0x10 => within 1 w.uses 16
    | 0x11 => within 1 w.groupCount 4096 && within 1 w.paramCount (2 ^ 20)
    | 0x20 => decide (w.argsLen ≤ 65536)
    | _ => true)

/-- PAR fields (R155, R262). -/
def parBad (flag : Bool) (stride tensor : Nat) : Bool :=
  if flag then stride == 0 || stride % 65536 != 0 || tensor % 2 == 1 else stride != 0

/-! ### The activation stack (R134 to R137) -/

/-- Segment of a descriptor (R134). -/
def Work.segment (w : Work) : Nat := 2 * w.mb + w.origin % 2

/-- Bytes of a segment (R135). -/
def segSize (s : State) (a : AStack) : Nat := a.size / (2 * mbCount s) / 4096 * 4096

/-- Frames of a segment, top first. -/
def AStack.frames (a : AStack) (g : Nat) : List Frame := (tget a.segs g).getD []

/-- Sets the frames of a segment. -/
def AStack.setFrames (a : AStack) (g : Nat) (l : List Frame) : AStack := { a with segs := tset a.segs g l }

/-- The length of the frame a PUSH makes (R136). -/
def frameLen (s : State) (c : Nat) (w : Work) : Nat := (64 + outSpan s c w + 4095) / 4096 * 4096

/-- Works that must complete before a frame's place is free (R137). -/
def occupants (a : AStack) (va len : Nat) : List Nat :=
  (a.freeing.filter (fun e => overlaps e.2.1.va e.2.1.len va len)).flatMap (fun e => e.2.2)

/-- Accepted works that read a frame. -/
def frameReaders (x : Ctx) (f : Frame) : List Nat :=
  (x.works.filter (fun v => v.opcode == 0x0300 && decide (v.astk ≥ 2) && v.movVa == f.va + 64)).map Work.id

/-! ### Windows (R138) -/

/-- The newest parts that fit a window. -/
def keepNewest : Nat → List (Nat × Nat) → List (Nat × Nat)
  | _, [] => []
  | room, (f, n) :: r => if n ≤ room then (f, n) :: keepNewest (room - n) r else []

/-- The parts of frames at a place leave every window. -/
def dropParts (va len : Nat) (h : Table (List (Nat × Nat))) : Table (List (Nat × Nat)) :=
  h.map (fun e => (e.1, e.2.filter (fun p => !(decide (va ≤ p.1) && decide (p.1 < va + len)))))

/-- A logical cluster has written a part of a frame: it enters the window, the oldest parts leave. -/
def keepPart (c l va n : Nat) (s : State) : State :=
  ctxMod c (fun x => { x with astk := { x.astk with
    held := tset x.astk.held l (keepNewest (1024 * x.astk.window) ((va, n) :: (tget x.astk.held l).getD [])) } }) s

/-- The frame whose tensor lies at an address. -/
def AStack.frameAt (a : AStack) (va : Nat) : Option Frame :=
  (a.segs.flatMap Prod.snd ++ a.freeing.map (fun e => e.2.1)).find? (fun f => f.va + 64 == va)

/-- The frame that a PUSH made; a POP accepted since may have moved it to those about to be freed (R136, R137). -/
def AStack.frameOf (a : AStack) (w : Work) : Option Frame :=
  (a.segs.flatMap Prod.snd ++ a.freeing.map (fun e => e.2.1)).find? (fun f =>
    f.va + 64 == w.outVa && f.tag == BitVec.ofNat 32 w.frameTag && f.tensor == w.outTensor && f.step == w.origin)

/-- A logical cluster holds all of the frame a descriptor reads. -/
def AStack.serves (a : AStack) (l : Nat) (w : Work) : Bool :=
  (a.frameAt w.movVa).all (fun f => decide (f.bytes ≤ ((((tget a.held l).getD []).filter (fun p => p.1 == f.va)).map Prod.snd).sum))

/-- A read of a popped or peeked frame: what the window of the cluster does not hold comes from HBM. -/
def noteMiss (c l : Nat) (x : Ctx) (w : Work) (s : State) : State :=
  if w.astk ≥ 2 ∧ ¬ x.astk.serves l w then ctxMod c (fun y => { y with astk := { y.astk with missLive := y.astk.missLive + 1 } }) s else s

/-- The stack access of a descriptor at acceptance (R136, R137): the stack and the descriptor after it, or the fault. -/
def astkStep (s : State) (c : Nat) (x : Ctx) (w : Work) : Except FaultDetail (AStack × Work) :=
  let a := x.astk
  let g := w.segment
  let fault (code : Nat) : Except FaultDetail (AStack × Work) :=
    .error (.stack code g (((a.frames g).head?.map (fun f => f.tag.toNat)).getD 0) w.frameTag)
  match w.astk with
  | 0 => .ok (a, w)
  | 1 =>
    let bottom := a.base + g * segSize s a
    let va := match (a.frames g).head? with
      | some f => f.va + f.len
      | none => bottom
    let len := frameLen s c w
    if va + len > bottom + segSize s a then fault 0x0603
    else
      let f : Frame := { va := va, len := len, tag := BitVec.ofNat 32 w.frameTag, step := w.origin, mb := w.mb, tensor := w.outTensor
                         bytes := (outShape s c w).1 * (outShape s c w).2 * w.outBytes }
      let b := a.setFrames g (f :: a.frames g)
      .ok ({ b with peakLive := max b.peakLive b.usedKib, held := dropParts va len b.held }, { w with outVa := va + 64, waitOn := w.waitOn ++ occupants a va len })
  | k =>
    match a.frames g with
    | [] => fault 0x0601
    | f :: r =>
      if f.tag ≠ BitVec.ofNat 32 w.frameTag then fault 0x0602
      else if k = 2 then
        let b := a.setFrames g r
        .ok ({ b with freeing := b.freeing ++ [(g, f, frameReaders x f ++ [w.id])] }, { w with movVa := f.va + 64 })
      else .ok (a, { w with movVa := f.va + 64 })

/-- A work item has completed: frames it read are freed when no other reader is left (R137). -/
def freeFrames (id : Nat) (a : AStack) : AStack :=
  { a with freeing := (a.freeing.map (fun e => (e.1, e.2.1, e.2.2.filter (fun i => i != id)))).filter (fun e => !e.2.2.isEmpty) }

/-- The header of a frame (R136). -/
def frameHeader (f : Frame) : List Byte :=
  leBytes 4 f.tag.toNat ++ leBytes 4 (f.step % 2 ^ 32) ++ leBytes 1 f.mb ++ zeros 3 ++ leBytes 4 f.tensor ++ leBytes 8 f.len ++ zeros 40

/-- A descriptor with the frames of the activation stack in the places of what they replace (R136, R137), and whether its stack access
passes. -/
def framed (s : State) (c : Nat) (x : Ctx) (w : Work) : Work × Bool :=
  match astkStep s c x w with
  | .ok (_, v) => (v, true)
  | .error _ => (w, false)

/-! ### Checks against the state -/

/-- A format is a Kyonex format, by code. -/
def kyonexCode (f : Nat) : Bool := decide (f ≤ 2)

/-- Operand pair refusals of R66: a GRAD operand is checked only through its partner's format. -/
def pairRefusal (s : State) (c : Nat) (w : Work) : Option Nat :=
  let gm := isGrad s c w.movTensor
  let gs := isGrad s c w.staTensor
  if !gm && decide (w.fmtMov > 2) then some 0x0301
  else if !gs && decide (w.fmtSta > 2) then some 0x0302
  else if !gm && !gs && (w.fmtMov == 2) != (w.fmtSta == 2) then some 0x0302
  else none

/-- Whether a descriptor names something other than KL16 and PAIR 0 for a GRAD tensor (R104). -/
def gradBad (s : State) (c t fmt : Nat) (w : Work) : Bool := isGrad s c t && (fmt != 2 || w.pair)

/-- Whether elements 0 to `e - 1` fill whole blocks of a record (R91): under TILE they end with a row of blocks, or with a block of a last
row of blocks that is one row high. -/
def wholeBlocksOf (r : ScaleRec) (e : Nat) : Bool :=
  let total := r.rows * r.cols
  let row := e / r.cols
  e == total || (decide (e < total) && (if r.linear then e % 1024 == 0
    else row % 32 == 0 && (e % r.cols == 0 || (row + 1 == r.rows && e % r.cols % 32 == 0))))

/-- Number of operands that are GRAD tensors. -/
def gradOperands (s : State) (c : Nat) (w : Work) : Nat :=
  (if isGrad s c w.movTensor then 1 else 0) + (if isGrad s c w.staTensor then 1 else 0)

/-- The taps of a phase of CONV_T, or all of CONV's, in ascending order (R110, R116). -/
def tapsOf (w : Work) (py px : Nat) : List Nat :=
  (List.range (w.kh * w.kw)).filter (fun t => w.op == 0 || (t / w.kw % w.sh == py && t % w.kw % w.sw == px))

/-- Tiles of a tap list (R111), with `cg` reduction positions a tap and gangs of `kg` rows. -/
def tileCount (kg cg taps : Nat) : Nat :=
  let tpt := max 1 (kg / cg)
  if tpt ≥ 2 then (taps + tpt - 1) / tpt else taps * ((cg + kg - 1) / kg)

/-- Whether a phase of CONV_T has an output pixel (R116). -/
def phaseUsed (w : Work) (py px : Nat) : Bool :=
  (List.range (min w.ho w.sh)).any (fun y => (y + w.pt) % w.sh == py) && (List.range (min w.wo w.sw)).any (fun x => (x + w.pl) % w.sw == px)

/-- The longest reduction of a sliding-window kernel in tile rows (R111), over the output elements there are and against the widest format a
gradient may take (R105). -/
def tileRows (s : State) (c : Nat) (w : Work) : Nat :=
  let kg := gangRows w.gang
  let cg := w.cg * 2 ^ gradOperands s c w
  let phases := if w.op = 1 then (List.range w.sh).flatMap (fun a => ((List.range w.sw).filter (phaseUsed w a)).map (fun b => (a, b))) else [(0, 0)]
  kg * (phases.map (fun p => tileCount kg cg (tapsOf w p.1 p.2).length)).foldl max 0

/-- Where an address lies: the view and quadrant of device memory (R191), or neither in host and CXL memory. -/
def viewOf (s : State) (c va : Nat) : Except TFault (Option Nat) :=
  match translate s c va false with
  | .ok (.dev d _) => .ok (some (d / 2 ^ 39))
  | .ok _ => .ok none
  | .error e => .error e

/-- Whether a row of a turned tile lies in one view of one quadrant (R193); an address that does not translate faults when it is read. -/
def turnRowOk (s : State) (c va n : Nat) : Bool :=
  match viewOf s c va, viewOf s c (va + n - 1) with
  | .ok (some a), .ok (some b) => a == b
  | .ok none, _ => false
  | _, .ok none => false
  | _, _ => true

/-- Whether an operand may be fetched by turned reads (R193): base, pitch and every row of every tile. -/
def turnOk (s : State) (c base pitch : Nat) (shape : Nat × Nat) (eb : Nat) : Bool :=
  base % 64 == 0 && pitch % 64 == 0 && decide (pitch ≤ 2 ^ 20) &&
    (List.range shape.1).all (fun r => (List.range ((shape.2 + 63) / 64)).all (fun t =>
      turnRowOk s c (base + r * pitch + 64 * t * eb) (min 64 (shape.2 - 64 * t) * eb)))

/-- Whether a turned operand meets R193: a GRAD operand in its dense layout, in every format it may take (R104, R105; log 76). -/
def operandTurnOk (s : State) (c t base pitch fmt : Nat) (shape : Nat × Nat) : Bool :=
  if isGrad s c t then [1, 2, 4].all (fun eb => turnOk s c base (shape.2 * eb) shape eb)
  else turnOk s c base pitch shape (Fmt.bytes (fmtOfCode fmt))

/-- The cells of a producer's stamps lie in its set's range (R123). -/
def haloCellsOk (t : StripeSet) (w : Work) : Bool :=
  decide (t.haloBase ≤ w.haloBase) && decide (w.haloBase + 2 * t.clusters.length ≤ t.haloBase + t.haloCount)

/-- A kernel image whose header passes (R263): magic, length, CRC-32C over the bytes after the CRC. -/
def imageOk (s : State) (c va : Nat) : Bool :=
  match vaRead s c va 64 with
  | .error _ => false
  | .ok h =>
    decide (fieldAt h 0 4 = 0x4E524B5A) && decide (64 ≤ fieldAt h 4 4) &&
    (match vaRead s c va (fieldAt h 4 4) with
     | .error _ => false
     | .ok l => decide (crc32c (l.drop 12) = BitVec.ofNat 32 (fieldAt h 8 4)))

/-- The first refusal whose condition holds. -/
def firstBad : List (Bool × Nat × Option Nat) → Option (Nat × Option Nat)
  | [] => none
  | (b, st, d) :: r => if b then some (st, d) else firstBad r

/-- A refusal with ST_BAD_PARAM and a detail. -/
def bad (b : Bool) (d : Nat) : Bool × Nat × Option Nat := (b, stBADPARAM, some d)

/-- A Kyonex operand without a record (R87). -/
def noRecord (s : State) (c fmt t : Nat) : Bool := kyonexCode fmt && (scaleOf s c t).isNone

/-- Refusals common to every kernel. -/
def commonRefusals (s : State) (x : Ctx) (c q : Nat) (w : Work) : List (Bool × Nat × Option Nat) :=
  [bad (epochOlder s.chart.epoch (BitVec.ofNat 32 (wf w 8 4))) 0x0A0A,
   bad (!(decide (x.clFirst ≤ w.clFirst) && within 1 w.clCount x.clCount && decide (w.clFirst + w.clCount ≤ x.clFirst + x.clCount))) 0x0A21,
   bad ((w.astk != 0 || w.deferWg) && (q - 1) % 4 != 0) 0x0A22,
   bad (w.op == 0x20 && !imageOk s c w.codeVa) 0x0A23,
   bad (parBad w.parMov (wf w 104 8) (wf w 40 4) || parBad w.parSta (wf w 112 8) (wf w 44 4)) 0x0A24,
   bad (w.lag == 1) 0x0610,
   bad (decide (w.mb ≥ mbCount s)) 0x0611,
   (decide (w.step < s.dev.step), stSTEPEXPIRED, none),
   bad (decide (w.step > s.dev.step + 1)) 0x0612,
   bad (w.signal && !ownsCell s c w.syncCell) 0x0821]

/-- Refusals of an array kernel's operands (R66, R87, R104, R105, R193). -/
def arrayRefusals (s : State) (c : Nat) (w : Work) : List (Bool × Nat × Option Nat) :=
  [bad (pairRefusal s c w == some 0x0301) 0x0301,
   bad (pairRefusal s c w == some 0x0302) 0x0302,
   bad (noRecord s c w.fmtMov w.movTensor || noRecord s c w.fmtSta w.staTensor) 0x0402,
   bad (gradBad s c w.movTensor w.fmtMov w || gradBad s c w.staTensor w.fmtSta w) 0x0408,
   bad (decide (gradOperands s c w ≠ 0) && decide (w.movShape.2 * 2 ^ gradOperands s c w > 65536)) 0x0405,
   bad (w.turnMov && !operandTurnOk s c w.movTensor w.movBase w.movPitch w.fmtMov (stored true w.movShape)) 0x0801,
   bad (w.turnSta && !operandTurnOk s c w.staTensor w.staBase w.staPitch w.fmtSta (stored true w.staShape)) 0x0801]

/-- The operand that TURN_MOV names off the arrays: GATHER_SUM's slots; the other kernels have none, so only the descriptor's address and
pitch are checked (R75, R193; log 76). -/
def turnMovOk (s : State) (c : Nat) (w : Work) : Bool :=
  if w.op = 0x10 then
    let shape := stored true (outShape s c w)
    (List.range (2 * mbCount s * w.uses)).all (fun i => operandTurnOk s c ((w.slotBase + i) % 2 ^ 32) (w.slotVa + i * w.slotStride)
      (shape.2 * Fmt.bytes (fmtOfCode w.fmtMov)) w.fmtMov shape)
  else turnOk s c w.movBase w.movPitch (0, 0) 0

/-- The same of TURN_STA: the image of a sliding-window kernel. -/
def turnStaOk (s : State) (c : Nat) (w : Work) : Bool :=
  if w.sliding then operandTurnOk s c w.staTensor w.staBase w.staPitch w.fmtSta (stored true w.staShape)
  else turnOk s c w.staBase w.staPitch (0, 0) 0

/-- Refusals of turned reads off the arrays (R75, R193). -/
def turnRefusals (s : State) (c : Nat) (w : Work) : List (Bool × Nat × Option Nat) :=
  [bad (w.turnMov && !turnMovOk s c w) 0x0801, bad (w.turnSta && !turnStaOk s c w) 0x0801]

/-- Refusals of a sliding-window kernel's shape (R109, R111). -/
def slidingRefusals (s : State) (c : Nat) (w : Work) : List (Bool × Nat × Option Nat) :=
  [bad (decide (w.cIn % w.groups ≠ 0) || (w.isConv && decide (w.cOut % w.groups ≠ 0))) 0x0504,
   bad (decide (w.hoInt < 1) || decide (w.woInt < 1)) 0x0502,
   bad ((w.op == 2 || w.op == 3) && (decide (w.pt ≥ w.kh) || decide (w.pb ≥ w.kh) || decide (w.pl ≥ w.kw) || decide (w.pr ≥ w.kw))) 0x0503,
   bad (w.isConv && decide (tileRows s c w > 65536)) 0x0501]

/-- The stripe set of a number for a step: a set that STRIPE_SET gave holds from the next boundary on (R122, R128). -/
def setFor (s : State) (x : Ctx) (step n : Nat) : Option StripeSet :=
  if s.dev.step < step then (tget x.newStripes n).or (tget x.stripes n) else tget x.stripes n

/-- Some cells that a kernel's context does not own are among those it would stamp or wait on (R215). -/
def foreignCells (s : State) (c base : Nat) (t : StripeSet) : Bool := !(List.range (2 * t.clusters.length)).all (fun k => ownsCell s c (base + k))

/-- Refusals of stripes (R122, R123, R215); the spec states no detail for a set that is not defined (log 12). -/
def stripeRefusals (s : State) (c : Nat) (x : Ctx) (w : Work) : List (Bool × Nat × Option Nat) :=
  [bad (w.haloPass == 255 || w.inHaloPass == 255) 0x0507] ++
  (if w.stripeSet = 0xFF then [] else
    match setFor s x w.step w.stripeSet with
    | none => [(true, stBADPARAM, none)]
    | some t => [bad (t.height != w.ho) 0x0505, bad (!haloCellsOk t w) 0x0506, bad (foreignCells s c w.haloBase t) 0x0821]) ++
  (if w.inSet = 0xFF then [] else
    match setFor s x w.step w.inSet with
    | none => [(true, stBADPARAM, none)]
    | some t => [bad (foreignCells s c w.inHaloBase t) 0x0821])

/-- Refusals of an output (R80, R87, R91, R104); `known` tells that the frames of the stack are there to be compared. -/
def outputRefusals (s : State) (c : Nat) (w : Work) (known : Bool) : List (Bool × Nat × Option Nat) :=
  let e := (outShape s c w).1 * (outShape s c w).2
  let out := if w.astk = 1 ∧ ¬ known then [] else [w.outVa]
  let mov := if w.astk ≥ 2 ∧ ¬ known then [] else [w.movBase]
  let ol := outSpan s c w
  [bad (w.op != 4 && noRecord s c w.fmtOut w.outTensor) 0x0401,
   bad (w.op != 4 && gradBad s c w.outTensor w.fmtOut w) 0x0408,
   bad (w.op != 4 && kyonexCode w.fmtOut && (match scaleOf s c w.outTensor with
     | some r => !wholeBlocksOf r e
     | none => false)) 0x0404,
   bad (out.any (fun o => (w.onArrays && mov.any (fun a => overlaps o ol a (movSpan s c w))) ||
     (w.op != 0x10 && overlaps o ol w.staBase (staSpan s c w)))) 0x0304]

/-- Refusals of GATHER_SUM's slots: a record for those of LAG 0 (R87, R142), KL16 named for every GRAD tensor (R104). -/
def gatherRefusals (s : State) (c : Nat) (w : Work) : List (Bool × Nat × Option Nat) :=
  [bad ((List.range (mbCount s * w.uses)).any (fun i => (scaleOf s c ((w.slotBase + i) % 2 ^ 32)).isNone)) 0x0402,
   bad ((List.range (2 * mbCount s * w.uses)).any (fun i => gradBad s c ((w.slotBase + i) % 2 ^ 32) w.fmtMov w)) 0x0408]

/-- An entry of an UPDATE's parameter list. -/
def paramEntry (s : State) (c va : Nat) (k : Nat) : Except AccErr (List Byte) := vaRead s c (va + 64 * k) 64

/-- The entries of an UPDATE's parameter list, if they can be read. -/
def updateEntries (s : State) (c : Nat) (w : Work) : Except AccErr (List (List Byte)) :=
  mapAcc (paramEntry s c w.paramVa) (List.range w.paramCount)

/-- Whether an UPDATE reads a GRAD gradient (R146); a list that cannot be read tells nothing yet. -/
def readsGrad (s : State) (c : Nat) (w : Work) : Bool :=
  match updateEntries s c w with
  | .ok l => l.any (fun e => isGrad s c (fieldAt e 8 4))
  | .error _ => false

/-- Refusals of an UPDATE: KL16 and PAIR 0 named for its GRAD gradients (R104). Of the format fields it is FMT_MOV that names them, as it
does GATHER_SUM's slots: the model's choice (log 161). -/
def updateRefusals (s : State) (c : Nat) (w : Work) : List (Bool × Nat × Option Nat) :=
  [bad ((w.fmtMov != 2 || w.pair) && readsGrad s c w) 0x0408]

/-- The refusals of a kernel descriptor at check 8. R247 gives no order within a check: the order here, in which the first that holds
gives the detail, is the model's choice (log 149). -/
def kernelRefusals (s : State) (x : Ctx) (c q : Nat) (w : Work) : List (Bool × Nat × Option Nat) :=
  let v := (framed s c x w).1
  let outs := outputRefusals s c v (framed s c x w).2
  commonRefusals s x c q w ++
  (if w.op = 0x10 then gatherRefusals s c w ++ turnRefusals s c w ++ outs
   else if w.sliding then
     slidingRefusals s c w ++ stripeRefusals s c x w ++
       (if w.isConv then arrayRefusals s c v else [bad (noRecord s c w.fmtSta w.staTensor) 0x0402, bad (gradBad s c w.staTensor w.fmtSta w) 0x0408] ++
         turnRefusals s c w) ++
       outs
   else if w.op = 0x08 then arrayRefusals s c v ++ outs
   else if w.op = 0x11 then updateRefusals s c w ++ turnRefusals s c w
   else [])

/-! ### Tensors a descriptor reads and writes (R140) -/

/-- H's tensors of an entry: both parities when it has a stride (R146). -/
def hTensors (e : List Byte) : List Nat := if fieldAt e 48 8 = 0 then [fieldAt e 0 4] else [fieldAt e 0 4, fieldAt e 0 4 + 1]

/-- Tensors a descriptor reads; `none` when its image or lists do not tell. -/
def readsOf (s : State) (c : Nat) (w : Work) : Option (List Nat) :=
  if w.opcode = 0x0520 then some [wf w 24 4, wf w 28 4]
  else if w.opcode ≠ 0x0300 then some []
  else if w.onArrays then some [w.movTensor, w.staTensor]
  else if w.sliding then some (if w.astk ≥ 2 then [w.movTensor, w.staTensor] else [w.staTensor])
  else match w.op with
    | 0x10 => some ((List.range (2 * mbCount s * w.uses)).map (fun i => (w.slotBase + i) % 2 ^ 32))
    | 0x11 => match updateEntries s c w with
      | .ok l => some (l.flatMap (fun e => hTensors e ++ [fieldAt e 4 4, fieldAt e 8 4]))
      | .error _ => none
    | _ => none

/-- Tensors a descriptor writes. -/
def writesOf (s : State) (c : Nat) (w : Work) : Option (List Nat) :=
  if w.opcode = 0x0520 then some [wf w 28 4]
  else if w.opcode ≠ 0x0300 then some []
  else match w.op with
    | 0x11 => match updateEntries s c w with
      | .ok l => some (l.flatMap (fun e => hTensors e ++ [fieldAt e 4 4]) ++ (List.range 6).map (fun i => w.scratch + i))
      | .error _ => none
    | 0x20 => none
    | _ => some [w.outTensor]

/-- Whether two sets of tensors meet; an unknown set may hold any tensor, so a PROGRAM, whose tensors its descriptor does not name, meets
every deferred descriptor: the model's choice (log 163). -/
def meets (a b : Option (List Nat)) : Bool :=
  match a, b with
  | some l, some r => l.any (fun t => decide (t ∈ r))
  | _, _ => true

/-- Whether a later descriptor conflicts with a deferred one (R140). -/
def conflicts (s : State) (c : Nat) (later deferred : Work) : Bool :=
  let dw := writesOf s c deferred
  let lw := writesOf s c later
  meets (readsOf s c later) dw || meets lw dw || meets lw (readsOf s c deferred)

/-! ### Acceptance -/

/-- The work item of a kernel descriptor. -/
def kernelWork (p : Packet) (id : Nat) : Work :=
  let raw := p.params.take 256
  { id := id, queue := queueOf p, hostTag := p.hostTag, opcode := 0x0300, epoch := BitVec.ofNat 32 (fieldAt raw 8 4), raw := raw,
    step := fieldAt raw 16 8, mb := fieldAt raw 5 1 % 64, lag := bitsAt (fieldAt raw 5 1) 6 1, outVa := fieldAt raw 72 8, movVa := fieldAt raw 56 8 }

/-- Whether a work item belongs to the backward pass of its micro-batch: it pops or peeks, is deferred, or follows such a one (R152; log 28). -/
def isBackward (s : State) (c : Nat) (w : Work) : Bool :=
  decide (w.astk ≥ 2) || w.deferWg || decide ((c, w.mb, w.origin) ∈ s.bnd.backSeen)

/-- Notes the backward pass of a bound context's micro-batch. -/
def noteBack (c : Nat) (x : Ctx) (w : Work) (s : State) : State :=
  if x.bound && w.back && decide ((c, w.mb, w.origin) ∉ s.bnd.backSeen) then
    { s with bnd := { s.bnd with backSeen := (c, w.mb, w.origin) :: s.bnd.backSeen } }
  else s

/-- Re-stamping of a descriptor accepted after the cut of its step (R153). Where a replay makes the cut, the forward pass of a micro-batch
deferred backward only still issues in its step (R154). It goes by the stripe boundaries of its new step (R122). -/
def restamp (s : State) (w : Work) : Work :=
  match s.bnd.cut with
  | some (n, whole, back, _) =>
    if w.step = n ∧ w.lag = 0 ∧ (bitAt whole w.mb ∨ (bitAt back w.mb ∧ (w.back ∨ ¬ replaying s))) then { w with step := n + 1, lag := 1, outSet := none, inFrom := none }
    else w
  | none => w

/-- Deferred descriptors of a context that have not been promoted or issued. -/
def Ctx.deferredQueue (x : Ctx) : List Work := x.works.filter (fun w => w.st == .deferred)

/-- A deferred descriptor that has not been promoted: in its queue, or issued to idle clusters only. -/
def Work.unpromoted (w : Work) : Bool := w.opcode == 0x0300 && w.deferWg && !w.promoted && (w.st == .deferred || w.st == .issued)

/-- A deferred descriptor promoted (R140): it issues as an ordinary one. -/
def Work.promoteNow (w : Work) : Work := { w with st := if w.st = .deferred then .waiting else w.st, promoted := true }

/-- Promotes deferred descriptors (R140). -/
def promote (ids : List Nat) (x : Ctx) : Ctx :=
  let hit (w : Work) : Bool := w.unpromoted && decide (w.id ∈ ids)
  { x with works := x.works.map (fun w => if hit w then w.promoteNow else w)
           dwgPromotedLive := sat32 x.dwgPromotedLive (x.works.filter hit).length }

/-- Promotes every deferred descriptor, as the cut does (R140). -/
def promoteAll (x : Ctx) : Ctx := promote (x.works.map Work.id) x

/-- Adds an accepted descriptor: it waits for the deferred ones it conflicts with, which are promoted; a deferred one enters its queue,
whose oldest entry is promoted when it is full (R140). -/
def enqueue (s : State) (c : Nat) (w : Work) (x : Ctx) : Ctx :=
  let deferred := x.works.filter (fun v => v.opcode == 0x0300 && v.deferWg)
  let hit := (deferred.filter (fun v => conflicts s c w v)).map Work.id
  let y := promote hit x
  let w' := { w with waitOn := w.waitOn ++ hit }
  if w.opcode = 0x0300 ∧ w.deferWg then
    let full := if y.deferredQueue.length ≥ 1024 then promote ((y.deferredQueue.take 1).map Work.id) y else y
    { full with works := full.works ++ [{ w' with st := .deferred }], dwgQueuedLive := sat32 full.dwgQueuedLive 1 }
  else { y with works := y.works ++ [w'] }

/-- The group tables UPDATE descriptors have named. -/
def noteTable (w : Work) (x : Ctx) : Ctx :=
  if w.op = 0x11 ∧ (w.groupVa, w.groupCount) ∉ x.groupTables then { x with groupTables := x.groupTables ++ [(w.groupVa, w.groupCount)] } else x

/-- The batch of a work item's origin step is sealed (R184). -/
def batchReady (x : Ctx) (w : Work) : Bool :=
  match x.ingest.sched with
  | some d => decide (d.firstStep ≤ w.origin) && decide (w.origin - d.firstStep < x.ingest.batch)
  | none => false

/-- A descriptor that has to wait under BATCH_WAIT is noted for ING_STARVE (R184). -/
def noteStarve (w : Work) (x : Ctx) : Ctx :=
  if w.batchWait ∧ ¬ batchReady x w then
    { x with ingest := { x.ingest with live := { x.ingest.live with starve := sat32 x.ingest.live.starve 1 } } }
  else x

/-! ### Stripes of a kernel (R122 to R124) -/

/-- The stripe set of a work item's output: the one it goes by. -/
def outStripes (x : Ctx) (w : Work) : Option StripeSet :=
  if w.sliding ∧ w.stripeSet ≠ 0xFF then w.outSet.or (tget x.stripes w.stripeSet) else none

/-- First and last-plus-one row of stripe `j` of a set. -/
def StripeSet.lo (t : StripeSet) (j : Nat) : Nat := (t.bound[j]?).getD t.height
def StripeSet.hi (t : StripeSet) (j : Nat) : Nat := (t.bound[j + 1]?).getD t.height

/-- The stripes of a kernel's output, as rows (one stripe without a set). -/
def stripeRows (x : Ctx) (w : Work) : List (Nat × Nat) :=
  match outStripes x w with
  | some t => (List.range t.clusters.length).map (fun j => (t.lo j, t.hi j))
  | none => [(0, w.ho)]

/-- The value of a stamp (R123). -/
def stampValue (step pass : Nat) : Word := BitVec.ofNat 32 (step % 2 ^ 24 * 256 + pass + 1)

/-- The input rows a stripe reads, first and last plus one, clipped to the image; a stripe that reads padding only has none (R124).
ARGMAX_C, which R124 does not name, reads the rows it writes. -/
def inputRows (w : Work) (lo hi : Nat) : Nat × Nat :=
  let a : Int := if w.op = 4 then lo else if w.op = 1 then -((w.kh - 1 - (lo : Int) - w.pt) / w.sh) else (lo : Int) * w.sh - w.pt
  let b : Int := if w.op = 4 then (hi : Int) - 1 else if w.op = 1 then ((hi : Int) - 1 + w.pt) / w.sh
    else ((hi : Int) - 1) * w.sh - w.pt + w.dh * ((w.kh : Int) - 1)
  (a.toNat, (min (b + 1) (w.imH : Int)).toNat)

/-- The cell a consumer waits on for rows `a` to `b - 1` of producer stripe `j`, if it reads any (R124). -/
def waitCell (t : StripeSet) (w : Work) (a b j : Nat) : Option Nat :=
  let lo := max a (t.lo j)
  let hi := min b (t.hi j)
  let h := min w.inHaloRows (t.hi j - t.lo j)
  if lo ≥ hi then none
  else if hi ≤ t.lo j + h ∨ t.hi j - h ≤ lo then some (w.inHaloBase + 2 * j)
  else some (w.inHaloBase + 2 * j + 1)

/-- The halo waits of a work item's stripes (R124). -/
def haloWaits (x : Ctx) (w : Work) : List HaloWait :=
  if w.sliding ∧ w.inSet ≠ 0xFF then
    match w.inFrom.or (tget x.stripes w.inSet) with
    | none => []
    | some t => (stripeRows x w).zipIdx.flatMap (fun e => match inputRows w e.1.1 e.1.2 with
      | (a, b) => ((List.range t.clusters.length).filterMap (waitCell t w a b)).map (fun k => ⟨e.2, k, stampValue w.step w.inHaloPass⟩))
  else []

/-- The waits of a list that do not end at once. -/
def waitsLeft (s : State) (l : List HaloWait) : List HaloWait := l.filter (fun h => cellValue s h.cell != h.value)

/-- Whether every wait of a stripe has ended (R124). -/
def stripeReady (w : Work) (stripe : Nat) : Bool := w.halo.all (fun h => h.stripe != stripe)

/-- A stripe that still waits gives up its waits and, when its context resumes, tests all its cells again (R125). -/
def retestHalos (s : State) (x : Ctx) (w : Work) : Work :=
  { w with halo := waitsLeft s ((haloWaits x w).filter (fun h => !stripeReady w h.stripe)) }

/-- A descriptor takes the stripe sets of its step (R122): at its acceptance in that step, else when it issues. -/
def takeSets (s : State) (x : Ctx) (w : Work) : Work :=
  if w.sliding ∧ w.step ≤ s.dev.step then
    { w with outSet := w.outSet.or (tget x.stripes w.stripeSet), inFrom := w.inFrom.or (tget x.stripes w.inSet) }
  else w

/-- Places an accepted kernel: its stack access, then its queue (R137, R140). -/
def placeKernel (c : Nat) (w : Work) (s : State) : State :=
  match ctxOf s c with
  | none => s
  | some x =>
    let w0 := { w with back := isBackward s c w }
    let w1 := takeSets s x (if x.bound then restamp s w0 else w0)
    match astkStep s c x w1 with
    | .error d => faultWork c w1 d 0 (ctxMod c (fun y => { y with works := y.works ++ [w1] }) s)
    | .ok (a, w2) => noteBack c x w2 (reschedule (ctxMod c (fun y => enqueue s c w2 (noteStarve w2 (noteTable w2 { y with astk := a }))) s))

/-- KERNEL_DISPATCH at check 8 (R262). -/
def bodyKernel (p : Packet) (s : State) : State :=
  withCtx p 0x0300 0xFFFF s (fun x =>
    match freshId s with
    | (id, t) =>
      let w := kernelWork p id
      match firstBad (kernelRefusals s x p.ctx (queueOf p) w) with
      | some (st, d) => complete p 0x0300 st d none 0xFFFF [] s
      | none => placeKernel p.ctx w t)

def chkKernel (p : Packet) (s : State) : Checks :=
  { lenOk := p.paramLen == 256
    fieldsOk := kernelReservedOk (kernelWork p 0) && kernelRangesOk (kernelWork p 0)
    enumDetail := if (kernelWork p 0).sliding || decide ((kernelWork p 0).op ∈ [0x08, 0x10, 0x11, 0x20]) then none else some 0x0A20
    units := clusterUnits s ((List.range (kernelWork p 0).clCount).map (fun i => (kernelWork p 0).clFirst + i)) }

def acceptKernel (p : Packet) (s : State) : State := acceptPacket 0x0300 (chkKernel p s) (fun _ t => bodyKernel p t) p s

/-- KERNEL_DISPATCH (R262). -/
def execKernelDispatch (p : Packet) (s : State) : Out := packetOut 0x0300 acceptKernel p s

/-! ### Issue (R27, R131, R140, R156, R184) -/

/-- The logical clusters of a kernel. -/
def Work.clusters (w : Work) : List Nat := (List.range w.clCount).map (fun i => w.clFirst + i)

/-- An UPDATE is held while a descriptor of its step with LAG 1 is unfinished (R156). -/
def updateHeld (x : Ctx) (w : Work) : Bool := w.op == 0x11 && x.works.any (fun v => v.opcode == 0x0300 && v.lag == 1 && v.step == w.step)

/-- Whether a kernel's waits are over and its step is the current one, with its release wave delivered (R131, R349). -/
def mayStart (s : State) (x : Ctx) (w : Work) : Bool :=
  mayIssue s x && w.step == s.dev.step && !w.waitOn.any (fun i => (x.work i).isSome) && (!w.batchWait || batchReady x w) && !updateHeld x w &&
    !w.clusters.any (fun l => decide (l % 16 ∈ s.bnd.waves))

/-- The refusing units of a descriptor with the logical clusters they carry (R27). -/
def staleClusters (s : State) (w : Work) : List (Nat × Nat) :=
  (w.clusters.map (fun l => (l, carrier s l))).filter (fun e => epochOlder w.epoch (changeEpoch s (uCluster e.2)))

/-- A record of cause 0x1 for each refusing cluster; the reporter is the supervisor of its compute die (R33). -/
def logStaleClusters (l : List (Nat × Nat)) (e : Word) (s : State) : State :=
  (l.map Prod.snd).foldr ninsert' [] |>.foldl (fun t ph => logSkew (uCluster ph) 1 (ph / 52) e t) s
where
  /-- Inserts without repeats. -/
  ninsert' (k : Nat) (l : List Nat) : List Nat := ninsert l k

/-- A descriptor ends without running: what it holds is given back. -/
def endWork (c : Nat) (w : Work) (status : Nat) (detail : Option Nat) (s : State) : State :=
  offerMuster (offerHandover (reschedule (ctxMod c (fun y => { y with astk := freeFrames w.id y.astk }) (finishWork c w status detail none s))))

/-- Notes that a micro-batch of a bound context has issued work (R152). -/
def noteBegun (x : Ctx) (w : Work) (s : State) : State :=
  if !x.bound then s
  else if w.lag = 1 then { s with bnd := { s.bnd with begunLag := ninsert s.bnd.begunLag w.mb } }
  else { s with bnd := { s.bnd with
    begun := ninsert s.bnd.begun w.mb
    begunBack := if w.back then ninsert s.bnd.begunBack w.mb else s.bnd.begunBack } }

/-- A stripe set in use in this step: its stripes' BUSY is measured, and WAIT of those that wait on a halo, as marks that the boundary
replaces (R126). -/
def noteStripes (c : Nat) (w : Work) (s : State) : State :=
  if w.sliding ∧ w.stripeSet ≠ 0xFF then
    ctxMod c (fun x => { x with stripes := tmod x.stripes w.stripeSet (fun t =>
      { t with busy := t.busy.map (fun _ => 1), wait := t.wait.zipIdx.map (fun e => if stripeReady w e.2 then e.1 else 1) }) }) s
  else s

/-- Issues a kernel: checked as a whole against the change epochs of its clusters (R27); its stripes test their cells (R124). -/
def issueWork (c : Nat) (x : Ctx) (w : Work) (s : State) : State :=
  match staleClusters s w with
  | (_, ph) :: r => endWork c w stCHARTSTALE (some (uCluster ph)) (logStaleClusters ((0, ph) :: r) w.epoch s)
  | [] =>
    let v := takeSets s x w
    let v1 := { v with st := .issued, halo := waitsLeft s (haloWaits x v) }
    noteBegun x w (noteStripes c v1 (workMod c w.id (fun _ => v1) s))

/-- DESCRIPTOR_ISSUE (R27). -/
def execDescriptorIssue (c id : Nat) (s : State) : Out :=
  match ctxOf s c with
  | none => .refused (.notEnabled "no such context")
  | some x =>
    match x.work id with
    | none => .refused (.notEnabled "no such descriptor")
    | some w => gate (w.opcode == 0x0300 && w.st == .waiting && mayStart s x w) "the descriptor may not issue" (issueWork c x w s)

/-- Whether a context has an issuable descriptor without DEFER_WG on a cluster, or one issued there. -/
def keepsBusy (s : State) (l : Nat) (x : Ctx) : Bool :=
  x.works.any (fun w => w.opcode == 0x0300 && decide (l ∈ w.clusters) &&
    ((w.st == .waiting && mayStart s x w) || (w.st == .issued && (!w.deferWg || w.promoted))))

/-- No context has an issuable descriptor on a cluster but deferred ones (R140). -/
def deferredOnly (s : State) (l : Nat) : Bool := !s.ctxs.any (fun e => e.2.resident && keepsBusy s l e.2)

/-- DEFERRED_IDLE_ISSUE (R140): some cluster of the descriptor has no other issuable descriptor. -/
def execDeferredIdleIssue (c id : Nat) (s : State) : Out :=
  match ctxOf s c with
  | none => .refused (.notEnabled "no such context")
  | some x =>
    match x.work id with
    | none => .refused (.notEnabled "no such descriptor")
    | some w =>
      gate (w.st == .deferred && mayStart s x w && w.clusters.any (deferredOnly s))
        "no cluster stands idle" (issueWork c x w s)

/-! ### Completion -/

/-- Every stamp of a producer has been given (R123). -/
def stampsDone (x : Ctx) (w : Work) : Bool :=
  match outStripes x w with
  | some t => (List.range (2 * t.clusters.length)).all (fun k => decide (w.haloBase + k ∈ w.stamps))
  | none => true

/-- KERNEL_COMPLETE's effect (R137, R264): SIGNAL, the frames freed, the completion. -/
def completeKernel (c : Nat) (w : Work) (s : State) : State :=
  endWork c w 0 none (if w.signal then syncAdd w.syncCell w.syncAdd s else s)

/-- SIGNAL's addition comes after the acknowledgement of every write of the kernel's clusters (R217). -/
def signalReady (s : State) (w : Work) : Bool := !w.signal || w.clusters.all (fun l => writesAcked s (uCluster (carrier s l)))

/-- KERNEL_COMPLETE (R264): every part is written and merged. -/
def execKernelComplete (c id : Nat) (s : State) : Out :=
  match ctxOf s c with
  | none => .refused (.notEnabled "no such context")
  | some x =>
    match x.work id with
    | none => .refused (.notEnabled "no such descriptor")
    | some w =>
      gate (w.opcode == 0x0300 && w.st == .issued && w.started && w.partsDone.length == w.parts && w.held.isEmpty && stampsDone x w && signalReady s w)
        "an output is missing" (completeKernel c w s)

end Sys2Proof.Machine
end

