-- ==== Sys2Proof/Machine/Arrays.lean ====
section
/-! DEFINITION. The matrix arrays: MATMUL, CONV and CONV_T split into chains (R62 to R84, R110 to R116), the chain events on the gangs,
and the halo stamps (R123). -/
namespace Sys2Proof.Machine

/-! ### Chains (R77, R112) -/

/-- A chain: its rows of C (moving rows), its columns (columns of C, or pixels of the output plane), image, group, phase and stripe. -/
structure ChainSpec where
  rows : List Nat
  cols : List Nat
  img : Nat := 0
  grp : Nat := 0
  py : Nat := 0
  px : Nat := 0
  stripe : Nat := 0
  deriving DecidableEq, Repr

/-- Cuts a list into pieces of at most `k`. -/
def chunks (k : Nat) : Nat → List Nat → List (List Nat)
  | 0, _ => []
  | n + 1, l => if l.isEmpty then [] else l.take k :: chunks k n (l.drop k)

/-- Pieces of `k` of a list. -/
def cutList (k : Nat) (l : List Nat) : List (List Nat) := chunks k (l.length + 1) l

/-- Numbers `a` to `a + n - 1`. -/
def span (a n : Nat) : List Nat := (List.range n).map (fun i => a + i)

/-- The chains of a matrix product. -/
def matmulChains (w : Work) : List ChainSpec :=
  (cutList (gangCols w.gang) (List.range w.n)).flatMap (fun cs =>
    (cutList 256 (List.range w.m)).map (fun rs => { rows := rs, cols := cs }))

/-- Pixels of a stripe, or of one phase of it under CONV_T, in row-major order (R112, R116). -/
def stripePixels (w : Work) (rows : Nat × Nat) (py px : Nat) : List Nat :=
  (span (rows.1 * w.wo) ((rows.2 - rows.1) * w.wo)).filter (fun p =>
    w.op == 0 || ((p / w.wo + w.pt) % w.sh == py && (p % w.wo + w.pl) % w.sw == px))

/-- The phases of a convolution: one, or SH × SW under CONV_T. -/
def phasesOf (w : Work) : List (Nat × Nat) :=
  if w.op = 1 then (List.range w.sh).flatMap (fun a => (List.range w.sw).map (fun b => (a, b))) else [(0, 0)]

/-- The group in which a stripe's sequencer takes a chain: top band, bottom band, the rest (R123). -/
def bandRank (w : Work) (rows : Nat × Nat) (c : ChainSpec) : Nat :=
  let h := min w.haloRows (rows.2 - rows.1)
  if c.cols.any (fun p => decide (p / w.wo < rows.1 + h)) then 0
  else if c.cols.any (fun p => decide (rows.2 - h ≤ p / w.wo)) then 1 else 2

/-- The chains of one stripe, in the order of its sequencer. -/
def stripeChains (w : Work) (j : Nat) (rows : Nat × Nat) : List ChainSpec :=
  let og := w.cOut / w.groups
  let all : List ChainSpec := (List.range w.nimg).flatMap (fun i => (List.range w.groups).flatMap (fun g =>
    (phasesOf w).flatMap (fun ph => (cutList (gangCols w.gang) (stripePixels w rows ph.1 ph.2)).flatMap (fun cs =>
      (cutList 256 (span (g * og) og)).map (fun rs => { rows := rs, cols := cs, img := i, grp := g, py := ph.1, px := ph.2, stripe := j })))))
  [0, 1, 2].flatMap (fun k => all.filter (fun c => bandRank w rows c == k))

/-- The chains of an array kernel. -/
def chainsOf (x : Ctx) (w : Work) : List ChainSpec :=
  if w.op = 8 then matmulChains w
  else (stripeRows x w).zipIdx.flatMap (fun e => stripeChains w e.2 e.1)

/-! ### The reduction sequence (R105, R110, R111) -/

/-- A reduction position: tap, index within the tap (or k), and which half of a pair each operand presents. -/
structure Pos where
  tap : Nat
  k : Nat
  mh : Nat
  sh : Nat
  deriving DecidableEq, Repr

/-- Whether a tensor is a GRAD tensor in pair format now (R105). -/
def isPair (s : State) (c t : Nat) : Bool := gradFmt s c t == some 3

/-- The positions one reduction index takes (R105). -/
def expandPos (mp sp : Bool) (tap k : Nat) : List Pos :=
  (if mp then [0, 1] else [0]).flatMap (fun a => (if sp then [0, 1] else [0]).map (fun b => ⟨tap, k, a, b⟩))

/-- Cuts positions into pieces of at most `k`. -/
def posChunks (k : Nat) : Nat → List Pos → List (List Pos)
  | 0, _ => []
  | n + 1, l => if l.isEmpty then [] else l.take k :: posChunks k n (l.drop k)

/-- Pieces of `k` positions. -/
def posTiles (k : Nat) (l : List Pos) : List (List Pos) := posChunks k (l.length + 1) l

/-- The stationary tiles of a chain, each as its positions in order; what is left of a tile's rows is padded (R68, R111). -/
def tilesOf (s : State) (c : Nat) (w : Work) (ch : ChainSpec) : List (List Pos) :=
  let mp := isPair s c w.movTensor
  let sp := isPair s c w.staTensor
  let kg := gangRows w.gang
  if w.op = 8 then posTiles kg ((List.range w.k).flatMap (expandPos mp sp 0))
  else
    let cg := w.cg * (if mp then 2 else 1) * (if sp then 2 else 1)
    let tap (t : Nat) : List Pos := (List.range w.cg).flatMap (expandPos mp sp t)
    let tpt := max 1 (kg / cg)
    if tpt ≥ 2 then (cutList tpt (tapsOf w ch.py ch.px)).map (fun ts => ts.flatMap tap)
    else (tapsOf w ch.py ch.px).flatMap (fun t => posTiles kg (tap t))

/-- The moving and stationary operands as stored tensors. -/
def movTensorOf (w : Work) : Tensor := ⟨w.fmtMov, w.movTensor, w.movBase, w.movPitch, (stored w.turnMov w.movShape).2⟩
def staTensorOf (w : Work) : Tensor := ⟨w.fmtSta, w.staTensor, w.staBase, w.staPitch, (stored w.turnSta w.staShape).2⟩

/-- Row and column of the moving element of a position for C row `r`. -/
def movPlace (w : Work) (r : Nat) (p : Pos) : Nat × Nat :=
  stored w.turnMov (if w.op = 8 then (r, p.k) else (r, p.tap * w.cg + p.k))

/-- The input position of a tap for an output pixel, if it lies in the image (R110, R116). -/
def inputPixel (w : Work) (tap pixel : Nat) : Option (Nat × Nat) :=
  let ky : Int := ((tap / w.kw : Nat) : Int)
  let kx : Int := ((tap % w.kw : Nat) : Int)
  let y : Int := ((pixel / w.wo : Nat) : Int)
  let x : Int := ((pixel % w.wo : Nat) : Int)
  let iy := if w.op = 0 then y * w.sh - w.pt + ky * w.dh else (y + w.pt - ky) / w.sh
  let ix := if w.op = 0 then x * w.sw - w.pl + kx * w.dw else (x + w.pl - kx) / w.sw
  if 0 ≤ iy ∧ iy < w.imH ∧ 0 ≤ ix ∧ ix < w.imW then some (iy.toNat, ix.toNat) else none

/-- Row and column of the stationary element of a position for a column of the chain; `none` outside the image. -/
def staPlace (w : Work) (ch : ChainSpec) (n : Nat) (p : Pos) : Option (Nat × Nat) :=
  if w.op = 8 then some (stored w.turnSta (p.k, n))
  else match inputPixel w p.tap n with
    | some (iy, ix) => some (stored w.turnSta ((ch.img * w.cIn + ch.grp * w.cg + p.k) * w.imH + iy, ix))
    | none => none

/-- Reads one half of an operand element. -/
def halfOf (l : List Operand) (h : Nat) : Operand := (l[h]?).getD ⟨.a, 0, 0, false⟩

/-- The stationary operand of a position; `none` is the padding's +0. -/
def staOperand (s : State) (c : Nat) (w : Work) (ch : ChainSpec) (n : Nat) (p : Pos) : Except AccErr (Option Operand) :=
  match staPlace w ch n p with
  | none => .ok none
  | some (r, k) =>
    match readOperand s c (staTensorOf w) r k with
    | .ok l => .ok (some (halfOf l p.sh))
    | .error e => .error e

/-- The moving operand of a position. -/
def movOperand (s : State) (c : Nat) (w : Work) (r : Nat) (p : Pos) : Except AccErr Operand :=
  match readOperand s c (movTensorOf w) (movPlace w r p).1 (movPlace w r p).2 with
  | .ok l => .ok (halfOf l p.mh)
  | .error e => .error e

/-- A pair of operands as it is multiplied: an 8-bit one that meets KL16 is widened (R105). -/
def meetOperands (level : Nat) (m b : Operand) : Operand × Operand :=
  if m.kl = .w ∨ b.kl = .w then (m.widen level, b.widen level) else (m, b)

/-! ### X (R39, R113) -/

/-- The least element index of a block (R88). -/
def blockFirst (r : ScaleRec) (b : Nat) : Nat :=
  if r.linear then 1024 * b else 32 * (b / ((r.cols + 31) / 32)) * r.cols + 32 * (b % ((r.cols + 31) / 32))

/-- Blocks of a record that an operand's elements 0 to `e - 1` touch; all of them under a convolution (R113). -/
def touchedBlocks (r : ScaleRec) (whole : Bool) (e : Nat) : List Nat := (List.range r.blocks).filter (fun b => whole || decide (blockFirst r b < e))

/-- The largest of a list of scales. -/
def maxScale : List Int → Int
  | [] => 0
  | [a] => a
  | a :: r => max a (maxScale r)

/-- The largest HELD_SCALE among the blocks an operand reads (R39). -/
def operandScale (s : State) (c t : Nat) (whole : Bool) (e : Nat) : Except AccErr Int :=
  match scaleOf s c t with
  | none => .ok 0
  | some r => match mapAcc (heldScale s c r) (touchedBlocks r whole e) with
    | .ok l => .ok (maxScale l)
    | .error x => .error x

/-- The Kyonex format an operand takes at issue (R105). -/
def issueKl (s : State) (c t fmt : Nat) : Kl :=
  match gradFmt s c t with
  | some g => klOfCode g
  | none => klOfCode fmt

/-- X of a descriptor (R39). -/
def fixX (s : State) (c : Nat) (w : Work) : Except AccErr Int :=
  match operandScale s c w.movTensor w.isConv (w.movShape.1 * w.movShape.2), operandScale s c w.staTensor w.isConv (w.staShape.1 * w.staShape.2) with
  | .ok a, .ok b =>
    let ka := issueKl s c w.movTensor w.fmtMov
    let kb := issueKl s c w.staTensor w.fmtSta
    .ok (a + b + (if ka = .w ∨ kb = .w then 128 else qtop ka kb) - 33)
  | .error e, _ => .error e
  | _, .error e => .error e

/-! ### Starting a kernel -/

/-- A fault of a work item at a unit: it stops at a resume point with its record (R206, R229). -/
def faultAt (c id unit resume : Nat) (e : AccErr) (acc : Access) (s : State) : State :=
  let t := countPoison e s
  match (ctxOf t c).bind (fun x => x.work id) with
  | some w => faultWork c w (accDetail e unit acc) resume t
  | none => t

/-- A physical cluster of a kernel: the module spreads a kernel's work as it likes, and no rule names the cluster (log 1). -/
def someCluster (w : Work) (s : State) : Nat × State :=
  match freshValue s with
  | (f, t) => (uCluster (carrier s (w.clFirst + f.toNat % max 1 w.clCount)), t)

/-- Runs part of a kernel on one of its clusters, through that cluster's translation cache (R197). -/
def onCluster (w : Work) (f : State → State) (s : State) : State :=
  match someCluster w s with
  | (u, t) => asUnit u f t

/-- A fault of a kernel on the cluster at work. -/
def faultKernel (c : Nat) (w : Work) (resume : Nat) (e : AccErr) (acc : Access) (s : State) : State :=
  match s.mem.walker with
  | some u => faultAt c w.id u resume e acc s
  | none => match someCluster w s with
    | (u, t) => faultAt c w.id u resume e acc t

/-- Writes the header of a PUSH's frame (R136). -/
def writeFrame (c : Nat) (x : Ctx) (w : Work) (s : State) : Except AccErr State :=
  if w.astk = 1 then
    match x.astk.frameOf w with
    | some f => vaWrite c f.va (frameHeader f) s
    | none => .ok s
  else .ok s

/-- Splits an array kernel into its chains and fixes X (R39, R77). -/
def startArrays (c : Nat) (x : Ctx) (w : Work) (s : State) : State :=
  match writeFrame c x w s with
  | .error e => faultKernel c w 0 e .write s
  | .ok t =>
    match fixX t c w with
    | .error e => faultKernel c w 0 e .read t
    | .ok X => workMod c w.id (fun y => { y with started := true, parts := (chainsOf x w).length, xexp := X }) t

/-- The row of a kernel: an issued descriptor of its OP that has not started. -/
def kernelRow (op c id : Nat) (run : Ctx → Work → State → State) (s : State) : Out :=
  match ctxOf s c with
  | none => .refused (.notEnabled "no such context")
  | some x =>
    match x.work id with
    | none => .refused (.notEnabled "no such descriptor")
    | some w =>
      gate (w.opcode == 0x0300 && w.op == op && w.st == .issued && !w.started && mayRun s x && w.clusters.any (clusterServes s) &&
          (!w.deferWg || w.promoted || w.clusters.any (deferredOnly s))) "the kernel cannot start"
        (withRecords c id (onCluster w (run x w)) s)

/-- MATMUL (R77). -/
def execMatmul (c id : Nat) (s : State) : Out := kernelRow 0x08 c id (startArrays c) s

/-- CONV (R110). -/
def execConv (c id : Nat) (s : State) : Out := kernelRow 0x00 c id (startArrays c) s

/-- CONV_T (R116). -/
def execConvT (c id : Nat) (s : State) : Out := kernelRow 0x01 c id (startArrays c) s

/-! ### Gangs -/

/-- What stands at array `g` of a logical cluster: the chain and the draining set of which it is the lowest array. -/
def gangOf (s : State) (l g : Nat) : Gang := (tget s.arrays.gangs (4 * l + g)).getD {}

/-- Sets what stands at an array; an idle one is not listed. -/
def setGang (l g : Nat) (x : Gang) (s : State) : State :=
  { s with arrays := { s.arrays with
      gangs := if x = {} then tdel s.arrays.gangs (4 * l + g) else tset s.arrays.gangs (4 * l + g) x } }

/-- Changes the counters of a logical cluster (R86). -/
def countArray (l : Nat) (f : ArrayCounts → ArrayCounts) (s : State) : State :=
  { s with arrays := { s.arrays with counts := tset s.arrays.counts l (f ((tget s.arrays.counts l).getD {})) } }

/-- Whether a gang carries a chain of a work item. -/
def Gang.carries (x : Gang) (c id chain : Nat) : Bool :=
  let is := fun (r : Option ChainRun) => match r with
    | some k => k.ctx == c && k.id == id && k.chain == chain
    | none => false
  is x.run || is x.drain

/-- The arrays that gang `g` of a gang mode joins (R64). -/
def gangArrays (mode g : Nat) : List Nat :=
  match mode with
  | 0 => [g]
  | 1 => [2 * g, 2 * g + 1]
  | 2 => [g, g + 2]
  | _ => [0, 1, 2, 3]

/-- The arrays whose accumulator files a gang uses: the lower ones in DEEP and FULL (R64). -/
def gangFiles (mode g : Nat) : List Nat := (gangArrays mode g).filter (fun a => decide (mode < 2) || decide (2 ≤ a))

/-- The lowest array of a gang, and the lowest whose accumulator file it uses: where its chain and its draining set stand. -/
def gangAt (mode g : Nat) : Nat := ((gangArrays mode g).head?).getD 0
def fileAt (mode g : Nat) : Nat := ((gangFiles mode g).head?).getD 0

/-- Whether the sets that `pick` finds on the gangs of a cluster leave the parts `part` of a gang free, over every identity its carrier has. -/
def gangFree (s : State) (pick : Gang → Option ChainRun) (part : Nat → Nat → List Nat) (l mode g : Nat) : Bool :=
  (identities s (carrier s l)).all (fun k => (List.range 4).all (fun h => match pick (gangOf s k h) with
    | none => true
    | some r => (part r.mode r.gang).all (fun a => decide (a ∉ part mode g))))

/-- No chain passes on an array of the gang (R64). Kernels of different gang modes may run at once on arrays of a cluster that they do not
share: R64 does not say, the model's choice (log 164). -/
def arraysFree (s : State) (l mode g : Nat) : Bool := gangFree s Gang.run gangArrays l mode g

/-- No set drains from an accumulator file of the gang (R79). -/
def filesFree (s : State) (l mode g : Nat) : Bool := gangFree s Gang.drain gangFiles l mode g

/-- A chain is on some gang. -/
def chainBusy (s : State) (c id chain : Nat) : Bool := s.arrays.gangs.any (fun e => Gang.carries e.2 c id chain)

/-- Drops the chain that a gang passes or drains. -/
def dropRun (l g : Nat) (s : State) : State := setGang l g { gangOf s l g with run := none } s
def dropDrain (l g : Nat) (s : State) : State := setGang l g { gangOf s l g with drain := none } s

/-- The cluster that must carry a chain: its stripe's, or any of the kernel's (R121). -/
def clusterOk (x : Ctx) (w : Work) (ch : ChainSpec) (l : Nat) : Bool :=
  match outStripes x w with
  | some t => t.clusters[ch.stripe]? == some l
  | none => decide (l ∈ w.clusters)

/-- A stripe's earlier chains have all been taken (R123). -/
def inOrder (s : State) (c : Nat) (w : Work) (chs : List ChainSpec) (chain stripe : Nat) : Bool :=
  w.stripeSet == 0xFF || w.op == 8 || (List.range chain).all (fun i =>
    (chs[i]?).any (fun k => k.stripe != stripe) || decide (i ∈ w.partsDone) || chainBusy s c w.id i)

/-- Whether a chain may begin on a gang (R64, R77, R79, R124); a deferred descriptor's only where nothing else is to issue (R140), an
abandoned one's only on the logical cluster it was on (R30, R83). -/
def chainMayStart (s : State) (c : Nat) (x : Ctx) (w : Work) (chain l g : Nat) : Bool :=
  let chs := chainsOf x w
  w.onArrays && w.st == .issued && w.started && mayRun s x && decide (chain ∉ w.partsDone) && !chainBusy s c w.id chain &&
    decide (g < gangCount w.gang) && arraysFree s l w.gang g && clusterServes s l && (!w.deferWg || w.promoted || deferredOnly s l) &&
  (match chs[chain]? with
   | some ch => clusterOk x w ch l && (tget w.abandoned chain).all (fun k => k == l) && inOrder s c w chs chain ch.stripe && stripeReady w ch.stripe
   | none => false)

/-- Whether a context has a chain that may begin on a gang whose lowest array is `a`. -/
def chainReady (s : State) (c : Nat) (x : Ctx) (l a : Nat) : Bool :=
  x.works.any (fun w => (List.range 4).any (fun g => gangAt w.gang g == a && (List.range w.parts).any (fun k => chainMayStart s c x w k l g)))

/-- The next of some numbers, in ascending order after the one served last. -/
def nextAfter (last : Option Nat) (l : List Nat) : Option Nat :=
  match last with
  | none => l.head?
  | some c => (l.filter (fun d => decide (c < d)) ++ l).head?

/-- The contexts with a chain for a gang. -/
def readyContexts (s : State) (l a : Nat) : List Nat := (s.ctxs.filter (fun e => chainReady s e.1 e.2 l a)).map Prod.fst

/-- The context whose chain a gang takes next: those that have one, in ascending ID after the one it served last, one chain each (R222). -/
def nextTurn (s : State) (l a : Nat) : Option Nat := nextAfter (tget s.arrays.turns (4 * l + a)) (readyContexts s l a)

/-- The identity whose chain a gang of a physical cluster takes next: one chain of each that has one (R304). -/
def nextIdentity (s : State) (p a : Nat) : Option Nat :=
  nextAfter (tget s.arrays.idents (4 * p + a)) ((identities s p).filter (fun l => !(readyContexts s l a).isEmpty))

/-- A chain begins: its gang, its turns, and for a chain that a fenced cluster abandoned the epoch of its reissue (R30, R78). -/
def startChain (c : Nat) (x : Ctx) (w : Work) (chain l g : Nat) (s : State) : State :=
  let run : ChainRun := {
    ctx := c, id := w.id, chain := chain, mode := w.gang, gang := g
    accs := match (chainsOf x w)[chain]? with
      | some ch => List.replicate (ch.rows.length * ch.cols.length) {}
      | none => [] }
  let a := gangAt w.gang g
  let t := countArray l (fun n => { n with ran := true }) (setGang l a { gangOf s l a with run := some run } s)
  let t1 : State := { t with arrays := { t.arrays with
    turns := tset t.arrays.turns (4 * l + a) c, idents := tset t.arrays.idents (4 * carrier s l + a) l } }
  if (tget w.abandoned chain).isSome then
    workMod c w.id (fun y => { y with epoch := s.chart.epoch, abandoned := tdel y.abandoned chain }) t1
  else t1

/-- CHAIN_START (R78): cleared accumulators, X of the descriptor; `g` numbers the gangs of the kernel's mode. -/
def execChainStart (c id chain l g : Nat) (s : State) : Out :=
  match ctxOf s c with
  | none => .refused (.notEnabled "no such context")
  | some x =>
    match x.work id with
    | none => .refused (.notEnabled "no such descriptor")
    | some w =>
      gate (chainMayStart s c x w chain l g && nextTurn s l (gangAt w.gang g) == some c && nextIdentity s (carrier s l) (gangAt w.gang g) == some l)
        "the chain cannot start" (startChain c x w chain l g s)

/-- A running chain with its context, descriptor and shape. -/
structure Running where
  x : Ctx
  w : Work
  ch : ChainSpec
  tiles : List (List Pos)
  deriving DecidableEq, Repr

/-- Looks up what a chain run belongs to. -/
def runningOf (s : State) (r : ChainRun) : Option Running :=
  (ctxOf s r.ctx).bind (fun x => (x.work r.id).bind (fun w => ((chainsOf x w)[r.chain]?).map (fun ch => ⟨x, w, ch, tilesOf s r.ctx w ch⟩)))

/-- Runs an event of the chain a gang passes. -/
def withRun (l g : Nat) (s : State) (ok : ChainRun → Running → Bool) (f : ChainRun → Running → State → State) : Out :=
  match (gangOf s l g).run with
  | none => .refused (.notEnabled "no chain runs on this gang")
  | some r =>
    match runningOf s r with
    | none => .refused (.notEnabled "no such descriptor")
    | some k => gate (ok r k) "the chain is not there yet" (withRecords r.ctx r.id (asUnit (uCluster (carrier s l)) (f r k)) s)

/-- A fault of a chain: it is discarded, and work resumes at it (R229, R235). -/
def faultChain (l : Nat) (r : ChainRun) (e : AccErr) (acc : Access) (s : State) : State :=
  faultAt r.ctx r.id (uCluster (carrier s l)) r.chain e acc s

/-- The codes of a stationary tile, one column list after another for each position; the padding and positions outside the image hold +0. -/
def tileCodes (s : State) (r : ChainRun) (k : Running) (ps : List Pos) : Except AccErr (List Nat) :=
  match mapAcc (fun p => mapAcc (fun n => staOperand s r.ctx k.w k.ch n p) k.ch.cols) ps with
  | .ok ll => .ok (ll.flatten.map (fun o => (o.map Operand.code).getD 0))
  | .error e => .error e

/-- Loads the next stationary tile (R69). -/
def loadTile (l g : Nat) (r : ChainRun) (k : Running) (s : State) : State :=
  match tileCodes s r k ((k.tiles[r.nextLoad]?).getD []) with
  | .error e => faultChain l r e (if k.w.turnSta then .turned else .read) (dropRun l g s)
  | .ok codes => setGang l g { gangOf s l g with run := some { r with shadow := some (r.nextLoad, codes), nextLoad := r.nextLoad + 1 } } s

/-- The work of a context issues: it may run, and no retune stops issue (R341). -/
def issues (s : State) (x : Ctx) : Bool := mayRun s x && !s.grp.retune

/-- SHADOW_LOAD_COMPLETE (R69). -/
def execShadowLoadComplete (l g : Nat) (s : State) : Out :=
  withRun l g s (fun r k => r.shadow.isNone && decide (r.nextLoad < k.tiles.length) && issues s k.x) (loadTile l g)

/-- Adds a tile's products to one accumulator in ascending position (R63); `codes` are the live registers' column. -/
def passElem (s : State) (r : ChainRun) (k : Running) (row col : Nat) (a : Acc) : List (Pos × Nat) → Except AccErr Acc
  | [] => .ok a
  | (p, code) :: rest =>
    match staOperand s r.ctx k.w k.ch col p with
    | .error e => .error e
    | .ok none => passElem s r k row col a rest
    | .ok (some b) =>
      match movOperand s r.ctx k.w row p with
      | .error e => .error e
      | .ok m =>
        match meetOperands s.dev.level m { b with code := code } with
        | (m', b') => passElem s r k row col (Acc.mac s.dev.level k.w.xexp a m' b') rest

/-- The code a cell's live register holds for position index `i` and column index `j`. -/
def liveCode (live : List Nat) (cols i j : Nat) : Nat := (live[i * cols + j]?).getD 0

/-- Passes the moving rows of a chain over a tile: every accumulator after it. -/
def passTile (s : State) (r : ChainRun) (k : Running) (ps : List Pos) (live : List Nat) : Except AccErr (List Acc) :=
  let nc := k.ch.cols.length
  mapAcc (fun e => passElem s r k e.1.1 e.1.2.1 ((r.accs[e.2]?).getD {}) (ps.zipIdx.map (fun q => (q.1, liveCode live nc q.2 e.1.2.2))))
    ((k.ch.rows.flatMap (fun row => k.ch.cols.zipIdx.map (fun cj => (row, cj.1, cj.2)))).zipIdx)

/-- A SWAP token passes: the shadow registers become live, and the chain's vectors pass the new tile (R70, R71, R86). A part of a frame that a
restarted chain reads again from HBM marks a miss again: R84 names the counters of rework and R139's is none of them (log 168). -/
def swapTile (l g : Nat) (r : ChainRun) (k : Running) (s : State) : State :=
  match r.shadow with
  | none => s
  | some (tile, codes) =>
    match passTile s r k ((k.tiles[tile]?).getD []) codes with
    | .error e => faultChain l r e (if k.w.turnMov then .turned else .read) (dropRun l g s)
    | .ok accs =>
      let t := setGang l g { gangOf s l g with run := some { r with shadow := none, live := codes, passed := r.passed + 1, accs := accs } } s
      let again := decide (r.passed < (tget k.w.redo r.chain).getD 0)
      let t1 := noteMiss r.ctx l k.x k.w (countArray l (fun n => if again then { n with restart := sat32 n.restart k.ch.rows.length }
        else { n with issue := sat32 n.issue k.ch.rows.length }) t)
      if k.w.deferWg ∧ ¬ k.w.promoted ∧ ¬ again then ctxMod r.ctx (fun y => { y with dwgIdleLive := sat32 y.dwgIdleLive k.ch.rows.length }) t1 else t1

/-- SWAP_TOKEN (R71). -/
def execSwapToken (l g : Nat) (s : State) : Out :=
  withRun l g s (fun r k => r.shadow.isSome && issues s k.x) (swapTile l g)

/-- A chain's set goes to the drain of the files it lies in. -/
def toDrain (l g : Nat) (r : ChainRun) (s : State) : State :=
  let t := dropRun l g s
  setGang l (fileAt r.mode r.gang) { gangOf t l (fileAt r.mode r.gang) with drain := some r } t

/-- CHAIN_COMPLETE (R77, R79): the set goes to the drain once the set before it has drained. -/
def execChainComplete (l g : Nat) (s : State) : Out :=
  withRun l g s (fun r k => r.passed == k.tiles.length && filesFree s l r.mode r.gang) (fun r _ t => toDrain l g r t)

/-- How an array kernel writes (R67). -/
def outSpecOf (w : Work) : OutSpec :=
  ⟨w.outTensor, w.fmtOut, w.pair, roundOfCode w.round, w.outVa, w.outPitch, if w.op = 8 then w.n else w.wo⟩

/-- Element index of C (or of the output planes) at a row and column of a chain (R55, R107). -/
def outIndex (w : Work) (ch : ChainSpec) (row col : Nat) : Nat :=
  if w.op = 8 then row * w.n + col else (ch.img * w.cOut + row) * (w.ho * w.wo) + col

/-- The values a chain writes, in order. -/
def drainList (r : ChainRun) (k : Running) : List (Nat × OutVal) :=
  (k.ch.rows.flatMap (fun row => k.ch.cols.map (fun col => outIndex k.w k.ch row col))).zipIdx.map
    (fun e => (e.1, Acc.resolve k.w.xexp ((r.accs[e.2]?).getD {})))

/-- The end of a part of a kernel: it is done and its counts merge (R98). -/
def partDone (c : Nat) (w : Work) (part : Nat) (h : Held) (s : State) : State :=
  mergeHeld c w.id w.hostTag w.step h (workMod c w.id (fun y => { y with partsDone := ninsert y.partsDone part }) s)

/-- Drains a set: rounds and writes every element, then merges its counts (R79, R86, R98). -/
def drainSet (l g : Nat) (r : ChainRun) (k : Running) (s : State) : State :=
  match writeElems r.ctx (outSpecOf k.w) k.w.step k.w.origin (drainList r k) (s, {}, 0) with
  | .error e => faultChain l r e .write (dropDrain l g s)
  | .ok (t, counts, flags) =>
    countArray l (fun n => { n with chains := sat32 n.chains 1 })
      (partDone r.ctx k.w r.chain ⟨r.chain, k.w.outTensor, counts, BitVec.ofNat 32 flags, none⟩
        (let u := dropDrain l g t
         if k.w.astk = 1 then keepPart r.ctx l (k.w.outVa - 64) (k.ch.rows.length * k.ch.cols.length * k.w.outBytes) u else u))

/-- DRAIN_COMPLETE (R79); a module that has failed issues nothing more (R353). -/
def execDrainComplete (l g : Nat) (s : State) : Out :=
  match (gangOf s l g).drain with
  | none => .refused (.notEnabled "no set drains on this gang")
  | some r =>
    match runningOf s r with
    | none => .refused (.notEnabled "no such descriptor")
    | some k => gate (s.dev.st != .off && s.dev.st != .failed) "issue has stopped"
        (withRecords r.ctx r.id (asUnit (uCluster (carrier s l)) (drainSet l g r k)) s)

/-! ### Interruption (R82 to R84) -/

/-- Notes how many tiles of a chain are to be passed again (R84). -/
def noteRedo (r : ChainRun) (s : State) : State :=
  workMod r.ctx r.id (fun w => { w with redo := tset w.redo r.chain (max r.passed ((tget w.redo r.chain).getD 0)) }) s

/-- Discards the unfinished chain of a gang: it starts again from its first tile (R82, R84). -/
def discardRun (l g : Nat) (s : State) : State :=
  match (gangOf s l g).run with
  | none => s
  | some r => noteRedo r (dropRun l g s)

/-- Discards a draining set as well: its replay writes the same rows again (R83). -/
def discardDrain (l g : Nat) (s : State) : State :=
  match (gangOf s l g).drain with
  | none => s
  | some r => noteRedo r (dropDrain l g s)

/-- Notes that a chain is abandoned on a logical cluster: the module reissues it there, under the epoch then current (R30). -/
def noteAbandoned (l : Nat) (r : Option ChainRun) (s : State) : State :=
  match r with
  | none => s
  | some k => workMod k.ctx k.id (fun w => { w with abandoned := tset w.abandoned k.chain l }) s

/-- Abandons what a gang passes and drains (R30, R83). -/
def abandonGang (l g : Nat) (s : State) : State :=
  noteAbandoned l (gangOf s l g).run (noteAbandoned l (gangOf s l g).drain (discardDrain l g (discardRun l g s)))

/-- Discards every chain on a logical cluster (R30, R83). -/
def discardCluster (l : Nat) (s : State) : State := (List.range 4).foldl (fun t g => abandonGang l g t) s

/-- A vector granule at work on a unit is abandoned there: it waits for its reissue from its resume point, which writes the same bits and
counts the same (R30; log 165). -/
def abandonHeld (u : Nat) (h : Held) : Held := if h.unit = some u then { h with unit := none } else h

/-- Abandons the vector granules of a unit in every context (R30). -/
def abandonGranules (u : Nat) (s : State) : State :=
  { s with ctxs := s.ctxs.map (fun e => (e.1, { e.2 with works := e.2.works.map (fun w => { w with held := w.held.map (abandonHeld u) }) })) }

/-- What a physical cluster has in hand is abandoned: the chains of its identities and its granules (R30, R83). -/
def abandonCluster (p : Nat) (s : State) : State :=
  abandonGranules (uCluster p) ((identities s p).foldl (fun t l => discardCluster l t) s)

/-- Gangs whose chain satisfies a test. -/
def gangsWhere (s : State) (p : ChainRun → Bool) : List Nat := (s.arrays.gangs.filter (fun e => e.2.run.any p)).map Prod.fst

/-- A pre-empted context's gangs stop: unfinished chains are discarded and a drain already begun completes (R82). -/
def stopGangs (c : Nat) (s : State) : State :=
  let drains := (s.arrays.gangs.filter (fun e => e.2.drain.any (fun r => r.ctx == c))).map Prod.fst
  let t := drains.foldl (fun u k => match (gangOf u (k / 4) (k % 4)).drain with
    | none => u
    | some r => match runningOf u r with
      | none => dropDrain (k / 4) (k % 4) u
      | some n => withRecords r.ctx r.id (drainSet (k / 4) (k % 4) r n) u) s
  (gangsWhere t (fun r => r.ctx == c)).foldl (fun u k => discardRun (k / 4) (k % 4) u) t

/-- A gang without the chains of a work item. -/
def Gang.without (c id : Nat) (x : Gang) : Gang :=
  let other := fun (r : ChainRun) => !(r.ctx == c && r.id == id)
  ⟨x.run.filter other, x.drain.filter other⟩

/-- Drops every chain of a work item without counting anything. -/
def dropChains (c id : Nat) (s : State) : State :=
  let l : Table Gang := s.arrays.gangs.map (fun e => (e.1, Gang.without c id e.2))
  let busy : Table Gang := l.filter (fun e => e.2 != {})
  { s with arrays := { s.arrays with gangs := busy } }

/-! ### Halo stamps (R123) -/

/-- Rows that a stamp covers. -/
def coveredRows (w : Work) (t : StripeSet) (j : Nat) (done : Bool) : List Nat :=
  let lo := t.lo j
  let hi := t.hi j
  let h := min w.haloRows (hi - lo)
  if done then span lo (hi - lo) else span lo h ++ span (hi - h) h

/-- Every row of a list is written in every plane: all chains that hold one of them are done, or the vector kernel has run. -/
def rowsWritten (x : Ctx) (w : Work) (j : Nat) (rows : List Nat) : Bool :=
  if w.onArrays then
    ((chainsOf x w).zipIdx).all (fun e => e.1.stripe != j || decide (e.2 ∈ w.partsDone) ||
      !e.1.cols.any (fun p => decide (p / w.wo ∈ rows)))
  else decide (j ∈ w.ran)

/-- HALO_STAMP (R123, R217); a stamp from a fenced cluster is discarded (R29, R125). -/
def execHaloStamp (c id stripe : Nat) (done : Bool) (s : State) : Out :=
  match ctxOf s c with
  | none => .refused (.notEnabled "no such context")
  | some x =>
    match x.work id with
    | none => .refused (.notEnabled "no such descriptor")
    | some w =>
      match outStripes x w with
      | none => .refused (.notEnabled "no stripe set")
      | some t =>
        let cell := w.haloBase + 2 * stripe + (if done then 1 else 0)
        gate (decide (stripe < t.clusters.length) && w.started && decide (cell ∉ w.stamps) && rowsWritten x w stripe (coveredRows w t stripe done) &&
            (t.clusters[stripe]?).all (fun l => writesAcked s (uCluster (carrier s l))))
          "a covered row is not written and acknowledged"
          (if (t.clusters[stripe]?).any (fun l => decide (uCluster (carrier s l) ∈ s.chart.fence)) then s
           else workMod c id (fun y => { y with stamps := cell :: y.stamps }) (cellWrite cell (stampValue w.step w.haloPass) s))

end Sys2Proof.Machine
end

