-- ==== Sys2Proof/Machine/Fabric.lean ====
section
/-! DEFINITION. Fabric ports (R270 to R280, R299): training, lane failure, ports going down, native flits, RoCEv2, PORT_STATUS_GET. -/
namespace Sys2Proof.Machine

/-! ### Telemetry sets 0x10 and 0x11 -/

/-- Draws free bytes, eight at a time (log 1). -/
def freeBytes : Nat → State → List Byte × State
  | 0, s => ([], s)
  | n + 1, s =>
    match freshValue s with
    | (v, t) => match freeBytes n t with
      | (l, u) => (leBytes 8 v.toNat ++ l, u)

/-- A port of this module (R270). -/
def portOf (s : State) (k : Nat) : Port := s.fab.port k

/-- Changes a port. -/
def portMod (k : Nat) (f : Port → Port) (s : State) : State := { s with fab := { s.fab with ports := lmod s.fab.ports k f } }

/-- LANE_MAP (R299): bits 4l + 2 : 4l hold the physical lane of logical lane l. -/
def laneMapCode (p : Port) : Nat := ((List.range 8).map (fun l => (p.laneMap[l]?).getD l * 2 ^ (4 * l))).sum

/-- A port's part of set 0x10 (R299). -/
def portSet (p : Port) : List Byte :=
  leBytes 1 p.mode ++ leBytes 1 p.outcome ++ leBytes 1 p.width ++ leBytes 1 p.polarity ++ leBytes 4 (laneMapCode p) ++
    leBytes 8 p.txBytes ++ leBytes 8 p.rxBytes ++ leBytes 4 p.fecCorrected ++ leBytes 4 p.fecUncorrected ++ leBytes 4 p.replays ++
    leBytes 4 p.retrains ++ leBytes 4 p.protoRefused ++ leBytes 4 p.cnpRx ++ zeros 16

/-- A lane's part of set 0x11 (R299): its charted state; what its receiver adapted is free (log 42), and so are the counts that its
hardware keeps, given here as SYMBOLS_CORRECTED and LOCK_LOSSES in 8 bytes. -/
def laneSet (s : State) (k l : Nat) (free counts : List Byte) : List Byte :=
  leBytes 1 (UnitStateCode (unitState s (uLane k l))) ++ leBytes 1 (fieldAt free 0 1 % 32) ++ ((free.drop 1).take 16) ++ counts.take 8 ++ zeros 6

/-- The 48 lanes, lane 0 of P0 first. -/
def laneList : List (Nat × Nat) := (List.range 6).flatMap (fun k => (List.range 8).map (fun l => (k, l)))

/-- Set 0x11 (R299), with each lane's counts: live ones, or those latched at the last boundary (0 before the first). -/
def laneSets (live : Bool) (s : State) : List Byte × State :=
  laneList.foldl (fun a kl => match freeBytes 4 a.2 with
    | (f, t) => (a.1 ++ laneSet s kl.1 kl.2 f (if live then f.drop 24 else (s.fab.laneLatched[8 * kl.1 + kl.2]?).getD (zeros 8)), t)) ([], s)

/-- The counts of the 48 lanes as a boundary latches them (R299, log 42). -/
def laneCounts (s : State) : List (List Byte) × State :=
  laneList.foldl (fun a _ => match freeBytes 1 a.2 with
    | (f, t) => (a.1 ++ [f], t)) ([], s)

/-- A port as it is latched (R299): the bytes and FEC counts its hardware keeps are free (log 42). -/
def measuredPort (p : Port) (f : List Byte) : Port :=
  { p with txBytes := fieldAt f 0 8, rxBytes := fieldAt f 8 8, fecCorrected := fieldAt f 16 4, fecUncorrected := fieldAt f 20 4 }

/-- The ports with their measured counts. -/
def measuredPorts (s : State) : List Port × State :=
  s.fab.ports.foldl (fun a p => match freeBytes 3 a.2 with
    | (f, t) => (a.1 ++ [measuredPort p f], t)) ([], s)

/-- Latches the fabric's counts (R158, first action; R299). -/
def latchPorts (s : State) : State :=
  match measuredPorts s with
  | (ps, v) => match laneCounts v with
    | (lanes, t) => { t with fab := { t.fab with
      portsLatched := ps, laneLatched := lanes, laneFailsLatched := t.fab.laneFails, laneFails := 0
      ports := t.fab.ports.map (fun p => { p with replays := 0, retrains := 0, protoRefused := 0, cnpRx := 0 }) } }

def chkPortStatus (p : Packet) : Checks := { lenOk := p.paramLen == 0, charge := some 1920 }

/-- PORT_STATUS_GET's effect (R299): sets 0x10 and 0x11 with live values. -/
def bodyPortStatus (p : Packet) (idx : Nat) (s : State) : State :=
  match measuredPorts s with
  | (ps, t) => match laneSets true t with
    | (l, u) => finishSlot p 0x0500 idx 0 (ps.flatMap portSet ++ l) u

def acceptPortStatus (p : Packet) (s : State) : State := acceptPacket 0x0500 (chkPortStatus p) (bodyPortStatus p) p s

/-- PORT_STATUS_GET (R299). -/
def execPortStatusGet (p : Packet) (s : State) : Out := packetOut 0x0500 acceptPortStatus p s

/-! ### Training -/

/-- The unit of a logical lane of a port (R274, R19). -/
def laneUnit (s : State) (k l : Nat) : Nat := uLane k (((portOf s k).laneMap[l]?).getD l)

/-- Orders state changes of units in one chart change, or does nothing for an empty list. -/
def decideUnits (l : List (Nat × UnitState)) (s : State) : State := if l.isEmpty then s else decideChange { units := l } s

/-- The lanes of a port in a state. -/
def lanesIn (s : State) (k : Nat) (st : UnitState) : List Nat := (List.range 8).filter (fun l => unitState s (uLane k l) == st)

/-- Reports a port's state to the manager, which computes the route tables (R277, R280). -/
def reportPort (k : Nat) (s : State) : State :=
  if inGroup s && !s.grp.manager then sendMsg 1 s.grp.managerRank "PORT_REPORT" [k, if (portOf s k).up then 1 else 0] s else s

/-- The fabric dies run and their transmitters may leave electrical idle (R353, R355, R362). -/
def fabricRuns (s : State) : Bool := s.dev.st ∈ [DevState.boot, .ready, .run, .fixing, .standby]

/-- PORT_TRAINING (R273, R276): a port that is not up trains; the QUARANTINED lanes of a native port go to TESTING. RETRAINS counts
trainings after the boot's (log 43). -/
def execPortTraining (k : Nat) (s : State) : Out :=
  let p := portOf s k
  gate (decide (k < 6) && fabricRuns s && p.mode != 2 && !p.up && !p.training && unitState s (uPort k) != .failed) "the port does not train"
    (let t := portMod k (fun x => { x with training := true, retrains := sat32 x.retrains (if s.dev.st = .boot then 0 else 1) }) s
     if p.mode = 0 then decideUnits ((lanesIn s k .quarantined).map (fun l => (uLane k l, .testing))) t else t)

/-- Whether a lane carries traffic after a training: found good, and HEALTHY or in test. -/
def laneUsable (s : State) (k : Nat) (e : Nat × LaneFound) : Bool :=
  e.2.good && (unitState s (uLane k e.1) == .healthy || unitState s (uLane k e.1) == .testing)

/-- Numbers a list from 0. -/
def numbered {α : Type} (l : List α) : List (Nat × α) := (List.range l.length).zip l

/-- The outcome of a training (R274) from the peer found, the usable lanes and whether a correction was made. -/
def trainOutcome (mode n : Nat) (corrected : Bool) (peer : PeerFound) : Nat :=
  match peer with
  | .none => 3
  | .otherMode => 5
  | .self => 6
  | .foreign => if n < (if mode = 0 then 4 else 8) then 4 else 7
  | .samegroup => if n < (if mode = 0 then 4 else 8) then 4 else if n < 8 then 2 else if corrected then 1 else 0

/-- Whether a port is up after an outcome (R274). -/
def outcomeUp (o : Nat) : Bool := o == 0 || o == 1 || o == 2 || o == 7

/-- A port after a training (R274): on the fresh link the flits not acknowledged are sent first. -/
def trainedPort (good : List (Nat × LaneFound)) (peer : PeerFound) (x : Port) : Port :=
  let map := (List.range 8).map (fun l => ((good.find? (fun e => e.2.logical == l)).map Prod.fst).getD ((x.laneMap[l]?).getD l))
  let pol := (good.map (fun e => if e.2.inverted then 2 ^ e.2.logical else 0)).sum
  let corrected := pol != 0 || good.any (fun e => e.1 != e.2.logical)
  let o := trainOutcome x.mode good.length corrected peer
  if outcomeUp o then
    { x with outcome := o, up := true, training := false, width := good.length, polarity := pol, laneMap := map
             active := (List.range 8).filter (fun l => good.any (fun e => e.2.logical == l))
             rxSeq := 0, txSeq := 0, replay := [], queue := x.replay ++ x.queue, refusing := false }
  else { x with outcome := o, up := false, training := false, width := 0, active := [] }

/-- What a training found is about eight lanes whose good ones name distinct logical lanes. -/
def foundOk (lanes : List LaneFound) : Bool :=
  lanes.length == 8 && lanes.all (fun f => decide (f.logical < 8)) && decide ((lanes.filter (fun f => f.good)).map LaneFound.logical).Nodup

/-- What waits for a port or in its queue is sent. -/
def sendQueued (k : Nat) (s : State) : State := { s with fab := Fabric.retry (s.fab.pump k) }

/-- PORT_TRAINING_COMPLETE (R274, R276): the outcome and corrections; lanes in test become HEALTHY or QUARANTINED. -/
def execPortTrainingComplete (k : Nat) (peer : PeerFound) (lanes : List LaneFound) (s : State) : Out :=
  gate (decide (k < 6) && (portOf s k).training && foundOk lanes) "no such training"
    (let good := (numbered lanes).filter (laneUsable s k)
     let t := sendQueued k (portMod k (trainedPort good peer) s)
     let tested := if (portOf s k).mode = 0 then lanesIn s k .testing else []
     reportPort k (decideUnits (tested.map (fun l => (uLane k l, if good.any (fun e => e.1 == l) then .healthy else .quarantined))) t))

/-! ### Flits -/

/-- Sends the flits of a port's replay buffer again, in order, from the one with number `seq` (R271). -/
def replayFrom (k seq : Nat) (s : State) : State :=
  let l := (portOf s k).replay.dropWhile (fun f => f.seq != seq)
  { s with fab := { s.fab with wire := (l.map (fun f => (k, flitBytes f))).reverse ++ s.fab.wire } }

/-- Sends a port's whole replay buffer again (R276). -/
def replayAll (k : Nat) (s : State) : State :=
  match (portOf s k).replay with
  | [] => s
  | f :: _ => replayFrom k f.seq s

/-- Drops the flits of a replay buffer that an ACK covers: those up to and including it (log 44). -/
def acknowledge (ack : Nat) (x : Port) : Port :=
  { x with replay := x.replay.filter (fun f => decide ((ack + 65536 - f.seq) % 65536 ≥ 32768)) }

/-- A port goes down (R277): its traffic, the flits it had not had acknowledged first, moves to the next port its destinations list; what has
no such port waits for one. -/
def portGoesDown (k : Nat) (s : State) : State :=
  let held := (portOf s k).replay ++ (portOf s k).queue
  let t := portMod k (fun x => { x with up := false, training := false, width := 0, active := [], refusing := false, replay := [], queue := [] }) s
  reportPort k { t with fab := held.foldl (fun b f => b.emit f) t.fab }

/-- A port stops using a lane: it restripes, replays what is unacknowledged, or goes down below four lanes (R276). -/
def narrowPort (k lane : Nat) (s : State) : State :=
  let n := (portOf s k).active.length
  let t := portMod k (fun x => { x with active := x.active.filter (fun l => l != lane), width := n - 1 }) s
  if n ≤ 4 then portGoesDown k t else replayAll k (portMod k (fun x => { x with replays := sat32 x.replays 1, refusing := false }) t)

/-- A native port is up and uses a lane. -/
def usesLane (s : State) (k lane : Nat) : Bool := decide (k < 6) && (portOf s k).mode == 0 && (portOf s k).up && decide (lane ∈ (portOf s k).active)

/-- LANE_FAILURE (R276, R302): the port narrows and signals LANE_DOWN on its surviving lanes; the lane is QUARANTINED. -/
def execLaneFailure (k lane : Nat) (s : State) : Out :=
  gate (usesLane s k lane) "the port does not use this lane"
    (let t : State := { s with fab := { s.fab with laneFails := s.fab.laneFails + 1 }
                               fix := { s.fix with absorbed := s.fix.absorbed + 1, absorbedHw := s.fix.absorbedHw + 1 } }
     let t1 := decideUnits [(laneUnit s k lane, .quarantined)] (sendMsg 1 0xFFFF "LANE_DOWN" [k, lane] t)
     narrowPort k lane t1)

/-- LANE_DOWN_RECEIVE (R276): the peer's receiver lost the lane; this end stops using it and restripes. -/
def execLaneDownReceive (k lane : Nat) (s : State) : Out := gate (usesLane s k lane) "the port does not use this lane" (narrowPort k lane s)

/-- PORT_DOWN (R277). -/
def execPortDown (k : Nat) (s : State) : Out := gate (decide (k < 6) && (portOf s k).up) "the port is not up" (portGoesDown k (noteSoft s))

/-- Whether a flit's fields agree with R271. -/
def flitOk (f : Flit) : Bool :=
  within 1 f.cls 5 && decide (f.len ≤ 240)

/-- A flit is for this module: DEST is its rank, or all ones where a link's peer is meant (R279, R283). -/
def forThis (s : State) (f : Flit) : Bool := f.dest == s.grp.rank || f.dest == 0xFFFF

/-- A flit accepted in order: delivered, or with another DEST forwarded in transit without the Binnacle (R279). What a FOREIGN port does not
carry goes nowhere (R274, log 45). -/
def acceptFlit (k : Nat) (f : Flit) (s : State) : State :=
  let t := portMod k (fun x => { x with rxSeq := (x.rxSeq + 1) % 65536, refusing := false }) s
  if !portCarries (portOf s k) f then t
  else if !forThis s f then { t with fab := t.fab.emit f }
  else { t with fab := { t.fab with delivered := t.fab.delivered ++ [f] } }

/-- A flit's CRC and its codeword are right (R271). -/
def flitSound (b : List Byte) (codewordOk : Bool) : Bool := codewordOk && crc32c (b.take 252) == BitVec.ofNat 32 (fieldAt b 252 4)

/-- The peer's acknowledgement makes room in the replay buffer for flits that wait (R271). -/
def takeAck (k ack : Nat) (s : State) : State := { portMod k (acknowledge ack) s with fab := (portMod k (acknowledge ack) s).fab.pump k }

/-- FLIT_RECEIVE (R271): a bad flit is refused, and nothing is delivered until the replay presents it again, in order and once. -/
def execFlitReceive (k : Nat) (i : FlitIn) (s : State) : Out :=
  let p := portOf s k
  let f := flitOf i.bytes
  gate (decide (k < 6) && p.mode == 0 && p.up && i.bytes.length == 256 && (flitOk f || !flitSound i.bytes i.codewordOk)) "no such flit can arrive"
    (if !flitSound i.bytes i.codewordOk then portMod k (fun x => { x with refusing := true }) s
     else if f.seq = p.rxSeq then acceptFlit k f (takeAck k f.ack s) else takeAck k f.ack s)

/-- FLIT_REPLAY (R271): the transmitter replays from a refused flit onward. -/
def execFlitReplay (k seq : Nat) (s : State) : Out :=
  let p := portOf s k
  gate (decide (k < 6) && p.mode == 0 && p.up && p.replay.any (fun f => f.seq == seq)) "the replay buffer does not hold this flit"
    (replayFrom k seq (portMod k (fun x => { x with replays := sat32 x.replays 1 }) (noteSoft s)))

/-! ### RoCEv2 -/

/-- An Ethernet port is up. -/
def etherUp (s : State) (k : Nat) : Bool := decide (k < 6) && (portOf s k).mode == 1 && (portOf s k).up

/-- Whether the module supports a request (R272). -/
def roceSupported : RoceOp → Bool
  | .send => true | .writeImm => true | _ => false

/-- A congestion notification is due to a queue pair's peer (R272). -/
def cnpDue (x : Port) (qp timeUs : Nat) : Bool := (tget x.lastCnp qp).all (fun t => decide (timeUs ≥ t + 50))

/-- ROCE_PACKET_RECEIVE (R272). -/
def execRocePacketReceive (k qp : Nat) (op : RoceOp) (ecnCe : Bool) (timeUs : Nat) (s : State) : Out :=
  gate (etherUp s k) "not an Ethernet port that is up"
    (let t := if roceSupported op then s
       else sendMsg 0 0xFFFF "ROCE_NAK" [k, qp] (portMod k (fun x => { x with protoRefused := sat32 x.protoRefused 1 }) s)
     if ecnCe && cnpDue (portOf s k) qp timeUs then
       sendMsg 0 0xFFFF "ROCE_CNP" [k, qp] (portMod k (fun x => { x with lastCnp := tset x.lastCnp qp timeUs }) t)
     else t)

/-- A queue pair's send rate in units of 2^-32 of the port rate; full at first (R272; log 46). -/
def sendRate (x : Port) (qp : Nat) : Nat := (tget x.rates qp).getD (2 ^ 32)

/-- CNP_RECEIVE (R272): the rate halves, down to 1/64 of the port rate. -/
def execCnpReceive (k qp : Nat) (s : State) : Out :=
  gate (etherUp s k) "not an Ethernet port that is up"
    (portMod k (fun x => { x with rates := tset x.rates qp (max (2 ^ 26) (sendRate x qp / 2)), cnpRx := sat32 x.cnpRx 1 }) s)

/-- SEND_RATE_RISE (R272): after 50 µs without a notification the rate rises by 1/16 of the port rate. -/
def execSendRateRise (k qp : Nat) (s : State) : Out :=
  gate (etherUp s k && decide (sendRate (portOf s k) qp < 2 ^ 32)) "the rate is full"
    (portMod k (fun x => { x with rates := tset x.rates qp (min (2 ^ 32) (sendRate x qp + 2 ^ 28)) }) s)

end Sys2Proof.Machine
end

