-- ==== Sys2Proof/Machine/Vector.lean ====
section
/-! DEFINITION. Kernels of the vector units: pooling and argmax (R117 to R120), GATHER_SUM (R143), and the granules they complete by. -/
namespace Sys2Proof.Machine

/-! ### Arithmetic with flags -/

/-- A binary code with the flags raised on the way to it (R53). -/
abbrev FNum := Nat × Nat

/-- An operation on two binary64 numbers, roundTiesToEven. -/
def f64 (f : Val → Val → Val × Nat) (x y : FNum) : FNum :=
  match Bin.op2 .b64 .rne f x.1 y.1 with
  | (c, g) => (c, x.2 ||| y.2 ||| g)

def fadd (x y : FNum) : FNum := f64 (Val.add .rne) x y
def fsub (x y : FNum) : FNum := f64 (fun a b => Val.add .rne a b.neg) x y
def fmul (x y : FNum) : FNum := f64 Val.mul x y
def fdiv (x y : FNum) : FNum := f64 Val.div x y

/-- A value converted to a binary format, roundTiesToEven (R47); a signalling NaN raises INVALID (R50). -/
def toBin (b : Bin) (v : OutVal × Nat) : FNum :=
  match b.encode .rne v.1.v with
  | (c, g) => (c, v.2 ||| g ||| sigFlag [v.1.v])

/-- A whole number in binary64. -/
def natTo64 (n : Nat) : FNum := (Bin.b64.ofVal (.fin false n 0), 0)

/-- An operation on two binary32 numbers, roundTiesToEven. -/
def f32 (f : Val → Val → Val × Nat) (x y : FNum) : FNum :=
  match Bin.op2 .b32 .rne f x.1 y.1 with
  | (c, g) => (c, x.2 ||| y.2 ||| g)

/-- A binary code as a value to write. -/
def outOf (b : Bin) (x : FNum) : OutVal × Nat := ({ v := b.decode x.1 }, x.2)

/-! ### Granules -/

/-- Bytes an output element really takes. -/
def elemBytes (s : State) (c : Nat) (w : Work) : Nat :=
  match gradFmt s c w.outTensor with
  | some 1 => 1 | some 2 => 2 | some _ => 4
  | none => w.outBytes

/-- Elements of a 4 KiB granule (R98, R225). -/
def granuleElems (s : State) (c : Nat) (w : Work) : Nat := max 1 (4096 / elemBytes s c w)

/-- Number of granules of `n` elements. -/
def granuleCount (s : State) (c : Nat) (w : Work) (n : Nat) : Nat := (n + granuleElems s c w - 1) / granuleElems s c w

/-- Computes the values of a granule's elements. -/
def granuleValues (f : State → Nat → Except AccErr (OutVal × Nat)) (s : State) : List Nat → Except AccErr (List (Nat × OutVal) × Nat)
  | [] => .ok ([], 0)
  | i :: r =>
    match f s i with
    | .error e => .error e
    | .ok (v, g) => match granuleValues f s r with
      | .error e => .error e
      | .ok (l, h) => .ok ((i, v) :: l, g ||| h)

/-- How a kernel of the vector units reads its operand. -/
def Work.readAccess (w : Work) : Access := if (w.op = 0x10 ∧ w.turnMov) ∨ (w.sliding ∧ w.turnSta) then .turned else .read

/-- Computes and writes one granule; its counts and flags are held until it completes (R98). An error discards the granule. -/
def runGranule (c : Nat) (w : Work) (o : OutSpec) (f : State → Nat → Except AccErr (OutVal × Nat)) (g : Nat) (ids : List Nat) (s : State) :
    Except (AccErr × Access) State :=
  match granuleValues f s ids with
  | .error e => .error (e, w.readAccess)
  | .ok (l, fl) =>
    match writeElems c o w.step w.origin l (s, {}, fl) with
    | .error e => .error (e, .write)
    | .ok (t, counts, flags) =>
      .ok (workMod c w.id (fun y => { y with held := y.held ++ [⟨g, o.tensor, counts, BitVec.ofNat 32 flags, s.mem.walker⟩] }) t)

/-- Runs granules from `g` on until one faults: the state, and the fault with its granule. -/
def runGranules (c : Nat) (w : Work) (o : OutSpec) (f : State → Nat → Except AccErr (OutVal × Nat)) (total per : Nat) : Nat → Nat → State →
    State × Option (Nat × AccErr × Access)
  | 0, _, s => (s, none)
  | n + 1, g, s =>
    match runGranule c w o f g (span (g * per) (min per (total - g * per))) s with
    | .error (e, a) => (s, some (g, e, a))
    | .ok t => runGranules c w o f total per n (g + 1) t

/-- Runs a vector kernel of `total` elements from its resume point. -/
def runVector (c : Nat) (x : Ctx) (w : Work) (o : OutSpec) (total : Nat) (f : State → Nat → Except AccErr (OutVal × Nat)) (s : State) : State :=
  match writeFrame c x w s with
  | .error e => faultKernel c w 0 e .write s
  | .ok t =>
    let per := granuleElems t c w
    let n := granuleCount t c w total
    match runGranules c w o f total per (n - w.resume) w.resume t with
    | (u, none) => workMod c w.id (fun y => { y with started := true, parts := n }) u
    | (u, some (g, e, a)) => faultKernel c w g e a (workMod c w.id (fun y => { y with parts := n }) u)

/-- A granule of a pushed frame enters the window of the cluster that made it, which no rule names (R138; log 1). -/
def keepGranule (c : Nat) (w : Work) (mine : List Held) (s : State) : State :=
  if w.astk = 1 then
    match freshValue s with
    | (f, t) => keepPart c (w.clFirst + f.toNat % max 1 w.clCount) (w.outVa - 64) ((mine.map (fun h => h.counts.elements)).sum * w.outBytes) t
  else s

/-- A granule in hand may complete: on a unit that is not fenced, or reissued on a cluster of the kernel (R29, R30). -/
def granuleServes (s : State) (w : Work) (h : Held) : Bool :=
  match h.unit with
  | some u => decide (u ∉ s.chart.fence)
  | none => w.clusters.any (clusterServes s)

/-- VECTOR_GRANULE_COMPLETE (R98): the granule's counts merge; a fenced unit's does not complete (R29). -/
def execVectorGranuleComplete (c id granule : Nat) (s : State) : Out :=
  match (ctxOf s c).bind (fun x => x.work id) with
  | none => .refused (.notEnabled "no such descriptor")
  | some w =>
    let mine := w.held.filter (fun h => h.part == granule)
    gate (decide (mine ≠ []) && mine.all (granuleServes s w)) "no such granule is held"
      (withRecords c id (fun t0 =>
        let t := keepGranule c w mine t0
        mine.foldl (fun u h => mergeHeld c w.id w.hostTag w.step h u)
          (workMod c id (fun y => { y with held := y.held.filter (fun h => h.part != granule), partsDone := ninsert y.partsDone granule }) t)) s)

/-! ### Pooling (R117 to R119) -/

/-- The input image of a sliding-window kernel, as stored. -/
def imageOf (w : Work) : Tensor := ⟨w.fmtSta, w.staTensor, w.staBase, w.staPitch, (stored w.turnSta w.staShape).2⟩

/-- Reads an element of the image, by turned reads where TURN_STA asks for them (R75). -/
def imageAt (s : State) (c : Nat) (w : Work) (row col : Nat) : Except AccErr (OutVal × Nat) :=
  readValue s c (imageOf w) (stored w.turnSta (row, col)).1 (stored w.turnSta (row, col)).2

/-- Image, channel, row and column of an output element index. -/
structure OutPos where
  plane : Nat
  y : Nat
  x : Nat
  deriving DecidableEq, Repr

def outPos (w : Work) (i : Nat) : OutPos := ⟨i / (w.ho * w.wo), i / w.wo % w.ho, i % w.wo⟩

/-- Image positions of an output element's window, in row-major order (R117). -/
def windowOf (w : Work) (p : OutPos) : List (Nat × Nat) :=
  (List.range w.kh).flatMap (fun (ky : Nat) => (List.range w.kw).filterMap (fun (kx : Nat) =>
    let iy : Int := (p.y : Int) * w.sh - w.pt + ky
    let ix : Int := (p.x : Int) * w.sw - w.pl + kx
    if 0 ≤ iy ∧ iy < w.imH ∧ 0 ≤ ix ∧ ix < w.imW then some (iy.toNat, ix.toNat) else none))

/-- Reads a window's values. -/
def windowValues (s : State) (c : Nat) (w : Work) (p : OutPos) : Except AccErr (List (OutVal × Nat)) :=
  mapAcc (fun q => imageAt s c w (p.plane * w.imH + q.1) q.2) (windowOf w p)

/-- The larger of two values under R52; the first NaN stays. -/
def maxOf (a b : OutVal × Nat) : OutVal × Nat :=
  let f := a.2 ||| b.2 ||| sigFlag [a.1.v, b.1.v]
  if a.1.v.isNan then (a.1, f) else if b.1.v.isNan then (b.1, f) else if Val.below a.1.v b.1.v then (b.1, f) else (a.1, f)

/-- One element of POOL_MAX (R118). -/
def poolMaxAt (c : Nat) (w : Work) (s : State) (i : Nat) : Except AccErr (OutVal × Nat) :=
  match windowValues s c w (outPos w i) with
  | .error e => .error e
  | .ok [] => .ok ({ v := .fin false 0 0 }, 0)
  | .ok (a :: r) => .ok (r.foldl maxOf a)

/-- One element of POOL_AVG (R119). -/
def poolAvgAt (c : Nat) (w : Work) (s : State) (i : Nat) : Except AccErr (OutVal × Nat) :=
  match windowValues s c w (outPos w i) with
  | .error e => .error e
  | .ok [] => .ok ({ v := .fin false 0 0 }, 0)
  | .ok (a :: r) =>
    let d := if w.countPad then w.kh * w.kw else r.length + 1
    .ok (outOf .b64 (fdiv (r.foldl (fun x y => fadd x (toBin .b64 y)) (toBin .b64 a)) (natTo64 d)))

/-- The stripes of a sliding-window kernel that may run: their halo waits have ended, and they have not run (R124). -/
def readyStripes (x : Ctx) (w : Work) : List Nat :=
  (List.range (stripeRows x w).length).filter (fun j => stripeReady w j && decide (j ∉ w.ran))

/-- The granules of a sliding-window kernel of the vector units, stripe by stripe: number, stripe, element indices. -/
def stripeGranules (x : Ctx) (w : Work) (planes per : Nat) : List (Nat × Nat × List Nat) :=
  ((stripeRows x w).zipIdx.flatMap (fun e =>
    (cutList per ((List.range planes).flatMap (fun p => span ((p * w.ho + e.1.1) * w.wo) ((e.1.2 - e.1.1) * w.wo)))).map (fun l => (e.2, l)))).zipIdx.map
    (fun q => (q.2, q.1))

/-- A granule is written: done, or held until it completes. -/
def granuleMade (w : Work) (g : Nat) : Bool := decide (g ∈ w.partsDone) || w.held.any (fun h => h.part == g)

/-- Runs granules in order until one faults: the state, and the fault with its granule. -/
def runList (one : Nat → List Nat → State → Except (AccErr × Access) State) : List (Nat × Nat × List Nat) → State →
    State × Option (Nat × AccErr × Access)
  | [], s => (s, none)
  | (g, _, ids) :: r, s =>
    match one g ids s with
    | .error (e, a) => (s, some (g, e, a))
    | .ok t => runList one r t

/-- Runs the stripes of a sliding-window kernel that are ready, granule by granule (R124, R225). -/
def runStripes (c : Nat) (x : Ctx) (w : Work) (planes per : Nat) (one : Nat → List Nat → State → Except (AccErr × Access) State) (s : State) : State :=
  match if w.started then .ok s else writeFrame c x w s with
  | .error e => faultKernel c w 0 e .write s
  | .ok t =>
    let all := stripeGranules x w planes per
    let ready := readyStripes x w
    match runList one (all.filter (fun e => decide (e.2.1 ∈ ready) && !granuleMade w e.1)) t with
    | (u, none) => workMod c w.id (fun y => { y with started := true, parts := all.length, ran := ready.foldl ninsert y.ran }) u
    | (u, some (g, e, a)) => faultKernel c w g e a (workMod c w.id (fun y => { y with parts := all.length }) u)

/-- How a sliding-window kernel of the vector units writes. -/
def poolSpec (w : Work) : OutSpec := ⟨w.outTensor, w.fmtOut, w.pair, roundOfCode w.round, w.outVa, w.outPitch, w.wo⟩

/-- The row of a sliding-window kernel of the vector units: some stripe's halo waits have ended (R124). -/
def slidingRow (op c id : Nat) (run : Ctx → Work → State → State) (s : State) : Out :=
  match ctxOf s c with
  | none => .refused (.notEnabled "no such context")
  | some x =>
    match x.work id with
    | none => .refused (.notEnabled "no such descriptor")
    | some w =>
      gate (w.opcode == 0x0300 && w.op == op && w.st == .issued && decide (readyStripes x w ≠ []) && mayRun s x && w.clusters.any (clusterServes s) &&
          (!w.deferWg || w.promoted || w.clusters.any (deferredOnly s))) "no stripe may run"
        (withRecords c id (onCluster w (run x w)) s)

/-- Pooling as a whole. -/
def runPool (f : State → Nat → Except AccErr (OutVal × Nat)) (c : Nat) (x : Ctx) (w : Work) (s : State) : State :=
  runStripes c x w (w.nimg * w.cIn) (granuleElems s c w) (runGranule c w (poolSpec w) f) s

/-- POOL_MAX (R118). -/
def execPoolMax (c id : Nat) (s : State) : Out := slidingRow 0x02 c id (fun x w t => runPool (poolMaxAt c w) c x w t) s

/-- POOL_AVG (R119). -/
def execPoolAvg (c id : Nat) (s : State) : Out := slidingRow 0x03 c id (fun x w t => runPool (poolAvgAt c w) c x w t) s

/-! ### ARGMAX_C (R120) -/

/-- The lowest channel no other channel outranks; `best` holds a channel and its value. -/
def argmaxGo : Nat → OutVal → Nat → List (OutVal × Nat) → Nat
  | b, _, _, [] => b
  | b, v, k, (u, _) :: r =>
    if v.v.isNan then b
    else if u.v.isNan ∨ Val.below v.v u.v then argmaxGo k u (k + 1) r else argmaxGo b v (k + 1) r

/-- The flags of the reads and of the comparisons that a pixel takes (R52, R53, R105): a signalling NaN raises INVALID. -/
def argmaxFlags (l : List (OutVal × Nat)) : Nat := l.foldl (fun f x => f ||| x.2 ||| sigFlag [x.1.v]) 0

/-- The index of a pixel and the flags raised (R120). -/
def argmaxAt (c : Nat) (w : Work) (s : State) (i : Nat) : Except AccErr (Nat × Nat) :=
  let p := outPos w i
  match mapAcc (fun ch => imageAt s c w ((p.plane * w.cIn + ch) * w.imH + p.y) p.x) (List.range w.cIn) with
  | .error e => .error e
  | .ok [] => .ok (0, 0)
  | .ok (v :: r) => .ok (argmaxGo 0 v.1 1 r, argmaxFlags (v :: r))

/-- Writes the indices of a granule's pixels: unsigned 16-bit integers, no record, no counts; `fl` gathers the flags. -/
def argmaxWrite (c : Nat) (w : Work) : List Nat → Nat → State → Except (AccErr × Access) (State × Nat)
  | [], fl, s => .ok (s, fl)
  | i :: r, fl, s =>
    match argmaxAt c w s i with
    | .error e => .error (e, w.readAccess)
    | .ok (k, g) =>
      match vaWrite c (w.outVa + i / w.wo * w.outPitch + 2 * (i % w.wo)) (leBytes 2 k) s with
      | .error e => .error (e, .write)
      | .ok t => argmaxWrite c w r (fl ||| g) t

/-- A granule of ARGMAX_C: its counts belong to no tensor, and tell only how many elements a window part holds (R138). -/
def argmaxGranule (c : Nat) (w : Work) (g : Nat) (ids : List Nat) (s : State) : Except (AccErr × Access) State :=
  match argmaxWrite c w ids 0 s with
  | .error e => .error e
  | .ok (t, fl) => .ok (workMod c w.id (fun y => { y with held := y.held ++ [⟨g, 2 ^ 32, { elements := ids.length }, BitVec.ofNat 32 fl, s.mem.walker⟩] }) t)

/-- ARGMAX_C as a whole. -/
def runArgmax (c : Nat) (x : Ctx) (w : Work) (s : State) : State := runStripes c x w w.nimg 2048 (argmaxGranule c w) s

/-- ARGMAX_C (R120). -/
def execArgmaxC (c id : Nat) (s : State) : Out := slidingRow 0x04 c id (fun x w t => runArgmax c x w t) s

/-! ### GATHER_SUM (R142, R143) -/

/-- Micro-batches deferred and dropped at the cut of a step. -/
def deferredAt (k : Option (Nat × Nat × Nat × Nat)) (step : Nat) : Nat :=
  match k with
  | some (n, whole, back, _) => if n = step then whole ||| back else 0
  | none => 0
def droppedAt (k : Option (Nat × Nat × Nat × Nat)) (step : Nat) : Nat :=
  match k with
  | some (n, _, _, d) => if n = step then d else 0
  | none => 0

/-- Whether a slot is present in step n (R143). -/
def slotPresent (s : State) (step lag mb : Nat) : Bool :=
  if lag = 0 then !bitAt (deferredAt s.bnd.cut step) mb
  else decide (0 < step) && bitAt (deferredAt s.bnd.prevCut (step - 1)) mb && !bitAt (droppedAt s.bnd.cut step) mb

/-- Indices of the present slots, ascending (R142). -/
def presentSlots (s : State) (w : Work) : List Nat :=
  (List.range (2 * mbCount s * w.uses)).filter (fun i => slotPresent s w.step (i / w.uses / mbCount s) (i / w.uses % mbCount s))

/-- Tensor of a slot. -/
def slotTensor (w : Work) (i : Nat) : Tensor := ⟨w.fmtMov, (w.slotBase + i) % 2 ^ 32, w.slotVa + i * w.slotStride, 0, 1⟩

/-- The stored index of a slot's element: rows and columns exchanged under turned reads (R75). -/
def slotIndex (s : State) (c : Nat) (w : Work) (i : Nat) : Nat :=
  if w.turnMov then i % (outShape s c w).2 * (outShape s c w).1 + i / (outShape s c w).2 else i

/-- One gathered element: binary32 sums in ascending index (R143). -/
def gatherAt (c : Nat) (w : Work) (slots : List Nat) (s : State) (i : Nat) : Except AccErr (OutVal × Nat) :=
  match mapAcc (fun k => readValue s c (slotTensor w k) 0 (slotIndex s c w i)) slots with
  | .error e => .error e
  | .ok [] => .ok ({ v := .fin false 0 0 }, 0)
  | .ok (a :: r) => .ok (outOf .b32 (r.foldl (fun x y => f32 (Val.add .rne) x (toBin .b32 y)) (toBin .b32 a)))

/-- How GATHER_SUM writes: densely by element index (R104). -/
def gatherSpec (s : State) (c : Nat) (w : Work) : OutSpec :=
  ⟨w.outTensor, w.fmtOut, w.pair, roundOfCode w.round, w.outVa, 0, max 1 ((outShape s c w).1 * (outShape s c w).2)⟩

/-- GATHER_SUM as a whole; a present slot without a record ends it (R87). -/
def runGather (c : Nat) (x : Ctx) (w : Work) (s : State) : State :=
  let slots := presentSlots s w
  if slots.any (fun i => (scaleOf s c (slotTensor w i).id).isNone) then endWork c w stBADPARAM (some 0x0402) s
  else runVector c x w (gatherSpec s c w) ((outShape s c w).1 * (outShape s c w).2) (gatherAt c w slots) s

/-- GATHER_SUM (R143). -/
def execGatherSum (c id : Nat) (s : State) : Out := kernelRow 0x10 c id (runGather c) s

end Sys2Proof.Machine
end

