-- ==== Sys2Proof/Machine/Collect.lean ====
section
/-! DEFINITION. Collectives (R291 to R297, R322): their acceptance, signatures, chunks, tree sums, results, acknowledgements, epoch aborts;
DEADLINE_SET (R287). -/
namespace Sys2Proof.Machine

/-! ### Fields of COLLECTIVE_SUBMIT (R291) -/

def Work.collOp (w : Work) : Nat := wf w 0 1
def Work.collPair (w : Work) : Bool := bitAt (wf w 1 1) 1
def Work.collSignal (w : Work) : Bool := bitAt (wf w 1 1) 2
def Work.collFmt (w : Work) : Nat := bitsAt (wf w 2 1) 0 4
def Work.collRound (w : Work) : Nat := bitsAt (wf w 2 1) 4 2
def Work.collRoot (w : Work) : Nat := wf w 4 2
def Work.collId (w : Work) : Nat := wf w 8 4
def Work.inTensor (w : Work) : Nat := wf w 24 4
def Work.collOut (w : Work) : Nat := wf w 28 4
def Work.inVa (w : Work) : Nat := wf w 32 8
def Work.collOutVa (w : Work) : Nat := wf w 40 8
def Work.collElems (w : Work) : Nat := wf w 48 8
def Work.collCell (w : Work) : Nat := wf w 56 2

/-- The work item of a COLLECTIVE_SUBMIT packet. -/
def collWork (p : Packet) (id : Nat) : Work :=
  let raw := p.params.take 64
  { id := id, queue := queueOf p, hostTag := p.hostTag, opcode := 0x0520, epoch := BitVec.ofNat 32 (fieldAt raw 12 4), raw := raw
    step := fieldAt raw 16 8 }

/-- Reserved fields of the parameter block. -/
def collReservedOk (w : Work) : Bool :=
  decide (wf w 1 1 < 8) && decide (wf w 2 1 < 64) && wf w 3 1 == 0 && wf w 6 2 == 0 && wf w 58 2 == 0

/-- OP moves codes unchanged (R292). -/
def collCopies (op : Nat) : Bool := op == 2 || op == 4

/-- Ranges of the fields (detail 0x0B02); a module `alone`, in no group, has no rank of 0 to 271, and its own number stands for ROOT. -/
def collRangesOk (alone : Bool) (w : Work) : Bool :=
  decide (w.collOp ≤ 4) && (!bitAt (wf w 1 1) 0 || w.collOp ∈ [0, 1, 3]) && (w.collFmt == 2 || w.collFmt == 3) && decide (w.collRound ≤ 2) &&
    (if w.collOp ∈ [0, 4] then decide (w.collRoot ≤ 271) || (alone && w.collRoot == 0xFFFF) else w.collRoot == 0) && within 1 w.collElems (2 ^ 40)

/-- Elements of a chunk (R292). -/
def chunkElems : Nat := 65536

/-- Slices of ALL_GATHER and BROADCAST hold whole blocks: a slice is a chunk (log 49). -/
def slicesWhole (r : ScaleRec) (e : Nat) : Bool := wholeBlocksOf r e && (decide (e ≤ chunkElems) || wholeBlocksOf r chunkElems)

/-- A record's slices do not hold whole blocks. -/
def slicesCut (s : State) (c tensor e : Nat) : Bool := (scaleOf s c tensor).any (fun r => !slicesWhole r e)

/-- What a reduction writes in a Kyonex format cuts a block: all elements, or chunk by chunk under REDUCE_SCATTER (R91). -/
def reductionCuts (s : State) (c : Nat) (w : Work) : Bool :=
  !collCopies w.collOp && w.collFmt == 2 &&
    (scaleOf s c w.collOut).any (fun r => !(if w.collOp = 3 then slicesWhole r w.collElems else wholeBlocksOf r w.collElems))

/-- Refusals of COLLECTIVE_SUBMIT at check 8 (R59, R87, R104, R131, R252, R264, R291). -/
def collRefusals (s : State) (c : Nat) (w : Work) : List (Bool × Nat × Option Nat) :=
  [bad (!collRangesOk s.grp.recs.isEmpty w) 0x0B02,
   bad (epochOlder s.chart.epoch w.epoch) 0x0A0A,
   bad ((scaleOf s c w.inTensor).isNone) 0x0B01,
   bad (noRecord s c w.collFmt w.collOut) 0x0401,
   bad (reductionCuts s c w) 0x0404,
   bad ((isGrad s c w.collOut || isGrad s c w.inTensor) && (w.collFmt != 2 || w.collPair)) 0x0408,
   (w.collPair && w.collRound == 2, stBADPARAM, none),
   bad (collCopies w.collOp && (slicesCut s c w.inTensor w.collElems || slicesCut s c w.collOut w.collElems)) 0x0B04,
   (decide (w.step < s.dev.step), stSTEPEXPIRED, none),
   bad (decide (w.step > s.dev.step + 1)) 0x0612,
   bad (w.collSignal && !ownsCell s c w.collCell) 0x0821]

/-- COLLECTIVE_SUBMIT's effect (R291): accepted under the conflict rules of R140. -/
def bodyColl (p : Packet) (s : State) : State :=
  withCtx p 0x0520 0xFFFF s (fun _ =>
    match freshId s with
    | (id, t) =>
      let w := collWork p id
      match firstBad (collRefusals s p.ctx w) with
      | some (st, d) => complete p 0x0520 st d none 0xFFFF [] s
      | none => reschedule (ctxMod p.ctx (enqueue t p.ctx w) t))

/-- Bytes of an element of a tensor as it lies in memory (R104); a tensor without a record is taken at 4 bytes. -/
def storedBytes (s : State) (c tensor : Nat) : Nat :=
  match scaleOf s c tensor with
  | some r => if r.grad then (match r.gfmt with
      | 1 => 1 | 2 => 2 | _ => 4) else Fmt.bytes (fmtOfCode r.fmt)
  | none => 4

def chkColl (p : Packet) : Checks := { lenOk := p.paramLen == 64, fieldsOk := collReservedOk (collWork p 0) }

def acceptColl (p : Packet) (s : State) : State := acceptPacket 0x0520 (chkColl p) (fun _ t => bodyColl p t) p s

/-- COLLECTIVE_SUBMIT (R291). -/
def execCollectiveSubmit (p : Packet) (s : State) : Out := packetOut 0x0520 acceptColl p s

/-! ### Chunks and their owners (R292) -/

/-- The ranks a collective runs over: the present ranks, or the module alone outside a group. -/
def collRanks (s : State) : List Nat := if s.grp.recs.isEmpty then [s.grp.rank] else presentRanks s

/-- Number of chunks. -/
def chunkCount (e : Nat) : Nat := (e + chunkElems - 1) / chunkElems

/-- The owner of chunk `c`: position c mod P of the ascending present ranks. -/
def chunkOwner (ranks : List Nat) (c : Nat) : Nat := (ranks[c % max 1 ranks.length]?).getD 0xFFFF

/-- Elements of chunk `c` of a collective of `e` elements. -/
def chunkSize (e c : Nat) : Nat := min chunkElems (e - c * chunkElems)

/-- The signature of a work item (R292). -/
def Work.sig (w : Work) : CollSig :=
  { op := w.collOp, flags := wf w 1 1, fmtRound := wf w 2 1, root := w.collRoot, collId := w.collId, step := w.step, elements := w.collElems }

/-- STEP_REDUCE of a signature. -/
def sigStepReduce (g : CollSig) : Bool := bitAt g.flags 0

/-- A signature as a message carries it. -/
def sigArgs (rank : Nat) (g : CollSig) : List Nat := [rank, g.op, g.flags, g.fmtRound, g.root, g.collId, g.step, g.elements]

/-- An element as a message carries it. -/
def elemArgs (e : CollElem) : List Nat := [e.fmt, e.hi, e.lo, if e.pair then 1 else 0, unsignedOf 16 e.scale]

/-- Bytes of an element. -/
def elemRaw (e : CollElem) : List Byte :=
  let n := Fmt.bytes (fmtOfCode e.fmt)
  leBytes n e.hi ++ (if e.pair then leBytes n e.lo else [])

/-- The work item of a collective on this module, with its context. -/
def collWorkOf (s : State) (collId step : Nat) : Option (Nat × Work) :=
  s.ctxs.findSome? (fun e => (e.2.works.find? (fun w => w.opcode == 0x0520 && w.collId == collId && w.step == step)).map (fun w => (e.1, w)))

/-- The collective of a work item in flight. -/
def flightOf (s : State) (c id : Nat) : Option Coll := s.colls.flight.find? (fun f => f.ctx == c && f.work == id)

/-- Drops a collective from those in flight. -/
def dropFlight (c id : Nat) (s : State) : State :=
  { s with colls := { s.colls with flight := s.colls.flight.filter (fun f => !(f.ctx == c && f.work == id)) } }

/-! ### Reading an input chunk -/

/-- An input tensor's elements lie densely by index (R291). -/
def inputTensor (r : ScaleRec) (base : Nat) : Tensor := ⟨r.fmt, r.id, base, max 1 r.cols * Fmt.bytes (fmtOfCode r.fmt), max 1 r.cols⟩

/-- Reads element `i` of the input (R92, R104). -/
def readCollElem (s : State) (c : Nat) (r : ScaleRec) (base i : Nat) : Except AccErr CollElem :=
  if r.fmt = 3 ∧ ¬ r.grad then
    match vaNum s c (base + 2 * i) 2 with
    | .ok v => .ok { fmt := 3, hi := v }
    | .error e => .error e
  else
    let t := inputTensor r base
    let code := if r.grad then (if r.gfmt = 1 then 1 else 2) else r.fmt
    match readOperand s c t (i / t.cols) (i % t.cols) with
    | .error e => .error e
    | .ok (h :: l :: _) => .ok { fmt := code, hi := h.code, lo := l.code, pair := true, scale := h.scale }
    | .ok [o] => .ok { fmt := code, hi := o.code, scale := o.scale }
    | .ok [] => .ok { fmt := code, hi := 0 }

/-- Reads chunk `k` of the input. -/
def readChunk (s : State) (c : Nat) (r : ScaleRec) (w : Work) (k : Nat) : Except AccErr (List CollElem) :=
  mapAcc (fun i => readCollElem s c r w.inVa (k * chunkElems + i)) (List.range (chunkSize w.collElems k))

/-- The chunks this member sends: all of its contribution to a reduction, the slices it holds under ALL_GATHER, all at ROOT under
BROADCAST (R292; log 49). -/
def chunksToSend (s : State) (w : Work) : List Nat :=
  let all := List.range (chunkCount w.collElems)
  if w.collOp = 2 then all.filter (fun k => chunkOwner (collRanks s) k == s.grp.rank)
  else if w.collOp = 4 then (if w.collRoot = s.grp.rank then all else [])
  else all

/-- The chunks whose results this member writes (R292). -/
def chunksToWrite (s : State) (w : Work) : List Nat :=
  let all := List.range (chunkCount w.collElems)
  if w.collOp = 0 then (if w.collRoot = s.grp.rank then all else [])
  else if w.collOp = 3 then all.filter (fun k => chunkOwner (collRanks s) k == s.grp.rank)
  else all

/-- The CRC-32C of a chunk that enters DIGEST: COLL_ID, chunk number, bytes (R322; log 50). -/
def chunkDigest (collId k : Nat) (l : List CollElem) : Word := crc32c (leBytes 4 collId ++ leBytes 4 k ++ l.flatMap elemRaw)

/-! ### The tree sum (R293) -/

/-- A binary32 addition, roundTiesToEven, with the flags raised so far. -/
def sum32 (x y : Nat × Nat) : Nat × Nat :=
  match Bin.op2 .b32 .rne (Val.add .rne) x.1 y.1 with
  | (c, f) => (c, x.2 ||| y.2 ||| f)

/-- A contribution's element in binary32, with the flags raised on the way to it (R47, R293). -/
def elemTo32 (level : Nat) (e : CollElem) : Nat × Nat :=
  let one (c : Nat) : Nat × Nat := toBin .b32 ({ v := outCodeValue (fmtOfCode e.fmt) level e.scale c }, 0)
  if e.pair then sum32 (one e.hi) (one e.lo) else one e.hi

/-- One round of the tree: neighbours are added, an odd last entry is carried. -/
def treeRound : List (Nat × Nat) → List (Nat × Nat)
  | a :: b :: r => sum32 a b :: treeRound r
  | l => l

/-- The sum of a list by rounds, `n` at most; an empty list gives +0. -/
def treeSum : Nat → List (Nat × Nat) → Nat × Nat
  | _, [] => (0, 0)
  | _, [a] => a
  | 0, a :: _ => a
  | n + 1, l => treeSum n (treeRound l)

/-- The sum of one element over the list L. -/
def sumElem (level : Nat) (l : List CollElem) : Nat × Nat := treeSum l.length (l.map (elemTo32 level))

/-- The sums of a chunk of `n` elements over contributions in the order of L: binary32 codes and the flags raised. -/
def sumChunk (level n : Nat) (l : List (List CollElem)) : List (BitVec 32) × Nat :=
  let r := (List.range n).map (fun i => sumElem level (l.filterMap (fun d => d[i]?)))
  (r.map (fun x => BitVec.ofNat 32 x.1), r.foldl (fun f x => f ||| x.2) 0)

/-! ### Results (R292, R294) -/

/-- How a reduction's result is written: densely by element index. -/
def collSpec (w : Work) : OutSpec :=
  let b := Fmt.bytes (fmtOfCode w.collFmt) * (if w.collPair then 2 else 1)
  { tensor := w.collOut, fmt := w.collFmt, pair := w.collPair, round := roundOfCode w.collRound, base := w.collOutVa, pitch := b, cols := 1 }

/-- A copied element as the watch counts it (R96, R100): nothing is rounded, so nothing saturates or is flushed; a pair's octave is that of
the sum of its halves. -/
def copiedElem (level : Nat) (e : CollElem) : Written :=
  let hi := outCodeValue (fmtOfCode e.fmt) level e.scale e.hi
  let v := if e.pair then (Val.add .rne hi (outCodeValue (fmtOfCode e.fmt) level e.scale e.lo)).1 else hi
  match hi with
  | .fin _ m _ => { hi := e.hi, lo := e.lo, zero := m == 0, k := if m = 0 then none else Val.octave v }
  | _ => { hi := e.hi, lo := e.lo, nonfinite := true }

/-- Copies codes and HELD_SCALE into the output and its block table (R292), counting what is written (R96, R100): a block's first write of
the step moves its entry as any write does (R93), after which its HELD_SCALE is the one copied (log 49). -/
def copyCodes (c : Nat) (w : Work) (s : State) (l : WatchLive) : List (Nat × CollElem) → Except AccErr (State × WatchLive)
  | [] => .ok (s, l)
  | (i, e) :: r =>
    match vaWrite c (w.collOutVa + i * (elemRaw e).length) (elemRaw e) s with
    | .error x => .error x
    | .ok t =>
      match scaleOf t c w.collOut with
      | none => copyCodes c w t l r
      | some k =>
        match (touchBlock c k (k.block i) w.step t).bind (fun a => vaWrite c (k.blocksVa + 16 * k.block i) (leBytes 2 (unsignedOf 16 e.scale)) a.1) with
        | .error x => .error x
        | .ok u => copyCodes c w u (countWritten k.histogram e.fmt (k.block i) (copiedElem s.dev.level e) l) r

/-- A chunk's element numbers with what is to be written. -/
def atChunk {α : Type} (k : Nat) (l : List α) : List (Nat × α) := (numbered l).map (fun e => (k * chunkElems + e.1, e.2))

/-- Writes a result chunk: the state, the counts it holds and its flags. -/
def writeChunk (c : Nat) (w : Work) (r : CollResult) (s : State) : Except AccErr (State × WatchLive × Nat) :=
  if collCopies w.collOp then
    match copyCodes c w s {} (atChunk r.chunk r.codes) with
    | .error e => .error e
    | .ok (t, l) => .ok (t, l, 0)
  else writeElems c (collSpec w) w.step w.step (atChunk r.chunk (r.sums.map (fun b => ({ v := Bin.b32.decode b.toNat } : OutVal)))) (s, {}, 0)

/-- A collective's flags are raised at its completion (R53); the counts it held stay uncommitted until its epoch commits (R98, R296;
log 51). -/
def holdColl (c gen : Nat) (w : Work) (s : State) : State :=
  w.held.foldl (fun (t : State) h =>
    let u := raiseFp c h.flags.toNat t
    { u with colls := { u.colls with uncommitted := u.colls.uncommitted ++ [⟨c, w.id, w.hostTag, w.step, gen, { h with flags := 0 }⟩] } }) s

/-- Merges committed counts (R98). -/
def commitHeld (s : State) (u : Uncommitted) : State := mergeHeld u.ctx u.work u.tag u.step u.held s

/-- CLOSE(step) commits the epoch's counts (R98, R296). -/
def commitCounts (step : Nat) (s : State) : State :=
  let due := s.colls.uncommitted.filter (fun u => decide (u.step ≤ step))
  due.foldl commitHeld { s with colls := { s.colls with uncommitted := s.colls.uncommitted.filter (fun u => decide (step < u.step)) } }

/-- Changes a collective in flight. -/
def flightMod (c id : Nat) (f : Coll → Coll) (s : State) : State :=
  { s with colls := { s.colls with flight := s.colls.flight.map (fun g => if g.ctx = c ∧ g.work = id then f g else g) } }

/-- A collective whose completion is posted stays on record until its chunks are acknowledged, which HANDOVER waits for (R286). -/
def leaveFlight (c id : Nat) (f : Coll) (s : State) : State :=
  if f.unacked.isEmpty then dropFlight c id s else flightMod c id (fun g => { g with done := true }) s

/-- A collective completes when every result chunk is written (R294; log 51). -/
def finishColl (c id : Nat) (s : State) : State :=
  match (ctxOf s c).bind (fun x => x.work id), flightOf s c id with
  | some w, some f =>
    if w.st == .issued && w.partsDone.length == w.parts then
      let t := leaveFlight c id f (holdColl c f.gen w s)
      let t1 := { t with colls := { t.colls with completed := sat32 t.colls.completed 1 } }
      endWork c w 0 none (if w.collSignal then syncAdd w.collCell (BitVec.ofNat 32 (wf w 60 4)) t1 else t1)
    else s
  | _, _ => s

/-- A fabric die's supervisor as the unit of a collective engine's access (log 1). -/
def fabricDie (s : State) : Nat × State :=
  match freshValue s with
  | (f, t) => (uSup (28 + f.toNat % 2), t)

/-- A fabric die serves, whose engines run a collective (R306). -/
def fabricServes (s : State) : Bool := [28, 29].any (fun n => unitServes s (uSup n))

/-- A collective's access faults: its work item waits for its resolution (R237). -/
def faultColl (c id : Nat) (e : AccErr) (acc : Access) (s : State) : State :=
  match fabricDie s with
  | (u, t) => faultAt c id u 0 e acc t

/-- The signature of every present member is in (R292). -/
def sigsIn (s : State) (collId step : Nat) : Bool :=
  (collRanks s).all (fun r => s.colls.sigs.any (fun e => e.rank == r && e.sig.collId == collId && e.sig.step == step))

/-- A result may be written: a copy waits until no signature can differ (R292); a sum is formed only then. -/
def mayWrite (s : State) (w : Work) : Bool := !collCopies w.collOp || sigsIn s w.collId w.step

/-- A result reaches this member: written when the collective runs here, kept otherwise (R294). -/
def takeResult (r : CollResult) (s : State) : State :=
  let keep := { s with colls := { s.colls with unwritten := s.colls.unwritten ++ [r] } }
  match collWorkOf s r.collId r.step with
  | none => keep
  | some (c, w) =>
    if !(w.st == .issued && (flightOf s c w.id).isSome && mayWrite s w) then keep
    else if r.chunk ∈ w.partsDone then s
    else match writeChunk c w r s with
      | .error e => faultColl c w.id e .write keep
      | .ok (t, counts, fl) =>
        let h : Held := ⟨r.chunk, w.collOut, counts, BitVec.ofNat 32 fl, none⟩
        finishColl c w.id (workMod c w.id (fun y => { y with partsDone := ninsert y.partsDone r.chunk, held := y.held ++ [h] }) t)

/-- Writes the results that waited for their collective. -/
def takeKept (collId step : Nat) (s : State) : State :=
  let mine := s.colls.unwritten.filter (fun r => r.collId == collId && r.step == step)
  let rest := s.colls.unwritten.filter (fun r => !(r.collId == collId && r.step == step))
  mine.foldl (fun t r => takeResult r t) { s with colls := { s.colls with unwritten := rest } }

/-- Sends a result to a member, or takes it here (R292). -/
def sendResult (r : CollResult) (s : State) (rank : Nat) : State :=
  if rank = s.grp.rank then takeResult r s
  else sendMsg 4 rank "RESULT" ([r.collId, r.step, r.gen, r.chunk] ++ r.sums.map (fun b => b.toNat) ++ r.codes.flatMap elemArgs) s

/-! ### The owner's side (R293, R295, R296) -/

/-- The decision known for a step: a replayed step's record, else DECISION received (R288, R289). -/
def lateOf (s : State) (step : Nat) : Option (List LateEntry) :=
  match recordedEntries s step with
  | some l => some l
  | none => match s.grp.decided with
    | some (n, l) => if n = step then some l else none
    | none => none

/-- Ranks a decision gives a kind. -/
def ranksOfKind (l : List LateEntry) (k : Nat) : List Nat := (l.filter (fun e => e.kind == k)).map LateEntry.rank

/-- The signature this module knows of a collective. -/
def sigOf (s : State) (collId step : Nat) : Option CollSig :=
  (s.colls.sigs.find? (fun e => e.sig.collId == collId && e.sig.step == step)).map SigIn.sig

/-- A deferred contribution belongs to the collective of the same COLL_ID at the step after, which has STEP_REDUCE and the same ELEMENTS
(R295). -/
def enters (h : Contribution) (g : CollSig) : Bool :=
  g.collId == h.collId && g.step == h.step + 1 && sigStepReduce g && (h.elems.isNone || h.elems == some g.elements)

/-- A member whose signature is in and agrees. -/
def signed (s : State) (g : CollSig) (r : Nat) : Bool := s.colls.sigs.any (fun e => e.rank == r && e.sig == g)

/-- A held contribution to a chunk. -/
def heldFor (s : State) (collId step rank k : Nat) (deferred : Bool) : Option Contribution :=
  s.colls.holds.find? (fun h => h.collId == collId && h.step == step && h.rank == rank && h.chunk == k && h.deferred == deferred)

/-- The list L of a chunk (R293, R295), once its members are settled: DECISION of the step is in, every present member not marked late has
signed and contributed. A module in no group has no DECISION. Under dead reckoning L repeats the original one, so it also waits for the
deferred contributions of the step before that the record does not list as EXPIRED (R289). -/
def listOf (s : State) (g : CollSig) (k : Nat) : Option (List (List CollElem)) :=
  let late := if sigStepReduce g then lateOf s g.step else none
  let out := ranksOfKind (late.getD []) 1 ++ ranksOfKind (late.getD []) 2
  let ranks := (collRanks s).filter (fun r => decide (r ∉ out))
  let own := ranks.filterMap (fun r => heldFor s g.collId g.step r k false)
  let due := if sigStepReduce g then s.grp.prevLate.filter (fun r => decide (r ∉ ranksOfKind (late.getD []) 3)) else []
  let prev := (due.filterMap (fun r => heldFor s g.collId (g.step - 1) r k true)).filter (fun h => enters h g)
  let settled := !sigStepReduce g || !inGroup s || late.isSome
  let whole := (recordedEntries s g.step).isNone || prev.length == due.length
  if own.length = ranks.length ∧ ranks.all (signed s g) ∧ settled ∧ whole then some ((own ++ prev).map Contribution.data) else none

/-- Whether the sum of a chunk is formed in the present GEN (R296). -/
def formed (s : State) (collId step k : Nat) : Bool :=
  s.colls.sums.any (fun x => x.collId == collId && x.step == step && x.gen == s.grp.gen && x.chunk == k)

/-- Who receives a chunk's sum (R292). -/
def sumTargets (s : State) (g : CollSig) : List Nat :=
  if g.op = 1 then collRanks s else if g.op = 0 then [g.root] else [s.grp.rank]

/-- Raises the flags of the owner's conversions and sums in its own collective's context (R47, R53). -/
def raiseColl (collId step f : Nat) (s : State) : State :=
  match collWorkOf s collId step with
  | some (c, _) => raiseFp c f s
  | none => s

/-- Forms the sum of one owned chunk when its list is settled, and sends it. -/
def formChunk (g : CollSig) (s : State) (k : Nat) : State :=
  if formed s g.collId g.step k ∨ chunkOwner (collRanks s) k ≠ s.grp.rank then s
  else match listOf s g k with
    | none => s
    | some l =>
      match sumChunk s.dev.level (chunkSize g.elements k) l with
      | (sums, fl) =>
        let t := raiseColl g.collId g.step fl { s with colls := { s.colls with sums := ⟨g.collId, g.step, s.grp.gen, k, sums⟩ :: s.colls.sums } }
        (sumTargets s g).foldl (sendResult ⟨g.collId, g.step, s.grp.gen, k, sums, []⟩) t

/-- Forms every sum of a reduction that can be formed. -/
def formChunks (g : CollSig) (s : State) : State :=
  if collCopies g.op ∨ (g.collId, g.step) ∈ s.colls.mismatched then s
  else (List.range (chunkCount g.elements)).foldl (formChunk g) s

/-- Forms the sums of every collective known. -/
def formAll (s : State) : State :=
  ((s.colls.sigs.map SigIn.sig).foldl (fun l g => if l.any (fun h => h.collId == g.collId && h.step == g.step) then l else l ++ [g]) []).foldl
    (fun t g => formChunks g t) s

/-! ### Contributions and slices (R288, R292, R295) -/

/-- How an arriving contribution stands (R288, R295): in time, deferred, or discarded. -/
inductive Arrival where
  | inTime | deferred | discard
  deriving DecidableEq, Repr

/-- A DEFERRED contribution of the step before may still enter: until DECISION of this step, or, where a record tells which were EXPIRED,
whenever it comes (R288, R289). -/
def mayStillEnter (s : State) (rank : Nat) : Bool :=
  match recordedEntries s s.dev.step with
  | some l => decide (rank ∉ ranksOfKind l 3)
  | none => !decidedNow s

/-- The standing of a rank's contribution of a step. -/
def arrivalOf (s : State) (stepReduce : Bool) (rank step : Nat) : Arrival :=
  if !stepReduce then .inTime
  else if step + 1 = s.dev.step then (if rank ∈ s.grp.prevLate ∧ mayStillEnter s rank then .deferred else .discard)
  else if step < s.dev.step then .discard
  else
    let late := (lateOf s step).getD []
    if rank ∈ ranksOfKind late 1 then .deferred else if rank ∈ ranksOfKind late 2 then .discard else .inTime

/-- Holds a contribution. -/
def holdChunk (h : Contribution) (s : State) : State :=
  { s with colls := { s.colls with
      holds := s.colls.holds ++ [h], deferredIn := if h.deferred then sat32 s.colls.deferredIn 1 else s.colls.deferredIn } }

/-- Enters a contribution chunk as its standing says. -/
def enterChunk (rank collId step gen k : Nat) (data : List CollElem) (s : State) : State :=
  let h : Contribution := { collId := collId, step := step, gen := gen, rank := rank, chunk := k, data := data
                            elems := (sigOf s collId step).map CollSig.elements }
  match arrivalOf s ((sigOf s collId step).all sigStepReduce) rank step with
  | .discard => s
  | .deferred => holdChunk { h with deferred := true } s
  | .inTime => holdChunk h s

/-- Sends one chunk of a contribution or slice. -/
def sendChunk (c : Nat) (w : Work) (ranks : List Nat) (s : State) (e : Nat × List CollElem) : State :=
  let bytes := (e.2.map (fun x => (elemRaw x).length)).sum
  let t := { s with colls := { s.colls with digest := s.colls.digest ^^^ chunkDigest w.collId e.1 e.2 } }
  if collCopies w.collOp then
    let far := ranks.filter (fun r => r != s.grp.rank)
    let t1 := { t with colls := { t.colls with bytesSent := satAdd 64 t.colls.bytesSent (bytes * far.length) } }
    ranks.foldl (sendResult ⟨w.collId, w.step, s.grp.gen, e.1, [], e.2⟩) t1
  else
    let o := chunkOwner ranks e.1
    if o = s.grp.rank then enterChunk o w.collId w.step s.grp.gen e.1 e.2 t
    else
      let add (f : Coll) : Coll := if f.ctx = c ∧ f.work = w.id then { f with unacked := f.unacked ++ [(e.1, o)] } else f
      sendMsg 4 o "CHUNK" ([w.collId, w.step, s.grp.gen, e.1] ++ e.2.flatMap elemArgs)
        { t with colls := { t.colls with flight := t.colls.flight.map add, bytesSent := satAdd 64 t.colls.bytesSent bytes } }

/-- The chunks a collective sends, read from its input. -/
def readChunks (c : Nat) (r : ScaleRec) (w : Work) (s : State) : Except AccErr (List (Nat × List CollElem)) :=
  mapAcc (fun k => match readChunk s c r w k with
    | .ok l => .ok (k, l)
    | .error e => .error e) (chunksToSend s w)

/-- The slices of an ALL_GATHER or BROADCAST go out when the signatures of all present members agree (R292); a fault of the input leaves
them unsent (R237). -/
def sendSlices (collId step : Nat) (s : State) : State :=
  match collWorkOf s collId step with
  | none => s
  | some (c, w) =>
    match flightOf s c w.id, scaleOf s c w.inTensor with
    | some f, some r =>
      if f.sent || !collCopies w.collOp || w.st != .issued || !sigsIn s collId step then s
      else match readChunks c r w s with
        | .error e => faultColl c w.id e .read s
        | .ok data => data.foldl (sendChunk c w (collRanks s)) (flightMod c w.id (fun g => { g with sent := true }) s)
    | _, _ => s

/-- A collective in flight goes on: its slices go out, the results that waited are written. -/
def goOn (collId step : Nat) (s : State) : State := takeKept collId step (sendSlices collId step s)

/-! ### Signatures (R292) -/

/-- Drops what a collective has gathered here. -/
def dropGathered (collId step : Nat) (s : State) : State :=
  { s with colls := { s.colls with
      holds := s.colls.holds.filter (fun h => !(h.collId == collId && h.step == step))
      sums := s.colls.sums.filter (fun x => !(x.collId == collId && x.step == step))
      unwritten := s.colls.unwritten.filter (fun r => !(r.collId == collId && r.step == step)) } }

/-- A collective ends for a signature that differs (R292). -/
def endMismatched (c : Nat) (w : Work) (s : State) : State :=
  endWork c w stBADPARAM (some 0x0B03) { s with colls := { s.colls with aborted := sat32 s.colls.aborted 1 } }

/-- A collective's signatures differ: nothing of it is written, every member's descriptor completes with 0x0B03. The signature that
differs goes to every member, so that those that own no chunk learn of it (log 52). -/
def mismatchColl (rank : Nat) (g : CollSig) (s : State) : State :=
  if (g.collId, g.step) ∈ s.colls.mismatched then s
  else
    let t := { s with colls := { s.colls with mismatched := (g.collId, g.step) :: s.colls.mismatched } }
    let t1 := dropGathered g.collId g.step (sendAll 4 "SIGNATURE" (sigArgs rank g) ((collRanks s).filter (fun r => r != s.grp.rank)) t)
    match collWorkOf t1 g.collId g.step with
    | some (c, w) =>
      let t2 := dropFlight c w.id t1
      endMismatched c w t2
    | none => t1

/-- What a signature that agrees lets happen: sums of a reduction, slices and results of a copy. -/
def settleSig (g : CollSig) (s : State) : State := goOn g.collId g.step (formChunks g s)

/-- A signature reaches this module, its own among them. -/
def takeSignature (rank : Nat) (g : CollSig) (s : State) : State :=
  if g.step < s.dev.step then s
  else
    let differs := s.colls.sigs.any (fun e => e.sig.collId == g.collId && e.sig.step == g.step && e.sig != g)
    let t := { s with colls := { s.colls with sigs := s.colls.sigs ++ [⟨rank, s.grp.gen, g⟩] } }
    if differs then mismatchColl rank g t else settleSig g t

/-- COLLECTIVE_SIGNATURE (R292). -/
def execCollectiveSignature (rank : Nat) (sig : CollSig) (s : State) : Out :=
  gate (decide (rank ∈ collRanks s) && rank != s.grp.rank) "not from a present member" (takeSignature rank sig s)

/-! ### Start (R27, R291, R292) -/

/-- Collectives of a step that an epoch abort of the present GEN ended, with those after it (R297). -/
def abortedHere (s : State) (step : Nat) : Bool := s.colls.abortedFrom.any (fun a => a.1 == s.grp.gen && decide (a.2 ≤ step))

/-- A collective may start: its step is the current one, released and not aborted, no deferred descriptor it conflicts with is left. -/
def collReady (s : State) (x : Ctx) (w : Work) : Bool :=
  w.opcode == 0x0520 && w.st == .waiting && mayIssue s x && w.step == s.dev.step && decide (0 ∉ s.bnd.waves) && !abortedHere s w.step &&
    !w.waitOn.any (fun i => (x.work i).isSome)

/-- Fewer than 64 collectives are in flight. -/
def collRoom (s : State) : Bool := decide ((s.colls.flight.filter (fun f => !f.done)).length < 64)

/-- An earlier accepted collective is ready to start: later ones wait in order of acceptance. -/
def collBefore (s : State) (w : Work) : Bool :=
  s.ctxs.any (fun e => e.2.works.any (fun v => decide (v.id < w.id) && collReady s e.2 v))

/-- The units of a collective are the fabric dies, whose engines carry it (R27). -/
def staleFabric (s : State) (w : Work) : List Nat := [28, 29].filter (fun n => epochOlder w.epoch (changeEpoch s (uSup n)))

/-- Who receives this member's signature (R292): every owner; under ALL_GATHER and BROADCAST every member, which compares before it writes
(log 52). -/
def sigTargets (s : State) (w : Work) : List Nat :=
  let ranks := collRanks s
  (ranks.filter (fun o => o != s.grp.rank)).filter (fun o => collCopies w.collOp ||
    (List.range (chunkCount w.collElems)).any (fun k => chunkOwner ranks k == o))

/-- A collective starts: its signature first, then its chunks; a fault of its input comes before anything is sent (R237). One whose
signatures are known to differ ends at once (R292). -/
def startColl (c : Nat) (w : Work) (s : State) : State :=
  match staleFabric s w with
  | n :: r => endWork c w stCHARTSTALE (some (uSup n)) ((n :: r).foldl (fun t m => logSkew (uSup m) 1 m w.epoch t) s)
  | [] =>
    if (w.collId, w.step) ∈ s.colls.mismatched then endMismatched c w s
    else match scaleOf s c w.inTensor with
      | none => endWork c w stBADPARAM (some 0x0B01) s
      | some r =>
        match readChunks c r w s with
        | .error e => faultColl c w.id e .read s
        | .ok data =>
          let f : Coll := { ctx := c, work := w.id, sig := w.sig, gen := s.grp.gen }
          let t := workMod c w.id (fun y => { y with st := .issued, started := true, parts := (chunksToWrite s w).length })
            { s with colls := { s.colls with flight := s.colls.flight ++ [f] } }
          let t1 := takeSignature s.grp.rank w.sig (sendAll 4 "SIGNATURE" (sigArgs s.grp.rank w.sig) (sigTargets s w) t)
          if (w.collId, w.step) ∈ t1.colls.mismatched then t1
          else
            let t2 := if collCopies w.collOp then t1 else data.foldl (sendChunk c w (collRanks s)) t1
            handoverIfOut (finishColl c w.id (takeKept w.collId w.step (formChunks w.sig t2)))

/-- A collective's row: the work item's OP is the row's. -/
def collRow (op c id : Nat) (s : State) : Out :=
  match ctxOf s c with
  | none => .refused (.notEnabled "no such context")
  | some x =>
    match x.work id with
    | none => .refused (.notEnabled "no such descriptor")
    | some w =>
      gate (w.collOp == op && collReady s x w && collRoom s && fabricServes s && !collBefore s w) "the collective may not start"
        (withRecords c id (startColl c w) s)

/-- REDUCE (R292). -/
def execReduce (c id : Nat) (s : State) : Out := collRow 0 c id s

/-- ALL_REDUCE (R292). -/
def execAllReduce (c id : Nat) (s : State) : Out := collRow 1 c id s

/-- ALL_GATHER (R292). -/
def execAllGather (c id : Nat) (s : State) : Out := collRow 2 c id s

/-- REDUCE_SCATTER (R292). -/
def execReduceScatter (c id : Nat) (s : State) : Out := collRow 3 c id s

/-- BROADCAST (R292). -/
def execBroadcast (c id : Nat) (s : State) : Out := collRow 4 c id s

/-! ### Chunks, results, acknowledgements -/

/-- Data of a GEN older than the present one (R296). -/
def staleGen (s : State) (gen : Nat) : Bool := decide (gen < s.grp.gen)

/-- Data of the GEN an epoch abort ended, which is refused (R297). -/
def refusedGen (s : State) (gen : Nat) : Bool := s.colls.abortedFrom.any (fun a => a.1 == gen)

/-- Counts data discarded for its GEN (R296). -/
def countStale (s : State) : State := { s with colls := { s.colls with staleGen := sat32 s.colls.staleGen 1 } }

/-- What becomes of data by its GEN (R296, R297): discarded and counted, refused, or taken. -/
def byGen (gen : Nat) (take : State → State) (s : State) : State :=
  if staleGen s gen then countStale s else if refusedGen s gen then s else take s

/-- A rank the group chart marks FAILED (R295). -/
def rankFailed (s : State) (rank : Nat) : Bool := s.grp.recs.any (fun r => r.rank == rank && r.state == 2)

/-- An owner takes a contribution chunk (R293, R295, R296); it is acknowledged even where it is discarded. -/
def takeChunk (rank collId step gen k : Nat) (data : List CollElem) : State → State :=
  byGen gen (fun s =>
    let t := sendMsg 4 rank "CHUNK_ACK" [collId, step, k] s
    let t1 := enterChunk rank collId step gen k data t
    match sigOf s collId step with
    | some g => formChunks g t1
    | none => formAll t1)

/-- COLLECTIVE_CHUNK_RECEIVE (R293): from a rank the group chart marks FAILED it is discarded (R295). -/
def execCollectiveChunkReceive (rank collId step gen chunk : Nat) (data : List CollElem) (s : State) : Out :=
  gate (rank != s.grp.rank && inGroup s && decide (data.length ≤ chunkElems) && s.grp.recs.any (fun r => r.rank == rank)) "not from a member"
    (if rankFailed s rank then s else takeChunk rank collId step gen chunk data s)

/-- COLLECTIVE_RESULT_RECEIVE (R294). -/
def execCollectiveResultReceive (collId step gen chunk : Nat) (sums : List (BitVec 32)) (codes : List CollElem) (s : State) : Out :=
  gate (inGroup s && decide (sums.length ≤ chunkElems) && decide (codes.length ≤ chunkElems)) "no such result"
    (byGen gen (fun t => if (collId, step) ∈ t.colls.mismatched then t else takeResult ⟨collId, step, gen, chunk, sums, codes⟩ t) s)

/-- COLLECTIVE_CHUNK_ACK (R286, R292). -/
def execCollectiveChunkAck (collId step chunk owner : Nat) (s : State) : Out :=
  match s.colls.flight.find? (fun f => f.sig.collId == collId && f.sig.step == step && decide ((chunk, owner) ∈ f.unacked)) with
  | none => .refused (.notEnabled "no such chunk is unacknowledged")
  | some f =>
    let left := f.unacked.filter (fun u => u != (chunk, owner))
    .next (handoverIfOut (if f.done && left.isEmpty then dropFlight f.ctx f.work s else flightMod f.ctx f.work (fun g => { g with unacked := left }) s))

/-! ### What a decision and a closed step do to holdings (R288, R295, R296) -/

/-- The distinct contributions of some chunks. -/
def contributions (l : List Contribution) : List (Nat × Nat) := (l.map (fun h => (h.rank, h.collId))).eraseDups

/-- DECISION(n) reaches an owner: holdings of members now late change their standing, deferred holdings of step n − 1 that are EXPIRED or
that no collective takes are dropped, sums are formed. -/
def settleDecision (step : Nat) (l : List LateEntry) (s : State) : State :=
  let sr (h : Contribution) : Bool := (sigOf s h.collId h.step).all sigStepReduce
  let dropped := ranksOfKind l 2
  let late := ranksOfKind l 1
  let gone (h : Contribution) : Bool := h.deferred && decide (h.step < step) &&
    (decide (h.rank ∈ ranksOfKind l 3) || !((collWorkOf s h.collId step).any (fun e => enters h e.2.sig) || (sigOf s h.collId step).any (enters h)))
  let lost := s.colls.holds.filter gone
  let keep := (s.colls.holds.filter (fun h => !gone h && !(h.step == step && decide (h.rank ∈ dropped) && sr h))).map (fun h =>
    if h.step = step ∧ h.rank ∈ late ∧ sr h then { h with deferred := true } else h)
  let newly := (keep.filter (fun h => h.deferred && h.step == step)).length - (s.colls.holds.filter (fun h => h.deferred && h.step == step)).length
  formAll { s with colls := { s.colls with holds := keep, expired := sat32 s.colls.expired (contributions lost).length
                                           deferredIn := sat32 s.colls.deferredIn newly } }

/-- CLOSE(n) commits the provisional accumulators of step n (R296): deferred holdings of n are kept for n + 1, the rest is done with. -/
def commitColls (step : Nat) (s : State) : State :=
  { s with colls := { s.colls with
      holds := (s.colls.holds.filter (fun h => decide (h.step > step) || (h.deferred && h.step == step))).map (fun h =>
        if h.step = step then { h with committed := true } else h)
      sums := s.colls.sums.filter (fun x => decide (x.step > step))
      sigs := s.colls.sigs.filter (fun e => decide (e.sig.step > step))
      mismatched := s.colls.mismatched.filter (fun m => decide (m.2 > step))
      digest := 0 } }

/-! ### EPOCH_ABORT and DEADLINE_SET -/

/-- Collectives of a step not below `step` that wait to start: they belong to the GEN in which they would, so one behind the present is
past them. -/
def waitingColls (step gen : Nat) (s : State) : List (Nat × Work) :=
  if gen + 1 < s.grp.gen then []
  else s.ctxs.flatMap (fun e => (e.2.works.filter (fun w => w.opcode == 0x0520 && !(w.st == .issued) && decide (w.step ≥ step) &&
    (flightOf s e.1 w.id).isNone)).map (fun w => (e.1, w)))

/-- Aborts the collectives of a GEN from a step onward (R297): what is gathered and not committed is discarded, nothing more is written,
descriptors in flight or waiting end; committed holdings of steps below it are kept. -/
def abortEpoch (step gen : Nat) (s : State) : State :=
  let hit (g n : Nat) : Bool := g == gen && decide (n ≥ step)
  let ended := (s.colls.flight.filter (fun f => hit f.gen f.sig.step && !f.done)).filterMap (fun f =>
    ((ctxOf s f.ctx).bind (fun x => x.work f.work)).map (fun w => (f.ctx, w)))
  let all := ended ++ waitingColls step gen s
  let t := { s with colls := { s.colls with
    holds := s.colls.holds.filter (fun h => !hit h.gen h.step)
    sums := s.colls.sums.filter (fun x => !hit x.gen x.step)
    unwritten := s.colls.unwritten.filter (fun r => !hit r.gen r.step)
    uncommitted := s.colls.uncommitted.filter (fun u => !hit u.gen u.step)
    sigs := s.colls.sigs.filter (fun e => !hit e.gen e.sig.step)
    mismatched := s.colls.mismatched.filter (fun m => decide (m.2 < step))
    flight := s.colls.flight.filter (fun f => !hit f.gen f.sig.step)
    aborted := sat32 s.colls.aborted all.length
    abortedFrom := some (gen, step) } }
  all.foldl (fun u e => endWork e.1 e.2 stABORTED (some 0x0B10) u) t

def chkEpochAbort (p : Packet) : Checks := { lenOk := p.paramLen == 16, fieldsOk := allZero ((p.params.drop 10).take 6) }

def acceptEpochAbort (p : Packet) (s : State) : State :=
  acceptPacket 0x0521 (chkEpochAbort p) (fun _ t => completeOk p 0x0521 (abortEpoch (pf p 0 8) (pf p 8 2) t)) p s

/-- EPOCH_ABORT (R297). -/
def execEpochAbort (p : Packet) (s : State) : Out := packetOut 0x0521 acceptEpochAbort p s

/-- Ranges of DEADLINE_SET (R287). -/
def deadlineOk (p : Packet) : Bool :=
  decide (pf p 0 1 ≤ 2) && decide (pf p 1 1 ≤ 1) && within 269 (pf p 2 2) 512 && within 1000 (pf p 4 4) 60000000 &&
    within 100 (pf p 8 4) 600000 && pf p 12 4 == 0

def chkDeadline (p : Packet) : Checks := { lenOk := p.paramLen == 16, fieldsOk := deadlineOk p }

/-- A deadline's parameters as a mirror carries them (R285, R287). -/
def deadlineArgs (d : Deadline) : List Nat := [d.mode, d.policy, d.factor, d.absUs, d.limitMs]

/-- DEADLINE_SET's effect (R287), mirrored to the deputy first (R285): in force from the deadline of the step after the next CLOSE. -/
def bodyDeadline (p : Packet) (s : State) : State :=
  if !s.grp.manager then completeOpen p 0x0530 stROLE s
  else
    let d : Deadline := { mode := pf p 0 1, policy := pf p 1 1, factor := pf p 2 2, absUs := pf p 4 4, limitMs := pf p 8 4 }
    let t := if s.grp.deputy = 0xFFFF then s else sendMsg 1 s.grp.deputy "MIRROR_DEADLINE" (deadlineArgs d) s
    completeOk p 0x0530 { t with grp := { t.grp with newDeadline := some d } }

def acceptDeadline (p : Packet) (s : State) : State := acceptPacket 0x0530 (chkDeadline p) (fun _ t => bodyDeadline p t) p s

/-- DEADLINE_SET (R287). -/
def execDeadlineSet (p : Packet) (s : State) : Out := packetOut 0x0530 acceptDeadline p s

end Sys2Proof.Machine
end

