-- ==== Sys2Proof/Machine/Faults.lean ====
section
/-! DEFINITION. Fault records and their resolution (R229 to R234), slices, pre-emption and restores (R223 to R228). -/
namespace Sys2Proof.Machine

/-! ### FAULT_GET -/

/-- DETAIL of a record, 32 bytes (R199, R206, R137, R182, R229). -/
def detailBytes : FaultDetail → List Byte
  | .translation va unit access level reason target entry entryDpa =>
    leBytes 8 va ++ leBytes 2 unit ++ leBytes 1 access ++ leBytes 1 level ++ leBytes 1 reason ++ leBytes 1 target ++ zeros 2 ++
      leBytes 8 entry ++ leBytes 8 entryDpa
  | .memory dpa unit access => leBytes 8 dpa ++ leBytes 2 unit ++ leBytes 1 access ++ zeros 21
  | .stack code seg top own => leBytes 2 code ++ leBytes 1 seg ++ zeros 1 ++ leBytes 4 top ++ leBytes 4 own ++ zeros 20
  | .overrun b n => leBytes 8 b ++ leBytes 4 n ++ zeros 20

/-- QUEUE of a record: submission queue 0 to 3; 0xFF for ingest and for a command of the admin queue (log 25). -/
def recordQueue (q : Nat) : Nat := if q = 0 ∨ q > 64 then 0xFF else (q - 1) % 4

/-- A record's 64 bytes (R229). -/
def faultBytes (c i : Nat) (r : FaultRec) : List Byte :=
  leBytes 1 r.cls ++ leBytes 1 c ++ leBytes 1 i ++ leBytes 1 (recordQueue r.queue) ++ leBytes 4 r.hostTag.toNat ++ leBytes 2 r.opcode ++ zeros 2 ++
    leBytes 4 r.epoch.toNat ++ leBytes 8 r.step ++ leBytes 8 r.resume ++ detailBytes r.detail

/-- The payload of FAULT_GET (R252). -/
def faultPayload (c : Nat) (x : Ctx) : List Byte :=
  leBytes 1 x.faults.length ++ leBytes 1 (if x.parked then 1 else 0) ++ zeros 14 ++ x.faults.flatMap (fun e => faultBytes c e.1 e.2)

def chkFaultGet (p : Packet) : Checks := { lenOk := p.paramLen == 0, charge := some 1040 }

def acceptFaultGet (p : Packet) (s : State) : State :=
  acceptPacket 0x0600 (chkFaultGet p) (fun idx t => withCtx p 0x0600 idx t (fun x => finishSlot p 0x0600 idx 0 (faultPayload p.ctx x) t)) p s

/-- FAULT_GET (R232, R252). -/
def execFaultGet (p : Packet) (s : State) : Out := packetOut 0x0600 acceptFaultGet p s

/-! ### Resolving a record (R232, R233) -/

/-- A work item under an epoch, its DMA descriptors with it. -/
def Work.under (w : Work) (e : Word) : Work := { w with epoch := e, dma := w.dma.map (fun r => { r with epoch := e }) }

/-- Resumed descriptors are reissued under the current chart epoch (R228). -/
def refreshEpochs (c : Nat) (s : State) : State :=
  ctxMod c (fun x => { x with works := x.works.map (fun w => w.under s.chart.epoch) }) s

/-- A SYNC_OP that faulted while it waited is presented again (R227, R235); the ADD of an ARRIVE has been applied. -/
def waitAgain (c : Nat) (w : Work) (s : State) : State :=
  let r : Requester := { unit := binnacleUnit s, ctx := some c, work := some w.id }
  let cell := fieldAt w.raw 2 2
  match actOf (fieldAt w.raw 0 1) (BitVec.ofNat 32 (fieldAt w.raw 4 4)) (BitVec.ofNat 32 (fieldAt w.raw 8 4)) with
  | .waitEq v => presentWait ⟨cell, false, v, r, false⟩ s
  | .waitGe v => presentWait ⟨cell, true, v, r, false⟩ s
  | .arrive _ v => presentWait ⟨cell, true, v, r, false⟩ s
  | _ => s

/-- Frees a record; a fault that waited for a slot takes it (R230); with no record left the context is unparked (R232). -/
def freeRecordSlot (c i : Nat) (s : State) : State :=
  let t := ctxMod c (fun x => { x with faults := tdel x.faults i }) s
  match ctxOf t c with
  | none => t
  | some x =>
    match x.lateFaults with
    | f :: r => addFault c f true (ctxMod c (fun y => { y with lateFaults := r }) t)
    | [] => if x.faults.isEmpty then reschedule (refreshEpochs c (ctxMod c (fun y => { y with parked := false }) t)) else t

/-- A faulted descriptor resumes at its resume point under R227. -/
def resumeWork (c : Nat) (f : FaultRec) (w : Work) (s : State) : State :=
  let w' := { w.under s.chart.epoch with st := .waiting }
  if f.cls = 3 then placeKernel c w' (workDrop c w.id s)
  else if w.opcode = 0x0120 then
    match applyScale c ((w.raw.drop 8).take 64) s with
    | .ok t => finishWork c w 0 none none t
    | .error e => faultWork c w (accDetail e (binnacleUnit s) .write) 0 (countPoison e s)
  else if w.opcode = 0x0520 ∧ (flightOf s c w.id).isNone then workMod c w.id (fun _ => w') s
  else
    let t := workMod c w.id (fun _ => { w' with st := .issued }) s
    if w.opcode = 0x0520 then goOn w.collId w.step t else if w.opcode = 0x0222 then waitAgain c w t else t

/-- RETRY (R232): the descriptor resumes; ingest resumes its read at its frame (R188). -/
def doRetry (c i : Nat) (s : State) : State :=
  match (ctxOf s c).bind (fun x => tget x.faults i) with
  | none => s
  | some f =>
    let t := freeRecordSlot c i s
    match f.work with
    | some id => (match (ctxOf t c).bind (fun x => x.work id) with
      | some w => reschedule (resumeWork c f w t)
      | none => t)
    | none =>
      if f.own then t
      else settleIngest (ctxMod c (fun x =>
        if x.ingest.faultStopped then { x with ingest := { x.ingest with running := true, faultStopped := false } } else x) t)

/-- An abort record of the step manifest (R233): the record's step and host tag, context, action (log 53). -/
def abortRecord (c action : Nat) (f : FaultRec) (s : State) : State :=
  manRecord s.dev.step 4 (leBytes 8 f.step ++ leBytes 4 f.hostTag.toNat ++ leBytes 1 c ++ leBytes 1 action ++ zeros 2) s

/-- The waits of some requesters leave the wait lists, their requesters and the release waves. -/
def dropWaits (p : Requester → Bool) (s : State) : State :=
  { s with sync := { s.sync with
      waits := s.sync.waits.filter (fun w => !p w.who), held := s.sync.held.filter (fun w => !p w.who)
      releases := s.sync.releases.filter (fun r => !p r.who) } }

/-- A descriptor ends with ST_ABORTED; what it has written stands and is counted (R98, R232). -/
def abortWork (c : Nat) (w : Work) (detail : Option Nat) (s : State) : State :=
  let t := if w.opcode = 0x0520 then holdColl c ((flightOf s c w.id).elim s.grp.gen Coll.gen) w s
    else withRecords c w.id (fun u => w.held.foldl (fun v h => mergeHeld c w.id w.hostTag w.step h v) u) s
  endWork c w stABORTED detail (dropFlight c w.id (dropChains c w.id (dropWaits (fun r => r.ctx == some c && r.work == some w.id) t)))

/-- ABORT_DESCRIPTOR (R232). A stopped ingest stays stopped: after INGEST_OVERRUN until a new schedule, else until INGEST_START. -/
def doAbort (c i : Nat) (s : State) : State :=
  match (ctxOf s c).bind (fun x => tget x.faults i) with
  | none => s
  | some f =>
    let t := freeRecordSlot c i (abortRecord c 1 f s)
    match f.work with
    | some id => (match (ctxOf t c).bind (fun x => x.work id) with
      | some w => abortWork c w none t
      | none => t)
    | none => if f.own then t else ctxMod c (fun x => { x with ingest := { x.ingest with faultStopped := false } }) t

/-- A context's queues are emptied: commands not accepted are dropped (R232; log 54). -/
def emptyQueues (c : Nat) (s : State) : State :=
  (List.range 4).foldl (fun t i =>
    { t with queues := { t.queues with q := tmod t.queues.q (1 + 4 * c + i) (fun x =>
        { x with head := x.sqTail, owing := x.owing - x.held.length, held := [] }) } }) s

/-- The SYNC_OPs of a context that were accepted in FIXING and wait to start are aborted with its other descriptors (R232, R248). -/
def abortStarts (c : Nat) (s : State) : State :=
  let mine (a : Nat × Packet) : Bool := a.1 == 0x0222 && a.2.ctx == c
  (s.dev.starts.filter mine).foldl (fun t a => completeOpen a.2 0x0222 stABORTED t) { s with dev := { s.dev with starts := s.dev.starts.filter (fun a => !mine a) } }

/-- ABORT_CONTEXT (R232). -/
def doAbortContext (c i : Nat) (s : State) : State :=
  match ctxOf s c with
  | none => s
  | some x =>
    let t := match tget x.faults i with
      | some f => abortRecord c 2 f s
      | none => s
    let t1 := x.works.foldl (fun u w => abortWork c w none u) (abortStarts c (emptyQueues c t))
    settleIngest (ctxMod c (fun y => { y with
      faults := [], lateFaults := [], parked := false, savedWaits := [], ingest := { y.ingest with faultStopped := false } }) t1)

def chkFaultResolve (p : Packet) : Checks :=
  { lenOk := p.paramLen == 4, fieldsOk := decide (pf p 1 1 ≤ 2) && pf p 2 2 == 0 }

/-- FAULT_RESOLVE's effect (R232); in dead reckoning a descriptor that has an abort record takes its action (R233). -/
def bodyFaultResolve (p : Packet) (s : State) : State :=
  withCtx p 0x0601 0xFFFF s (fun x =>
    match tget x.faults (pf p 0 1) with
    | none => completeWith p 0x0601 stBADPARAM 0x0904 s
    | some f =>
      if pf p 1 1 = 0 ∧ f.cls = 4 then completeWith p 0x0601 stBADPARAM 0x0905 s
      else completeOk p 0x0601
        (match (replayedAbort s p.ctx f.step f.hostTag).getD (pf p 1 1) with
         | 0 => doRetry p.ctx (pf p 0 1) s
         | 1 => doAbort p.ctx (pf p 0 1) s
         | _ => doAbortContext p.ctx (pf p 0 1) s))

def acceptFaultResolve (p : Packet) (s : State) : State := acceptPacket 0x0601 (chkFaultResolve p) (fun _ t => bodyFaultResolve p t) p s

/-- FAULT_RESOLVE (R232). -/
def execFaultResolve (p : Packet) (s : State) : Out := packetOut 0x0601 acceptFaultResolve p s

/-- A pending record of a context. -/
def pendingRecord (s : State) (c i : Nat) : Option FaultRec := (ctxOf s c).bind (fun x => tget x.faults i)

/-- RETRY as the action of a resolution (R232); dead reckoning does not retry what an abort record names (R233). -/
def execRetry (c i : Nat) (s : State) : Out :=
  gate ((pendingRecord s c i).any (fun f => f.cls != 4 && (replayedAbort s c f.step f.hostTag).isNone)) "no record that may be retried" (doRetry c i s)

/-- ABORT_DESCRIPTOR as the action of a resolution (R232). -/
def execAbortDescriptor (c i : Nat) (s : State) : Out := gate (pendingRecord s c i).isSome "no such record" (doAbort c i s)

/-- ABORT_CONTEXT as the action of a resolution (R232). -/
def execAbortContext (c i : Nat) (s : State) : Out := gate (pendingRecord s c i).isSome "no such record" (doAbortContext c i s)

/-! ### Slices, pre-emption, restore (R223 to R228) -/

/-- The resident contexts but one. -/
def residentsBut (s : State) (c : Nat) : List Ctx := (s.ctxs.filter (fun e => e.2.resident && e.1 != c)).map Prod.snd

/-- The resident contexts but `c` whose slices have ended, and those whose slices run (R223, rules 1 and 2). -/
def endedBut (s : State) (c : Nat) : List Ctx := (s.ctxs.filter (fun e => e.2.resident && e.1 != c && !e.2.sliceRun)).map Prod.snd
def runningBut (s : State) (c : Nat) : List Ctx := (s.ctxs.filter (fun e => e.2.resident && e.1 != c && e.2.sliceRun)).map Prod.snd

/-- A waiting context could fit only by taking the resources of context `c` (R223, rule 2): with some residents of ended slices gone it fits
when `c` goes too, and does not while `c` stays. -/
def contended (s : State) (c : Nat) (x : Ctx) : Bool :=
  s.ctxs.any (fun e => e.1 != c && e.2.runnable && !e.2.resident && !e.2.saving &&
    (endedBut s c).sublists.any (fun k => fits (e.2 :: k ++ runningBut s c) && !fits (e.2 :: x :: k ++ runningBut s c)))

/-- A context without its cluster stores and the windows of its stack cache. -/
def emptyStores (x : Ctx) : Ctx := { x with store := [], astk := { x.astk with held := [] } }

/-- Pre-emption begins (R225, R82, R218): the gangs stop, the context's waits are removed, and its stores and stack windows, which are never
saved, are lost (R226). -/
def preempt (c : Nat) (s : State) : State :=
  let t := stopGangs c s
  let mine (w : Wait) : Bool := w.who.ctx == some c && w.who.rank.isNone
  let ws := (t.sync.waits ++ t.sync.held).filter mine
  let t1 := { t with sync := { t.sync with
    waits := t.sync.waits.filter (fun w => !mine w), held := t.sync.held.filter (fun w => !mine w) } }
  ctxMod c (fun x => { (emptyStores x) with saving := true, sliceRun := false, savedWaits := x.savedWaits ++ ws }) t1

/-- SLICE_EXPIRY (R223); a pre-emption waits for the end of a retune (R341). -/
def execSliceExpiry (c : Nat) (s : State) : Out :=
  match ctxOf s c with
  | none => .refused (.notEnabled "no such context")
  | some x =>
    gate (x.resident && !x.saving && !s.grp.retune) "the context does not run"
      (if contended s c x then preempt c s else ctxMod c (fun y => { y with sliceRun := false }) s)

/-- The 64-byte header of a save area (R226): its magic; the places of its other fields are not stated (log 55). -/
def saveHeader (s : State) : List Byte × State :=
  match freeBytes 8 s with
  | (l, t) => (leBytes 4 0x5854435A ++ l.take 60, t)

/-- The areas in use of a context's save area, but for its header (R226): offset and bytes. -/
def savedAreas (x : Ctx) : List (Nat × Nat) :=
  [(0x40, 4032)] ++ x.faults.map (fun e => (0x1000 + 64 * e.1, 64)) ++ [(0x2000, 1024), (0x4000, 32 + 32 * x.works.length)] ++
    [(0x14000, 16 * (x.works.filter (fun w => w.st == .deferred)).length)] ++ x.stripes.map (fun e => (0x18000 + 1024 * e.1, 1024)) ++
    [(0x100000, 512 * x.scales.length)]

/-- The bytes of an area: the fault records of R229; of the other areas R226 states no layout, so their bytes are free (log 55). -/
def areaBytes (c : Nat) (x : Ctx) (a : Nat × Nat) (s : State) : List Byte × State :=
  match if 0x1000 ≤ a.1 ∧ a.1 < 0x1400 then tget x.faults ((a.1 - 0x1000) / 64) else none with
  | some f => (faultBytes c ((a.1 - 0x1000) / 64) f, s)
  | none => match freeBytes (a.2 / 8) s with
    | (l, t) => (l, t)

/-- Writes the areas in use, in ascending order: their bytes. -/
def saveAreas (c : Nat) (x : Ctx) : List (Nat × Nat) → State → List Byte × State
  | [], s => ([], s)
  | a :: r, s =>
    match areaBytes c x a s with
    | (l, t) => match saveAreas c x r (moduleWrite c (x.saveVa + a.1) l t) with
      | (m, u) => (l ++ m, u)

/-- The sparing of a cluster of a context is being published or waits for it (R235). -/
def sparingUnder (x : Ctx) (s : State) : Bool :=
  (s.chart.waiting ++ (s.chart.pub.map Publication.change).toList).any (fun ch =>
    ch.spared && ch.moves.any (fun m => x.claims m.1))

/-- CONTEXT_SAVE_COMPLETE (R225, R226): the areas in use are written, the header last; the resources go to the next context. The sparing of
a cluster that failed during the save comes first (R235). -/
def execContextSaveComplete (c : Nat) (s : State) : Out :=
  match ctxOf s c with
  | none => .refused (.notEnabled "no such context")
  | some x =>
    gate (x.saving && !sparingUnder x s) "the context is not being saved, or a cluster of it is being spared"
      (match saveAreas c x (savedAreas x) s with
       | (l, t0) => match saveHeader t0 with
         | (h, t) =>
           let t1 := moduleWrite c x.saveVa h t
           reschedule (ctxMod c (fun y => { y with
             resident := false, saving := false, savedOut := true, savedHeader := h, savedUse := savedAreas x, savedCrc := crc32c l
             savedRegs := blockRegs s.dev.step x, saveCount := y.saveCount + 1, waitSince := t1.nextId }) t1))

/-- The context is among those that come next (R223, rule 3). -/
def comesNext (s : State) (c : Nat) : Bool := decide (c ∈ nextResidents s.ctxs)

/-- Presents waits again, in order (R227). -/
def presentAll (ws : List Wait) (s : State) : State := ws.foldl (fun t w => presentWait { w with shared := false } t) s

/-- The fault record of a restore (R226, R235): resume point all ones; its descriptor's fields are free, there being none. -/
def restoreFault (c : Nat) (d : FaultDetail) (s : State) : State :=
  match freshValue s with
  | (a, s1) => match freshValue s1 with
    | (b, s2) => match freshValue s2 with
      | (e, s3) =>
        let f : FaultRec := { cls := d.cls, queue := 0xFF, hostTag := a.setWidth 32, opcode := b.toNat % 65536, epoch := e.setWidth 32
                              step := b.toNat / 65536, resume := 2 ^ 64 - 1, detail := d, work := none, own := true }
        reschedule (addFault c f true s3)

/-- The header of a save area and the bytes of the areas in use. -/
def readSaved (s : State) (c : Nat) (x : Ctx) : Except AccErr (List Byte × List Byte) :=
  match vaRead s c x.saveVa 64, mapAcc (fun a => vaRead s c (x.saveVa + a.1) a.2) x.savedUse with
  | .ok h, .ok l => .ok (h, l.flatten)
  | .error e, _ => .error e
  | _, .error e => .error e

/-- A restore (R226 to R228): the header must be the one written last, with the CRC-32C of the areas in use (log 55); then the context goes on
under the current epoch. -/
def restoreContext (c : Nat) (x : Ctx) (s : State) : State :=
  match readSaved s c x with
  | .error e => restoreFault c (accDetail e (binnacleUnit s) .read) (countPoison e s)
  | .ok (h, l) =>
    if h = x.savedHeader ∧ crc32c l = x.savedCrc then
      let t := ctxMod c (fun y => { y with
        savedOut := false, savedHeader := [], savedUse := [], resident := true, sliceRun := true, waitSince := 0, savedWaits := [] }) s
      reschedule (presentAll x.savedWaits (refreshEpochs c (ctxMod c (fun y => { y with works := y.works.map (retestHalos s y) }) t)))
    else
      let dpa := match translate s c x.saveVa false with
        | .ok (.dev a _) => a
        | _ => 0xFFFFFFFFFFFFFFFF
      restoreFault c (.memory dpa (binnacleUnit s) 1) s

/-- CONTEXT_RESTORE (R227). -/
def execContextRestore (c : Nat) (s : State) : Out :=
  match ctxOf s c with
  | none => .refused (.notEnabled "no such context")
  | some x =>
    gate (x.savedOut && !x.resident && x.runnable && fits (x :: residentsBut s c) && comesNext s c) "the context is not the next to be restored"
      (restoreContext c x s)

end Sys2Proof.Machine
end

