-- ==== Sys2Proof/Machine/Media.lean ====
section
/-! DEFINITION. From a record to tensors: XRS frames and CBOR bodies (R162 to R164), fields (R169), decoded pixels and samples (R170,
R171), the tokeniser (R173, R174), augmentation (R175), the layout of a ring entry (R181). -/
namespace Sys2Proof.Machine

/-! ### UTF-8 and CBOR -/

/-- A continuation byte. -/
def contByte (b : Byte) : Bool := b.toNat / 64 == 2

/-- Valid UTF-8 (no overlong form, no surrogate, nothing above U+10FFFF). -/
def utf8Ok : List Byte → Bool
  | [] => true
  | [a] => decide (a.toNat < 128)
  | [a, b] => if a.toNat < 128 then decide (b.toNat < 128) else decide (194 ≤ a.toNat) && decide (a.toNat < 224) && contByte b
  | [a, b, c] =>
    if a.toNat < 128 then utf8Ok [b, c]
    else if a.toNat < 224 then decide (194 ≤ a.toNat) && contByte b && decide (c.toNat < 128)
    else decide (a.toNat < 240) && contByte b && contByte c && (a.toNat != 224 || decide (160 ≤ b.toNat)) && (a.toNat != 237 || decide (b.toNat < 160))
  | a :: b :: c :: d :: r =>
    if a.toNat < 128 then utf8Ok (b :: c :: d :: r)
    else if a.toNat < 224 then decide (194 ≤ a.toNat) && contByte b && utf8Ok (c :: d :: r)
    else if a.toNat < 240 then
      contByte b && contByte c && (a.toNat != 224 || decide (160 ≤ b.toNat)) && (a.toNat != 237 || decide (b.toNat < 160)) && utf8Ok (d :: r)
    else decide (a.toNat < 245) && contByte b && contByte c && contByte d && (a.toNat != 240 || decide (144 ≤ b.toNat)) &&
      (a.toNat != 244 || decide (b.toNat < 144)) && utf8Ok r

/-- A CBOR data item of the subset (R164). -/
inductive Cbor where
  | uint (n : Nat)
  | nint (n : Nat)
  | bytes (l : List Byte)
  | text (l : List Byte)
  | arr (l : List Cbor)
  | map (l : List (List Byte × Cbor))
  | simple
  | tag (n : Nat) (c : Cbor)

/-- Element size of a typed-array tag (R164). -/
def typedSize : Nat → Option Nat
  | 64 => some 1 | 69 => some 2 | 70 => some 4 | 72 => some 1 | 77 => some 2 | 78 => some 4 | 84 => some 2 | 85 => some 4 | 86 => some 8
  | _ => none

/-- A number read big-endian. -/
def beNat (l : List Byte) : Nat := leNat l.reverse

/-- The argument of an item's head: its value and the rest (definite forms only). -/
def cborArg (info : Nat) (l : List Byte) : Option (Nat × List Byte) :=
  let n := if info = 24 then 1 else if info = 25 then 2 else if info = 26 then 4 else 8
  if info < 24 then some (info, l)
  else if info ≤ 27 ∧ n ≤ l.length then some (beNat (l.take n), l.drop n)
  else none

/-- The dimensions of a shape array. -/
def shapeOf : List Cbor → Option (List Nat)
  | [] => some []
  | .uint n :: r => (shapeOf r).map (fun l => n :: l)
  | _ => none

/-- Whether a tagged item is allowed (R164): a typed array of whole elements, or a shape around one that it fills (log 33). -/
def tagOk (n : Nat) (c : Cbor) : Bool :=
  match typedSize n, c with
  | some k, .bytes l => l.length % k == 0
  | some _, _ => false
  | none, .arr [.arr sh, .tag t (.bytes l)] =>
    n == 40 && (match typedSize t, shapeOf sh with
      | some k, some dims => dims.foldl (· * ·) 1 * k == l.length
      | _, _ => false)
  | none, _ => false

/-- Whether a list of keys repeats one. -/
def keyRepeats : List (List Byte) → Bool
  | [] => false
  | k :: r => r.contains k || keyRepeats r

mutual
/-- Parses one item at a nesting depth, with fuel. -/
def cborItem : Nat → Nat → List Byte → Option (Cbor × List Byte)
  | 0, _, _ => none
  | _ + 1, _, [] => none
  | f + 1, d, b :: r =>
    let mt := b.toNat / 32
    match cborArg (b.toNat % 32) r with
    | none => none
    | some (n, r1) =>
      match mt with
      | 0 => some (.uint n, r1)
      | 1 => some (.nint n, r1)
      | 2 => if n ≤ r1.length then some (.bytes (r1.take n), r1.drop n) else none
      | 3 => if n ≤ r1.length ∧ utf8Ok (r1.take n) then some (.text (r1.take n), r1.drop n) else none
      | 4 => if d ≥ 8 then none else (cborItems f (d + 1) n r1).map (fun x => (.arr x.1, x.2))
      | 5 =>
        if d ≥ 8 then none
        else match cborPairs f (d + 1) n r1 with
          | none => none
          | some (l, r2) => if keyRepeats (l.map Prod.fst) then none else some (.map l, r2)
      | 6 =>
        (match cborItem f d r1 with
         | none => none
         | some (c, r2) => if tagOk n c then some (.tag n c, r2) else none)
      | _ => if b.toNat % 32 ∈ [20, 21, 22, 25, 26, 27] then some (.simple, r1) else none
/-- Parses `n` items. -/
def cborItems : Nat → Nat → Nat → List Byte → Option (List Cbor × List Byte)
  | 0, _, _, _ => none
  | _ + 1, _, 0, l => some ([], l)
  | f + 1, d, n + 1, l =>
    match cborItem f d l with
    | none => none
    | some (c, r) => (cborItems f d n r).map (fun x => (c :: x.1, x.2))
/-- Parses `n` pairs of a text key and an item. -/
def cborPairs : Nat → Nat → Nat → List Byte → Option (List (List Byte × Cbor) × List Byte)
  | 0, _, _, _ => none
  | _ + 1, _, 0, l => some ([], l)
  | f + 1, d, n + 1, l =>
    match cborItem f d l with
    | some (.text k, r) =>
      (match cborItem f d r with
       | none => none
       | some (c, r2) => (cborPairs f d n r2).map (fun x => ((k, c) :: x.1, x.2)))
    | _ => none
end

/-- The top-level map of a body, the whole of which is one item (R164). -/
def cborMap (body : List Byte) : Option (List (List Byte × Cbor)) :=
  match cborItem (2 * body.length + 2) 0 body with
  | some (.map l, []) => some l
  | _ => none

/-! ### Fields -/

/-- The key of a field without its padding. -/
def keyOf (b : List Byte) : List Byte := b.takeWhile (fun x => x != 0)

/-- The byte strings of a list of packets. -/
def byteStrings : List Cbor → Option (List (List Byte))
  | [] => some []
  | .bytes l :: r => (byteStrings r).map (fun t => l :: t)
  | _ => none

/-- The bytes of a value for its KIND, `none` for the wrong CBOR type (R169, R170); an Opus value's channels and pre-skip stand in front of
its packets. -/
def valueBytes (kind : Nat) (c : Cbor) : Option (List Byte) :=
  match kind, c with
  | 4, .arr (.uint n :: .uint skip :: r) => (byteStrings r).map (fun l => leBytes 8 n ++ leBytes 8 skip ++ l.flatten)
  | 5, .text l => some l
  | 6, .tag 40 (.arr [_, .tag _ (.bytes l)]) => some l
  | 6, .tag _ (.bytes l) => some l
  | 1, .bytes l => some l
  | 2, .bytes l => some l
  | 3, .bytes l => some l
  | _, _ => none

/-- The values of the fields in order, or that R169 fails. -/
def fieldValues (m : List (List Byte × Cbor)) : List Field → Option (List (Option (List Byte)))
  | [] => some []
  | f :: r =>
    match m.find? (fun e => e.1 == f.key), fieldValues m r with
    | _, none => none
    | none, some t => if bitAt f.flags 0 then none else some (none :: t)
    | some (_, c), some t => (valueBytes f.kind c).map (fun v => some v :: t)

/-- Whether an Opus value is beyond the decoder: channels other than 1 or 2, more than 2^20 packets (R170). -/
def opusBeyond (m : List (List Byte × Cbor)) (f : Field) : Bool :=
  match f.kind, m.find? (fun e => e.1 == f.key) with
  | 4, some (_, .arr (.uint n :: _ :: r)) => !(n == 1 || n == 2) || decide (r.length > 2 ^ 20)
  | _, _ => false

/-! ### Frames -/

/-- What a read of a shard gives: bytes, a fault (no sample dropped), or an uncorrectable error (reason 0x09). -/
inductive ShardRead (α : Type) where
  | ok (v : α)
  | fault (va : Nat) (f : TFault)
  | poison (dpa : Nat)

/-- Reads bytes of a shard. -/
def shardRead (s : State) (c va n : Nat) : ShardRead (List Byte) :=
  match vaRead s c va n with
  | .ok l => .ok l
  | .error (.tf v f) => .fault v f
  | .error (.mem d) => .poison d

/-- Bytes of a frame before its pad (R162), and with it. -/
def frameBytes (len : Nat) : Nat := 20 + len
def frameStride (len : Nat) : Nat := (frameBytes len + 7) / 8 * 8

/-- Whether a header is that of record `i` and its frame lies in `left` bytes (R162, R163). -/
def headerGood (h : List Byte) (i left : Nat) : Bool :=
  fieldAt h 0 4 == 0x31535258 && decide (1 ≤ fieldAt h 4 4) && decide (fieldAt h 4 4 ≤ 2 ^ 28) && fieldAt h 8 5 == i &&
    decide (frameBytes (fieldAt h 4 4) ≤ left)

/-- Walks the headers of a shard from frame `i` at `off` to frame `i + n`: its offset, or `none` when a header before it is bad or
is that of the END frame (R163). -/
def walkFrames (s : State) (c : Nat) (sh : Shard) : Nat → Nat → Nat → ShardRead (Option Nat)
  | 0, _, off => .ok (some off)
  | n + 1, i, off =>
    if off + 16 > sh.length then .ok none
    else match shardRead s c (sh.addr + off) 16 with
      | .fault v f => .fault v f
      | .poison d => .poison d
      | .ok h =>
        if !headerGood h i (sh.length - off) || bitAt (fieldAt h 13 1) 0 then .ok none
        else walkFrames s c sh n (i + 1) (off + frameStride (fieldAt h 4 4))

/-- The END frame of a shard with an index comes before frame `i` (R163). -/
def endBefore (s : State) (c : Nat) (sh : Shard) (i : Nat) : Bool :=
  (List.range i).any (fun k => match shardRead s c (sh.indexVa + 8 * k) 8 with
    | .ok l =>
      decide (leNat l + 16 ≤ sh.length) &&
        (match shardRead s c (sh.addr + leNat l) 16 with
         | .ok h => headerGood h k (sh.length - leNat l) && bitAt (fieldAt h 13 1) 0
         | _ => false)
    | _ => false)

/-- The offset of a record's frame: through the index, or by walking; `none` past the END frame (R163). -/
def frameOffset (s : State) (c : Nat) (sh : Shard) (i : Nat) : ShardRead (Option Nat) :=
  if sh.indexVa = 0 then walkFrames s c sh i 0 0
  else if endBefore s c sh i then .ok none
  else match shardRead s c (sh.indexVa + 8 * i) 8 with
    | .fault v f => .fault v f
    | .poison d => .poison d
    | .ok l => .ok (some (leNat l))

/-- A parsed record: the fields' values, or its drop reason. -/
abbrev Parsed := Except Nat (List (Option (List Byte)))

/-- Checks a frame's bytes (R162 to R164, R169): SKIP decides before the CRC and the body (log 34). -/
def parseFrame (fields : List Field) (frame : List Byte) : Parsed :=
  let n := fieldAt frame 4 4
  if bitAt (fieldAt frame 13 1) 1 then .error 8
  else if fieldAt frame (16 + n) 4 ≠ (crc32c (frame.take (16 + n))).toNat then .error 1
  else match cborMap ((frame.drop 16).take n) with
    | none => .error 3
    | some m => match fieldValues m fields with
      | none => .error 4
      | some v => if fields.any (opusBeyond m) then .error 6 else .ok v

/-- Reads and parses record `i` of a shard. -/
def parseRecord (s : State) (c : Nat) (fields : List Field) (sh : Shard) (i : Nat) : ShardRead Parsed :=
  match frameOffset s c sh i with
  | .fault v f => .fault v f
  | .poison d => .poison d
  | .ok none => .ok (.error 2)
  | .ok (some off) =>
    if off + 16 > sh.length then .ok (.error 2)
    else match shardRead s c (sh.addr + off) 16 with
      | .fault v f => .fault v f
      | .poison d => .poison d
      | .ok h =>
        if !headerGood h i (sh.length - off) then .ok (.error 2)
        else match shardRead s c (sh.addr + off) (frameBytes (fieldAt h 4 4)) with
          | .fault v f => .fault v f
          | .poison d => .poison d
          | .ok fr => .ok (parseFrame fields fr)

/-! ### Decoded pixels (R171) -/

/-- A plane: width, height, pixels by row. -/
structure Plane where
  w : Nat
  h : Nat
  px : List Nat
  deriving DecidableEq, Repr

/-- A pixel of a plane. -/
def Plane.at' (p : Plane) (y x : Nat) : Nat := (p.px[y * p.w + x]?).getD 0

/-- A plane from a function of row and column. -/
def Plane.of (w h : Nat) (f : Nat → Nat → Nat) : Plane := ⟨w, h, (List.range h).flatMap (fun y => (List.range w).map (fun x => f y x))⟩

/-- round(4096 × cos(m π / 16)) for m from 0 to 8. -/
def cosTable : List Int := [4096, 4017, 3784, 3406, 2896, 2276, 1567, 799, 0]

/-- round(4096 × cos(m π / 16)) for any m. -/
def cosAt (m : Nat) : Int :=
  let k := m % 32
  if k ≤ 8 then (cosTable[k]?).getD 0
  else if k ≤ 16 then -((cosTable[16 - k]?).getD 0)
  else if k ≤ 24 then -((cosTable[k - 16]?).getD 0)
  else (cosTable[32 - k]?).getD 0

/-- K[x][u] (R171). -/
def idctK (x u : Nat) : Int := if u = 0 then 2896 else cosAt ((2 * x + 1) * u)

/-- A sum over eight terms. -/
def sum8 (f : Nat → Int) : Int := ((List.range 8).map f).sum

/-- Clamps to 0 to 255. -/
def clamp8 (v : Int) : Nat := if v < 0 then 0 else if v > 255 then 255 else v.toNat

/-- The inverse DCT of one block of 64 dequantised coefficients (R171). -/
def idctBlock (b : List Int) : List Nat :=
  let t : List Int := (List.range 64).map (fun i => (sum8 (fun v => idctK (i / 8) v * ((b[8 * v + i % 8]?).getD 0)) + 1024) / 2 ^ 11)
  (List.range 64).map (fun i => clamp8 ((sum8 (fun u => idctK (i % 8) u * ((t[8 * (i / 8) + u]?).getD 0)) + 16384) / 2 ^ 15 + 128))

/-- A component's samples upsampled by replication to the picture. -/
def jpegPlane (w h : Nat) (k : JpegComp) : Plane :=
  let px := k.blocks.map idctBlock
  Plane.of w h (fun y x =>
    let yy := y / k.subV
    let xx := x / k.subH
    (((px[yy / 8 * k.blocksPerRow + xx / 8]?).getD [])[8 * (yy % 8) + xx % 8]?).getD 0)

/-- R, G and B from Y, Cb and Cr (R171). -/
def rgbOf (y cb cr : Int) : List Nat :=
  [clamp8 (y + (91881 * (cr - 128) + 32768) / 2 ^ 16), clamp8 (y - (22554 * (cb - 128) + 46802 * (cr - 128) + 32768) / 2 ^ 16),
   clamp8 (y + (116130 * (cb - 128) + 32768) / 2 ^ 16)]

/-- A plane of one entry of per-pixel lists. -/
def pickPlane (w h k : Nat) (l : List (List Nat)) : Plane := ⟨w, h, l.map (fun p => (p[k]?).getD 0)⟩

/-- The three planes of a JPEG picture. -/
def jpegPlanes (w h : Nat) (comps : List JpegComp) : List Plane :=
  match comps.map (jpegPlane w h) with
  | [y] => [y, y, y]
  | [y, b, r] =>
    let l := (y.px.zip (b.px.zip r.px)).map (fun t => rgbOf t.1 t.2.1 t.2.2)
    [pickPlane w h 0 l, pickPlane w h 1 l, pickPlane w h 2 l]
  | _ => []

/-- An 8-bit level of a PNG sample (R171); below 8 bits it is a free value (log 32). -/
def pngLevel (depth v : Nat) : Nat := if depth = 16 then v / 256 else if depth = 8 then v else (Config.greyLevel depth v).toNat

/-- One pixel's R, G and B. -/
def pngPixel (channels depth : Nat) (palette : List (Nat × Nat × Nat)) (px : List Nat) : List Nat :=
  match palette with
  | [] => if channels ≤ 2 then List.replicate 3 (pngLevel depth (px.headD 0)) else (px.take 3).map (pngLevel depth)
  | _ => match palette[px.headD 0]? with
    | some (r, g, b) => [r, g, b]
    | none => [0, 0, 0]

/-- Cuts a list into runs of `n`. -/
def chunksOf {α : Type} (n : Nat) : Nat → List α → List (List α)
  | 0, _ => []
  | k + 1, l => if l.isEmpty then [] else l.take n :: chunksOf n k (l.drop n)

/-- The three planes of a PNG picture. -/
def pngPlanes (w h channels depth : Nat) (samples : List Nat) (palette : List (Nat × Nat × Nat)) : List Plane :=
  let l := (chunksOf channels (w * h) samples).map (pngPixel channels depth palette)
  [pickPlane w h 0 l, pickPlane w h 1 l, pickPlane w h 2 l]

/-- The three planes of an AV1 frame (R171). -/
def av1Planes (w h depth : Nat) (mono : Bool) (subH subV : Nat) (f : List Nat × List Nat × List Nat) : List Plane :=
  let sh (v : Nat) : Nat := if depth = 10 then v / 4 else v
  let chroma (l : List Nat) : Plane :=
    if mono then Plane.of w h (fun _ _ => 128)
    else Plane.of w h (fun y x => sh ((l[y / subV * ((w + subH - 1) / subH) + x / subH]?).getD 0))
  [⟨w, h, f.1.map sh⟩, chroma f.2.1, chroma f.2.2]

/-! ### Augmentation (R175) -/

/-- A crop rectangle. -/
structure Crop where
  cx : Nat
  cy : Nat
  cw : Nat
  ch : Nat
  deriving DecidableEq, Repr

/-- The crop of a picture under the draw of op 0. -/
def cropOf (f : Field) (W H : Nat) (x : Words) : Crop :=
  let area := f.smin + (f.smax - f.smin) * (x.x0 / 65536) / 65536
  let A := area * W * H / 65536
  let asp := f.rmin + (f.rmax - f.rmin) * (x.x1 / 65536) / 65536
  let cw := min W (max 1 (isqrt (A * asp / 256)))
  let ch := min H (max 1 (A / cw))
  ⟨x.x2 * (W - cw + 1) / 2 ^ 32, x.x3 * (H - ch + 1) / 2 ^ 32, cw, ch⟩

/-- A source coordinate in units of 1/65536: output index `o` of `out`, crop start `c0` and size `cn`. -/
def srcCoord (o out c0 cn : Nat) : Nat :=
  min (max (c0 * 65536 + (2 * o + 1) * cn * 65536 / (2 * out) - 32768) (c0 * 65536)) ((c0 + cn - 1) * 65536)

/-- One output pixel of a crop (R175). -/
def samplePixel (p : Plane) (c : Crop) (outH outW oy ox : Nat) : Nat :=
  let sx := srcCoord ox outW c.cx c.cw
  let sy := srcCoord oy outH c.cy c.ch
  let x0 := sx / 65536
  let fx := sx % 65536
  let x1 := min (x0 + 1) (c.cx + c.cw - 1)
  let y0 := sy / 65536
  let fy := sy % 65536
  let y1 := min (y0 + 1) (c.cy + c.ch - 1)
  (p.at' y0 x0 * (65536 - fx) * (65536 - fy) + p.at' y0 x1 * fx * (65536 - fy) + p.at' y1 x0 * (65536 - fx) * fy +
    p.at' y1 x1 * fx * fy + 2 ^ 31) / 2 ^ 32

/-- An output plane's bytes, mirrored or not (log 35). -/
def outPlane (f : Field) (c : Crop) (flip : Bool) (p : Plane) : List Byte :=
  (List.range f.outH).flatMap (fun oy => (List.range f.outW).map (fun ox =>
    BitVec.ofNat 8 (samplePixel p c f.outH f.outW oy (if flip then f.outW - 1 - ox else ox))))

/-- The draws of a sample's field: seed, sample ID, data pass, field number. -/
structure DrawKey where
  seed : Nat
  id : Nat
  pass : Nat
  fieldNo : Nat
  deriving DecidableEq, Repr

/-- The draw of an op (R175). -/
def augDraw (k : DrawKey) (op : Nat) : Words := sampleDraw k.seed 3 k.id (16 * k.fieldNo + op) k.pass

/-- The crop and the flip of a field. -/
def fieldCrop (f : Field) (k : DrawKey) (W H : Nat) : Crop × Bool :=
  (if bitAt f.flags 2 then cropOf f W H (augDraw k 0) else ⟨0, 0, W, H⟩, bitAt f.flags 1 && (augDraw k 1).x0 % 2 == 1)

/-- An image field's output (R175). -/
def imageOut (f : Field) (k : DrawKey) (W H : Nat) (planes : List Plane) : FieldOut :=
  match fieldCrop f k W H with
  | (c, flip) => ⟨planes.flatMap (outPlane f c flip), 1⟩

/-- A video field's output (R175): frames FIRST, FIRST + P0, …; zero-filled at the end; the count holds the frames output (log 36). -/
def videoOut (f : Field) (k : DrawKey) (W H : Nat) (frames : List (List Plane)) : FieldOut :=
  let nf := frames.length
  let S := (f.outLen - 1) * f.p0 + 1
  let first := if nf < S then 0 else (augDraw k 2).x0 * (nf - S + 1) / 2 ^ 32
  let got := (List.range f.outLen).filterMap (fun i => frames[first + i * f.p0]?)
  match fieldCrop f k W H with
  | (c, flip) => ⟨got.flatMap (fun pl => pl.flatMap (outPlane f c flip)) ++ zeros ((f.outLen - got.length) * 3 * f.outH * f.outW), got.length⟩

/-- An audio field's output (R171, R175): P0 planes of OUT_LEN signed samples; the count holds the samples output (log 36). -/
def audioOut (f : Field) (k : DrawKey) (chans : List (List Int)) : FieldOut :=
  let n := (chans.headD []).length
  let first := if n > f.outLen then (augDraw k 3).x0 * (n - f.outLen + 1) / 2 ^ 32 else 0
  let plane (c : Nat) : List Byte :=
    let l := (((chans[c]?).getD (chans.headD [])).drop first).take f.outLen
    l.flatMap (fun v => leBytes 4 (unsignedOf 32 v)) ++ zeros (4 * (f.outLen - l.length))
  ⟨(List.range f.p0).flatMap plane, min n f.outLen⟩

/-! ### The tokeniser (R173, R174) -/

/-- Byte classes: letter 0, digit 1, whitespace 2, other 3. -/
def byteClass (b : Byte) : Nat :=
  let n := b.toNat
  if n ≥ 128 ∨ (65 ≤ n ∧ n ≤ 90) ∨ (97 ≤ n ∧ n ≤ 122) then 0
  else if 48 ≤ n ∧ n ≤ 57 then 1
  else if n = 9 ∨ n = 10 ∨ n = 13 ∨ n = 32 then 2
  else 3

/-- Whether a new piece starts at byte `b` after byte `prev`, the piece so far having `len` bytes (R174). -/
def newPiece (prev b : Byte) (len : Nat) : Bool :=
  (byteClass b != byteClass prev && !(prev == 0x20 && len == 1)) || (b == 0x20 && prev != 0x20) || len == 256

/-- Cuts text into pieces: `cur` is the piece so far, reversed. -/
def piecesGo : List Byte → List Byte → List (List Byte)
  | cur, [] => if cur.isEmpty then [] else [cur.reverse]
  | [], b :: r => piecesGo [b] r
  | p :: cur, b :: r => if newPiece p b (cur.length + 1) then (p :: cur).reverse :: piecesGo [b] r else piecesGo (b :: p :: cur) r

/-- A merge entry of a table (R173): LEFT, RIGHT, RESULT. -/
def mergeEntry (t : List Byte) (i : Nat) : Nat × Nat × Nat :=
  let v := fieldAt t (32 + 8 * i) 8
  (bitsAt v 0 20, bitsAt v 20 20, bitsAt v 40 20)

/-- The merges of a table in order of rank. -/
def merges (t : List Byte) : List (Nat × Nat × Nat) := (List.range (fieldAt t 12 4)).map (mergeEntry t)

/-- Rank of a pair, with its result. -/
def rankOf (ms : List (Nat × Nat × Nat)) (a b : Nat) : Option (Nat × Nat) :=
  match ms.findIdx? (fun m => m.1 == a && m.2.1 == b) with
  | some i => (ms[i]?).map (fun m => (i, m.2.2))
  | none => none

/-- The best merge of a list of tokens: rank, position, result; the lowest rank, the first position of it. -/
def bestMerge (ms : List (Nat × Nat × Nat)) : Nat → List Nat → Option (Nat × Nat × Nat)
  | i, a :: b :: r =>
    match rankOf ms a b, bestMerge ms (i + 1) (b :: r) with
    | some (k, v), some (k2, p2, v2) => if k2 < k then some (k2, p2, v2) else some (k, i, v)
    | some (k, v), none => some (k, i, v)
    | none, m => m
  | _, _ => none

/-- Merges until no pair has a rank; each merge shortens the list. -/
def mergeAll (ms : List (Nat × Nat × Nat)) : Nat → List Nat → List Nat
  | 0, l => l
  | n + 1, l =>
    match bestMerge ms 0 l with
    | none => l
    | some (_, i, v) => mergeAll ms n (l.take i ++ v :: l.drop (i + 2))

/-- The tokens of a text (R174). -/
def tokensOf (t text : List Byte) : List Nat :=
  let base := fieldAt t 16 4
  (piecesGo [] text).flatMap (fun p => mergeAll (merges t) p.length (p.map (fun b => base + b.toNat)))

/-- A text field's output and whether it was truncated (R174). -/
def textOut (f : Field) (table text : List Byte) : FieldOut × Bool :=
  let l := (if bitAt f.flags 3 then [f.p0] else []) ++ tokensOf table text ++ (if bitAt f.flags 4 then [f.p1] else [])
  let got := l.take f.outLen
  (⟨got.flatMap (leBytes 4) ++ (List.replicate (f.outLen - got.length) 0xFFFFFFFF).flatMap (leBytes 4), got.length⟩, decide (l.length > f.outLen))

/-! ### A field's output -/

/-- Bytes of one sample output before rounding (R181). -/
def outSize (f : Field) : Nat :=
  match f.kind with
  | 1 => 3 * f.outH * f.outW
  | 2 => f.outLen * 3 * f.outH * f.outW
  | 3 => 4 * f.p0 * f.outLen
  | 4 => 4 * f.p0 * f.outLen
  | 5 => 4 * f.outLen
  | _ => f.outLen

/-- Rounds up to a multiple of 64. -/
def pad64 (n : Nat) : Nat := (n + 63) / 64 * 64

/-- Bytes of a ring entry (R181). -/
def entrySize (batch : Nat) (fields : List Field) : Nat := 64 * batch + batch * (fields.map (fun f => pad64 (outSize f))).sum

/-- Sampling of the components of a JPEG: 4:4:4, 4:2:2, 4:2:0 or 4:4:0, or one component (R170). -/
def jpegSampling : List JpegComp → Bool
  | [a] => a.subH == 1 && a.subV == 1
  | [a, b, c] => a.subH == 1 && a.subV == 1 && b.subH == c.subH && b.subV == c.subV &&
      (b.subH == 1 || b.subH == 2) && (b.subV == 1 || b.subV == 2)
  | _ => false

/-- Colour type and bit depth of a PNG, by channels: palette or grey, grey and alpha, colour, colour and alpha (R170). -/
def pngDepth (ch depth : Nat) (palette : Bool) : Bool :=
  if ch = 1 then decide (depth ∈ [1, 2, 4, 8]) || (depth == 16 && !palette) else decide (ch ≤ 4) && decide (2 ≤ ch) && !palette && (depth == 8 || depth == 16)

/-- Picture limits (R170). -/
def pictureOk (w h mw mh : Nat) : Bool := within' 1 w mw && within' 1 h mh
where
  within' (lo v hi : Nat) : Bool := decide (lo ≤ v) && decide (v ≤ hi)

/-- A field's output from what the decoders give, its truncation, or a drop reason (R170, R171, R174, R175). The pre-skip samples of an Opus
value are dropped from the front of every channel (log 167). -/
def decodeField (table : List Byte) (k : DrawKey) (f : Field) (value : Option (List Byte)) (d : Decoded) : Except Nat (FieldOut × Bool) :=
  match value with
  | none => .ok (⟨zeros (pad64 (outSize f)), 0⟩, false)
  | some body =>
    match f.kind, d with
    | _, .bad r => .error (if r = 5 then 5 else 6)
    | 1, .jpeg w h comps =>
      if pictureOk w h 16384 16384 && jpegSampling comps then
        .ok (imageOut f k w h (jpegPlanes w h comps), false) else .error 6
    | 1, .png w h ch depth samples palette =>
      if pictureOk w h 16384 16384 && pngDepth ch depth (!palette.isEmpty) then .ok (imageOut f k w h (pngPlanes w h ch depth samples palette), false) else .error 6
    | 2, .av1 w h depth mono sh sv level frames =>
      if decide (level ≤ 13) && pictureOk w h 4096 2304 && decide (frames.length ≤ 4096) && (depth == 8 || depth == 10) && (mono || (sh == 2 && sv == 2)) then
        .ok (videoOut f k w h (frames.map (av1Planes w h depth mono sh sv)), false) else .error 6
    | 3, .flac rate depth chans =>
      if rate = f.p1 ∧ 4 ≤ depth ∧ depth ≤ 32 ∧ 1 ≤ chans.length ∧ chans.length ≤ 8 ∧ (chans.headD []).length ≤ 2 ^ 32 then
        .ok (audioOut f k (chans.map (fun l => l.map (fun v => v * 2 ^ (32 - depth)))), false) else .error 6
    | 4, .opus chans =>
      if f.p1 = 48000 ∧ chans.length = fieldAt body 0 8 ∧ 1 ≤ chans.length ∧ chans.length ≤ 2 then
        .ok (audioOut f k (chans.map (fun l => (l.drop (fieldAt body 8 8)).map (fun v => v * 65536))), false) else .error 6
    | 5, _ => if body.length ≤ 16777216 then .ok (textOut f table body) else .error 6
    | 6, _ => if body.length ≤ f.outLen then .ok (⟨body ++ zeros (f.outLen - body.length), body.length⟩, false) else .error 6
    | _, _ => .error 6

/-- The outputs of all fields, whether one was truncated, or the first drop reason. -/
def decodeFields (table : List Byte) (seed id pass : Nat) : Nat → List Field → List (Option (List Byte)) → List Decoded →
    Except Nat (List FieldOut × Bool)
  | i, f :: fs, v :: vs, ds =>
    match decodeField table ⟨seed, id, pass, i⟩ f v (ds.headD .ofBody), decodeFields table seed id pass (i + 1) fs vs (ds.drop 1) with
    | .error r, _ => .error r
    | _, .error r => .error r
    | .ok (o, t), .ok (l, u) => .ok (o :: l, t || u)
  | _, _, _, _ => .ok ([], false)

/-! ### The sample stream (R167, R168) -/

/-- Inserts into a list in ascending order of key, then number. -/
def insertKey (e : Nat × Nat) : List (Nat × Nat) → List (Nat × Nat)
  | [] => [e]
  | h :: r => if e.1 < h.1 ∨ (e.1 = h.1 ∧ e.2 ≤ h.2) then e :: h :: r else h :: insertKey e r

/-- Orders numbers by key, ties by number. -/
def sortKeyed (l : List (Nat × Nat)) : List Nat := (l.foldr insertKey []).map Prod.snd

/-- The 64-bit key of a draw with purpose 0x0004. -/
def orderKey (seed pass id : Nat) : Nat := let w := sampleDraw seed 4 id 0 pass; w.x0 * 2 ^ 32 + w.x1

/-- The sample IDs of a window of shards. -/
def windowIds (seed pass : Nat) (shuffle : Bool) (w : List Shard) : List Nat :=
  let ids := w.flatMap (fun sh => (List.range sh.records).map (fun i => sh.shard * 2 ^ 40 + i))
  if shuffle then sortKeyed (ids.map (fun i => (orderKey seed pass i, i))) else ids

/-- The shards of a data pass in order (R167, step 1). -/
def shardOrder (seed : Nat) (d : Sched) (pass : Nat) : List Shard :=
  if bitAt d.policy 2 then
    (sortKeyed (d.shards.map (fun sh => (orderKey seed pass (sh.shard * 2 ^ 40 + 0xFFFFFFFFFF), sh.shard)))).filterMap
      (fun n => d.shards.find? (fun sh => sh.shard == n))
  else d.shards

/-- PASS_LEN (R167). -/
def Sched.passLen (d : Sched) : Nat := (d.shards.map Shard.records).sum

/-- The pass order of a data pass (R167). -/
def passOrder (seed : Nat) (d : Sched) (pass : Nat) : List Nat :=
  (chunksOf d.window d.shards.length (shardOrder seed d pass)).flatMap (windowIds seed pass (bitAt d.policy 3))

/-- The sample ID at a stream index (R167). -/
def streamId (seed : Nat) (d : Sched) (j : Nat) : Nat := ((passOrder seed d (j / d.passLen))[j % d.passLen]?).getD 0

/-! ### The bytes of a ring entry (R181) -/

/-- The ID of a padding sample (R165). -/
def padId : Nat := 0xFFFFFFFFFFFFFFFF

/-- A sample record (R181). -/
def sampleRecord (f : Filled) : List Byte :=
  leBytes 8 f.id ++ leBytes 4 f.flags ++ zeros 4 ++ (List.range 6).flatMap (fun i => leBytes 4 (((f.outs[i]?).map FieldOut.count).getD 0)) ++ zeros 24

/-- One output rounded up to 64 bytes: the bytes beyond a decoded field's size are free (log 37); a missing key's and a padding sample's
output is zero throughout (R169, R178). -/
def paddedOut (tag : Nat) (f : Field) (o : Option FieldOut) : List Byte :=
  match o with
  | some x => x.bytes ++ (List.range (pad64 (outSize f) - x.bytes.length)).map (fun i => Config.freeByte tag i)
  | none => zeros (pad64 (outSize f))

/-- A region: one output of every slot. -/
def regionBytes (tag : Nat) (fs : List Filled) (i : Nat) (f : Field) : List Byte :=
  fs.flatMap (fun x => paddedOut tag f (x.outs[i]?))

/-- The regions in field order. -/
def regionsBytes (tag : Nat) (fs : List Filled) : Nat → List Field → List Byte
  | _, [] => []
  | i, f :: r => regionBytes tag fs i f ++ regionsBytes tag fs (i + 1) r

/-- A ring entry's bytes. -/
def entryContents (tag : Nat) (fields : List Field) (fs : List Filled) : List Byte := fs.flatMap sampleRecord ++ regionsBytes tag fs 0 fields

end Sys2Proof.Machine
end

