-- ==== Sys2Proof/Machine/Ingest.lean ====
section
/-! DEFINITION. Ingest: schedules, the tokeniser's table, batch assembly, manifests, the ready queue (R165 to R189, R224). -/
namespace Sys2Proof.Machine

/-- Changes the ingest state of a context. -/
def ingMod (c : Nat) (f : Ingest → Ingest) (s : State) : State := ctxMod c (fun x => { x with ingest := f x.ingest }) s

/-! ### INGEST_SCHEDULE -/

/-- Reads a field map entry (R169). -/
def fieldOf (b : List Byte) : Field :=
  { key := keyOf (b.take 32), kind := fieldAt b 32 1, flags := fieldAt b 33 1, outH := fieldAt b 34 2, outW := fieldAt b 36 2,
    outLen := fieldAt b 38 4, smin := fieldAt b 42 4, smax := fieldAt b 46 4, rmin := fieldAt b 50 2, rmax := fieldAt b 52 2,
    p0 := fieldAt b 54 4, p1 := fieldAt b 58 4 }

/-- Ranges and reserved fields of a field map entry (R169). -/
def fieldEntryOk (b : List Byte) : Bool :=
  let f := fieldOf b
  let picture := f.kind == 1 || f.kind == 2
  let audio := f.kind == 3 || f.kind == 4
  !f.key.isEmpty && utf8Ok f.key && allZero ((b.take 32).drop f.key.length) && within 1 f.kind 6 && decide (f.flags < 32) &&
    (!picture || (within 1 f.outH 8192 && within 1 f.outW 8192 && within 1 f.smin 65536 && within f.smin f.smax 65536 &&
      decide (1 ≤ f.rmin) && decide (f.rmin ≤ f.rmax))) &&
    (f.kind != 2 || within 1 f.p0 256) && (!audio || within 1 f.p0 8) && fieldAt b 62 2 == 0

/-- Reads a shard entry (R166). -/
def shardOf (b : List Byte) : Shard :=
  { shard := fieldAt b 0 3, records := fieldAt b 4 4, addr := fieldAt b 8 8, length := fieldAt b 16 8, indexVa := fieldAt b 24 8 }

/-- Counts of a schedule's entries. -/
def schedShards (p : Packet) : Nat := pf p 16 4
def schedFields (p : Packet) : Nat := pf p 27 1

/-- The k-th shard entry and field map entry. -/
def shardBytes (p : Packet) (k : Nat) : List Byte := (p.params.drop (64 + 32 * k)).take 32
def fieldBytes (p : Packet) (k : Nat) : List Byte := (p.params.drop (64 + 32 * schedShards p + 64 * k)).take 64

/-- The schedule of a packet. -/
def schedOf (p : Packet) : Sched :=
  { firstStep := pf p 0 8, cursor0 := pf p 8 8, batchSize := pf p 20 2, readyDepth := pf p 22 2, lowWater := pf p 24 1, policy := pf p 25 1,
    window := pf p 26 1, tableId := pf p 28 4, ringVa := pf p 32 8, batchBytes := pf p 40 8, manifestVa := pf p 48 8, manifestEntries := pf p 56 4,
    shards := (List.range (schedShards p)).map (fun k => shardOf (shardBytes p k)),
    fields := (List.range (schedFields p)).map (fun k => fieldOf (fieldBytes p k)) }

/-- Ranges and reserved fields of a schedule (R166, R169). -/
def schedRangesOk (p : Packet) : Bool :=
  within 1 (schedShards p) 65536 && within 1 (pf p 20 2) 65535 && within 2 (pf p 22 2) 256 && decide (pf p 25 1 < 16) && within 1 (pf p 26 1) 64 &&
    within 1 (schedFields p) 6 && pf p 32 8 % 2097152 == 0 && pf p 40 8 % 65536 == 0 && pf p 48 8 % 4096 == 0 &&
    within 16 (pf p 56 4) (2 ^ 20) && pf p 60 4 == 0 &&
    (List.range (schedShards p)).all (fun k => fieldAt (shardBytes p k) 3 1 == 0 && decide (1 ≤ fieldAt (shardBytes p k) 4 4)) &&
    (List.range (schedFields p)).all (fun k => fieldEntryOk (fieldBytes p k))

/-- The context's ingest runs. -/
def ingestRuns (s : State) (c : Nat) : Bool :=
  match ctxOf s c with
  | some x => x.ingest.running
  | none => false

def chkIngestSchedule (p : Packet) (s : State) : Checks :=
  { lenOk := p.paramLen == 64 + 32 * schedShards p + 64 * schedFields p
    fieldsOk := schedRangesOk p
    busy := if ingestRuns s p.ctx then some none else none }

/-- Whether a list of numbers repeats one. -/
def numRepeats : List Nat → Bool
  | [] => false
  | k :: r => r.contains k || numRepeats r

/-- The first refusal of R166 in the order it lists them. -/
def schedRefusal (s : State) (c : Nat) (d : Sched) : Option Nat :=
  if d.batchBytes < entrySize d.batchSize d.fields then some 0x0701
  else if d.batchSize % mbCount s ≠ 0 then some 0x0702
  else if d.shards.any (fun sh => sh.shard == 0xFFFFFF) || numRepeats (d.shards.map Shard.shard) then some 0x0703
  else if d.fields.any (fun f => f.kind == 5) && (s.tokens.isEmpty || d.tableId != fieldAt s.tokens 4 4) then some 0x0704
  else if keyRepeats (d.fields.map Field.key) then some 0x0705
  else if d.passLen = 0 ∨ d.passLen > 2 ^ 40 then some 0x0706
  else match ctxOf s c with
    | none => some 0x0708
    | some x => if d.readyDepth + 2 ≠ x.ring then some 0x0708 else none

/-- Ingest under a new schedule: batch 0 begins at CURSOR0; the registers of R189 stand. -/
def freshIngest (d : Sched) (g : Ingest) : Ingest :=
  { sched := some d, cursor := d.cursor0, times := g.times, live := { g.live with depthMin := 0 }, latched := g.latched, alarmRun := g.alarmRun }

/-- INGEST_SCHEDULE's effect (R166). -/
def bodyIngestSchedule (p : Packet) (s : State) : State :=
  match schedRefusal s p.ctx (schedOf p) with
  | some d => completeWith p 0x0400 stBADPARAM d s
  | none => completeOk p 0x0400 (settleIngest (ingMod p.ctx (freshIngest (schedOf p)) s))

def acceptIngestSchedule (p : Packet) (s : State) : State :=
  acceptPacket 0x0400 (chkIngestSchedule p s) (fun _ t => bodyIngestSchedule p t) p s

/-- INGEST_SCHEDULE (R166). -/
def execIngestSchedule (p : Packet) (s : State) : Out := packetOut 0x0400 acceptIngestSchedule p s

/-! ### INGEST_START and INGEST_STOP -/

def chkIngestStart (p : Packet) : Checks := { lenOk := p.paramLen == 0 }

/-- INGEST_START's effect (R188, R224, R232); with no schedule in force it is refused, and the spec states no detail (log 38). -/
def bodyIngestStart (p : Packet) (s : State) : State :=
  withCtx p 0x0401 0xFFFF s (fun x =>
    if x.ingest.sched.isNone || x.ingest.needsSchedule then completeOpen p 0x0401 stBADPARAM s
    else completeOk p 0x0401 (settleIngest (ingMod p.ctx (fun g =>
      { g with running := true, faultStopped := false, heldSince := if g.admitted then 0 else s.nextId }) s)))

def acceptIngestStart (p : Packet) (s : State) : State := acceptPacket 0x0401 (chkIngestStart p) (fun _ t => bodyIngestStart p t) p s

/-- INGEST_START (R188). -/
def execIngestStart (p : Packet) (s : State) : Out := packetOut 0x0401 acceptIngestStart p s

def chkIngestStop (p : Packet) : Checks := { lenOk := p.paramLen == 0 }

/-- INGEST_STOP's effect (R188): samples in decode are discarded, slots filled and batches sealed stay. -/
def bodyIngestStop (p : Packet) (s : State) : State :=
  withCtx p 0x0402 0xFFFF s (fun _ =>
    completeOk p 0x0402 (settleIngest (ingMod p.ctx (fun g => { g with running := false, faultStopped := false, samples := [] }) s)))

def acceptIngestStop (p : Packet) (s : State) : State := acceptPacket 0x0402 (chkIngestStop p) (fun _ t => bodyIngestStop p t) p s

/-- INGEST_STOP (R188). -/
def execIngestStop (p : Packet) (s : State) : Out := packetOut 0x0402 acceptIngestStop p s

/-! ### TOKEN_TABLE_LOAD -/

/-- Header ranges of a table (R173). -/
def tableHeadOk (t : List Byte) : Bool :=
  fieldAt t 0 4 == 0x4B4F545A && fieldAt t 4 4 != 0 && within 257 (fieldAt t 8 4) 1048576 && decide (fieldAt t 12 4 ≤ 524288) &&
    decide (fieldAt t 16 4 + 255 < fieldAt t 8 4) && fieldAt t 24 8 == 0 &&
    (List.range (fieldAt t 12 4)).all (fun i => decide (fieldAt t (32 + 8 * i) 8 < 2 ^ 60))

def chkTokenTableLoad (p : Packet) (s : State) : Checks :=
  { lenOk := p.paramLen == 32 + 8 * pf p 12 4
    fieldsOk := tableHeadOk (p.params.take p.paramLen)
    busy := if s.ctxs.any (fun e => e.2.ingest.running) then some none else none }

/-- Whether an entry names a token of VOCAB or above, or makes a byte's token (R173). -/
def entryBad (t : List Byte) (m : Nat × Nat × Nat) : Bool :=
  let v := fieldAt t 8 4
  let b := fieldAt t 16 4
  decide (m.1 ≥ v) || decide (m.2.1 ≥ v) || decide (m.2.2 ≥ v) || (decide (b ≤ m.2.2) && decide (m.2.2 ≤ b + 255))

/-- TOKEN_TABLE_LOAD's effect (R173). -/
def bodyTokenTableLoad (p : Packet) (s : State) : State :=
  let t := p.params.take p.paramLen
  if fieldAt t 20 4 ≠ (crc32c (t.drop 32)).toNat then completeWith p 0x0410 stBADPARAM 0x0710 s
  else if (merges t).any (entryBad t) then completeWith p 0x0410 stBADPARAM 0x0711 s
  else if numRepeats ((merges t).map (fun m => m.1 + m.2.1 * 2 ^ 20)) then completeWith p 0x0410 stBADPARAM 0x0712 s
  else completeOk p 0x0410 { s with tokens := t }

def acceptTokenTableLoad (p : Packet) (s : State) : State :=
  acceptPacket 0x0410 (chkTokenTableLoad p s) (fun _ t => bodyTokenTableLoad p t) p s

/-- TOKEN_TABLE_LOAD (R173). -/
def execTokenTableLoad (p : Packet) (s : State) : Out := packetOut 0x0410 acceptTokenTableLoad p s

/-! ### MANIFEST_GET -/

/-- The batch size of a context's schedule, 0 with none. -/
def batchSizeOf (s : State) (c : Nat) : Nat := (((ctxOf s c).bind (fun x => x.ingest.sched)).map Sched.batchSize).getD 0

def chkManifestGet (p : Packet) (s : State) : Checks := { lenOk := p.paramLen == 8, charge := some (mSize (batchSizeOf s p.ctx)) }

/-- The entry's MSIZE bytes as the log holds them; an entry that cannot be read is given with zeros after its records (log 39). -/
def manifestPayload (s : State) (c : Nat) (d : Sched) (m : BatchManifest) : List Byte :=
  let n := mSize d.batchSize
  match vaRead s c (manEntryVa d m.batch) n with
  | .ok l => l
  | .error _ => let b := batchManBytes d.firstStep m; b ++ zeros (n - b.length)

/-- MANIFEST_GET's effect (R182). -/
def bodyManifestGet (p : Packet) (idx : Nat) (s : State) : State :=
  withCtx p 0x0420 idx s (fun x =>
    match x.ingest.sched, x.ingest.manifests.find? (fun m => m.batch == pf p 0 8) with
    | some d, some m => finishSlot p 0x0420 idx 0 (manifestPayload s p.ctx d m) s
    | _, _ => refuse8 p 0x0420 stBADPARAM (some 0x0707) idx s)

def acceptManifestGet (p : Packet) (s : State) : State := acceptPacket 0x0420 (chkManifestGet p s) (bodyManifestGet p) p s

/-- MANIFEST_GET (R182). -/
def execManifestGet (p : Packet) (s : State) : Out := packetOut 0x0420 acceptManifestGet p s

/-! ### Faults of ingest -/

/-- A descriptor waits under BATCH_WAIT for a batch that is not sealed (R230). -/
def batchWaiter (x : Ctx) : Bool := x.works.any (fun w => w.batchWait && !batchReady x w && (w.st == .waiting || w.st == .deferred))

/-- A fault stops the context's ingest (R182, R188, R230): its record names no descriptor, so its tag, opcode, epoch and step are free. -/
def ingestFault (c : Nat) (d : FaultDetail) (resume : Nat) (s : State) : State :=
  match ctxOf s c with
  | none => s
  | some x =>
    match freshValue s with
    | (a, s1) => match freshValue s1 with
      | (b, s2) => match freshValue s2 with
        | (e, s3) =>
          let f : FaultRec := ⟨d.cls, 0xFF, a.setWidth 32, b.toNat % 65536, e.setWidth 32, b.toNat / 65536, resume, d, none, false⟩
          let s4 := addFault c f (batchWaiter x) s3
          let needs := d.cls == 4
          settleIngest (ingMod c (fun g =>
            { g with running := false, faultStopped := true, needsSchedule := g.needsSchedule || needs }) s4)

/-- A replay diverged (R187, the table of mismatches): the recovery's slots report it and a checkpoint is required. -/
def replayMismatch (step : Nat) (s : State) : State :=
  let t := s.fix.recoverySlots.foldl (fun u idx => finishPending idx stREPLAY (step % 2 ^ 32) [] u) s
  { t with fix := { t.fix with recoverySlots := [], checkpoint := true } }

/-! ### Slots -/

/-- The sample of a stream index. -/
def Ingest.sample (g : Ingest) (j : Nat) : Option Sample := g.samples.find? (fun x => x.stream == j)

/-- Takes a sample away. -/
def Ingest.without (g : Ingest) (j : Nat) : Ingest := { g with samples := g.samples.filter (fun x => x.stream != j) }

/-- Event records a manifest entry holds (R182). -/
def eventRoom (d : Sched) : Nat := 2 * d.batchSize + 64

/-- The slot was refilled after a drop under REPLACE (R178). -/
def Ingest.replaced (g : Ingest) (slot : Nat) : Bool := g.events.any (fun e => e.kind == 1 && e.slot == slot)

/-- A sample takes the next slot (R176, R178, R181). -/
def Ingest.place (g : Ingest) (x : Sample) (outs : List FieldOut) (late : Bool) : Ingest :=
  let k := g.filled.length
  let flags := (if g.replaced k then 2 else 0) + (if late then 4 else 0) + (if x.truncated then 8 else 0)
  { g with filled := g.filled ++ [⟨x.id, flags, outs⟩], live := { g.live with samples := sat32 g.live.samples 1 } }

/-- How filling stands: it waits, the batch is full, or `n` more event records do not fit (R182). -/
inductive FillEnd where
  | wait | full | overrun (n : Nat)
  deriving DecidableEq, Repr

/-- The pending sample with the lowest stream index that has completed (rule 1). -/
def Ingest.lateSample (g : Ingest) : Option (Nat × Nat × Sample × List FieldOut) :=
  let l := g.pendingList.filterMap (fun e => (g.sample e.2).bind (fun x => x.decoded.map (fun o => (e.1, e.2, x, o))))
  l.foldl (fun b e => match b with
    | none => some e
    | some m => if e.2.1 < m.2.1 then some e else some m) none

/-- One application of the rules of R176: the new state, or why it ends. -/
def fillRule (seed : Nat) (d : Sched) (g : Ingest) : Except FillEnd Ingest :=
  let k := g.filled.length
  let room := decide (g.events.length < eventRoom d)
  if k ≥ d.batchSize then .error .full
  else match g.lateSample with
    | some (id, j, x, o) =>
      if !room then .error (.overrun 1)
      else
        let t := (g.place x o true).without j
        .ok { t with pendingList := t.pendingList.filter (fun e => e.2 != j), events := t.events ++ [⟨3, 0, k, id⟩],
                     live := { t.live with lateJoin := sat32 t.live.lateJoin 1 } }
    | none =>
      let j := g.cursor
      match g.sample j with
      | none => .error .wait
      | some x =>
        match x.decoded, x.corrupt with
        | some o, _ => .ok { (g.place x o false).without j with cursor := j + 1 }
        | none, some r =>
          let pad := bitAt d.policy 0
          if g.events.length + (if pad then 2 else 1) > eventRoom d then .error (.overrun (if pad then 2 else 1))
          else
            let t := g.without j
            let t1 : Ingest := { t with cursor := j + 1, events := t.events ++ [⟨1, r, k, x.id⟩],
                                        live := { t.live with dropped := sat32 t.live.dropped 1 } }
            .ok (if pad then
              { t1 with filled := t1.filled ++ [⟨padId, 1, []⟩], events := t1.events ++ [⟨5, 0, k, padId⟩],
                        live := { t1.live with padded := sat32 t1.live.padded 1 } }
            else t1)
        | none, none =>
          if x.slow ∧ ¬ bitAt d.policy 1 ∧ g.pendingList.length < 64 then
            (if !room then .error (.overrun 1)
             else .ok { g with cursor := j + 1, pendingList := g.pendingList ++ [(streamId seed d j, j)], events := g.events ++ [⟨2, 0, k, x.id⟩],
                               live := { g.live with slow := sat32 g.live.slow 1 } })
          else .error .wait

/-- Applies the rules until the slot waits, the batch is full or an event does not fit. -/
def fillGo (seed : Nat) (d : Sched) : Nat → Ingest → Ingest × FillEnd
  | 0, g => (g, .wait)
  | n + 1, g =>
    match fillRule seed d g with
    | .error e => (g, e)
    | .ok t => fillGo seed d n t

/-- The first pending sample that cannot be completed, with its reason (R177; log 40). -/
def Ingest.lost (g : Ingest) : Option (Nat × Nat × Nat) :=
  (g.pendingList.filterMap (fun e => (g.sample e.2).bind (fun x => x.corrupt.map (fun r => (e.1, e.2, r))))).head?

/-- Abandons pending samples that cannot complete (R177). -/
def abandonGo (d : Sched) : Nat → Ingest → Ingest × FillEnd
  | 0, g => (g, .wait)
  | n + 1, g =>
    match g.lost with
    | none => (g, .wait)
    | some (id, j, r) =>
      if g.events.length ≥ eventRoom d then (g, .overrun 1)
      else
        let t := g.without j
        abandonGo d n { t with pendingList := t.pendingList.filter (fun e => e.2 != j), events := t.events ++ [⟨4, r, 0xFFFF, id⟩],
                               live := { t.live with abandoned := sat32 t.live.abandoned 1 } }

/-- Sealed batches of a ring of `n` entries once batch `b` lies in it. -/
def ringAfter (n b : Nat) (l : List Nat) : List Nat := l.filter (fun k => k % n != b % n) ++ [b]

/-- Seals the batch in assembly (R176, R181, R182): its ring entry, its provisional manifest; a batch whose step has begun is
committed at once (log 41). -/
def sealBatch (c : Nat) (d : Sched) (g : Ingest) (s : State) : State :=
  let b := g.batch
  let m : BatchManifest := ⟨b, g.cursorBefore, g.cursor, g.filled.map Filled.id, g.events, false, g.pendingBefore⟩
  let ring := d.readyDepth + 2
  match freshValue s with
  | (tag, s0) =>
    let s1 := moduleWrite c (d.ringVa + b % ring * d.batchBytes) (entryContents tag.toNat d.fields g.filled) s0
    let s2 := moduleWrite c (manEntryVa d b) (batchManBytes d.firstStep m) s1
    let kept := g.manifests.filter (fun n => n.batch % d.manifestEntries != b % d.manifestEntries)
    let s3 := ingMod c (fun _ => { g with
      batch := b + 1, assembling := false, filled := [], events := [], sealed := ringAfter ring b g.sealed, manifests := kept ++ [m],
      marks := tset g.marks b (g.cursorBefore, g.pendingBefore)
      rebuild := g.rebuild.filter (fun n => n.batch != b) }) s2
    if s3.dev.jobRunning ∧ d.firstStep + b ≤ s3.dev.step then commitBatch (d.firstStep + b) c s3 else s3

/-! ### Rebuilds (R187) -/

/-- A rebuild under way: the slot and cursor reached, the pending list, the stream index of each slot's sample (`none` for padding). -/
structure Rebuild where
  slot : Nat
  cur : Nat
  pend : List (Nat × Nat)
  plan : List (Nat × Option Nat) := []
  deriving DecidableEq, Repr

/-- Slots up to `n` take the samples of the stream in order. -/
def Rebuild.upTo (ids : List Nat) (n : Nat) (r : Rebuild) : Rebuild :=
  let k := n - r.slot
  { r with slot := r.slot + k, cur := r.cur + k
           plan := r.plan ++ (List.range k).map (fun i => ((ids[r.slot + i]?).getD padId, some (r.cur + i))) }

/-- The lowest stream index at which a sample ID is pending: LATE_JOIN and ABANDONED name the ID only, and of two entries of different passes
the model takes the lower (log 168). -/
def lowestOf (id : Nat) (l : List (Nat × Nat)) : Option Nat :=
  ((l.filter (fun e => e.1 == id)).map Prod.snd).foldl (fun b j => match b with
    | none => some j
    | some k => some (min k j)) none

/-- Takes one pending entry away. -/
def dropPending (j : Option Nat) (l : List (Nat × Nat)) : List (Nat × Nat) := l.filter (fun e => some e.2 != j)

/-- One event of a committed manifest (R187): a drop and a deferral take the stream index reached, a late join and padding take the slot. -/
def Rebuild.event (ids : List Nat) (r : Rebuild) (e : IngEvent) : Rebuild :=
  let t := if e.slot = 0xFFFF then r else r.upTo ids e.slot
  match e.kind with
  | 1 => { t with cur := t.cur + 1 }
  | 2 => { t with cur := t.cur + 1, pend := t.pend ++ [(e.id, t.cur)] }
  | 3 => let j := lowestOf e.id t.pend
    { t with slot := t.slot + 1, pend := dropPending j t.pend, plan := t.plan ++ [(e.id, j)] }
  | 4 => { t with pend := dropPending (lowestOf e.id t.pend) t.pend }
  | _ => { t with slot := t.slot + 1, plan := t.plan ++ [(padId, none)] }

/-- What a committed manifest makes of the stream and the pending list (R187). -/
def rebuildPlan (m : BatchManifest) (pend : List (Nat × Nat)) : Rebuild :=
  (m.events.foldl (Rebuild.event m.ids) { slot := 0, cur := m.cursorBefore, pend := pend }).upTo m.ids m.ids.length

/-- A slot of a rebuilt batch. -/
def rebuiltSlot (g : Ingest) (m : BatchManifest) (k : Nat) (e : Nat × Option Nat) : Filled :=
  match e.2.bind g.sample with
  | some x => ⟨e.1, (if m.events.any (fun v => v.kind == 1 && v.slot == k) then 2 else 0) +
      (if m.events.any (fun v => v.kind == 3 && v.slot == k) then 4 else 0) + (if x.truncated then 8 else 0), x.decoded.getD []⟩
  | none => ⟨e.1, 1, []⟩

/-- A rebuilt batch under its committed manifest, once every listed sample has decoded; one that fails to decode is a mismatch (R187). What it
places and defers counts (R189); its DROP and ABANDONED events, which a rebuild does not decide, are not counted again (log 168). -/
def rebuildBatch (c : Nat) (d : Sched) (g : Ingest) (m : BatchManifest) (s : State) : State :=
  let r := rebuildPlan m g.pendingList
  let plan := r.plan
  let need := plan.filterMap Prod.snd
  if need.any (fun j => ((g.sample j).bind Sample.corrupt).isSome) then replayMismatch (d.firstStep + m.batch) s
  else if need.all (fun j => ((g.sample j).bind Sample.decoded).isSome) then
    let filled := (plan.zip (List.range plan.length)).map (fun e => rebuiltSlot g m e.2 e.1)
    sealBatch c d { g with
      filled := filled, events := m.events, cursorBefore := m.cursorBefore, pendingBefore := g.pendingList, cursor := m.cursorAfter,
      pendingList := r.pend, samples := g.samples.filter (fun x => decide (x.stream ∉ need)),
      live := { g.live with
        samples := sat32 g.live.samples (filled.filter (fun f => f.id != padId)).length
        padded := sat32 g.live.padded (m.events.filter (fun e => e.kind == 5)).length
        lateJoin := sat32 g.live.lateJoin (m.events.filter (fun e => e.kind == 3)).length
        slow := sat32 g.live.slow (m.events.filter (fun e => e.kind == 2)).length } } s
  else s

/-- Fills what can be filled (R176): abandonments, then slots; an event that does not fit stops ingest (R182). -/
def fillSlots (c : Nat) (s : State) : State :=
  match ctxOf s c with
  | none => s
  | some x =>
    match x.ingest.sched, x.ingest.rebuild.find? (fun m => m.batch == x.ingest.batch) with
    | none, _ => s
    | some d, some m => if x.ingest.assembling then rebuildBatch c d x.ingest m s else s
    | some d, none =>
      match abandonGo d (x.ingest.pendingList.length + 1) x.ingest with
      | (g, .overrun n) => ingestFault c (.overrun g.batch (g.events.length + n)) g.cursor (ingMod c (fun _ => g) s)
      | (g, _) =>
        if !g.assembling then ingMod c (fun _ => g) s
        else match fillGo (jobSeed s) d (2 * g.samples.length + d.batchSize + 2) g with
          | (t, .full) => sealBatch c d t s
          | (t, .overrun n) => ingestFault c (.overrun t.batch (t.events.length + n)) t.cursor (ingMod c (fun _ => t) s)
          | (t, .wait) => ingMod c (fun _ => t) s

/-! ### Internal events -/

/-- Ingest of a context goes on: running and admitted (R224). -/
def Ingest.active (g : Ingest) : Bool := g.running && g.admitted

/-- A sample that may be read: at or beyond the cursor, or on the pending list, and not read yet. -/
def Ingest.mayRead (g : Ingest) (j : Nat) : Bool :=
  (g.sample j).isNone && (decide (g.cursor ≤ j) || g.pendingList.any (fun e => e.2 == j))

/-- A record's place: its shard entry and index. -/
def shardOfId (d : Sched) (id : Nat) : Option Shard := d.shards.find? (fun sh => sh.shard == id / 2 ^ 40)

/-- Adds a sample that has been read and fills slots. -/
def addSample (c : Nat) (x : Sample) (s : State) : State := fillSlots c (ingMod c (fun g => { g with samples := g.samples ++ [x] }) s)

/-- The engines that may decode a field of a kind (R172): JPEG and PNG by the value's first byte, AV1, FLAC and Opus, the tokeniser. -/
def engineKinds (kind : Nat) (value : List Byte) : List Nat :=
  match kind with
  | 1 => if fieldAt value 0 1 = 0x89 then [2] else [1]
  | 2 => [3, 4, 5, 6]
  | 3 => [7]
  | 4 => [7]
  | 5 => [8]
  | _ => []

/-- The engine a field is decoded on: any of the right function that serves; no rule names it (R172; log 1). -/
def pickEngine (s : State) (es : List Nat) : Option Nat × State :=
  match ((List.range 4).flatMap (fun q => es.map (uEngine q))).filter (unitServes s) with
  | [] => (none, s)
  | l => match freshValue s with
    | (v, t) => (l[v.toNat % l.length]?, t)

/-- The engines of a sample's fields. -/
def pickEngines : List Field → List (Option (List Byte)) → State → List Nat × State
  | f :: fs, some v :: vs, s =>
    match pickEngine s (engineKinds f.kind v) with
    | (e, t) => match pickEngines fs vs t with
      | (l, u) => (e.toList ++ l, u)
  | _ :: fs, none :: vs, s => pickEngines fs vs s
  | _, _, s => ([], s)

/-- Reads the record of a stream index through a frame parser (R162 to R164, R177, R188, R206). -/
def readSample (c j unit : Nat) (d : Sched) (s : State) : State :=
  let id := streamId (jobSeed s) d j
  let base : Sample := { stream := j, id := id, engine := unit }
  match shardOfId d id with
  | none => addSample c { base with corrupt := some 2 } s
  | some sh =>
    match parseRecord s c d.fields sh (id % 2 ^ 40) with
    | .fault va f => ingestFault c (accDetail (.tf va f) unit .shard) j (countPoison (.tf va f) s)
    | .poison dpa => addSample c { base with corrupt := some 9 } (countPoison (.mem dpa) s)
    | .ok (.error r) => addSample c { base with corrupt := some r } s
    | .ok (.ok v) =>
      match pickEngines d.fields v s with
      | (es, t) => addSample c { base with values := v, engines := es } t

/-- XRS_FRAME_PARSE (R163): `engine` is the number 16 × q + e of an XRS frame parser, e = 0. -/
def execXrsFrameParse (c j engine : Nat) (s : State) : Out :=
  match ctxOf s c with
  | none => .refused (.notEnabled "no such context")
  | some x =>
    match x.ingest.sched with
    | none => .refused (.notEnabled "no schedule")
    | some d =>
      let u := 0x5000 + engine
      gate (x.ingest.active && x.ingest.mayRead j && engine % 16 == 0 && decide (engine < 64) && unitServes s u &&
          decide (u ∉ s.chart.fence)) "the sample cannot be read" (readSample c j u d s)

/-- Threshold of R179 in CK_AON ticks of 40 ns: max(4 ms, 32 × median). -/
def slowTicks (g : Ingest) : Nat := max 100000 (32 * g.median)

/-- 2 s in CK_AON ticks. -/
def decodeLimit : Nat := 50000000

/-- Changes a sample. -/
def sampleMod (c j : Nat) (f : Sample → Sample) (s : State) : State :=
  ingMod c (fun g => { g with samples := g.samples.map (fun x => if x.stream = j then f x else x) }) s

/-- No slowness or timeout is decided during a rebuild (R187). -/
def Ingest.rebuilding (g : Ingest) : Bool := !g.rebuild.isEmpty

/-- A sample is slow from here (R179). -/
def markSlow (c j : Nat) (s : State) : State := fillSlots c (sampleMod c j (fun x => { x with slow := true }) s)

/-- A sample of a context that is in decode. -/
def inDecode (x : Ctx) (j : Nat) : Option Sample := (x.ingest.sample j).bind (fun a => if a.decoded.isNone ∧ a.corrupt.isNone then some a else none)

/-- The end of a sample's decode (R172, R179): its outputs or its drop reason; the time joins the last 1,023. -/
def finishDecode (c : Nat) (x : Ctx) (d : Sched) (a : Sample) (ticks : Nat) (fields : List Decoded) (s : State) : State :=
  let slow := decide (ticks > slowTicks x.ingest) && !x.ingest.rebuilding && !a.slow
  let s1 := if slow then markSlow c a.stream s else s
  match decodeFields s1.tokens (jobSeed s1) a.id (a.stream / d.passLen) 0 d.fields a.values fields with
  | .error r => fillSlots c (sampleMod c a.stream (fun y => { y with corrupt := some r }) s1)
  | .ok (o, t) =>
    fillSlots c (sampleMod c a.stream (fun y => { y with decoded := some o, truncated := t })
      (ingMod c (fun g => { g with times := (g.times ++ [ticks]).drop ((g.times.length + 1) - 1023) }) s1))

/-- Samples in decode on an engine that leaves service restart from their records on another of its function; what time they took counts on
(R172). -/
def restartSample (u v c j : Nat) (s : State) : State :=
  match ctxOf s c with
  | none => s
  | some x =>
    match x.ingest.sched, inDecode x j with
    | some d, some a =>
      if u ∈ a.engine :: a.engines then
        sampleMod c j (fun y => { y with slow := a.slow, engines := a.engines.map (fun k => if k = u then v else k) })
          (readSample c j (if a.engine = u then v else a.engine) d (ingMod c (fun g => g.without j) s))
      else s
    | _, _ => s

/-- SAMPLE_DECODE_COMPLETE (R172): `ticks` is the decode time, `fields` what the decoders of R170 give. -/
def execSampleDecodeComplete (c j ticks : Nat) (fields : List Decoded) (s : State) : Out :=
  match ctxOf s c with
  | none => .refused (.notEnabled "no such context")
  | some x =>
    match x.ingest.sched, inDecode x j with
    | some d, some a =>
      gate (x.ingest.active && (decide (ticks < decodeLimit) || x.ingest.rebuilding) && a.engines.all (fun u => unitState s u == .healthy && !restarts s u))
        "the sample cannot complete" (finishDecode c x d a ticks fields s)
    | _, _ => .refused (.notEnabled "no such sample in decode")

/-- The latest sealed Fix's step, if there is one (R182, R317). -/
def sealedFixStep (s : State) : Option Nat :=
  (([s.fix.slot0, s.fix.slot1].filterMap id).filter FixImage.sealed).foldl (fun b i => match b with
    | none => some i.step
    | some n => some (max n i.step)) none

/-- The manifest entry of the next batch would overwrite one that must be kept (R182). -/
def manifestHeld (s : State) (d : Sched) (g : Ingest) : Bool :=
  match sealedFixStep s with
  | none => false
  | some f => decide (d.manifestEntries ≤ g.batch) && decide (f ≤ d.firstStep + g.batch - d.manifestEntries)

/-- Assembly of the next batch may begin (R176, R182, R183). -/
def mayAssemble (s : State) (d : Sched) (g : Ingest) : Bool :=
  g.active && !g.assembling && decide (g.depth s.dev.step < d.readyDepth) && !g.sealed.any (fun b => b % (d.readyDepth + 2) == g.batch % (d.readyDepth + 2)) &&
    !manifestHeld s d g

/-- ASSEMBLY_START (R183). -/
def execAssemblyStart (c : Nat) (s : State) : Out :=
  match ctxOf s c with
  | none => .refused (.notEnabled "no such context")
  | some x =>
    match x.ingest.sched with
    | none => .refused (.notEnabled "no schedule")
    | some d =>
      gate (mayAssemble s d x.ingest) "assembly waits"
        (fillSlots c (ingMod c (fun g => { g with assembling := true, cursorBefore := g.cursor, pendingBefore := g.pendingList, filled := [] }) s))

/-- SAMPLE_SLOW (R179): the sample's decode time passes the threshold. -/
def execSampleSlow (c j ticks : Nat) (s : State) : Out :=
  match ctxOf s c with
  | none => .refused (.notEnabled "no such context")
  | some x =>
    match inDecode x j with
    | none => .refused (.notEnabled "no such sample in decode")
    | some a =>
      gate (x.ingest.active && !a.slow && decide (slowTicks x.ingest < ticks)) "the sample is not slow"
        (if x.ingest.rebuilding then s else markSlow c j s)

/-- DECODE_TIMEOUT (R177): dropped, or abandoned when pending. -/
def execDecodeTimeout (c j : Nat) (s : State) : Out :=
  match ctxOf s c with
  | none => .refused (.notEnabled "no such context")
  | some x =>
    match inDecode x j with
    | none => .refused (.notEnabled "no such sample in decode")
    | some _ =>
      gate x.ingest.active "ingest does not run"
        (if x.ingest.rebuilding then s else fillSlots c (sampleMod c j (fun y => { y with corrupt := some 7 }) s))

end Sys2Proof.Machine
end

