-- ==== Sys2Proof/Machine/Chart.lean ====
section
/-! DEFINITION. The chart's changes (R20 to R33) and the hardware faults of clusters, supervisors, Binnacles and media engines
(R302 to R308, R334). -/
namespace Sys2Proof.Machine

/-! ### Who takes an identity (R304) -/

/-- The chart as it will stand once the changes decided so far are published: what further decisions start from (R23). -/
def foreseen (s : State) : State :=
  let l := (match s.chart.pub with
    | some b => [b.change]
    | none => []) ++ s.chart.waiting
  let t := l.foldl (fun u c => publishChange (lawful u c) u.chart.epoch u) s
  { t with chart := { t.chart with pub := none, waiting := [] } }

/-- The clusters of a compute die in a state, ascending. -/
def dieClusters (s : State) (die : Nat) (st : UnitState) : List Nat :=
  ((List.range 52).map (fun i => 52 * die + i)).filter (fun p => unitState s (uCluster p) == st && !leaving s (uCluster p))

/-- The cluster that takes an identity of a die: the SPARE of lower position, else the HEALTHY one of lowest position that carries one
identity (R304). `out` are clusters that cannot take it. -/
def takerOf (s : State) (die : Nat) (out : List Nat) : Option Nat :=
  match (dieClusters s die .spare).find? (fun p => decide (p ∉ out)) with
  | some p => some p
  | none => (dieClusters s die .healthy).find? (fun p => decide (p ∉ out) && (identities s p).length == 1)

/-- Moves for the identities of a cluster, in ascending order, or `none` when one has no taker. -/
def movesFrom (s : State) (phys : Nat) : List Nat → List Nat → Option (List (Nat × Nat))
  | [], _ => some []
  | l :: r, out =>
    match takerOf s (phys / 52) (phys :: out) with
    | none => none
    | some p => (movesFrom s phys r (p :: out)).map (fun m => (l, p) :: m)

/-- The change that takes a cluster out of service with its identities moved. -/
def quarantineChange (phys : Nat) (st : UnitState) (moves : List (Nat × Nat)) : Change :=
  { units := (uCluster phys, st) :: moves.map (fun m => (uCluster m.2, .healthy)), moves := moves, spared := true }

/-- HEALTHY clusters of a die after a cluster leaves with its moves. -/
def healthyAfter (s : State) (phys : Nat) (moves : List (Nat × Nat)) : Nat :=
  ((dieClusters s (phys / 52) .healthy).filter (fun p => p != phys)).length +
    (moves.filter (fun m => unitState s (uCluster m.2) == .spare)).length

/-! ### Cluster tests (R370) -/

/-- Orders the planned move that takes a HEALTHY cluster to a state; a later order takes the place of one still to be carried out
(log 148). -/
def planMove (phys : Nat) (st : UnitState) (s : State) : State :=
  let ids := identities (foreseen s) phys
  let rest := s.chart.planned.filter (fun m => decide (m.1 ∉ ids))
  { s with chart := { s.chart with planned := rest ++ ids.map (fun l => (l, 0xFFFF, st)) } }

/-- A cluster of a die that has not been tested in this pass and that no planned move leaves or takes, of the clusters in a state. -/
def untested (s f : State) (die : Nat) (st : UnitState) : Option Nat :=
  (dieClusters f die st).find? (fun p => decide (p ∉ s.test.clusterDone) &&
    !s.chart.planned.any (fun m => carrier f m.1 == p || m.2.1 == p))

/-- The cluster a die tests next: QUARANTINED ones, SPARE ones, then HEALTHY ones while the die has a SPARE. -/
def nextTested (s f : State) (die : Nat) : Option (Nat × UnitState) :=
  match untested s f die .quarantined with
  | some p => some (p, .quarantined)
  | none => match untested s f die .spare with
    | some p => some (p, .spare)
    | none => if (dieClusters f die .spare).isEmpty then none else (untested s f die .healthy).map (fun p => (p, .healthy))

/-- Takes the next cluster of a die to TESTING: by a change of its own, a HEALTHY one by a planned move. -/
def takeToTest (s : State) (die : Nat) : State :=
  match nextTested s (foreseen s) die with
  | none => s
  | some (p, st) =>
    let t : State := { s with test := { s.test with clusterRun := s.test.clusterRun ++ [p] } }
    if st = .healthy then planMove p .testing t else decideChange { units := [(uCluster p, .testing)] } t

/-- A die of the mask starts its next test when it has none running; under REPEAT a new pass follows. -/
def startTest (s : State) (die : Nat) : State :=
  if !bitAt s.test.clusterMask die || s.test.clusterRun.any (fun p => p / 52 == die) then s
  else if (nextTested s (foreseen s) die).isNone && s.test.clusterRepeat then
    takeToTest { s with test := { s.test with clusterDone := s.test.clusterDone.filter (fun p => p / 52 != die) } } die
  else takeToTest s die

/-- The payload of CLUSTER_TEST (R370). -/
def testPayload (s : State) : List Byte := s.test.results.flatMap (fun e => leBytes 2 (uCluster e.1) ++ leBytes 1 e.2 ++ zeros 1)

/-- No CLUSTER_TEST is under way. -/
def clearTesting (s : State) : State :=
  { s with test := { s.test with clusterMask := 0, clusterRepeat := false, clusterSlot := none, clusterRun := [], clusterDone := [], results := [] } }

/-- Cluster testing ends: its slot becomes ready with the latest results. -/
def endTesting (s : State) : State :=
  clearTesting (match s.test.clusterSlot with
    | some idx => finishPending idx 0 0 (testPayload s) s
    | none => s)

/-- Starts tests on every die that can. -/
def startTests (s : State) : State := (List.range 16).foldl startTest s

/-- A pass has nothing left to test. -/
def testsDone (s : State) : Bool := s.test.clusterSlot.isSome && s.test.clusterRun.isEmpty && !s.test.clusterRepeat

/-- Starts tests on every die that can; a pass with nothing left to test ends the command. -/
def goOnTesting (s : State) : State :=
  let t := startTests s
  if testsDone t then endTesting t else t

/-- The result of a cluster's test: in its place in the order of first test. -/
def putResult (p r : Nat) : List (Nat × Nat) → List (Nat × Nat)
  | [] => [(p, r)]
  | (q, v) :: l => if q = p then (p, r) :: l else (q, v) :: putResult p r l

/-- A cluster leaves CLUSTER_TEST's hands, without a result of its own; the next tests follow (log 139). -/
def dropTest (p : Nat) (s : State) : State :=
  if p ∈ s.test.clusterRun then
    goOnTesting { s with test := { s.test with
      clusterRun := s.test.clusterRun.filter (fun q => q != p), clusterDone := ninsert s.test.clusterDone p } }
  else s

/-- A cluster's test has ended: its result, then the next tests; a test of no CLUSTER_TEST leaves no result. -/
def endTest (p : Nat) (pass : Bool) (s : State) : State :=
  if p ∈ s.test.clusterRun then
    dropTest p { s with test := { s.test with results := putResult p (if pass then 0 else 1) s.test.results } }
  else s

/-- Clusters picked for a test whose planned move can no longer be carried out, since their die has lost its last SPARE: HEALTHY clusters
are tested only while it has one (R370). -/
def stranded (s : State) : List Nat :=
  let f := foreseen s
  s.test.clusterRun.filter (fun p => unitState f (uCluster p) == .healthy && (dieClusters f (p / 52) .spare).isEmpty &&
    s.chart.planned.any (fun m => carrier f m.1 == p && m.2.2 == .testing))

/-- The clusters that are in no test of the pass any more leave it: those a change took elsewhere, and the stranded ones (R370). -/
def settleTests (c : Change) (s : State) : State :=
  let gone := s.test.clusterRun.filter (fun p => c.units.any (fun x => x.1 == uCluster p && x.2 != .testing))
  let lost := stranded s
  let t := { s with chart := { s.chart with planned := s.chart.planned.filter (fun m => !(decide (carrier s m.1 ∈ lost) && m.2.2 == .testing)) } }
  (gone ++ lost).foldl (fun u p => dropTest p u) t

/-- Dies of a mask. -/
def maskCount (m : Nat) : Nat := ((List.range 16).filter (bitAt m)).length

/-- CLUSTER_TEST's effect: it starts testing, or with DIE_MASK 0 ends it. A pass that finds nothing to test is finished (R256). -/
def bodyClusterTest (p : Packet) (idx : Nat) (s : State) : State :=
  if pf p 0 2 = 0 then finishSlot p 0x0801 idx 0 [] (endTesting s)
  else
    let t := startTests { s with test := { s.test with
      clusterMask := pf p 0 2, clusterRepeat := pf p 2 1 == 1, clusterSlot := some idx, clusterDone := [], results := [] } }
    if testsDone t then finishSlot p 0x0801 idx 0 (testPayload t) (clearTesting t) else complete p 0x0801 stPENDING none none idx [] t

/-- CLUSTER_TEST accepted in FIXING starts with its slot (R248); a test that another has started meanwhile bars it. -/
def startClusterTest (p : Packet) (s : State) : State :=
  if pf p 0 2 ≠ 0 ∧ s.test.clusterSlot.isSome then completeOpen p 0x0801 stBUSY s
  else match allocSlot p (208 * maskCount (pf p 0 2)) s with
    | (idx, t) => bodyClusterTest p idx t

/-! ### FAILED, Fix stops -/

/-- The module enters FAILED from any state but OFF (R249): MODULE_LOSS, with a FAILED notice to its manager (R308). -/
def moduleLoss (s : State) : State :=
  let t := if s.dev.st = .off then s else enterState .failed 0 s
  if inGroup s && !s.grp.manager then sendMsg 1 s.grp.managerRank "FAILED" [s.grp.rank] t else t

/-- A cluster, supervisor, engine or lane fault absorbed in the module (R302; R323, input 0x5). -/
def noteAbsorbed (s : State) : State := { noteSoft s with fix := { (noteSoft s).fix with absorbedHw := s.fix.absorbedHw + 1 } }

/-- The Fix stop begins (R315): DEVICE_STATE becomes FIXING. -/
def beginFixStop (s : State) : State :=
  enterState .fixing 0 { s with fix := { s.fix with stage := .quiesce, stopDelayed := false, abortDue := false } }

/-- The sixteen waves that release held descriptors (R349). -/
def allWaves : List Nat := List.range 16

/-- The job's stop takes effect: every bound context becomes unbound, the module is in READY (R133). -/
def stopJob (s : State) : State :=
  reschedule (enterState .ready 0 { s with ctxs := s.ctxs.map (fun e => (e.1, { e.2 with bound := false })), dev := { s.dev with jobRunning := false } })

/-- What starts a command that was accepted in FIXING (R248). -/
def startOne (a : Nat × Packet) (s : State) : State :=
  match a.1 with
  | 0x0120 => bodyScaleSet a.2 s
  | 0x0200 => bodyPtRootSet a.2 s
  | 0x0201 => bodyTlbInvalidate a.2 s
  | 0x0220 => bodySyncAlloc a.2 s
  | 0x0221 => bodySyncFree a.2 s
  | 0x0222 => bodySyncOp a.2 s
  | 0x0400 => bodyIngestSchedule a.2 s
  | 0x0401 => bodyIngestStart a.2 s
  | 0x0402 => bodyIngestStop a.2 s
  | 0x0410 => bodyTokenTableLoad a.2 s
  | 0x0601 => bodyFaultResolve a.2 s
  | 0x0801 => startClusterTest a.2 s
  | _ => s

/-- The commands accepted in FIXING start, in the order of their acceptance (R248). -/
def startAccepted (s : State) : State := s.dev.starts.foldl (fun t a => startOne a t) { s with dev := { s.dev with starts := [] } }

/-- The module leaves FIXING: its state, then the start of what was accepted meanwhile (R248, R249). -/
def leaveFixing (st : DevState) (detail : Nat) (s : State) : State :=
  startAccepted (if st = .hold then enterHold detail s else enterState st detail s)

/-- Compute resumes after a Fix stop, and after the retune that runs in it (R350): RUN, and the next step is released in its waves; a job's stop then takes effect (R133, R249, R315). -/
def resumeRun (s : State) : State :=
  if s.dev.st = .fixing ∧ s.grp.retune then { s with fix := { s.fix with resumeDue := true } }
  else if s.dev.st = .fixing then
    let t := leaveFixing .run 0 { s with bnd := { s.bnd with waves := allWaves } }
    if s.dev.jobRunning then reschedule t else stopJob t
  else s

/-- A stop that has ended while a retune ran gives way to RUN with the retune's end. -/
def endStop (s : State) : State := if s.fix.resumeDue then resumeRun { s with fix := { s.fix with resumeDue := false } } else s

/-- A Fix stop in progress. -/
def inFixStop (s : State) : Bool := s.fix.stage == .quiesce || s.fix.stage == .copying || s.fix.stage == .header

/-- A Fix is aborted during its stop (R236, R316): the previous Fix keeps its role, the trigger stays pending. -/
def abortFix (cause : Nat) (s : State) : State :=
  if inFixStop s then
    resumeRun (raiseEvent 5 { s with fix := { s.fix with
      stage := .none, draft := none, abortDue := false, aborted := sat32 s.fix.aborted 1, abortCause := cause, triggered := true } })
  else s

/-! ### Units going out of service -/

/-- A native or Ethernet port in use loses a physical lane (R276, R277). -/
def loseLane (k phys : Nat) (s : State) : State :=
  match (portOf s k).active.find? (fun l => ((portOf s k).laneMap[l]?).getD l == phys) with
  | some l => if (portOf s k).up then (if (portOf s k).mode = 0 then narrowPort k l s else portGoesDown k s) else s
  | none => s

/-- Engines of the same function that may take a media engine's queue (R172); `out` leave service with it. -/
def sameEngines (s : State) (out : List Nat) (u : Nat) : List Nat :=
  ((List.range 4).flatMap (fun q => (if 3 ≤ u % 16 ∧ u % 16 ≤ 6 then [3, 4, 5, 6] else [u % 16]).map (uEngine q))).filter (fun v =>
    v != u && decide (v ∉ out) && unitState s v == .healthy && !leaving s v)

/-- A media engine's queue moves: its samples restart from their records on the other engine (R172). -/
def moveEngine (out : List Nat) (u : Nat) (s : State) : State :=
  match sameEngines s out u with
  | [] => s
  | v :: _ => (s.ctxs.flatMap (fun e => e.2.ingest.samples.map (fun x => (e.1, x.stream)))).foldl (fun t k => restartSample u v k.1 k.2 t) s

/-- What leaves service with a unit: its chains, its port's lanes, its queue; `out` leave service in the same change. -/
def leaveService (out : List Nat) (u : Nat) (s : State) : State :=
  match u / 4096 with
  | 1 => abandonCluster (u % 4096) (dropWaits (fun r => r.unit == u && r.rank.isNone) s)
  | 5 => moveEngine out u s
  | 6 => if (portOf s (u % 4096)).up then portGoesDown (u % 4096) s else s
  | 7 => loseLane (u % 4096 / 8) (u % 8) s
  | _ => s

/-- Drops the planned moves to carriers that a change takes out of service (R305). -/
def dropTargets (c : Change) (s : State) : State :=
  { s with chart := { s.chart with planned := s.chart.planned.filter (fun m =>
      !c.units.any (fun x => x.1 == uCluster m.2.1 && x.2 != .healthy)) } }

/-- Decides a change after taking out of service every unit it takes from HEALTHY. A memory die that fails is MODULE_LOSS (R308); one that
is quarantined carries no work (R20), which for the stacks behind it is the same: the model's reading (log 166). -/
def decideLeaving (c : Change) (s : State) : State :=
  let out := (c.units.filter (fun x => unitState s x.1 == .healthy && x.2 != .healthy)).map Prod.fst
  let t := decideChange c (out.foldl (fun t u => leaveService out u t) (dropTargets c s))
  if out.any (fun u => u / 4096 == 3) then moduleLoss t else t

/-! ### Cluster faults -/

/-- The state a faulted unit goes to: FAILED when the fault is permanent, else QUARANTINED (R21). -/
def faultState (permanent : Bool) : UnitState := if permanent then .failed else .quarantined

/-- Notes a unit's fault in this power-up; on the second one the QUARANTINED unit goes to FAILED by a change of its own (R21). -/
def noteFault (u : Nat) (permanent : Bool) (s : State) : State :=
  let t := { s with chart := { s.chart with faulted := ninsert s.chart.faulted u } }
  if u ∈ s.chart.faulted ∧ ¬ permanent then decideChange { units := [(u, .failed)] } t else t

/-- Drops the planned moves that a fault overtakes: of the identities that move off the cluster, and to carriers that leave or take one
now. -/
def dropPlanned (ids carriers : List Nat) (s : State) : State :=
  { s with chart := { s.chart with planned := s.chart.planned.filter (fun m => decide (m.1 ∉ ids) && decide (m.2.1 ∉ carriers)) } }

/-- A cluster fault (R304, R235): quarantine and sparing, or MODULE_LOSS; a Fix stop in progress is aborted. -/
def clusterFaulted (phys : Nat) (permanent : Bool) (s : State) : State :=
  let u := uCluster phys
  let t := abortFix 1 s
  let f := foreseen t
  if unitState f u = .healthy then
    match movesFrom f phys (identities f phys) [] with
    | none => moduleLoss (decideLeaving { units := [(u, faultState permanent)] } t)
    | some m =>
      let t1 := noteAbsorbed (noteFault u permanent (decideLeaving (quarantineChange phys (faultState permanent) m)
        (dropPlanned (identities f phys) (phys :: m.map Prod.snd) t)))
      if healthyAfter f phys m < 25 then moduleLoss t1 else settleTests {} (dropTest phys t1)
  else endTest phys false (noteFault u permanent (decideLeaving { units := [(u, faultState permanent)] } t))

/-- Notes the array group that a cluster's fault names, for diagnosis (R85). -/
def noteArray (phys : Nat) (array : Option Nat) (s : State) : State :=
  match array with
  | some a => { s with chart := { s.chart with diagnosis := tset s.chart.diagnosis phys (0x2000 + 4 * phys + a) } }
  | none => s

/-- CLUSTER_FAULT (R302, R304, R85): `array` names the faulty array group, for diagnosis only. -/
def execClusterFault (phys : Nat) (array : Option Nat) (permanent : Bool) (s : State) : Out :=
  gate (decide (phys < 832) && array.all (fun a => decide (a < 4)) && unitState s (uCluster phys) ∈ [.healthy, .spare, .testing] &&
      !leaving s (uCluster phys) && s.dev.st != .off) "no such cluster is in service" (clusterFaulted phys permanent (noteArray phys array s))

/-- A gang of a logical cluster passes a chain that may run: its next vector or token could issue, and vectors it has issued are on their
way to the accumulators. -/
def chainRuns (s : State) (l : Nat) : Bool :=
  (List.range 4).any (fun a => (gangOf s l a).run.any (fun r => (ctxOf s r.ctx).any (mayRun s)))

/-- A chain could begin on a logical cluster, whose turn it is on a doubled carrier (R222, R304). -/
def chainWaits (s : State) (l : Nat) : Bool :=
  (List.range 4).any (fun a => nextIdentity s (carrier s l) a == some l)

/-- A set stands on a logical cluster whose drain rows could issue. -/
def drainRuns (s : State) (l : Nat) : Bool := (List.range 4).any (fun a => (gangOf s l a).drain.isSome)

/-- A vector kernel issued and not held has granules for a logical cluster: one in hand on its carrier, or those of a kernel to start. A
stripe that waits on a halo makes progress (R125). -/
def granuleOpen (s : State) (l : Nat) : Bool :=
  s.ctxs.any (fun e => mayRun s e.2 && e.2.works.any (fun w =>
    w.opcode == 0x0300 && !w.onArrays && w.st == .issued && (!w.deferWg || w.promoted || deferredOnly s l) &&
      (w.held.any (fun h => h.unit == some (uCluster (carrier s l))) ||
       (!w.started && (match outStripes e.2 w with
         | some t => (List.range t.clusters.length).any (fun j => t.clusters[j]? == some l && stripeReady w j)
         | none => decide (l ∈ w.clusters) && stripeReady w 0)))))

/-- A logical cluster holds work that could issue (R303): a chain in hand or to begin, a set to drain, a granule. Work that a rule holds is
none of these: it has not issued, waits on a halo, is parked or saved out, or waits for its turn. -/
def holdsWork (s : State) (l : Nat) : Bool := chainRuns s l || chainWaits s l || drainRuns s l || granuleOpen s l

/-- CLUSTER_WATCHDOG (R303): no progress for 10 µs on a logical cluster that holds issuable work is a cluster fault. -/
def execClusterWatchdog (l : Nat) (s : State) : Out :=
  gate (decide (l < 800) && holdsWork s l && clusterServes s l) "the cluster is held or idle" (clusterFaulted (carrier s l) false s)

/-! ### Planned moves (R305) -/

/-- The identities of the planned moves that leave a cluster. -/
def plannedFrom (s : State) (phys : Nat) : List (Nat × Nat × UnitState) := s.chart.planned.filter (fun m => carrier s m.1 == phys)

/-- Where a planned move goes: the carrier ordered, or the taker of R304, which for a cluster that goes to TESTING is a SPARE (R21). -/
def plannedMoves (s : State) (phys : Nat) : List (Nat × Nat × UnitState) → List Nat → Option (List (Nat × Nat))
  | [], _ => some []
  | (l, p, st) :: r, out =>
    match if p = 0xFFFF then (takerOf s (phys / 52) (phys :: out)).filter (fun q => st != .testing || unitState s (uCluster q) == .spare)
      else (if unitState s (uCluster p) = .spare then some p else none) with
    | none => none
    | some q => (plannedMoves s phys r (q :: out)).map (fun m => (l, q) :: m)

/-- SPARE clusters that a planned move is to bring an identity (R305, R334). -/
def promised (s : State) : List Nat := (s.chart.planned.map (fun m => m.2.1)).filter (fun p => p != 0xFFFF)

/-- A physical cluster has ended what it had in hand (R305): every gang is idle, drains included, no vector granule is at work on it, and
every write it made is acknowledged. -/
def clusterIdle (s : State) (phys : Nat) : Bool :=
  (identities s phys).all (fun l => (List.range 4).all (fun g => gangOf s l g == {})) &&
    s.ctxs.all (fun e => e.2.works.all (fun w => w.held.all (fun h => h.unit != some (uCluster phys)))) &&
    s.mem.unacked.all (fun k => k.unit != some (uCluster phys))

/-- PLANNED_MOVE (R305): decided when the cluster is idle and its writes acknowledged; nothing is discarded or replayed. -/
def execPlannedMove (l phys : Nat) (state : UnitState) (s : State) : Out :=
  let old := carrier s l
  let mine := plannedFrom s old
  match plannedMoves (foreseen s) old mine (promised s) with
  | none => .refused (.notEnabled "no cluster can take the identity")
  | some m =>
    let c : Change := { units := (if state = .healthy then [] else [(uCluster old, state)]) ++ m.map (fun x => (uCluster x.2, .healthy)), moves := m }
    gate (mine.any (fun x => x.1 == l && x.2.2 == state) && decide ((l, phys) ∈ m) && clusterIdle s old && c.units.all (permits (foreseen s)))
      "no such planned move is due"
      (decideChange c { s with chart := { s.chart with planned := s.chart.planned.filter (fun x => decide (x ∉ mine)) } })

/-- The lowest doubled identity of a die that no planned move takes (R305, R334). -/
def doubledOf (s : State) (die : Nat) : Option Nat :=
  ((List.range 50).map (fun i => 50 * die + i)).find? (fun l =>
    decide ((identities s (carrier s l)).length = 2) && !s.chart.planned.any (fun m => m.1 == l))

/-- A SPARE cluster ordered to HEALTHY takes an identity by a planned move; a later order takes the place of an earlier one. -/
def planTake (l phys : Nat) (s : State) : State :=
  { s with chart := { s.chart with planned := s.chart.planned.filter (fun m => m.2.1 != phys) ++ [(l, phys, .healthy)] } }

/-! ### UNIT_STATE_SET and the rolling test -/

/-- Whether a unit of a kind can be in a state of its own (R20, R85). -/
def kindHas (k : Nat) (st : UnitState) : Bool :=
  match st with
  | .testing => k == 1 || k == 5 || k == 7
  | .spare => k == 1 || k == 8
  | _ => true

def chkUnitState (p : Packet) : Checks :=
  { lenOk := p.paramLen == 4, fieldsOk := unitValid (pf p 0 2) && decide (pf p 2 1 ≤ 5) && pf p 3 1 == 0, units := [pf p 0 2] }

/-- A HEALTHY cluster ordered out of service: refused with 0x0C21 where R304 has no taker or too few clusters stay (R334). -/
def orderOut (p : Packet) (phys : Nat) (st : UnitState) (s : State) : State :=
  let f := foreseen s
  match movesFrom f phys (identities f phys) [] with
  | none => completeWith p 0x0602 stBADPARAM 0x0C21 s
  | some m => if healthyAfter f phys m < 25 then completeWith p 0x0602 stBADPARAM 0x0C21 s
    else completeOk p 0x0602 (if st = .testing then planMove phys st s else settleTests {} (dropTest phys (planMove phys st s)))

/-- UNIT_STATE_SET's effect (R21, R305, R334). -/
def bodyUnitState (p : Packet) (s : State) : State :=
  let u := pf p 0 2
  let k := u / 4096
  match unitStateOf (pf p 2 1) with
  | none => completeOpen p 0x0602 stBADPARAM s
  | some st =>
    let f := foreseen s
    if k = 2 ∨ ¬ kindHas k st then completeWith p 0x0602 stBADPARAM 0x0C20 s
    else if !transitionOk k (unitState f u) st then completeOpen p 0x0602 stBADPARAM s
    else if k = 1 ∧ unitState f u = .healthy then orderOut p (u % 4096) st s
    else if k = 1 ∧ unitState f u = .spare ∧ st = .healthy then
      match doubledOf f (u % 4096 / 52) with
      | none => completeWith p 0x0602 stBADPARAM 0x0C22 s
      | some l => completeOk p 0x0602 (planTake l (u % 4096) s)
    else completeOk p 0x0602 ((if k = 1 then settleTests {} ∘ dropTest (u % 4096) else id) (decideLeaving { units := [(u, st)] } s))

def acceptUnitState (p : Packet) (s : State) : State := acceptPacket 0x0602 (chkUnitState p) (fun _ t => bodyUnitState p t) p s

/-- UNIT_STATE_SET (R334). -/
def execUnitStateSet (p : Packet) (s : State) : Out := packetOut 0x0602 acceptUnitState p s

/-- A unit the rolling test takes to TESTING (R21, R305): a HEALTHY cluster by a planned move, while its die has a SPARE. -/
def rollOne (u : Nat) (s : State) : State :=
  if u / 4096 = 1 ∧ unitState s u = .healthy then planMove (u % 4096) .testing s
  else if u / 4096 = 2 then s
  else decideLeaving { units := [(u, .testing)] } s

/-- ROLLING_TEST (R305): `carrier` is the SPARE that takes the identities of a HEALTHY cluster. An array group is TESTING with its cluster
(R85). -/
def execRollingTest (u : Nat) (carrier : Option Nat) (s : State) : Out :=
  let st := unitState s u
  let ok := unitValid u && s.dev.st != .off && s.dev.st != .boot && unitState (foreseen s) u == st &&
    (match u / 4096 with
     | 1 => if st = .healthy then
         (identities s (u % 4096)).length == 1 && (plannedFrom s (u % 4096)).isEmpty && !leaving s u &&
           carrier == (dieClusters s (u % 4096 / 52) .spare).head? && carrier.isSome
       else (st == .spare || st == .quarantined) && carrier.isNone
     | 2 => unitState s (uCluster (u % 4096 / 4)) == .testing && carrier.isNone
     | 5 => (st == .quarantined || (st == .healthy && !(sameEngines s [] u).isEmpty)) && carrier.isNone
     | 7 => (st == .healthy || st == .quarantined) && carrier.isNone
     | _ => false)
  gate ok "the rolling test does not take this unit" (rollOne u s)

/-! ### Supervisors and Binnacles (R306, R307) -/

/-- Compute dies' chains and granules are discarded for replay on the same carriers (R306). -/
def discardDie (die : Nat) (s : State) : State :=
  ((List.range 52).map (fun i => 52 * die + i)).foldl (fun t p => abandonCluster p t) s

/-- The units that fail with a die: its clusters; the memory die and its stacks; the engines; the ports and lanes (R306). -/
def dieUnits (sup : Nat) : List Nat :=
  if sup < 16 then (List.range 52).map (fun i => uCluster (52 * sup + i))
  else if sup < 24 then uMemDie (sup - 16) :: (List.range 3).map (fun i => uStack (3 * (sup - 16) + i))
  else if sup < 28 then (List.range 9).map (fun e => uEngine (sup - 24) e)
  else (List.range 3).map (fun i => uPort (3 * (sup - 28) + i)) ++ (List.range 24).map (fun i => uLane (3 * (sup - 28) + i / 8) (i % 8))

/-- A second supervisor fault fails its die in one change (R306, R308). -/
def failDie (sup : Nat) (s : State) : State :=
  let us := (dieUnits sup).filter (fun u => unitState s u != .absent && unitState s u != .failed)
  let bothFabric := sup ≥ 28 && unitState s (uSup (if sup = 28 then 29 else 28)) == .failed
  let stranded := (24 ≤ sup ∧ sup < 28) && (List.range 9).any (fun e => (sameEngines s us (uEngine (sup - 24) e)).isEmpty)
  let t := decideLeaving { units := us.map (fun u => (u, .failed)) ++ [(uSup sup, .failed)] } s
  if sup < 24 || bothFabric || stranded then (if t.dev.st = .failed then t else moduleLoss t) else noteAbsorbed t

/-- A supervisor fault (R306, R235): a restart the first time in a power-up, else its die fails. -/
def supervisorFault (sup : Nat) (s : State) : State :=
  let t := abortFix 1 s
  if uSup sup ∈ s.chart.faulted then failDie sup t
  else
    let t1 := { t with chart := { t.chart with restarting := ninsert t.chart.restarting sup, faulted := ninsert t.chart.faulted (uSup sup) } }
    noteAbsorbed (if sup < 16 then discardDie sup t1 else t1)

/-- SUPERVISOR_HEARTBEAT_MISS (R306). -/
def execSupervisorHeartbeatMiss (sup : Nat) (s : State) : Out :=
  gate (decide (sup < 30) && unitState s (uSup sup) == .healthy && decide (sup ∉ s.chart.restarting) && !leaving s (uSup sup) && s.dev.st != .off)
    "the supervisor does not run" (supervisorFault sup s)

/-- SUPERVISOR_RESTART_END (R306): one change restates the supervisor as HEALTHY. -/
def execSupervisorRestartEnd (sup : Nat) (s : State) : Out :=
  gate (decide (sup ∈ s.chart.restarting)) "the supervisor does not restart"
    (decideChange { restate := [uSup sup] }
      { s with chart := { s.chart with restarting := s.chart.restarting.filter (fun n => n != sup) } })

/-- BINNACLE_TAKEOVER (R307, R235): the standby takes over; with no standby the fault is MODULE_LOSS. -/
def execBinnacleTakeover (s : State) : Out :=
  gate (s.dev.st != .off && s.dev.st != .failed && !s.dev.takeover) "no Binnacle to take over from"
    (if s.dev.standbyBinnacle then
       let t := abortFix 1 s
       { t with dev := { t.dev with takeover := true, bbActive := !t.dev.bbActive, standbyBinnacle := false }, fix := (noteSoft t).fix }
     else moduleLoss s)

/-! ### Publication (R25) -/

/-- A quadrant whose lost stack the chart now marks FAILED starts its rebuild (R210, step 6). -/
def startRebuild (s : State) (q : Nat) : State :=
  let a := armourOf s q
  if a.st = 2 ∧ unitState s (uStack (6 * q + a.lostJ)) = .failed then setArmour q { a with st := 3, cursor := 0 } s else s

/-- A descriptor that carries the step to come, or that its release wave still holds (R131, R349). -/
def heldNext (s : State) (w : Work) : Bool :=
  w.opcode == 0x0300 && (w.st == .waiting || w.st == .deferred) &&
    (w.step == s.dev.step + 1 || (w.step == s.dev.step && w.clusters.any (fun l => decide (l % 16 ∈ s.bnd.waves))))

/-- Descriptors not yet released that a spared cluster takes up under its new epoch (R161). -/
def takeUp (e : Word) (c : Change) (s : State) : State :=
  let up (w : Work) : Work := if heldNext s w && c.moves.any (fun m => decide (m.1 ∈ w.clusters)) then { w with epoch := e } else w
  if c.spared then { s with ctxs := s.ctxs.map (fun x => (x.1, { x.2 with works := x.2.works.map up })) } else s

/-- The publication ends (R25, step 5): the epoch is current; a change that waited begins; a Fix stop it delayed begins (R236). -/
def endPublication (b : Publication) (s : State) : State :=
  let c := lawful s b.change
  let t := (List.range 4).foldl startRebuild (takeUp b.epoch c (publishChange c b.epoch s))
  let t1 := match t.chart.waiting with
    | [] => t
    | c :: r => decideChange c { t with chart := { t.chart with waiting := r } }
  if t1.fix.stopDelayed && t1.chart.pub.isNone then beginFixStop t1 else t1

/-- Changes a publication. -/
def setPub (f : Publication → Publication) (s : State) : State := { s with chart := { s.chart with pub := s.chart.pub.map f } }

/-- BINNACLE_TAKEOVER_END (R25, R160, R307): a publication whose steps 2 and 3 are done ends without step 4; the Binnacles' own change
follows. -/
def execBinnacleTakeoverEnd (s : State) : Out :=
  gate s.dev.takeover "no takeover runs"
    (let t := { s with dev := { s.dev with takeover := false } }
     let t1 := match t.chart.pub with
       | some b => if b.applied then endPublication b t else t
       | none => t
     let old := if s.dev.bbActive then 0x8000 else 0x8001
     decideChange { units := [(old, .failed), (binnacleUnit s, .healthy)].filter (permits (foreseen t1)) } t1)

/-- Whether a change is one R21 permits: permitted transitions and restatements, identities moved to HEALTHY clusters of their own die, at
most two on one cluster, none left on a cluster that goes out of service. A HEALTHY cluster carries an identity (R20), and a SPARE takes
those of a HEALTHY one that goes to TESTING in the same change. -/
def changeOk (s : State) (c : Change) : Bool :=
  let after (u : Nat) : UnitState := ((c.units.find? (fun x => x.1 == u)).map Prod.snd).getD (unitState s u)
  let where' (l : Nat) : Nat := ((c.moves.find? (fun m => m.1 == l)).map Prod.snd).getD (carrier s l)
  let touched := c.moves.map Prod.snd ++ c.moves.map (fun m => carrier s m.1) ++ (c.units.filter (fun x => x.1 / 4096 == 1)).map (fun x => x.1 % 4096)
  decide ((c.units.map Prod.fst).Nodup) && decide ((c.moves.map Prod.fst).Nodup) &&
  c.units.all (fun x => unitValid x.1 && x.1 / 4096 != 2 && permits s x) &&
  c.moves.all (fun m => decide (m.1 < 800) && decide (m.2 < 832) && m.2 / 52 == m.1 / 50) &&
  touched.all (fun p =>
    let ids := ((List.range 50).map (fun i => 50 * (p / 52) + i)).filter (fun l => where' l == p)
    decide (ids.length ≤ 2) && (ids.isEmpty == (after (uCluster p) != .healthy))) &&
  (c.units.filter (fun x => x.1 / 4096 == 1 && x.2 == .testing && unitState s x.1 == .healthy)).all (fun x =>
    (identities s (x.1 % 4096)).all (fun l => unitState s (uCluster (where' l)) == .spare && after (uCluster (where' l)) == .healthy))

/-- CHART_CHANGE_DECISION (R23, R25 step 1): a change of the Binnacle's own, allocated its epoch, or waiting behind one in publication. -/
def execChartChangeDecision (changes : List (Nat × UnitState)) (moves : List (Nat × Nat)) (s : State) : Out :=
  let c : Change := { units := changes, moves := moves }
  gate (s.dev.st != .off && s.dev.st != .boot && !s.dev.takeover && (!changes.isEmpty || !moves.isEmpty) && changeOk (foreseen s) c) "no such change is permitted"
    (settleTests c (decideLeaving c s))

/-- Chains and granules executing on units that are fenced are abandoned there (R30). -/
def abandonOn (us : List Nat) (s : State) : State :=
  (us.filter (fun u => u / 4096 == 1)).foldl (fun t u => abandonCluster (u % 4096) t) s

/-- FENCE_ACK (R25 step 2, R29, R30): all memory and fabric dies hold the additions to the fence list. -/
def execFenceAck (s : State) : Out :=
  match s.chart.pub with
  | none => .refused (.notEnabled "no change is published")
  | some b =>
    gate (!b.fenced && !s.dev.takeover) "the fences are acknowledged"
      (let c := lawful s b.change
       let off := (c.units.filter (fun x => fences (unitState s x.1) x.2)).map Prod.fst
       setPub (fun x => { x with fenced := true }) (abandonOn off (fenceUnits c s)))

/-- SUPERVISOR_APPLY_ACK (R25 step 3); with no standby Binnacle the publication ends here. -/
def execSupervisorApplyAck (s : State) : Out :=
  match s.chart.pub with
  | none => .refused (.notEnabled "no change is published")
  | some b =>
    gate (b.fenced && !b.applied && !s.dev.takeover) "not at this step"
      (if s.dev.standbyBinnacle then setPub (fun x => { x with applied := true }) s else endPublication { b with applied := true } s)

/-- BINNACLE_MIRROR_ACK (R25 steps 4 and 5). -/
def execBinnacleMirrorAck (s : State) : Out :=
  match s.chart.pub with
  | none => .refused (.notEnabled "no change is published")
  | some b => gate (b.applied && s.dev.standbyBinnacle && !s.dev.takeover) "not at this step" (endPublication { b with mirrored := true } s)

/-! ### Skews (R29, R31 to R33) -/

/-- FENCED_OUTPUT_DISCARD (R29, R33): `die` is the supervisor number of the memory or fabric die that discards. -/
def execFencedOutputDiscard (die unit : Nat) (epoch : Word) (s : State) : Out :=
  gate (decide (unit ∈ s.chart.fence) && (within 16 die 23 || within 28 die 29)) "the unit is not fenced"
    (if (die, unit, epoch) ∈ s.chart.discards then s
     else logSkew unit 2 die epoch { s with chart := { s.chart with discards := (die, unit, epoch) :: s.chart.discards } })

/-- Reconciliation of a unit (R32): its work is stopped and discarded, it is fenced, and a change restates its charted state. -/
def reconcile (u : Nat) (s : State) : State :=
  let t := leaveService [] u s
  decideChange { restate := [u] } { t with chart := { t.chart with fence := ninsert t.chart.fence u } }

/-- SUPERVISOR_STATE_MISMATCH (R31, R32): the chart prevails; the Binnacle reports the event (log 57). -/
def execSupervisorStateMismatch (u : Nat) (reported : UnitState) (epoch : Word) (s : State) : Out :=
  gate (unitValid u && u / 4096 != 2 && reported != unitState s u && s.dev.st != .off) "the report agrees with the chart"
    (reconcile u (logSkew u 3 0xFF epoch s))

/-- STALE_PROGRESS_REPORT (R31, R32): progress under a former identity is ignored and the unit reconciled. -/
def execStaleProgressReport (u : Nat) (epoch : Word) (s : State) : Out :=
  gate (unitValid u && u / 4096 == 1 && epochOlder epoch (changeEpoch s u)) "the unit carries the identity"
    (reconcile u (logSkew u 4 0xFF epoch s))

/-! ### Media engines -/

/-- MEDIA_ENGINE_FAULT (R302, R172): the engine is QUARANTINED and its queue moves; with no engine of its function left the fault is
MODULE_LOSS. -/
def execMediaEngineFault (u : Nat) (s : State) : Out :=
  gate (unitValid u && u / 4096 == 5 && (unitState s u == .healthy || unitState s u == .testing) && !leaving s u && s.dev.st != .off)
    "no such engine is in service"
    (let t := noteFault u false (decideLeaving { units := [(u, .quarantined)] } s)
     if unitState s u = .healthy then (if (sameEngines s [] u).isEmpty then moduleLoss t else noteAbsorbed t) else t)

end Sys2Proof.Machine
end

