-- ==== Sys2Proof/Machine/Fix.lean ====
section
/-! DEFINITION. Fixes: the secured state, the Fix stop, the stream and its seals, exports, step manifests, restores (R309 to R322, R331 to
R335, R388). -/
namespace Sys2Proof.Machine

/-! ### Layout and images -/

/-- The regions of the Fix layout in force: context, VA, bytes. -/
def fixRegions (s : State) : List (Nat × Nat × Nat) := ((fixLayout s).map regionsOf).getD []

/-- The image a slot holds. -/
def slotImage (s : State) (n : Nat) : Option FixImage := if n = 0 then s.fix.slot0 else s.fix.slot1

/-- Sets an own slot. -/
def setSlot (n : Nat) (i : Option FixImage) (s : State) : State :=
  { s with fix := if n = 0 then { s.fix with slot0 := i } else { s.fix with slot1 := i } }

/-- The slot that holds a COMPLETE Fix of a step. -/
def slotOf (s : State) (step : Nat) : Option Nat :=
  [0, 1].find? (fun n => (slotImage s n).any (fun i => i.complete && i.step == step))

/-- The slot a new Fix is written to: the one that does not hold the latest group-sealed Fix (R315). -/
def nextSlot (s : State) : Nat :=
  match s.fix.recoveryStep.bind (slotOf s) with
  | some 0 => 1
  | some _ => 0
  | none => if (slotImage s 0).isNone then 0 else if (slotImage s 1).isNone then 1
    else if ((slotImage s 0).map FixImage.step).getD 0 ≤ ((slotImage s 1).map FixImage.step).getD 0 then 0 else 1

/-- The ingest state before the batch of step `f` (R186): batch, cursor, pending list. Before FIRST_STEP the number wraps in its 64 bits and
the state is that before batch 0. Where assembly has not reached that batch, the spec does not say what is secured: the model secures the
cursor and pending list as they stand under its number, the model's choice (log 172). -/
def ingestAt (g : Ingest) (f : Nat) : Nat × Nat × List (Nat × Nat) :=
  let b := f - g.firstStep
  let n := (2 ^ 64 + f - g.firstStep) % 2 ^ 64
  match tget g.marks b with
  | some m => (n, m)
  | none => if g.assembling ∧ g.batch = b then (n, g.cursorBefore, g.pendingBefore) else (n, g.cursor, g.pendingList)

/-- What a Fix before step `f` secures of a context (R186, R310). -/
def fixCtx (f : Nat) (e : Nat × Ctx) : FixCtx :=
  match ingestAt e.2.ingest f with
  | (b, c, l) => ⟨e.1, e.2.scales, e.2.scratch, b, c, l⟩

/-- Numbers of the bytes of a list that are not 0, from an offset. -/
def liveCells : Nat → List Byte → Mem
  | _, [] => []
  | o, b :: r => if b = 0 then liveCells (o + 1) r else (o, b) :: liveCells (o + 1) r

/-- The 64 KiB pages of a region. -/
def regionPages (r : Nat × Nat × Nat) : List Nat := (List.range (r.2.2 / 65536)).map (fun i => 65536 * i)

/-- The device address of a page of a region, if it is device memory (R388). -/
def pageDpa (s : State) (c va : Nat) : Option Nat :=
  match translate s c va false with
  | .ok (.dev a _) => some a
  | _ => none

/-- Why a region page fails R388: 3 not translatable to device memory, 4 overlapping a slot or a log. -/
def pageFault (s : State) (places : List (Nat × Nat)) (c va : Nat) : Option Nat :=
  match pageDpa s c va with
  | none => some 3
  | some a => if places.any (fun p => overlaps a 65536 p.1 p.2) then some 4 else none

/-- The first cause of R388 among the pages of all regions. -/
def regionFault (s : State) : Option Nat :=
  let places := ((fixLayout s).map fixPlaces).getD []
  ((fixRegions s).flatMap (fun r => (regionPages r).map (fun o => pageFault s places r.1 (r.2.1 + o)))).findSome? id

/-- Reads a region's pages: its bytes that are not 0, or the poisoned DPA the copy met. -/
def readRegion (s : State) (c va : Nat) : List Nat → Except AccErr Mem
  | [] => .ok []
  | o :: r =>
    match readPiece s c (va + o) 65536 with
    | .error e => .error e
    | .ok l => match readRegion s c va r with
      | .error e => .error e
      | .ok m => .ok (liveCells o l ++ m)

/-- Reads regions in table order. -/
def readRegions (s : State) : List (Nat × Nat × Nat) → Except AccErr (List (Nat × Nat × Nat × Mem))
  | [] => .ok []
  | r :: l =>
    match readRegion s r.1 r.2.1 (regionPages r) with
    | .error e => .error e
    | .ok m => match readRegions s l with
      | .error e => .error e
      | .ok t => .ok ((r.1, r.2.1, r.2.2, m) :: t)

/-- The header of a Fix slot (R311); FLAGS are bit 0 COMPLETE, bit 1 SEALED. -/
def fixHeadTo (serial : List Byte) (regions : Nat) (i : FixImage) (flags : Nat) : List Byte :=
  leBytes 4 0x5849465A ++ leBytes 4 1 ++ leBytes 8 i.step ++ leBytes 8 i.seed ++ leBytes 1 i.level ++ leBytes 1 flags ++ leBytes 2 i.rank ++
    leBytes 4 i.chartEpoch.toNat ++ leBytes 4 i.groupEpoch.toNat ++ leBytes 2 i.gen ++ leBytes 2 regions ++ leBytes 8 i.s ++
    serial.take 16 ++ leBytes 4 i.dataCrc.toNat

/-- FLAGS of a header (R311). -/
def headerFlags (i : FixImage) : Nat := (if i.complete then 1 else 0) + (if i.sealed then 2 else 0)

/-- The 128-byte header, its HDR_CRC computed with FLAGS taken as 0 (R311). -/
def fixHeader (serial : List Byte) (i : FixImage) : List Byte :=
  let n := i.regions.length
  fixHeadTo serial n i (headerFlags i) ++
    leBytes 4 (crc32c (fixHeadTo serial n i 0)).toNat ++ zeros 56

/-- Whether a header's HDR_CRC is right: FLAGS count as 0 (R311). -/
def headerCrcOk (h : List Byte) : Bool :=
  fieldAt h 68 4 == (crc32c (h.take 25 ++ zeros 1 ++ (h.drop 26).take 42)).toNat

/-- What a slot header says of its Fix (R311). -/
def imageOfHeader (h : List Byte) : FixImage :=
  { step := fieldAt h 8 8, seed := fieldAt h 16 8, level := fieldAt h 24 1, complete := bitAt (fieldAt h 25 1) 0, sealed := true, rank := fieldAt h 26 2
    chartEpoch := BitVec.ofNat 32 (fieldAt h 28 4), groupEpoch := BitVec.ofNat 32 (fieldAt h 32 4), gen := fieldAt h 36 2, s := fieldAt h 40 8
    dataCrc := BitVec.ofNat 32 (fieldAt h 64 4), ctxs := [], regions := [] }

/-! ### Own slots in device memory (R309, R311; log 102) -/

/-- Offsets of an image's regions in a slot: after the 64 MiB of MSTATE, in table order (R311). -/
def regionOffsets : Nat → List (Nat × Nat × Nat × Mem) → List (Nat × Nat × Nat × Nat × Mem)
  | _, [] => []
  | o, (c, va, n, m) :: r => (o, c, va, n, m) :: regionOffsets (o + n) r

/-- The bytes of a page of a region. -/
def pageBytes (m : Mem) (o : Nat) : List Byte := Memory.getN (m.filter (fun e => decide (o ≤ e.1) && decide (e.1 < o + 65536))) o 65536

/-- The place of an own slot, where a Fix layout section names one (R309). -/
def slotBase (s : State) (n : Nat) : Option Nat := (fixLayout s).map (fun b => fieldAt b (8 * n) 8)

/-- Where the pages of regions lie in a slot, with their bytes. -/
def slotPages (base : Nat) (regions : List (Nat × Nat × Nat × Mem)) : List (Nat × List Byte) :=
  (regionOffsets (64 * 2 ^ 20) regions).flatMap (fun e => match e with
    | (o, c, va, n, m) => (regionPages (c, va, n)).map (fun p => (base + o + p, pageBytes m p)))

/-- The regions are copied into an own slot (R311, R315). -/
def storeRegions (n : Nat) (regions : List (Nat × Nat × Nat × Mem)) (s : State) : State :=
  match slotBase s n with
  | none => s
  | some a => (slotPages a regions).foldl (fun t e => devStore e.1 e.2 t) s

/-- The header of an own slot is written (R311, R315). -/
def storeHeader (n : Nat) (s : State) : State :=
  match slotBase s n, slotImage s n with
  | some a, some i => devStore a (fixHeader s.flash.serial i) s
  | _, _ => s

/-- SEALED is set in an own slot (R317): FLAGS alone change, which no CRC covers. -/
def storeFlags (n : Nat) (s : State) : State :=
  match slotBase s n, slotImage s n with
  | some a, some i => devStore (a + 25) [BitVec.ofNat 8 (headerFlags i)] s
  | _, _ => s

/-- A new Fix begins in an own slot: the Fix that was there is COMPLETE no more (R315, R319). -/
def openSlot (n : Nat) (s : State) : State :=
  setSlot n none (match slotBase s n, slotImage s n with
    | some a, some _ => devStore (a + 25) [0] s
    | _, _ => s)

/-- Device memory holds these bytes, none of them poisoned. -/
def devHolds (s : State) (dpa : Nat) (l : List Byte) : Bool :=
  match devRead s dpa l.length with
  | .ok r => r == l
  | .error _ => false

/-- HDR_CRC is right and what it and DATA_CRC cover of an own slot is the Fix it was written with (R311, R332): FLAGS count in neither. -/
def slotHolds (s : State) (n : Nat) (i : FixImage) : Bool :=
  match slotBase s n with
  | none => true
  | some a =>
    match devRead s a 128 with
    | .error _ => false
    | .ok h => fieldAt h 0 4 == 0x5849465A && headerCrcOk h && (slotPages a i.regions).all (fun e => devHolds s e.1 e.2) &&
      { imageOfHeader h with complete := i.complete, sealed := i.sealed, ctxs := i.ctxs, regions := i.regions, chart := i.chart, recs := i.recs } == i

/-! ### The Fix stop (R315, R388) -/

/-- Moves of every doubled identity to the SPAREs of its die: the lower identity of each doubled cluster, SPAREs ascending (R305). -/
def undoubleMoves (s : State) (die : Nat) : List (Nat × Nat) :=
  let doubled := ((List.range 52).map (fun i => 52 * die + i)).filterMap (fun p => if (identities s p).length = 2 then (identities s p).head? else none)
  doubled.zip (dieClusters s die .spare)

/-- Moves doubled identities at a Fix stop (R305): no chain runs, nothing is replayed. -/
def undouble (s : State) : State :=
  let m := (List.range 16).flatMap (undoubleMoves (foreseen s))
  if m.isEmpty then s else decideChange { units := m.map (fun x => (uCluster x.2, .healthy)), moves := m } s

/-- A DMA granule is in flight (R315): written and not acknowledged, or in an owner's stripe buffer. -/
def stillMoving (s : State) : Bool :=
  !s.mem.unacked.isEmpty || s.ctxs.any (fun e => e.2.works.any (fun w => w.dma.any (fun r => decide (r.acked.length < r.written))))

/-- The stack-cache lines of the Fix regions. -/
def regionLines (s : State) : List Nat :=
  (fixRegions s).flatMap (fun r => (regionPages r).flatMap (fun o => match pageDpa s r.1 (r.2.1 + o) with
    | some a => linesOf s a 65536
    | none => []))

/-- Dirty lines within the regions are written back (R315). -/
def writeBackRegions (s : State) : State :=
  if s.mem.cache.isEmpty then s
  else
    let keys := regionLines s
    { s with mem := { s.mem with cache := s.mem.cache.map (fun l => { l with dirty := l.dirty && !keys.contains l.key }) } }

/-- FIX_QUIESCE_COMPLETE (R315, R388): the in-flight work is done; copying begins into a slot, or the Fix is aborted. A context fault that
struck during the stop aborts the Fix at the stop's next row (R235; log 169). -/
def execFixQuiesceComplete (s : State) : Out :=
  gate (s.fix.stage == .quiesce && !stillMoving s) "the stop has not quiesced"
    (if s.fix.abortDue then abortFix 1 s else
     let t := undouble (writeBackRegions s)
     match regionFault t with
     | some c => abortFix c t
     | none =>
       let t1 := openSlot (nextSlot t) t
       { t1 with fix := { t1.fix with stage := .copying } })

/-- The image of the state at a Fix stop (R310, R311); DATA_CRC covers MSTATE, whose layout is not stated, and so is free. -/
def takeImage (regions : List (Nat × Nat × Nat × Mem)) (s : State) : FixImage × State :=
  match freshValue s with
  | (v, t) =>
    ({ step := s.dev.step, seed := jobSeed s, level := s.dev.level, complete := false, sealed := false, rank := s.grp.rank
       chartEpoch := s.chart.epoch, groupEpoch := s.grp.epoch, gen := s.grp.gen, s := securedSize ((fixLayout s).getD [])
       dataCrc := v.setWidth 32, ctxs := s.ctxs.map (fixCtx s.dev.step), regions := regions, chart := some s.chart, recs := s.grp.recs }, t)

/-- Tells the manager, or notes as manager or outside a group, that this module's Fix of a step is sealed (R317, R319). -/
def reportSeal (step : Nat) (s : State) : State :=
  if !inGroup s then { s with fix := { s.fix with recoveryStep := some step } }
  else if s.grp.manager then { s with fix := { s.fix with seals := s.fix.seals ++ [(s.grp.rank, step)] } }
  else sendMsg 1 s.grp.managerRank "FIX_SEALED" [s.grp.rank, step] s

/-- The Fix of every present member at a step is sealed: the group's RECOVERY_STEP, mirrored to the deputy (R319). -/
def groupSeal (step : Nat) (s : State) : State :=
  if s.grp.manager && inGroup s && (presentRanks s).all (fun r => decide ((r, step) ∈ s.fix.seals)) then
    let t := { s with fix := { s.fix with recoveryStep := some step, seals := s.fix.seals.filter (fun e => decide (step ≤ e.2)) } }
    if t.grp.deputy = 0xFFFF then t else sendMsg 1 t.grp.deputy "MIRROR_SEAL" [step] t
  else s

/-- An own slot is sealed: EVENT_CAUSE.FIX_SEALED, the report (R317). -/
def sealOwn (step : Nat) (s : State) : State :=
  match slotOf s step with
  | none => s
  | some n => groupSeal step (reportSeal step (raiseEvent 6 (storeFlags n (setSlot n ((slotImage s n).map (fun i => { i with sealed := true })) s))))

/-- 64 MiB chunks of a Fix (R317). -/
def fixChunks (i : FixImage) : Nat := (i.s + 64 * 2 ^ 20 - 1) / (64 * 2 ^ 20)

/-- The consort of this module, if it has one. -/
def consortOf (s : State) : Option Nat := if s.grp.consort = 0xFFFF then none else some s.grp.consort

/-- A 64 MiB chunk of a Fix in a slot at `base`, sent with its own CRC-32C (R317): its step, its number, the CRC, its bytes. -/
def sendChunk64 (rank : Nat) (i : FixImage) (base c : Nat) (s : State) : State :=
  let n := 64 * 2 ^ 20
  let l := match devRead s (base + n * c) (min n (i.s - n * c)) with
    | .ok l => l
    | .error _ => []
  sendMsg 5 rank "FIX_CHUNK" (i.step :: c :: (crc32c l).toNat :: l.map BitVec.toNat) s

/-- The place of the latest COMPLETE Fix in device memory. -/
def streamBase (s : State) : Nat := ((s.fix.lastFixStep.bind (slotOf s)).bind (slotBase s)).getD 0

/-- Uncovered time whose length no row times (R318): free milliseconds. -/
def addUncovered (s : State) : State :=
  match orFree none s with
  | (v, t) => { t with fix := { t.fix with uncoveredMs := sat32 t.fix.uncoveredMs v } }

/-- The stream is abandoned, and the Fix stays unsealed (R317): its time counts as uncovered (R318). -/
def abandonStream (s : State) : State := addUncovered { s with fix := { s.fix with stage := .none, acks := [], fails := [] } }

/-- Starts the stream of an own slot's Fix to the consort (R317, R327): every chunk is sent. -/
def startStream (i : FixImage) (nowMs : Option Nat) (s : State) : State :=
  match consortOf s with
  | none => s
  | some k =>
    let t := { s with fix := { s.fix with stage := .stream, acks := [], fails := [], streamStartMs := nowMs } }
    (List.range (fixChunks i)).foldl (fun u c => sendChunk64 k i (streamBase t) c u) t

/-- FIX_HEADER_ACK (R315): the Fix is COMPLETE; RUN resumes and the stream starts. `timeUs` is the end of the stop; its length, whose start
no row times, is free. -/
def execFixHeaderAck (timeUs : Nat) (s : State) : Out :=
  match s.fix.draft with
  | none => .refused (.notEnabled "no header is being written")
  | some d =>
    gate (s.fix.stage == .header) "no header is being written"
      (if s.fix.abortDue then abortFix 1 s else
       let i := { d with complete := true }
       let (len, s1) := orFree none s
       let t := storeHeader (nextSlot s) (setSlot (nextSlot s) (some i) s1)
       let t1 := { t with fix := { t.fix with
         stage := .none, draft := none, triggered := false, taken := sat32 t.fix.taken 1, lastFixStep := some i.step, stepsSince := 0
         lastStopEndUs := timeUs, lastStopUs := len } }
       let t2 := resumeRun t1
       if (consortOf t2).isSome then startStream i (some (timeUs / 1000)) t2 else sealOwn i.step t2)

/-! ### The stream and its seals (R317 to R319) -/

/-- The member whose consort this module is. -/
def partnerOf (s : State) : Option Nat := (s.grp.recs.find? (fun r => r.consort == s.grp.rank && r.rank != s.grp.rank)).map GroupRec.rank

/-- Where received chunks go: the partner's slot, or a standby's own slot 0 while it pulls (R317, R330). -/
def chunkBase (s : State) : Nat :=
  let b := (fixLayout s).getD []
  if s.fix.assume.isSome then fieldAt b 0 8 else fieldAt b 16 8

/-- The slot's bytes that DATA_CRC covers are right, and its header's (R311, R317). -/
def slotCrcOk (s : State) (base : Nat) (h : List Byte) : Bool :=
  headerCrcOk h && (match devRead s (base + 128) (fieldAt h 40 8 - 128) with
    | .ok l => crc32c l == BitVec.ofNat 32 (fieldAt h 64 4)
    | .error _ => false)

/-- All chunks that a header's S asks for are in. -/
def chunksAllIn (s : State) (h : List Byte) : Bool := (List.range (fixChunks (imageOfHeader h))).all (fun c => decide (c ∈ s.fix.consortChunks))

/-- After its last chunk the consort checks the CRCs, seals its copy and sends SEAL_ACK (R317). -/
def sealCopy (partner : Nat) (s : State) : State :=
  match devRead s (chunkBase s) 128 with
  | .error _ => s
  | .ok h =>
    if chunksAllIn s h && slotCrcOk s (chunkBase s) h then
      let t := devStore (chunkBase s + 25) [BitVec.ofNat 8 (fieldAt h 25 1 ||| 2)] s
      sendMsg 5 partner "SEAL_ACK" [fieldAt h 8 8] { t with fix := { t.fix with consortSlot := some (imageOfHeader h), consortChunks := [] } }
    else s

/-- A chunk written to a slot (R317); the first chunk of a new Fix overwrites the partner's previous copy (R318). -/
def putChunk (chunk : Nat) (bytes : List Byte) (s : State) : State :=
  let t := devStore (chunkBase s + 64 * 2 ^ 20 * chunk) bytes s
  { t with fix := { t.fix with consortSlot := if t.fix.assume.isSome then t.fix.consortSlot else none
                               consortChunks := ninsert t.fix.consortChunks chunk } }

/-- FIX_STREAM_CHUNK_RECEIVE (R317): the chunk is written, checked against its CRC and acknowledged. A standby takes the chunks of its
pull in the same way (R330). -/
def execFixStreamChunkReceive (chunk : Nat) (bytes : List Byte) (crc : Word) (s : State) : Out :=
  let pull := s.fix.assume.isSome
  match if pull then some 0xFFFF else partnerOf s with
  | none => .refused (.notEnabled "no stream arrives")
  | some k =>
    gate ((fixLayout s).isSome && decide (bytes.length ≤ 64 * 2 ^ 20) && decide (chunk * 64 * 2 ^ 20 + bytes.length ≤ 129 * gib)) "no slot takes the chunk"
      (let ok := crc32c bytes == crc
       let t := if ok then putChunk chunk bytes s else s
       let t1 := if pull then t else sendMsg 5 k "FIX_CHUNK_ACK" [chunk, if ok then 1 else 0] t
       if ok && !pull then sealCopy k t1 else t1)

/-- The image in stream: the latest COMPLETE Fix. -/
def streamImage (s : State) : Option FixImage := (s.fix.lastFixStep.bind (slotOf s)).bind (slotImage s)

/-- FIX_CHUNK_ACK (R317): a failed chunk is sent again, and at its third failure the stream is abandoned. -/
def execFixChunkAck (chunk : Nat) (ok : Bool) (s : State) : Out :=
  gate (s.fix.stage == .stream && (streamImage s).any (fun i => decide (chunk < fixChunks i)) && decide (chunk ∉ s.fix.acks)) "the chunk is not in stream"
    (if ok then { s with fix := { s.fix with acks := ninsert s.fix.acks chunk } }
     else
       let n := (tget s.fix.fails chunk).getD 0 + 1
       let t := { s with fix := { s.fix with fails := tset s.fix.fails chunk n } }
       if n ≥ 3 then abandonStream s
       else match streamImage s with
         | some i => sendChunk64 s.grp.consort i (streamBase t) chunk t
         | none => t)

/-- SEAL_ACK (R317, R318): the slot is SEALED, the stream's time counts as uncovered; what else counts, and the length of a stream
whose start no row timed, is free. -/
def execSealAck (timeMs : Nat) (s : State) : Out :=
  match streamImage s with
  | none => .refused (.notEnabled "no Fix is in stream")
  | some i =>
    gate (s.fix.stage == .stream && (List.range (fixChunks i)).all (fun c => decide (c ∈ s.fix.acks)) && decide (s.fix.streamStartMs.getD 0 ≤ timeMs))
      "the stream has not ended"
      (match freshValue s with
       | (v, t) =>
         let len := match t.fix.streamStartMs with
           | some b => timeMs - b
           | none => v.toNat / 2 ^ 32
         sealOwn i.step { t with fix := { t.fix with
           stage := .none, acks := [], fails := [], lastStreamMs := len, uncoveredMs := sat32 t.fix.uncoveredMs (len + v.toNat % 2 ^ 32) } })

/-- FIX_SEAL_REPORT (R319). -/
def execFixSealReport (rank step : Nat) (s : State) : Out :=
  gate (s.grp.manager && decide (rank ∈ presentRanks s)) "not the manager of this member"
    (groupSeal step { s with fix := { s.fix with seals := if (rank, step) ∈ s.fix.seals then s.fix.seals else s.fix.seals ++ [(rank, step)] } })

/-- FIX_PULL_REQUEST (R330): the sealed Fix at f and the manifests f to t − 1 are streamed to the standby. -/
def execFixPullRequest (rank step upTo : Nat) (s : State) : Out :=
  match s.fix.consortSlot with
  | none => .refused (.notEnabled "no sealed Fix is held for the partner")
  | some i =>
    gate (i.step == step && i.sealed) "the Fix is not held"
      (let t := { s with fix := { s.fix with pulls := s.fix.pulls ++ [(rank, step, upTo)] } }
       let t1 := (List.range (fixChunks i)).foldl (fun u c => sendChunk64 rank i (fieldAt ((fixLayout t).getD []) 16 8) c u) t
       (t1.fix.partnerLog.filter (fun e => decide (step ≤ e.1) && decide (e.1 < upTo))).foldl (fun u e => sendMsg 5 rank "MANIFEST" (e.2.map BitVec.toNat) u) t1)

/-! ### FIX_REQUEST, FIX_STATUS_GET, FIX_EXPORT -/

def chkFixRequest (p : Packet) : Checks := { lenOk := p.paramLen == 4, fieldsOk := pf p 0 4 == 0 }

/-- A member is unpaired because its consort would share its feed domain (R326). -/
def unpairedFeed (s : State) : Bool :=
  s.grp.pairStatus == 2 || (s.grp.manager && (presentRecs s).any (fun r => pairStatusOf s.grp.recs r.rank == 2))

/-- FIX_REQUEST's effect (R313, R326, R334): the Fix is taken at the next boundary in either case. -/
def bodyFixRequest (p : Packet) (s : State) : State :=
  if roleBars s p then completeOpen p 0x0610 stROLE s
  else completeOpen p 0x0610 (if unpairedFeed s then stSHAREDFEED else 0) { s with fix := { s.fix with requested := true } }

def acceptFixRequest (p : Packet) (s : State) : State := acceptPacket 0x0610 (chkFixRequest p) (fun _ t => bodyFixRequest p t) p s

/-- FIX_REQUEST (R313, R334). -/
def execFixRequest (p : Packet) (s : State) : Out := packetOut 0x0610 acceptFixRequest p s

/-- FIX_STATUS.STATE (R335). -/
def fixStateCode (s : State) : Nat :=
  if s.fix.checkpoint then 6
  else if s.fix.restore.isSome || s.fix.assume.isSome || s.fix.recovering.isSome then 4
  else if replaying s then 5
  else if inFixStop s then 1
  else if s.fix.stage == .stream then 2
  else if (streamImage s).any (fun i => i.sealed) && s.fix.recoveryStep != s.fix.lastFixStep then 3
  else 0

/-- A step number, all ones when there is none. -/
def stepOrOnes (v : Option Nat) : Nat := v.getD (2 ^ 64 - 1)

/-- The latest COMPLETE Fix of the own slots. -/
def latestFix (s : State) : Option Nat :=
  match s.fix.slot0, s.fix.slot1 with
  | some a, some b => some (max a.step b.step)
  | some a, none => some a.step
  | none, some b => some b.step
  | none, none => none

/-- The payload of FIX_STATUS_GET (R335). -/
def fixStatusPayload (s : State) : List Byte :=
  leBytes 8 (stepOrOnes s.fix.recoveryStep) ++ leBytes 8 (stepOrOnes (latestFix s)) ++ leBytes 1 (fixStateCode s) ++ leBytes 1 s.fix.sea ++
    leBytes 1 s.grp.pairStatus ++ leBytes 1 s.fix.heldCause ++ leBytes 4 s.fix.taken ++ leBytes 4 s.fix.aborted ++ leBytes 4 s.fix.deferred ++
    leBytes 4 s.fix.uncoveredMs ++ leBytes 4 s.fix.rollbacks ++ leBytes 4 (if s.grp.manager then s.fix.substitutions else 0) ++
    leBytes 4 s.fix.lastStopUs ++ leBytes 4 s.fix.lastStreamMs ++ leBytes 2 s.grp.consort ++ leBytes 1 s.fix.abortCause ++ zeros 1 ++
    (s.fix.levels.take 7).flatMap (leBytes 1) ++ zeros 1

def chkFixStatus (p : Packet) : Checks := { lenOk := p.paramLen == 0, charge := some 64 }

def acceptFixStatus (p : Packet) (s : State) : State :=
  acceptPacket 0x0611 (chkFixStatus p) (fun idx t => finishSlot p 0x0611 idx 0 (fixStatusPayload t) t) p s

/-- FIX_STATUS_GET (R335). -/
def execFixStatusGet (p : Packet) (s : State) : Out := packetOut 0x0611 acceptFixStatus p s

def chkFixExport (p : Packet) (s : State) : Checks :=
  { lenOk := p.paramLen == 16, fieldsOk := pf p 8 8 == 0, charge := some 128, busy := if s.fix.exporting.isSome then some none else none }

/-- FIX_EXPORT's effect (R333, R334): the latest group-sealed Fix is exported; it holds the Fix trigger until it ends. -/
def bodyFixExport (p : Packet) (idx : Nat) (s : State) : State :=
  if (s.fix.recoveryStep.bind (slotOf s)).isNone then refuse8 p 0x0612 stBADPARAM (some 0x0C10) idx s
  else complete p 0x0612 stPENDING none none idx [] { s with fix := { s.fix with exporting := some (p, idx) } }

def acceptFixExport (p : Packet) (s : State) : State := acceptPacket 0x0612 (chkFixExport p s) (bodyFixExport p) p s

/-- FIX_EXPORT (R334). -/
def execFixExport (p : Packet) (s : State) : Out := packetOut 0x0612 acceptFixExport p s

/-- Replaces `n` bytes of a memory from an address by a region's bytes. -/
def pasteMem (base n : Nat) (cells m : Mem) : Mem :=
  (cells.filter (fun e => decide (e.1 < n))).foldl (fun t e => Memory.set t (base + e.1) e.2)
    (m.filter (fun e => !(decide (base ≤ e.1) && decide (e.1 < base + n))))

/-- Writes an image to host memory: header and regions; the rest of MSTATE has no stated layout and is kept with the export. -/
def exportImage (dest : Nat) (i : FixImage) (s : State) : State :=
  let t := hostWrite dest (fixHeader s.flash.serial i) s
  let l := regionOffsets (64 * 2 ^ 20) i.regions
  let m := l.foldl (fun m e => match e with
    | (o, _, _, n, cells) => pasteMem (dest + o) n cells m) t.host.mem
  { t with host := { t.host with mem := m }, fix := { t.fix with exports := (dest, i) :: t.fix.exports.filter (fun e => e.1 != dest) } }

/-- FIX_EXPORT_COMPLETE (R334): the slot is copied to host memory; its payload is the header exported. -/
def execFixExportComplete (s : State) : Out :=
  match s.fix.exporting, (s.fix.recoveryStep.bind (slotOf s)).bind (slotImage s) with
  | some (p, idx), some i =>
    .next (finishPending idx 0 0 (fixHeader s.flash.serial i)
      { exportImage (pf p 0 8) i s with fix := { (exportImage (pf p 0 8) i s).fix with exporting := none } })
  | _, _ => .refused (.notEnabled "no export runs")

/-! ### Step manifests (R320 to R322) -/

/-- Parses a batch manifest's bytes (R182). -/
def parseBatch (b : List Byte) : BatchManifest :=
  let n := fieldAt b 32 2
  let e := fieldAt b 34 2
  { batch := fieldAt b 8 8, cursorBefore := fieldAt b 16 8, cursorAfter := fieldAt b 24 8
    ids := (List.range n).map (fun i => fieldAt b (64 + 8 * i) 8)
    events := (List.range e).map (fun i => ⟨fieldAt b (64 + 8 * n + 16 * i) 1, fieldAt b (65 + 8 * n + 16 * i) 1, fieldAt b (66 + 8 * n + 16 * i) 2,
      fieldAt b (72 + 8 * n + 16 * i) 8⟩)
    committed := true }

/-- The records of a manifest's bytes. -/
def parseRecs : Nat → List Byte → List ManRec
  | 0, _ => []
  | k + 1, b => if b.length < 8 then [] else
    ⟨fieldAt b 0 1, (b.drop 8).take (fieldAt b 4 4)⟩ :: parseRecs k (b.drop (8 + fieldAt b 4 4))

/-- A finalised manifest from its bytes (R320). -/
def parseManifest (b : List Byte) : Manifest :=
  { step := fieldAt b 8 8, gen := fieldAt b 16 2, recs := parseRecs (fieldAt b 18 2) (b.drop 32), digest := BitVec.ofNat 32 (fieldAt b 24 4)
    final := true, acked := true }

/-- LOG_MIB in bytes (R309). -/
def logSize (s : State) : Nat := fieldAt ((fixLayout s).getD []) 48 2 * 2 ^ 20

def chkManifest (p : Packet) : Checks :=
  { lenOk := p.paramLen == 16, fieldsOk := decide (pf p 8 1 ≤ 1) && pf p 9 7 == 0, charge := some 4194304 }

/-- STEP_MANIFEST_GET's effect (R321). -/
def bodyManifest (p : Packet) (idx : Nat) (s : State) : State :=
  let bytes := if pf p 8 1 = 0 then (ownManifest s (pf p 0 8)).map manBytes
    else (s.fix.partnerLog.find? (fun e => e.1 == pf p 0 8)).map Prod.snd
  match bytes with
  | none => refuse8 p 0x0630 stBADPARAM (some 0x0C30) idx s
  | some b => finishSlot p 0x0630 idx 0 b s

def acceptManifest (p : Packet) (s : State) : State := acceptPacket 0x0630 (chkManifest p) (bodyManifest p) p s

/-- STEP_MANIFEST_GET (R321). -/
def execStepManifestGet (p : Packet) (s : State) : Out := packetOut 0x0630 acceptManifest p s

/-- A cut record's bytes (R154). -/
def cutBytes (step whole back dropped : Nat) : List Byte := leBytes 8 step ++ leBytes 8 whole ++ leBytes 8 back ++ leBytes 8 dropped

/-- The cut a manifest records, if one was made: a record of no cut has all fields 0 (R154). -/
def cutOf (m : Manifest) : Option (Nat × Nat × Nat × Nat) :=
  match m.recs.find? (fun r => r.type == 2) with
  | some r => if allZero (r.body.take 32) then none
    else some (fieldAt r.body 0 8, fieldAt r.body 8 8, fieldAt r.body 16 8, fieldAt r.body 24 8)
  | none => none

/-- The step log has room: no kept manifest would be overwritten (R321). -/
def logRoom (s : State) : Bool :=
  (fixLayout s).isNone || decide (((s.fix.log.filter (fun m => decide (keptFrom s ≤ m.step))).map manLength).sum ≤ logSize s)

/-- Finalises the current step's manifest (R154, R320, R322). -/
def finalise (s : State) : State :=
  storeManifest s.dev.step { s with fix := { s.fix with log := s.fix.log.map (fun m =>
      if m.step = s.dev.step ∧ ¬ m.final then
        let recs := if m.recs.any (fun r => r.type == 2) then m.recs else m.recs ++ [⟨2, cutBytes 0 0 0 0⟩]
        { m with recs := recs, digest := s.colls.digest, final := true }
      else m) } }

/-- A replayed step's DIGEST differs from the recorded one (R322, R331). -/
def digestDiffers (s : State) : Bool := (replayManifest s s.dev.step).any (fun m => m.digest != s.colls.digest)

/-- MANIFEST_FINALISE (R320): the manifest goes to the consort; without one the module enters the muster. A replay mismatch stops the
step before ARRIVE (R331). -/
def execManifestFinalise (s : State) : Out :=
  gate ((ownManifest s s.dev.step).any (fun m => !m.final) && stepWorkDone s && decisionIn s && logRoom s && !s.fix.checkpoint)
    "the step is not done"
    (let t := finalise s
     if digestDiffers s then replayMismatch s.dev.step t
     else match consortOf t with
       | some k => sendMsg 5 k "MANIFEST" (((ownManifest t t.dev.step).map manBytes).getD [] |>.map BitVec.toNat) t
       | none => enterMuster t)

/-- Drops the oldest manifests of the partner's log until it fits its ring (R321). -/
def trimLog (room : Nat) : List (Nat × List Byte) → List (Nat × List Byte)
  | [] => []
  | e :: r => if ((e :: r).map (fun x => x.2.length)).sum ≤ room then e :: r else trimLog room r

/-- STEP_MANIFEST_RECEIVE (R320): the partner's finalised manifest is stored at CLOG_DPA (log 170) and acknowledged; a standby in its pull keeps it for its
replay (R330). -/
def execStepManifestReceive (bytes : List Byte) (s : State) : Out :=
  match s.fix.assume, partnerOf s with
  | some _, _ => .next { s with fix := { s.fix with replayLog := s.fix.replayLog ++ [parseManifest bytes] } }
  | none, some k =>
    let n := fieldAt bytes 8 8
    let l := s.fix.partnerLog.filter (fun e => e.1 != n) ++ [(n, bytes)]
    let t := match fixLayout s with
      | some b => storeRing (fieldAt b 40 8) (logSize s) s.fix.clogAt bytes s
      | none => s
    .next (sendMsg 5 k "MANIFEST_ACK" [n] { t with fix := { t.fix with
      partnerLog := trimLog (logSize s) l, clogAt := (t.fix.clogAt + bytes.length) % logSize s } })
  | none, none => .refused (.notEnabled "no partner streams manifests")

/-- STEP_MANIFEST_ACK (R286, R320): the module enters the muster, once work accepted since the manifest was finalised is done (R157). -/
def execStepManifestAck (step : Nat) (s : State) : Out :=
  gate (step == s.dev.step && (ownManifest s step).any (fun m => m.final && !m.acked) && (consortOf s).isSome && !s.fix.checkpoint)
    "the manifest is not out"
    (offerMuster { s with fix := { s.fix with log := s.fix.log.map (fun m => if m.step = step then { m with acked := true } else m) } })

/-! ### Restores (R26, R99, R128, R139, R187, R218, R234, R331, R332) -/

/-- Every descriptor of a context is discarded (R26, R261); the job does not run meanwhile, so no step ends by it. -/
def discardWorks (e : Nat × Ctx) (s : State) : State := e.2.works.foldl (fun t w => abortWork e.1 w (some 0x0A30) t) s

/-- A context after a restore but its scales and ingest: no frames, no faults when bound, not parked or saved out (R139, R234). -/
def restoredCtx (x : Ctx) : Ctx :=
  { x with astk := { x.astk with segs := [], freeing := [], held := [] }, savedOut := false, savedHeader := [], saving := false, savedWaits := [], dead := []
           faults := if x.bound then [] else x.faults, lateFaults := if x.bound then [] else x.lateFaults
           parked := if x.bound then false else x.parked
           orphanSat := 0, orphanNonfinite := 0, orphanFlush := 0, orphanOvf := 0, liveClamps := 0 }

/-- Scale records as they stood at the Fix, live counts cleared, shadows kept (R99). -/
def restoredScales (now saved : Table ScaleRec) : Table ScaleRec :=
  saved.map (fun e => (e.1, { e.2 with
    live := {}, shadow := ((tget now e.1).map ScaleRec.shadow).getD e.2.shadow, shadowTs := ((tget now e.1).map ScaleRec.shadowTs).getD e.2.shadowTs }))

/-- Batch manifests of a context in a replay log, in order of batch. -/
def loggedBatches (log : List Manifest) (c step : Nat) : List BatchManifest :=
  ((log.filter (fun m => decide (step ≤ m.step))).flatMap (fun m => m.recs.filter (fun r => r.type == 1 && fieldAt r.body 0 1 == c))).map
    (fun r => parseBatch (r.body.drop 1))

/-- Ingest after a restore (R187). -/
def restoredIngest (log : List Manifest) (step : Nat) (f : FixCtx) (g : Ingest) : Ingest :=
  { g with batch := if f.batch < 2 ^ 63 then f.batch else 0, cursor := f.cursor, pendingList := f.pendingList, assembling := false, filled := [], events := [], samples := []
           sealed := [], marks := [], manifests := g.manifests.filter BatchManifest.committed, faultStopped := false, rebuild := loggedBatches log f.ctx step, live := { g.live with depthMin := 0 } }

/-- Restores one context of an image. -/
def restoreCtx (log : List Manifest) (step : Nat) (s : State) (f : FixCtx) : State :=
  ctxMod f.ctx (fun x => { x with scales := restoredScales x.scales f.scales, scratch := f.scratch, ingest := restoredIngest log step f x.ingest }) s

/-- Writes the regions of an image back through the page tables that stand (R388; log 23). -/
def restoreRegions (i : FixImage) (s : State) : State :=
  i.regions.foldl (fun t r => match r with
    | (c, va, n, m) => (regionPages (c, va, n)).foldl (fun u o => moduleWrite c (va + o) (pageBytes m o) u) t) s

/-- A cell of the halo range of a stripe set (R125). -/
def haloCell (s : State) (k : Nat) : Bool :=
  s.ctxs.any (fun e => (e.2.stripes ++ e.2.newStripes).any (fun t => decide (t.2.haloBase ≤ k) && decide (k < t.2.haloBase + t.2.haloCount)))

/-- Sync cells after a restore (R125, R218): the waits of contexts are removed and the cells of their ranges hold 0. -/
def restoreCells (s : State) : State :=
  { s with sync := { s.sync with
      waits := s.sync.waits.filter (fun w => reservedCell w.cell), held := s.sync.held.filter (fun w => reservedCell w.cell)
      releases := s.sync.releases.filter (fun r => r.who.ctx.isNone && r.who.rank.isNone)
      remoteOut := s.sync.remoteOut.filter (fun e => e.2.2.2.2.ctx.isNone)
      cells := s.sync.cells.filter (fun e => (rangeOf s e.1).isNone && !haloCell s e.1) } }

/-- R186's rule: a context's BATCH agrees with the step under the schedule in force. -/
def ingestAgrees (s : State) (step : Nat) (i : FixImage) : Bool :=
  i.ctxs.all (fun f => match (ctxOf s f.ctx).bind (fun x => x.ingest.sched) with
    | some d => (f.batch + d.firstStep) % 2 ^ 64 == step
    | none => true)

/-- Whether a descriptor stands stopped by a fault of the activation stack, which it met before it could issue (R137). -/
def stackStopped (x : Ctx) (id : Nat) : Bool :=
  x.faults.any (fun e => e.2.work == some id && (match e.2.detail with
    | .stack .. => true
    | _ => false))

/-- A context at the cut: its accepted, unissued descriptors of deferred micro-batches are re-stamped (R153), its deferred queue is
promoted (R140). -/
def cutCtx (s : State) (x : Ctx) : Ctx :=
  if x.bound then
    let y : Ctx := { x with works := x.works.map (fun w =>
      if w.opcode = 0x0300 ∧ (w.st = .waiting ∨ w.st = .deferred ∨ (w.st = .faulted ∧ stackStopped x w.id)) then restamp s w else w) }
    promoteAll y
  else x

/-- The frames of a dropped micro-batch, whose origin step is the one before, are discarded (R152). -/
def dropFrames (step dropped : Nat) (x : Ctx) : Ctx :=
  if x.bound then { x with astk := { x.astk with segs := x.astk.segs.filter (fun e => !(bitAt dropped (e.1 / 2) && e.1 % 2 == (step + 1) % 2)) } }
  else x

/-- The accepted descriptors of the micro-batches a cut drops complete with ST_STEP_EXPIRED (R152). -/
def dropWorks (step dropped : Nat) (s : State) : State :=
  let hit : List (Nat × Work) := (s.ctxs.filter (fun e => e.2.bound)).flatMap (fun e =>
    (e.2.works.filter (fun w => w.opcode == 0x0300 && w.lag == 1 && w.step == step && bitAt dropped w.mb)).map (fun w => (e.1, w)))
  hit.foldl (fun t e => endWork e.1 e.2 stSTEPEXPIRED none t) s

/-- The cut takes effect (R152, R153, R154): its record, re-stamping, promotion, dropped micro-batches. -/
def makeCut (cut : Nat × Nat × Nat × Nat) (s : State) : State :=
  match cut with
  | (step, whole, back, dropped) =>
    let t : State := manRecord step 2 (cutBytes step whole back dropped) { s with bnd := { s.bnd with cut := some cut } }
    let t1 : State := { t with ctxs := t.ctxs.map (fun (e : Nat × Ctx) => (e.1, dropFrames step dropped (cutCtx t e.2))) }
    dropWorks step dropped t1

/-- The cut of a replayed step is the recorded one (R154). -/
def openReplay (s : State) : State :=
  match (replayManifest s s.dev.step).bind cutOf with
  | some c => makeCut c s
  | none => s

/-- The replay ends when step t begins: the recovery's slots become ready with ST_OK (R331). -/
def endReplay (s : State) : State :=
  if replaying s then s
  else
    let t := if s.fix.replayTo.isSome then s.fix.recoverySlots.foldl (fun u idx => finishPending idx 0 0 [] u) s else s
    { t with fix := { t.fix with replayTo := none, replayLog := [], recoverySlots := if s.fix.replayTo.isSome then [] else t.fix.recoverySlots } }

/-- Members DEFERRED at a step by its record (R289). -/
def deferredAtStep (log : List Manifest) (step : Nat) : List Nat :=
  match (log.find? (fun m => m.step == step)).bind (fun m => m.recs.find? (fun r => r.type == 3)) with
  | some r => ((stragglerEntries r.body).filter (fun e => e.kind == 1)).map LateEntry.rank
  | none => []

/-- Group and boundary bookkeeping at a restored step. -/
def restoredSteps (log : List Manifest) (step : Nat) (s : State) : State :=
  let before := if step = 0 then none else log.find? (fun m => m.step + 1 == step)
  let late := if step = 0 then [] else deferredAtStep log (step - 1)
  { s with
    grp := { s.grp with stepTimes := [], handovers := [], arrived := [], decided := none, decisionSent := none, owing := [], prevLate := late }
    pow := { s.pow with reefSum := 0, meanSum := 0, meanCount := 0, maxW := 0, capped := 0 }
    bnd := { s.bnd with cut := none, prevCut := before.bind cutOf, begun := [], begunBack := [], begunLag := [], backSeen := [], entered := none, updated := [], handed := none, skewStep := 0
                        waves := allWaves } }

/-- Collectives at a restore: whatever was accumulated from the step on is dropped, committed holdings below it are kept (R296, R297). -/
def restoredColls (step : Nat) (s : State) : State :=
  { s with colls := { s.colls with
      flight := [], uncommitted := s.colls.uncommitted.filter (fun u => decide (u.step < step)), sigs := s.colls.sigs.filter (fun e => decide (e.sig.step < step)), unwritten := [], digest := 0
      mismatched := s.colls.mismatched.filter (fun m => decide (m.2 < step))
      sums := s.colls.sums.filter (fun x => decide (x.step < step)), holds := s.colls.holds.filter (fun h => decide (h.step < step)) } }

/-- The later of two epochs (R22, R26). -/
def laterEpoch (a b : Word) : Word := if epochOlder a b then b else a

/-- A SYNC_OP accepted in FIXING is a descriptor that a restore discards (R26, R261). -/
def discardStarts (s : State) : State :=
  (s.dev.starts.filter (fun a => a.1 == 0x0222)).foldl (fun t a => completeWith a.2 0x0222 stABORTED 0x0A30 t)
    { s with dev := { s.dev with starts := s.dev.starts.filter (fun a => a.1 != 0x0222) } }

/-- A restore's effects (R332): image, step, chart epoch, contexts, cells; dead reckoning to `replayTo` follows `log`. -/
def applyRestore (i : FixImage) (step replayTo : Nat) (log : List Manifest) (s : State) : State :=
  let bind (e : Nat × Ctx) : Nat × Ctx := (e.1, { e.2 with bound := e.2.bound || (e.2.job && !s.dev.jobRunning) })
  let s0 : State := { s with dev := { s.dev with jobRunning := false }, ctxs := s.ctxs.map bind }
  let s1 := s0.ctxs.foldl (fun t e => discardWorks e t) (discardStarts s0)
  let s2 := restoreCells { s1 with ctxs := s1.ctxs.map (fun (e : Nat × Ctx) => (e.1, restoredCtx e.2)) }
  let s3 := restoreRegions i (i.ctxs.foldl (restoreCtx log step) s2)
  let s4 := restoredSteps log step (restoredColls step s3)
  let e := epochNext (laterEpoch s4.chart.epoch i.chartEpoch)
  let s5 := { s4 with
    chart := { s4.chart with epoch := e, pub := s4.chart.pub.map (fun b => { b with epoch := epochNext e }) }
    dev := { s4.dev with step := step, jobRunning := true }
    fix := { s4.fix with recoveryStep := some step, lastFixStep := some step, replayLog := log, replayTo := if step < replayTo then some replayTo else none
                         stepsSince := 0, rollbacks := sat32 s4.fix.rollbacks 1, checkpoint := false, requested := false, triggered := false } }
  settleIngest (openReplay (openStep step s5))

/-- A restore begins (R249, R332): a Fix stop in progress is aborted, the module is FIXING; a restore it overtakes leaves its slot to the
recovery. -/
def beginRestore (r : Restore) (s : State) : State :=
  let t := abortFix 1 s
  let old : List Nat := (t.fix.restore.map (fun o => if o.slot = 0xFFFF then [] else [o.slot])).getD []
  let t1 : State := { t with fix := { t.fix with restore := some r, recoverySlots := t.fix.recoverySlots ++ old, replayTo := none, resumeDue := false } }
  if t1.dev.st = .standby then t1 else enterState .fixing 0 t1

/-- A region of an image stands unchanged in host memory. -/
def hostHolds (s : State) (base : Nat) (e : Nat × Nat × Nat × Nat × Mem) : Bool :=
  match e with
  | (o, _, _, n, cells) =>
    let lo := base + o
    let here : Mem := s.host.mem.filter (fun x => decide (lo ≤ x.1) && decide (x.1 < lo + n))
    here.map (fun x => (x.1 - lo, x.2)) == cells

/-- The image at a host address: an export whose header and regions stand there unchanged (R332). -/
def hostImage (s : State) (addr : Nat) : Option FixImage :=
  match s.fix.exports.find? (fun e => e.1 == addr) with
  | none => none
  | some (_, i) =>
    if hostRead s addr 128 == fixHeader s.flash.serial i && (regionOffsets (64 * 2 ^ 20) i.regions).all (hostHolds s addr) then some i else none

/-- The end of a restore on a member: compute resumes, or the module stands for the lost member (R249, R330, R331). Only STANDBY_ASSUME
takes a module out of STANDBY: any other restore there leaves it in STANDBY. -/
def restoreEnds (r : Restore) (s : State) : State :=
  let t := { s with fix := { s.fix with restore := none } }
  let t1 := if r.slot = 0xFFFF then t
    else if replaying t then { t with fix := { t.fix with recoverySlots := t.fix.recoverySlots ++ [r.slot] } }
    else finishPending r.slot 0 0 [] t
  if s.dev.st = .standby ∧ r.opcode ≠ 0x0621 then t1 else reschedule (leaveFixing .run 0 t1)

end Sys2Proof.Machine
end

