-- ==== Sys2Proof/Machine/Recovery.lean ====
section
/-! DEFINITION. The group's chart, heartbeats, losses and recoveries (R281 to R285, R290, R297, R326 to R334). -/
namespace Sys2Proof.Machine

/-! ### Effects of a group chart on this module -/

/-- Ranks newly FAILED under a new group chart. -/
def newlyFailed (old new : List GroupRec) : List Nat :=
  (new.filter (fun r => r.state == 2 && !old.any (fun o => o.rank == r.rank && o.state == 2))).map GroupRec.rank

/-- What a newly FAILED rank leaves here (R298, R317, R323): its waits and the operations outstanding to it go, a stream to it is
abandoned, it is counted. -/
def forgetRank (s : State) (rank : Nat) : State :=
  let u := dropWaits (fun r => r.rank == some rank) s
  let t := if u.grp.consort = rank ∧ u.fix.stage = .stream then abandonStream u else u
  { t with
    sync := { t.sync with remoteOut := t.sync.remoteOut.filter (fun e => e.2.1 != rank) }
    grp := { t.grp with lostNow := t.grp.lostNow + 1 } }

/-- A module whose consort changed, or came back after a loss, streams its latest COMPLETE Fix once that consort is PRESENT (R327). -/
def restream (old : List GroupRec) (oldConsort : Nat) (s : State) : State :=
  let k := s.grp.consort
  let present (l : List GroupRec) : Bool := l.any (fun r => r.rank == k && r.state == 0)
  if k != 0xFFFF && present s.grp.recs && (k != oldConsort || !present old) && (s.fix.stage == .none || s.fix.stage == .stream) then
    match streamImage s with
    | some i => startStream i none (addUncovered s)
    | none => s
  else s

/-- A member sees in the chart that a loss ends in CHECKPOINT (R328, R333): in the job a member is newly FAILED and no standby is READY,
or its consort is FAILED too. What else ends there the manager alone knows, and no row tells a member (log 92). -/
def checkpointSeen (old : List GroupRec) (s : State) : Bool :=
  !s.grp.manager && s.dev.jobRunning &&
    (s.grp.recs.filter (fun r => decide (r.rank ∈ newlyFailed old s.grp.recs) && r.role != 3)).any (fun r =>
      !s.grp.recs.any (fun x => x.role == 3 && x.state == 3) || s.grp.recs.any (fun x => x.rank == r.consort && x.state == 2))

/-- A new group chart takes effect on this module. -/
def chartTaken (old : List GroupRec) (oldConsort : Nat) (s0 : State) : State :=
  let s := if checkpointSeen old s0 then { s0 with fix := { s0.fix with checkpoint := true } } else s0
  let t := (newlyFailed old s.grp.recs).foldl forgetRank s
  restream old oldConsort { t with grp := { t.grp with pairStatus := pairStatusOf t.grp.recs t.grp.rank } }

/-- The manager changes the group chart, itself included. -/
def changeChart (recs : List GroupRec) (s : State) : State := chartTaken s.grp.recs s.grp.consort (changeGroup recs s)

/-! ### Pairing (R325, R326) -/

/-- A record with its consort under R325 and R326. -/
def paired (l : List GroupRec) (override : Bool) (r : GroupRec) : GroupRec :=
  if r.state = 0 ∧ r.role ≠ 3 then
    match consortIn l r.rank with
    | none => { r with consort := 0xFFFF }
    | some k => { r with consort := if sharesFeed (feedOf l k) r.feed && !override then 0xFFFF else k }
  else r

/-- The manager pairs consorts at the first boundary after a change of the present members (R325). -/
def pairConsorts (s : State) : State :=
  if s.grp.manager && s.grp.pairingDue then
    let t := changeChart (s.grp.recs.map (paired s.grp.recs s.grp.feedOverride)) s
    { t with grp := { t.grp with pairingDue := false } }
  else s

/-! ### Recovery (R328 to R332) -/

/-- A Fix step serves as recovery point (R328): held here, and every lost member's Fix at it sealed in its consort's slot, where a later
Fix, once taken, overwrites it (R318). -/
def pointOk (s : State) (lost : List Nat) (f : Nat) : Bool :=
  (slotOf s f).isSome && lost.all (fun l => decide ((l, f) ∈ s.fix.seals) && s.fix.lastFixStep == some f)

/-- The states from which a restore takes a module to FIXING, or a standby through its pull (R249); HOLD is left by a commit or
CONFIG_ABORT alone (R362). -/
def mayRestore (s : State) : Bool := s.dev.st == .ready || s.dev.st == .run || s.dev.st == .fixing || s.dev.st == .standby

/-- The recovery point: the latest Fix step that serves (R328). -/
def recoveryPoint (s : State) (lost : List Nat) : Option Nat :=
  match s.fix.lastFixStep, s.fix.recoveryStep with
  | some a, some b => if pointOk s lost a && decide (b ≤ a) then some a else if pointOk s lost b then some b else none
  | some a, none => if pointOk s lost a then some a else none
  | none, some b => if pointOk s lost b then some b else none
  | none, none => none

/-- A lost member's copy cannot be used (R328): it has no consort, or its consort is FAILED or lost too. -/
def copyGone (s : State) (lost : List Nat) (l : Nat) : Bool :=
  match (groupRec s l).map GroupRec.consort with
  | none => true
  | some k => k == 0xFFFF || decide (k ∈ lost) || (groupRec s k).any (fun r => r.state == 2)

/-- READY standbys that may still be chosen. -/
def freeStandbys (s : State) (used : List Nat) : List GroupRec :=
  s.grp.recs.filter (fun r => r.role == 3 && r.state == 3 && decide (r.rank ∉ used))

/-- The standby chosen for a lost member (R330): READY, of lowest rank, its FEED apart from the lost member's consort and from the member
whose consort it was, where 0xFF shares every domain (R325); else of lowest rank. -/
def standbyFor (s : State) (used : List Nat) (l : Nat) : Option Nat :=
  let k := ((groupRec s l).map GroupRec.consort).getD 0xFFFF
  let feeds := (s.grp.recs.filter (fun r => r.rank == k || r.consort == l)).map GroupRec.feed
  let w := freeStandbys s used
  match w.filter (fun r => feeds.all (fun x => !sharesFeed r.feed x)), w with
  | [], [] => none
  | [], _ => some (leastRank w)
  | d, _ => some (leastRank d)

/-- Chooses standbys for lost members in order; `none` when one has no READY standby. -/
def chooseStandbys (s : State) (used : List Nat) : List Nat → Option (List (Nat × Nat))
  | [] => some []
  | l :: r =>
    match standbyFor s used l with
    | none => none
    | some b => (chooseStandbys s (b :: used) r).map (fun t => (l, b) :: t)

/-- CHECKPOINT: the manager sends no CLOSE (R328, R333). -/
def needCheckpoint (s : State) : State := { s with fix := { s.fix with checkpoint := true, recovering := none } }

/-- STANDBY_ASSUME goes to a chosen standby (R329, step 2). -/
def sendAssume (f : Nat) (s : State) (e : Nat × Nat) : State :=
  let k := ((groupRec s e.1).map GroupRec.consort).getD 0xFFFF
  let t := { s with fix := { s.fix with substitutions := sat32 s.fix.substitutions 1 } }
  let t1 := if t.grp.deputy = 0xFFFF then t else sendMsg 1 t.grp.deputy "MIRROR_SUBSTITUTION" [e.1, e.2, f] t
  sendMsg 3 e.2 "STANDBY_ASSUME" [e.1, k, t.grp.gen, f] t1

/-- The step in progress when a recovery begins: that of an earlier recovery it restarts (R332). -/
def stepInProgress (s : State) : Nat :=
  match s.fix.recovering with
  | some r => r.upTo
  | none => (s.fix.replayTo).getD s.dev.step

/-- The manager's own restore from its slot (R329, step 3); `p` and `slot` are those of the command that ordered it, if any. -/
def ownRestore (p : Packet) (slot f upTo : Nat) (s : State) : State :=
  beginRestore ⟨p, 0x0613, 0, f, upTo, s.grp.gen, slot, (slotOf s f).bind (slotImage s)⟩ s

/-- No command: the manager's restore in a recovery. -/
def noPacket (s : State) : Packet := { src := .fabric s.grp.rank }

/-- A recovery's decision goes to the deputy before it is carried out (R285, R329): the point, the new GEN and the end of the replay. -/
def mirrorRecovery (f upTo : Nat) (s : State) : State :=
  if s.grp.deputy = 0xFFFF then s else sendMsg 1 s.grp.deputy "MIRROR_RECOVERY" [f, s.grp.gen + 1, upTo] s

/-- Runs a recovery at point `f` (R329), mirrored first: GEN rises, EPOCH_ABORT, STANDBY_ASSUME, FIX_RESTORE to the others and here. A
ROLLBACK has no lost members; `recs` are the group records with the lost ones FAILED. -/
def runRecovery (recs : List GroupRec) (lost : List Nat) (standbys : List (Nat × Nat)) (tried : List Nat) (p : Packet) (slot f upTo : Nat)
    (s : State) : State :=
  let gen := s.grp.gen
  let t0 := mirrorRecovery f upTo s
  let t1 := changeChart recs { t0 with grp := { t0.grp with gen := gen + 1 } }
  let others := (presentRanks t1).filter (fun r => r != t1.grp.rank)
  let t2 := abortEpoch f gen (sendAll 3 "EPOCH_ABORT" [f, gen] others t1)
  let t3 := standbys.foldl (sendAssume f) t2
  let t4 := sendAll 3 "FIX_RESTORE" [0, gen + 1, f, upTo] others t3
  let seals := t4.fix.seals.filter (fun e => decide (e.2 ≤ f) && !(t4.grp.recs.any (fun r => r.rank == e.1 && decide (r.consort ∈ lost))))
  let r : Recovery := { lost := lost, point := f, upTo := upTo, waiting := t4.grp.rank :: others ++ lost, standbys := standbys, tried := tried }
  ownRestore p slot f upTo { t4 with fix := { t4.fix with recovering := some r, seals := seals } }

/-- The records with a rank FAILED (R329, step 1). -/
def failedRecs (rank : Nat) (s : State) : List GroupRec := s.grp.recs.map (fun r => if r.rank = rank then { r with state := 2 } else r)

/-- Marks a rank FAILED in the group chart; without a substitution, the loss of a present member calls for a new pairing (R325). -/
def markFailed (rank : Nat) (s : State) : State :=
  let t := changeChart (failedRecs rank s) s
  if (groupRec s rank).any (fun r => r.state == 0 && r.role != 3) then { t with grp := { t.grp with pairingDue := true } } else t

/-- A lost member's recovery, or CHECKPOINT where the coverage ends (R328, R329). -/
def loseMember (rank : Nat) (s : State) : State :=
  let lost := ((s.fix.recovering.map Recovery.lost).getD []).filter (fun l => l != rank) ++ [rank]
  let tried := (s.fix.recovering.map Recovery.tried).getD []
  let t := { s with grp := { s.grp with recs := failedRecs rank s } }
  match recoveryPoint t lost, chooseStandbys t tried lost with
  | some f, some b =>
    if lost.any (copyGone t lost) then needCheckpoint (markFailed rank s)
    else runRecovery t.grp.recs lost b tried (noPacket s) 0xFFFF f (stepInProgress s) s
  | _, _ => needCheckpoint (markFailed rank s)

/-- The next standby for a lost member whose standby refused or was lost (R330, R332). -/
def nextStandby (b : Nat) (s : State) : State :=
  match s.fix.recovering with
  | none => s
  | some r =>
    match r.standbys.find? (fun e => e.2 == b) with
    | none => s
    | some (l, _) =>
      let tried := b :: r.tried
      match standbyFor s (tried ++ r.standbys.map Prod.snd) l with
      | none => needCheckpoint s
      | some n =>
        let keep := r.standbys.filter (fun e => e.2 != b)
        sendAssume r.point { s with fix := { s.fix with recovering := some { r with standbys := keep ++ [(l, n)], tried := tried } } } (l, n)

/-- The manager declares a module lost (R329); a lost standby is only marked, and replaced when it was chosen. -/
def declareLost (rank : Nat) (s : State) : State :=
  match groupRec s rank with
  | none => s
  | some r =>
    if r.role = 3 then nextStandby rank (markFailed rank s)
    else if r.state = 1 then markFailed rank s
    else if mayRestore s && (s.dev.jobRunning || s.fix.recovering.isSome) then loseMember rank s
    else markFailed rank s

/-- A rank that may be declared lost. -/
def mayLose (s : State) (rank : Nat) : Bool := rank != s.grp.rank && (groupRec s rank).any (fun r => r.state != 2)

/-- A ROLLBACK of the group to the recovery point (R297, R329): the manager runs it, a member reports it; outside a group the host
restores, and a module in a state that no restore may leave (R249) begins none. -/
def rollBack (s : State) : State :=
  if !inGroup s || !mayRestore s then s
  else if s.grp.manager then
    let r : Recovery := s.fix.recovering.getD ⟨[], 0, 0, [], [], []⟩
    match recoveryPoint s r.lost with
    | some f => runRecovery s.grp.recs r.lost r.standbys r.tried (noPacket s) 0xFFFF f (stepInProgress s) s
    | none => needCheckpoint s
  else sendMsg 1 s.grp.managerRank "ROLLBACK" [s.grp.rank] s

/-- A rank's restore is complete; when all are, the manager releases step f (R329, step 4; log 91). -/
def restoreDone (rank : Nat) (s : State) : State :=
  match s.fix.recovering with
  | none => s
  | some r =>
    let w := r.waiting.filter (fun k => k != rank)
    let t := { s with fix := { s.fix with recovering := if w.isEmpty then none else some { r with waiting := w } } }
    if w.isEmpty then sendAll 3 "STEP_RELEASE" [r.point] ((presentRanks t).filter (fun k => k != t.grp.rank)) t else t

/-- A recovery failed on a member: it counts as a replay mismatch (R331, and the rule on hold code 0x0E10). -/
def recoveryFails (s : State) : State := { replayMismatch s.dev.step s with fix := { (replayMismatch s.dev.step s).fix with recovering := none } }

/-- A standby has taken a lost member's place (R325, R330): it is PRESENT under that rank with that rank's pairing. -/
def substituted (b : Nat) (s : State) : State :=
  match s.fix.recovering with
  | none => s
  | some r =>
    match r.standbys.find? (fun e => e.2 == b), groupRec s b with
    | some (l, _), some x =>
      let recs := (s.grp.recs.filter (fun y => y.rank != b)).map (fun y =>
        if y.rank = l then { y with state := 0, level := x.level, feed := x.feed, serialLow := x.serialLow } else y)
      let t := changeChart recs s
      restoreDone l { t with fix := { t.fix with recovering := some { r with lost := r.lost.filter (fun k => k != l) } } }
    | _, _ => s

/-! ### FIX_RESTORE (R332, R334) -/

def chkFixRestore (p : Packet) : Checks :=
  { lenOk := p.paramLen == 32, fieldsOk := decide (pf p 0 1 ≤ 1) && pf p 1 1 == 0 && pf p 4 4 == 0, charge := some 0 }

/-- Bytes of device memory, none where they cannot be read. -/
def devBytes (s : State) (dpa n : Nat) : List Byte :=
  match devRead s dpa n with
  | .ok l => l
  | .error _ => []

/-- MSTATE of a Fix read from elsewhere: it follows the header, up to the regions (R310, R311). -/
def pulledMstate (read : Nat → Nat → List Byte) (base : Nat) : List Byte := read (base + 128) (64 * 2 ^ 20 - 128)

/-- A signed field of MSTATE. -/
def mstateInt (m : List Byte) (at' : List Nat) : Int := signedOf 16 (Config.mstate m at' % 65536)

/-- A block table entry of a scratch tensor in MSTATE. -/
def pulledBlock (m : List Byte) (c id b : Nat) : Nat × BlockEntry :=
  let f (i : Nat) : Nat := Config.mstate m [c, id, 1, b, i]
  (b, ⟨signedOf 16 (f 0 % 65536), signedOf 8 (f 1 % 256), f 2 % 256, f 3 % 2 == 1, f 4 % 2 ^ 64⟩)

/-- A scale record as MSTATE gives it: the member's host has set the same record, and TS, MAXK_HIST, GFMT and GRAD_HIST are the owner's
(R99, R330). -/
def pulledScale (m : List Byte) (c : Nat) (r : ScaleRec) : ScaleRec :=
  let f (i : Nat) : Nat := Config.mstate m [c, r.id, 0, i]
  let hist := (List.range 4).map (fun i => let k := f (2 + i) % 65536; if k = 0x8000 then none else some (signedOf 16 k))
  { r with ts := mstateInt m [c, r.id, 0, 0], hist := hist, gfmt := f 6 % 4, gradHist := f 1 % 256 }

/-- The scratch tensors that MSTATE names of a context: the UPDATE kernel creates them and no host (R150), so a standby takes their
records from the Fix (R99). -/
def pulledScratch (m : List Byte) (c : Nat) : List ScaleRec :=
  (List.range (Config.mstate m [c, 7] % 16385)).map (fun i =>
    let f (k : Nat) : Nat := Config.mstate m [c, 8, i, k]
    let r : ScaleRec := { id := f 0 % 2 ^ 32, ts := 0, initScale := 0, fmt := 2, mode := 0, delay := 1, margin := 3, decay := 64, gfmt := 0, gradHist := 0,
                          rows := f 1 % 2 ^ 32, cols := f 2 % 2 ^ 32, blocksVa := f 3 % 2 ^ 64, ovfVa := f 4 % 2 ^ 64, watchVa := f 5 % 2 ^ 64 }
    pulledScale m c r)

/-- A context as MSTATE gives it (R186, R310). -/
def pulledCtx (m : List Byte) (c : Nat) (x : Ctx) : FixCtx :=
  let g (l : List Nat) : Nat := Config.mstate m (c :: l)
  let scr := pulledScratch m c
  { ctx := c
    scales := scr.foldl (fun t r => tset t r.id r) ((x.scales.filter (fun e => (tget x.scratch e.1).isNone)).map (fun e => (e.1, pulledScale m c e.2)))
    scratch := scr.foldl (fun t r => tset t r.id ((List.range r.blocks).map (pulledBlock m c r.id))) []
    batch := g [2] % 2 ^ 64, cursor := g [3] % 2 ^ 64
    pendingList := (List.range (g [4] % 65)).map (fun i => (g [5, i] % 2 ^ 64, g [6, i] % 2 ^ 64)) }

/-- The regions of such a Fix in table order. -/
def pulledRegions (read : Nat → Nat → List Byte) (base : Nat) : Nat → List (Nat × Nat × Nat) → List (Nat × Nat × Nat × Mem)
  | _, [] => []
  | off, r :: t => (r.1, r.2.1, r.2.2, liveCells 0 (read (base + off) r.2.2)) :: pulledRegions read base (off + r.2.2) t

/-- The region table MSTATE holds (R310). -/
def pulledTable (m : List Byte) : List (Nat × Nat × Nat) :=
  (List.range (Config.mstate m [16] % 2 ^ 16)).map (fun i =>
    (Config.mstate m [16, i, 0] % 256, Config.mstate m [16, i, 1] % 2 ^ 64, Config.mstate m [16, i, 2] % 2 ^ 48))

/-- The pulled Fix's region table differs from the Fix layout section (R330). -/
def tableDiffers (h m : List Byte) (s : State) : Bool :=
  let b := (fixLayout s).getD []
  fieldAt h 38 2 != fieldAt b 52 2 || fieldAt h 40 8 != securedSize b || pulledTable m != fixRegions s

/-- A Fix read from elsewhere, as its header and MSTATE give it (R310, R311). -/
def pulledImage (read : Nat → Nat → List Byte) (base : Nat) (table : List (Nat × Nat × Nat)) (h : List Byte) (s : State) : FixImage :=
  let m := pulledMstate read base
  { imageOfHeader h with
    ctxs := s.ctxs.map (fun (e : Nat × Ctx) => pulledCtx m e.1 e.2), regions := pulledRegions read base (64 * 2 ^ 20) table }

/-- A valid Fix in host memory, whichever module exported it (R332, R333): MAGIC, VERSION, HDR_CRC and DATA_CRC are right. -/
def foreignImage (s : State) (addr : Nat) : Option FixImage :=
  let h := hostRead s addr 128
  if fieldAt h 0 4 == 0x5849465A && fieldAt h 4 4 == 1 && headerCrcOk h &&
      crc32c (hostRead s (addr + 128) (fieldAt h 40 8 - 128)) == BitVec.ofNat 32 (fieldAt h 64 4) then
    some (pulledImage (hostRead s) addr (pulledTable (pulledMstate (hostRead s) addr)) h s)
  else none

/-- The image a FIX_RESTORE names, or the detail of its refusal (R334). -/
def restoreImage (p : Packet) (s : State) : Except Nat FixImage :=
  if pf p 0 1 = 0 then
    match slotOf s (pf p 8 8) with
    | none => .error 0x0C10
    | some n => match slotImage s n with
      | none => .error 0x0C10
      | some i => if slotHolds s n i then .ok i else .error 0x0C11
  else match (hostImage s (pf p 24 8)).or (foreignImage s (pf p 24 8)) with
    | some i => if i.step = pf p 8 8 then .ok i else .error 0x0C10
    | none => .error 0x0C11

/-- FIX_RESTORE's effect (R332, R334): on the manager an order of its host with an own slot starts a group ROLLBACK. -/
def bodyFixRestore (p : Packet) (idx : Nat) (s : State) : State :=
  if roleBars s p && !(pf p 0 1 == 1 && s.fix.checkpoint) then refuse8 p 0x0613 stROLE none idx s
  else match restoreImage p s with
    | .error d => refuse8 p 0x0613 stBADPARAM (some d) idx s
    | .ok i =>
      if i.level ≠ s.dev.level then refuse8 p 0x0613 stLEVEL none idx s
      else
        let t := complete p 0x0613 stPENDING none none idx [] s
        if isHost p.src && inGroup s && s.grp.manager && pf p 0 1 == 0 then runRecovery t.grp.recs [] [] [] p idx (pf p 8 8) (pf p 16 8) t
        else beginRestore ⟨p, 0x0613, pf p 0 1, pf p 8 8, pf p 16 8, pf p 2 2, idx, some i⟩ t

def acceptFixRestore (p : Packet) (s : State) : State := acceptPacket 0x0613 (chkFixRestore p) (bodyFixRestore p) p s

/-- FIX_RESTORE (R332). -/
def execFixRestore (p : Packet) (s : State) : Out := packetOut 0x0613 acceptFixRestore p s

/-- The standby takes a lost member's place (R330, item 1): rank, consort, GEN, and in ETHERNET mode the addresses of its ports; what it
was stays at hand. -/
def takePlace (p : Packet) (s : State) : State :=
  let addr (b : List Byte) : List Byte := b.take 16 ++ (p.params.drop 16).take 144
  { s with
    fix := { s.fix with home := s.fix.home.or (some ⟨s.grp.rank, s.grp.consort, s.grp.gen, s.conf.sections⟩) }
    grp := { s.grp with rank := pf p 0 2, consort := pf p 2 2, gen := pf p 4 2, joined := true }
    conf := { s.conf with sections := s.conf.sections.map (fun e =>
      (e.1, if e.1 = 4 ∧ (e.2.take 6).any (fun m => m == 1) then addr e.2 else e.2)) } }

/-- The standby is itself again: it refused to stand for the lost member. -/
def leavePlace (s : State) : State :=
  match s.fix.home with
  | none => s
  | some h => { s with
      grp := { s.grp with rank := h.rank, consort := h.consort, gen := h.gen }
      conf := { s.conf with sections := h.sections }
      fix := { s.fix with home := none } }

/-- The rank that this module's heartbeats and replies name: a standby's own until it is PRESENT in the place it took (R330). -/
def ownRank (s : State) : Nat := (s.fix.home.map Home.rank).getD s.grp.rank

/-- The manifests a restore follows: what a standby pulled, or the own log with, for steps it does not hold whole, those of the dead
reckoning under way (R187, R330, R331). -/
def restoreLog (r : Restore) (s : State) : List Manifest :=
  if r.opcode = 0x0621 then s.fix.replayLog
  else
    let old := s.fix.replayLog
    let own := s.fix.log.filter (fun m => m.final || old.all (fun k => k.step != m.step))
    (own ++ old.filter (fun k => own.all (fun m => m.step != k.step))).filter (fun m => decide (r.step ≤ m.step + 1))

/-- A restore refused under R186: the module holds with 0x0E10; a standby stays in STANDBY (R249). -/
def refuseRestore (r : Restore) (s : State) : State :=
  let t0 := { s with fix := { s.fix with restore := none }, dev := { s.dev with jobRunning := false } }
  let t := recoveryFails (if s.dev.st = .standby then leavePlace t0 else leaveFixing .hold 0x0E10 t0)
  if r.slot = 0xFFFF then t else finishPending r.slot stHOLD 0x0E10 [] t

/-- FIX_RESTORE_COMPLETE (R332): the copy-back ends and the restore takes effect. -/
def execFixRestoreComplete (s : State) : Out :=
  match s.fix.restore with
  | none => .refused (.notEnabled "no restore runs")
  | some r =>
    match r.image with
    | none => .refused (.notEnabled "the image is not read")
    | some i =>
      gate (s.dev.st == .fixing || s.dev.st == .standby) "no copy runs in this state" (if !ingestAgrees s r.step i then refuseRestore r s
        else
          let t := if r.opcode = 0x0621 then { s with fix := { s.fix with home := none } } else { s with grp := { s.grp with gen := r.gen } }
          let t1 := applyRestore i r.step r.replayTo (restoreLog r t) t
          restoreDone t1.grp.rank (restoreEnds r t1))

/-! ### The standby (R330) -/

def chkAssume (p : Packet) : Checks :=
  { lenOk := p.paramLen == 160, fieldsOk := pf p 6 2 == 0 && (List.range 6).all (fun k => pf p (16 + 24 * k + 6) 2 == 0), charge := some 0 }

/-- STANDBY_ASSUME's effect (R330): the standby takes the place and the pull from the consort begins. -/
def bodyAssume (p : Packet) (idx : Nat) (s : State) : State :=
  if s.dev.st ≠ .standby then refuse8 p 0x0621 stWRONGSTATE none idx s
  else
    let r : Restore := ⟨p, 0x0621, 2, pf p 8 8, 0, pf p 4 2, idx, none⟩
    let t := takePlace p (complete p 0x0621 stPENDING none none idx [] s)
    sendMsg 5 (pf p 2 2) "FIX_PULL" [ownRank t, pf p 8 8]
      { t with fix := { t.fix with assume := some r, consortChunks := [], replayLog := [] } }

def acceptAssume (p : Packet) (s : State) : State := acceptPacket 0x0621 (chkAssume p) (bodyAssume p) p s

/-- STANDBY_ASSUME (R330). -/
def execStandbyAssume (p : Packet) (s : State) : Out := packetOut 0x0621 acceptAssume p s

/-- The first step the pulled manifests do not cover. -/
def pulledUpTo (r : Restore) (s : State) : Nat := (s.fix.replayLog.map (fun m => m.step + 1)).foldl max r.step

/-- The pull has ended: refusal with 0x0C12 or for LEVEL, where the standby gives the place up, or the restore begins (R330, R332). -/
def pullEnds (r : Restore) (h : List Byte) (s : State) : State :=
  let base := fieldAt ((fixLayout s).getD []) 0 8
  let t := { s with fix := { s.fix with assume := none, consortChunks := [] } }
  if tableDiffers h (pulledMstate (devBytes s) base) s then finishPending r.slot stBADPARAM 0x0C12 [] (leavePlace t)
  else if fieldAt h 24 1 ≠ s.dev.level then finishPending r.slot stLEVEL 0 [] (leavePlace t)
  else
    let i := pulledImage (devBytes t) base (fixRegions t) h t
    let u := setSlot 0 (some i) t
    { u with fix := { u.fix with restore := some { r with image := some i, replayTo := pulledUpTo r u } } }

/-- STANDBY_PULL_COMPLETE (R330): every chunk is in and the CRCs are right. -/
def execStandbyPullComplete (s : State) : Out :=
  match s.fix.assume with
  | none => .refused (.notEnabled "no pull runs")
  | some r =>
    match devRead s (chunkBase s) 128 with
    | .error _ => .refused (.notEnabled "the header is not in")
    | .ok h => gate (chunksAllIn s h && slotCrcOk s (chunkBase s) h && fieldAt h 8 8 == r.step) "the pull has not ended" (pullEnds r h s)

/-! ### The Fix copy -/

/-- FIX_COPY_COMPLETE (R315): MSTATE and the regions are copied and the header is written; poison met by the copy, a
page-table read included, aborts the Fix and becomes a ROLLBACK; any other fault of a page aborts it with cause 1 (R316). -/
def execFixCopyComplete (s : State) : Out :=
  gate (s.fix.stage == .copying) "no copy runs"
    (if s.fix.abortDue then abortFix 1 s else match readRegions s (fixRegions s) with
     | .error (.tf c f) => if f.reason = 6 then rollBack (abortFix 2 (countPoison (.tf c f) s)) else abortFix 1 s
     | .error (.mem d) => rollBack (abortFix 2 (countPoison (.mem d) s))
     | .ok l => match takeImage l (storeRegions (nextSlot s) l s) with
       | (i, t) => { t with fix := { t.fix with stage := .header, draft := some i } })

/-! ### FEED_OVERRIDE, ROLE_SET, GROUP_JOIN, GROUP_CHART_GET -/

def chkFeedOverride (p : Packet) : Checks := { lenOk := p.paramLen == 4, fieldsOk := decide (pf p 0 1 ≤ 1) && pf p 1 3 == 0 }

/-- FEED_OVERRIDE's effect (R326, R334). -/
def bodyFeedOverride (p : Packet) (s : State) : State :=
  if !s.grp.manager then completeOpen p 0x0622 stROLE s
  else completeOk p 0x0622 { s with grp := { s.grp with feedOverride := pf p 0 1 == 1 } }

def acceptFeedOverride (p : Packet) (s : State) : State := acceptPacket 0x0622 (chkFeedOverride p) (fun _ t => bodyFeedOverride p t) p s

/-- FEED_OVERRIDE (R326). -/
def execFeedOverride (p : Packet) (s : State) : Out := packetOut 0x0622 acceptFeedOverride p s

def chkRoleSet (p : Packet) : Checks := { lenOk := p.paramLen == 8, fieldsOk := decide (pf p 0 1 ≤ 1) && pf p 1 3 == 0 }

/-- ROLE_SET's effect (R283). -/
def bodyRoleSet (p : Packet) (s : State) : State :=
  if inGroup s || !(s.dev.st == .hold || s.dev.st == .ready) then completeWith p 0x0620 stBUSY 0x0B20 s
  else completeOk p 0x0620 (takeRole (pf p 0 1 == 1) (pf p 4 4) s)

def acceptRoleSet (p : Packet) (s : State) : State := acceptPacket 0x0620 (chkRoleSet p) (fun _ t => bodyRoleSet p t) p s

/-- ROLE_SET (R283). -/
def execRoleSet (p : Packet) (s : State) : Out := packetOut 0x0620 acceptRoleSet p s

def chkGroupJoin (p : Packet) : Checks :=
  { lenOk := p.paramLen == 32, fieldsOk := decide (pf p 4 1 ≤ 1) && pf p 28 4 == 0 }

/-- The rank a joining module takes: the lowest free one of its role (R281). -/
def freeRank (s : State) (standby : Bool) : Option Nat :=
  (if standby then (List.range 16).map (256 + ·) else (List.range 255).map (1 + ·)).find? (fun r => (groupRec s r).isNone)

/-- GROUP_JOIN's effect on the manager (R5, R283). -/
def bodyGroupJoin (p : Packet) (s : State) : State :=
  if pf p 5 1 ≠ s.dev.level then completeOpen p 0x0510 stLEVEL s
  else if pf p 0 4 ≠ s.grp.groupId then completeWith p 0x0510 stBADPARAM 0x0B21 s
  else match freeRank s (pf p 4 1 == 1) with
    | none => completeWith p 0x0510 stBUSY 0x0B22 s
    | some r =>
      if pf p 4 1 = 0 ∧ s.dev.jobRunning then completeWith p 0x0510 stBUSY 0x0B23 s
      else
        let x : GroupRec := { rank := r, state := 1, level := pf p 5 1, feed := pf p 6 1, serialLow := BitVec.ofNat 32 (pf p 12 4) }
        match freshValue s with
        | (v, t) =>
          let value := BitVec.ofNat 64 (r + v.toNat / 2 ^ 16 * 2 ^ 16)
          changeChart (insertRec x t.grp.recs) (complete p 0x0510 0 none (some value) 0xFFFF [] t)

def acceptGroupJoin (p : Packet) (s : State) : State := acceptPacket 0x0510 (chkGroupJoin p) (fun _ t => bodyGroupJoin p t) p s

/-- GROUP_JOIN (R283). -/
def execGroupJoin (p : Packet) (s : State) : Out := packetOut 0x0510 acceptGroupJoin p s

/-- A group record's bytes (R282). -/
def groupRecBytes (r : GroupRec) : List Byte :=
  leBytes 2 r.rank ++ leBytes 1 r.role ++ leBytes 1 r.state ++ leBytes 1 r.level ++ leBytes 1 r.feed ++ leBytes 2 r.consort ++
    leBytes 4 r.changeEpoch.toNat ++ leBytes 4 r.serialLow.toNat

/-- The group chart (R282). -/
def groupChartPayload (s : State) : List Byte :=
  leBytes 4 s.grp.epoch.toNat ++ leBytes 2 s.grp.gen ++ leBytes 2 s.grp.recs.length ++ leBytes 2 s.grp.managerRank ++ leBytes 2 s.grp.deputy ++
    leBytes 4 s.grp.groupId ++ s.grp.recs.flatMap groupRecBytes

def chkGroupChart (p : Packet) : Checks := { lenOk := p.paramLen == 0, charge := some (16 + 16 * 272) }

def acceptGroupChart (p : Packet) (s : State) : State :=
  acceptPacket 0x0511 (chkGroupChart p) (fun idx t => finishSlot p 0x0511 idx 0 (groupChartPayload t) t) p s

/-- GROUP_CHART_GET (R282). -/
def execGroupChartGet (p : Packet) (s : State) : Out := packetOut 0x0511 acceptGroupChart p s

/-! ### Chart messages, heartbeats, probes, losses -/

/-- A route table: for each rank up to three ports (R280). -/
def routesOk (l : List (Nat × List Nat)) : Bool :=
  l.all (fun e => decide (e.1 ≤ 271) && decide (e.2.length ≤ 3) && e.2.all (fun k => decide (k < 6))) && decide ((l.map Prod.fst).Nodup)

/-- Records in ascending ranks up to 271. -/
def recsOk (l : List GroupRec) : Bool := l.all (fun r => decide (r.rank ≤ 271)) && decide ((l.map GroupRec.rank).Nodup)

/-- Takes a route table over; what waited for a port is sent by it. -/
def takeRoutes (routes : List (Nat × List Nat)) (s : State) : State :=
  { s with fab := Fabric.retry { s.fab with routes := routes.foldl (fun t e => tset t e.1 e.2) [] } }

/-- GROUP_CHART_CHANGE (R280, R282): the manager mirrors and publishes a change, with the route tables it computed. -/
def execGroupChartChange (recs : List GroupRec) (routes : List (Nat × List Nat)) (s : State) : Out :=
  gate (s.grp.manager && recsOk recs && routesOk routes && recs.any (fun r => r.rank == s.grp.rank && r.state == 0)) "not a manager's chart"
    (let u := changeChart (recs.foldr insertRec []) (takeRoutes routes s)
     let t := if presentRanks u = presentRanks s then u else { u with grp := { u.grp with pairingDue := true } }
     sendAll 1 "ROUTES" (routes.flatMap (fun e => e.1 :: e.2.length :: e.2)) (chartReaders t) t)

/-- GROUP_CHART_PUBLICATION (R282, R285): a member takes the manager's chart when it is newer than its own. -/
def execGroupChartPublication (epoch : Word) (gen manager deputy : Nat) (recs : List GroupRec) (routes : List (Nat × List Nat)) (s : State) : Out :=
  gate (!s.grp.manager && s.grp.joined && recsOk recs && routesOk routes && (s.grp.recs.isEmpty || epochOlder s.grp.epoch epoch)) "not a newer chart of this group"
    (let own := recs.find? (fun r => r.rank == s.grp.rank)
     let t := { s with grp := { s.grp with
       epoch := epoch, gen := gen, managerRank := manager, deputy := deputy, recs := recs.foldr insertRec []
       consort := (own.map GroupRec.consort).getD s.grp.consort } }
     chartTaken s.grp.recs s.grp.consort (takeRoutes routes t))

/-- GROUP_HEARTBEAT_SEND (R285, R324, R329): a member beats to the manager, the manager to every member. -/
def execGroupHeartbeatSend (s : State) : Out :=
  gate (inGroup s && s.dev.st != .failed && s.dev.st != .off) "no group"
    (let args := [ownRank s, s.fix.sea, if s.pow.reefHigh then 1 else 0, if s.pow.thermalLatched then 1 else 0]
     if s.grp.manager then sendAll 1 "HEARTBEAT" args (chartReaders s) s else sendMsg 1 s.grp.managerRank "HEARTBEAT" args s)

/-- GROUP_HEARTBEAT_RECEIVE (R329, R340): the latest beat of a member, or of the manager. -/
def execGroupHeartbeatReceive (rank sea : Nat) (reefHigh thermal : Bool) (s : State) : Out :=
  gate (inGroup s && (groupRec s rank).isSome && rank != s.grp.rank && (s.grp.manager || rank == s.grp.managerRank)) "no such sender"
    { s with grp := { s.grp with beats := tset s.grp.beats rank ⟨sea, reefHigh, thermal, false⟩ } }

/-- Whose heartbeats this module watches: the manager every member's, the deputy the manager's (R285, R329). -/
def watches (s : State) (rank : Nat) : Bool :=
  (s.grp.manager && mayLose s rank) || (!s.grp.manager && s.grp.rank == s.grp.deputy && rank == s.grp.managerRank)

/-- HEARTBEAT_TIMEOUT (R329): a probe on two ports. -/
def execHeartbeatTimeout (rank : Nat) (s : State) : Out :=
  gate (inGroup s && watches s rank) "this module does not watch that rank"
    (let b := (tget s.grp.beats rank).getD {}
     sendMsg 1 rank "PROBE" [s.grp.rank, 0] (sendMsg 1 rank "PROBE" [s.grp.rank, 1]
       { s with grp := { s.grp with beats := tset s.grp.beats rank { b with timedOut := true } } }))

/-- The seals the mirror tells the deputy of: at the group-sealed step every member's Fix is sealed (R285, R319; log 92). -/
def mirroredSeals (s : State) : List (Nat × Nat) :=
  match s.fix.recoveryStep with
  | some f => (presentRanks s).map (fun r => (r, f))
  | none => []

/-- The deputy takes the manager role, keeps its rank, and treats the former manager as lost (R285). -/
def takeOver (s : State) : State :=
  let old := s.grp.managerRank
  declareLost old { s with
    grp := { s.grp with manager := true, managerRank := s.grp.rank }
    fix := { s.fix with seals := s.fix.seals ++ mirroredSeals s } }

/-- PROBE_TIMEOUT (R285, R329). -/
def execProbeTimeout (rank : Nat) (s : State) : Out :=
  gate (inGroup s && watches s rank && ((tget s.grp.beats rank).any Beat.timedOut)) "no probe is out"
    (if s.grp.manager then declareLost rank s else takeOver s)

/-- PROBE_RECEIVE (R285): the probe is answered on its port. -/
def execProbeReceive (rank port : Nat) (s : State) : Out :=
  gate (decide (port < 6) && (portOf s port).up && inGroup s && (rank == s.grp.managerRank || rank == s.grp.deputy)) "no such prober"
    (sendMsg 1 rank "PROBE_REPLY" [ownRank s, port] s)

/-- FAILED_NOTICE (R308, R329). -/
def execFailedNotice (rank : Nat) (s : State) : Out :=
  gate (s.grp.manager && mayLose s rank) "not a member of this manager" (declareLost rank s)

/-- MUSTER_LIMIT_EXPIRY (R290): a present member whose ARRIVE is missing is declared failed. -/
def execMusterLimitExpiry (rank : Nat) (s : State) : Out :=
  gate (s.grp.manager && s.dev.jobRunning && mayLose s rank && decide (rank ∈ presentRanks s) && decide (rank ∉ s.grp.arrived)) "the member has arrived"
    (declareLost rank s)

/-- A join completed with ST_OK (R249, R281, R283): the module is a member; as a standby it enters STANDBY. -/
def joinGroup (manager rank : Nat) (s : State) : State :=
  let t := { s with grp := { s.grp with joined := true, rank := rank, managerRank := manager } }
  if rank ≥ 256 ∧ s.dev.st = .ready then enterState .standby 0 t else t

/-- A standby or a member answers its part of a recovery (R329, R330). -/
def recoveryReply (rank opcode status : Nat) (s : State) : State :=
  if status = stPENDING then s
  else if opcode = 0x0613 then (if status = 0 then restoreDone rank s else recoveryFails s)
  else if status = 0 then substituted rank s else nextStandby rank s

/-- ILZAN_REPLY_RECEIVE (R132, R268, R283, R329): the completion of a packet this module sent over the fabric; a worker that refuses JOB_START is
lost. A module in ANCHORED is admitted to no
group (R354). -/
def execIlzanReplyReceive (rank opcode status : Nat) (value : BitVec 64) (s : State) : Out :=
  gate (s.dev.st != .off && (opRow opcode).any (fun r => r.fabric)) "no such packet was sent"
    (if opcode = 0x0510 ∧ status = 0 ∧ ¬ inGroup s ∧ ¬ s.grp.manager ∧ admitState s ≠ .anchored then joinGroup rank (value.toNat % 65536) s
     else if opcode = 0x0140 ∧ status ≠ 0 ∧ s.grp.manager ∧ mayLose s rank then declareLost rank s
     else if (opcode = 0x0613 ∨ opcode = 0x0621) ∧ s.fix.recovering.isSome then recoveryReply rank opcode status s
     else s)

end Sys2Proof.Machine
end

