-- ==== Sys2Proof/Machine/Memory.lean ====
section
/-! DEFINITION. What happens in memory of itself: PCIe errors (R196, R241, R245), address translation as an event (R194 to R199), error
correction (R203 to R206, R213), armoured writes (R208), the loss of a stack and the rebuild (R209 to R214), the host link (R199). -/
namespace Sys2Proof.Machine

/-! ### Faults of work in flight -/

/-- A kernel is under way on the arrays or vector units. -/
def kernelRuns (w : Work) : Bool := w.opcode == 0x0300 && w.st == .issued && decide (w.partsDone.length < w.parts || !w.started)

/-- The lowest part of a kernel not done: its resume point (R229). -/
def lowestPart (w : Work) : Nat := ((List.range w.parts).find? (fun i => decide (i ∉ w.partsDone))).getD 0

/-- A kernel faults with its chains dropped (R229). -/
def stopKernel (c : Nat) (w : Work) (d : FaultDetail) (s : State) : State := faultWork c w d (lowestPart w) (dropChains c w.id s)

/-- The granule of a DMA descriptor that a VA lies in, on the side it is accessed on. -/
def granuleAt (d : List Byte) (write : Bool) (va : Nat) : Option Nat :=
  (dmaGranules d).findIdx? (fun g =>
    let a := if write then g.dst else g.src
    decide (a ≤ va) && decide (va < a + g.len))

/-- The DMA descriptor of a work item in progress whose next granule accesses a VA, with that granule: its lowest unwritten one (R201). -/
def dmaAt (w : Work) (write : Bool) (va : Nat) : Option (Nat × Nat) :=
  (List.range w.dma.length).findSome? (fun i =>
    match w.dma[i]? with
    | some r => if !r.done then ((granuleAt (dmaBytes w.raw i) write va).bind (fun g => if g = r.written then some (i, g) else none)) else none
    | none => none)

/-- A DMA granule faults: it and those after it are not written (R202). -/
def faultGranule (c : Nat) (w : Work) (i g : Nat) (d : FaultDetail) (s : State) : State :=
  let t := workMod c w.id (fun y => { y with dma := lmod y.dma i (fun r => { r with started := true }) }) s
  match (ctxOf t c).bind (fun x => x.work w.id) with
  | some w' => faultWork c (dmaCarrier w' i) d g t
  | none => t

/-! ### PCIe completion errors and timeouts -/

/-- The page's leaf and the detail of reason 0x7 (R196, R199). -/
def pcieDetail (s : State) (c va unit : Nat) (acc : Access) : Option FaultDetail :=
  match leafOf s c va with
  | .ok (e, _, lv, dpa) =>
    let t := bitsAt e 2 2
    if t = 1 ∨ t = 2 then some (.translation va unit (accessCode acc) lv 7 t e dpa) else none
  | .error _ => none

/-- The accesses of device, host and CXL memory that a work item makes: turned reads only where its descriptor asks for them (R193). -/
def mayAccess (w : Work) (acc : Access) : Bool :=
  match acc with
  | .read | .write => true
  | .turned => w.opcode == 0x0300 && (w.turnMov || w.turnSta)
  | .sync | .shard => false

/-- A request to the host for a context's work item fails: a translation fault with reason 0x7 (R196). -/
def pcieTarget (c va : Nat) (acc : Access) (id : Nat) (s : State) : Out :=
  match ctxOf s c with
  | none => .refused (.notEnabled "no such context")
  | some x =>
    match x.work id with
    | none => .refused (.notEnabled "no such work item")
    | some w =>
      if !mayAccess w acc then .refused (.notEnabled "the work item makes no such access")
      else if w.opcode = 0x0210 then
        match engineDie s, dmaAt w (acc == .write) va with
        | (u, t), some (i, g) =>
          (match pcieDetail s c va u acc with
           | some d => gate ((w.st == .issued && mayRun s x) || (w.st == .waiting && mayIssue s x)) "the descriptor does not run" (faultGranule c w i g d t)
           | none => .refused (.notEnabled "the page is not the host's"))
        | _, none => .refused (.notEnabled "no granule is there")
      else if w.opcode = 0x0520 then
        match fabricDie s with
        | (u, t) =>
          (match pcieDetail s c va u acc with
           | some d => gate (w.st == .issued) "the collective does not run" (faultWork c w d 0 t)
           | none => .refused (.notEnabled "the page is not the host's"))
      else
        match someCluster w s with
        | (u, t) =>
          (match pcieDetail s c va u acc with
           | some d => gate (kernelRuns w && mayRun s x) "the kernel does not run" (stopKernel c w d t)
           | none => .refused (.notEnabled "the page is not the host's"))

/-- A shard read from the host or CXL fails: the context's ingest takes the fault (R188, R196). -/
def pcieShard (c va unit : Nat) (s : State) : Out :=
  match ctxOf s c with
  | none => .refused (.notEnabled "no such context")
  | some x =>
    match pcieDetail s c va unit .shard with
    | some d => gate (x.ingest.active && unit / 4096 == 5 && unitValid unit && unit % 16 == 0) "no shard is read" (ingestFault c d x.ingest.cursor s)
    | none => .refused (.notEnabled "the page is not the host's")

/-- The slot at the head of a host queue is taken: its command is out of the ring. -/
def takeSlot (src : Source) (s : State) : State :=
  match src with
  | .host q => { s with queues := { s.queues with q := tmod s.queues.q q (fun y => if y.head = y.sqTail then y else { y with head := (y.head + 1) % y.depth }) } }
  | _ => s

/-- PCIE_COMPLETION_TIMEOUT (R196, R241, R245): the read of a submission slot is queue error 0x3; unreadable parameters are refused with
detail 0x0A0B, and their slot is taken; an access of a context faults. -/
def execPcieCompletionTimeout (r : PcieRequest) (s : State) : Out :=
  match r with
  | .slot q =>
    (match tget s.queues.q q with
     | some x => gate (!x.stopped && x.head != x.sqTail && decide (q < 1000)) "no slot is read" (queueError q 3 s)
     | none => .refused (.notEnabled "no such queue"))
  | .params op p =>
    gate (isHost p.src && bitAt p.flags 0 && s.dev.st != .off) "no parameters are read" (completeWith p op stBADPARAM 0x0A0B (owe p (takeSlot p.src s)))
  | .target c va acc id => pcieTarget c va acc id s
  | .shard c va unit => pcieShard c va unit s

/-- HOST_LINK_DL_ACTIVE (R199): the host port is in link-up, or leaves it. -/
def execHostLinkDlActive (active : Bool) (s : State) : Out :=
  gate (!active || (!s.host.perst && s.dev.st != .off)) "the host port is in reset" { s with host := { s.host with linkUp := active } }

/-! ### Address translation -/

/-- The entries of a unit's translation cache: 64 in a cluster's, 8,192 in a memory die's, and no other unit has one (R197). -/
def tlbSize (unit : Nat) : Nat :=
  match unit / 4096 with
  | 1 => 64 | 3 => 8192 | _ => 0

/-- An entry enters its unit's translation cache; from a full one an entry that no rule names leaves (R197; log 71). -/
def placeTlb (e : TlbEntry) (s : State) : State :=
  let own := s.mem.tlb.filter (fun t => t.unit == e.unit)
  if own.length < tlbSize e.unit then { s with mem := { s.mem with tlb := s.mem.tlb ++ [e] } }
  else if tlbSize e.unit = 0 then s
  else match freshValue s with
    | (f, t) => { t with mem := { t.mem with tlb := t.mem.tlb.filter (fun k => some k != own[f.toNat % own.length]?) ++ [e] } }

/-- Fills a unit's translation cache with the leaf of a VA (R197); a cached one stays. -/
def fillTlb (unit c va : Nat) (s : State) : State :=
  match tlbFind s unit c va, leafOf s c va with
  | none, .ok (e, sh, lv, dpa) => placeTlb ⟨unit, c, va / 2 ^ sh * 2 ^ sh, 2 ^ sh, e, lv, dpa⟩ s
  | _, _ => s

/-- Whether a kernel runs on a physical cluster. -/
def runsOn (s : State) (w : Work) (phys : Nat) : Bool := kernelRuns w && (identities s phys).any (fun l => decide (l ∈ w.clusters))

/-- A translation fails: the access's context takes the fault on the work the unit did (R199, R229); none when the unit does none. -/
def translationFault (c va unit : Nat) (access : Access) (f : TFault) (x : Ctx) (s0 : State) : Option State :=
  let d : FaultDetail := accDetail (.tf va f) unit access
  let s := countPoison (.tf va f) s0
  match unit / 4096 with
  | 1 => (x.works.find? (fun w => runsOn s w (unit % 4096) && (access == .sync || mayAccess w access))).map (fun w => stopKernel c w d s)
  | 3 => (x.works.find? (fun w => w.opcode == 0x0210 && (w.st == .issued || (w.st == .waiting && mayIssue s x)) &&
        (dmaAt w (access == .write) va).isSome)).bind (fun w =>
      (dmaAt w (access == .write) va).map (fun e => faultGranule c w e.1 e.2 d s))
  | 5 => if x.ingest.active then some (ingestFault c d x.ingest.cursor s) else none
  | 8 => (x.works.find? (fun w => w.opcode == 0x0222 && w.st == .issued)).map (fun w => faultWork c w d 0 (dropWaits (fun r => r.ctx == some c && r.work == some w.id) s))
  | 9 => (x.works.find? (fun w => w.opcode == 0x0520 && w.st == .issued)).map (fun w => faultWork c w d 0 s)
  | _ => none

/-- The units and kinds of access of R199's table. -/
def accessOk (unit : Nat) (access : Access) : Bool :=
  unitValid unit &&
  (match unit / 4096 with
   | 1 => access != .shard
   | 3 => access == .read || access == .write
   | 5 => access == .shard && unit % 16 == 0
   | 8 => access == .sync
   | 9 => access == .read || access == .write
   | _ => false)

/-- ADDRESS_TRANSLATION (R194 to R199): the leaf is cached in the unit's translation cache, or the access faults. -/
def execAddressTranslation (c va unit : Nat) (access : Access) (s : State) : Out :=
  match ctxOf s c with
  | none => .refused (.notEnabled "no such context")
  | some x =>
    if !accessOk unit access || !mayRun s x then .refused (.notEnabled "the unit makes no such access")
    else match translate { s with mem := { s.mem with walker := some unit } } c va (access == .write) with
      | .ok _ => .next (fillTlb unit c va s)
      | .error f => match translationFault c va unit access f x s with
        | some t => .next t
        | none => .refused (.notEnabled "the unit has no such access in flight")

/-! ### Error correction -/

/-- The part of a stack that an offset lies in (R190). -/
inductive StackPart where
  | plain
  | pool (stripe : Nat)
  | reserve (index : Nat)
  deriving DecidableEq, Repr

/-- Finds the part of a stack. -/
def stackPart (s : State) (stack off : Nat) : StackPart :=
  let q := stack / 6
  let p := plainGib s q * gib
  let a := armourGib s q * gib
  if off < p then .plain else if off < p + a then .pool ((off - p) / 4096) else .reserve ((off - p - a) / 4096)

/-- Counts an uncorrectable error (R214). -/
def countUe (stack : Nat) (s : State) : State := countMem stack (fun m => { m with ue := sat32 m.ue 1 }) s

/-- Poisons the 64 blocks of the 4 KiB granule at a stack key (R205, R213). -/
def poisonGranule (key : Nat) (s : State) : State := (List.range 64).foldl (fun t i => poisonBlock (key / 4096 * 64 + i) t) s

/-- A block with poison on a stack. -/
def blockPoisoned (s : State) (stack off : Nat) : Bool := decide (hbmKey stack off / 64 ∈ s.mem.poison)

/-- The bytes of a granule as the other five of its stripe give them, `none` when one of them is poisoned (R207, R213). -/
def rebuiltBytes (s : State) (q stripe : Nat) (others : List Nat) : Option (List Byte) :=
  (List.range 4096).foldr (fun b l => match l, xorBytes s q stripe b others with
    | some r, some v => some (v :: r)
    | _, _ => none) (some [])

/-- Writes the bytes of a granule and clears its poison. -/
def writeGranule (key : Nat) (l : List Byte) (s : State) : State :=
  { s with mem := { s.mem with
      hbm := Memory.setN s.mem.hbm key l
      poison := s.mem.poison.filter (fun b => !(decide (key / 64 ≤ b) && decide (b < key / 64 + 64))) } }

/-- An uncorrectable error in a granule of the pool: reconstructed in INTACT and counted, otherwise poisoned; whether it escalates (R213). -/
def poolError (stack stripe : Nat) (s : State) : State × Bool :=
  let q := stack / 6
  let key := poolKey s q stripe (stack % 6) 0
  let lost (t : State) : State × Bool := (poisonGranule key t, true)
  if (armourOf s q).st = 1 then
    match rebuiltBytes s q stripe (survivors (stack % 6)) with
    | some l => (writeGranule key l (countMem stack (fun m => { m with recon := sat32 m.recon 1 }) s), false)
    | none => lost s
  else lost s

/-- A block of a region that a Fix copies (R315). -/
def inFixCopy (s : State) (block : Nat) : Bool :=
  s.fix.stage == .copying && (fixRegions s).any (fun r => (regionPages r).any (fun o => match pageDpa s r.1 (r.2.1 + o) with
    | some a => (wholeBlocks s a 65536).any (fun b => b == block)
    | none => false))

/-- Poison that a Fix copy meets aborts it; such poison, and an armoured granule that cannot be reconstructed, is a ROLLBACK (R213, R302, R316). -/
def escalate (block : Nat) (armoured : Bool) (s : State) : State :=
  if inFixCopy s block then rollBack (abortFix 2 s) else if armoured then rollBack s else s

/-- What an uncorrectable error does (R205, R206, R213). -/
def uncorrectable (stack off : Nat) (s : State) : State :=
  let block := hbmKey stack off / 64
  let t := countUe stack s
  match stackPart s stack off with
  | .plain => escalate block false (poisonBlock block t)
  | .pool r => match poolError stack r t with
    | (u, true) => escalate block true u
    | (u, false) => u
  | .reserve _ => escalate block true (poisonGranule (hbmKey stack off) t)

/-- The line of the stack cache that holds a block (R192). -/
def lineAt (s : State) (stack off : Nat) : Option Line := s.mem.cache.find? (fun l => l.key == hbmKey stack off / 128)

/-- A SECDED double error in a line of a stack cache: a clean line is fetched again, a dirty line's blocks are poisoned (R205). -/
def lineError (l : Line) (s : State) : State :=
  if l.dirty then poisonBlock (2 * l.key + 1) (poisonBlock (2 * l.key) s) else s

/-- What the ECC finds in a block, or the SECDED in its line, does (R203 to R206); `read` tells a read from a scrub, which meets poison without
reading it. -/
def eccFound (read : Bool) (stack off : Nat) (f : EccFinding) (s : State) : State :=
  let t := if read && blockPoisoned s stack off then countMem stack (fun m => { m with poison := sat32 m.poison 1 }) s else s
  match f with
  | .clean | .lineSingle => t
  | .correctable => noteSoft (countMem stack (fun m => { m with ce := sat32 m.ce 1 }) t)
  | .uncorrectable => uncorrectable stack off t
  | .lineDouble => match lineAt s stack off with
    | some l => lineError l t
    | none => t

/-- A stack answers: it is there, the module has power, it is not in self-refresh (R353, R374), and the place is not armour that is gone (R209). -/
def stackAnswers (s : State) (stack off : Nat) : Bool :=
  decide (stack < 24) && decide (off < 48 * gib) && decide (stack ∉ s.mem.lost) && s.dev.st != .off && s.dev.st != .anchored && !s.board.selfRefresh &&
    ((armourOf s (stack / 6)).st != 5 || stackPart s stack off == .plain)

/-- A finding that a read of the block can give: one of SECDED where a line holds the block (R203). -/
def findingOk (s : State) (stack off : Nat) (f : EccFinding) : Bool :=
  match f with
  | .lineSingle | .lineDouble => (lineAt s stack off).isSome
  | _ => true

/-- The CACHE bit of the entry that translated a read of a stack's block (R192, R195); `none` where the entry leads elsewhere. -/
def readAllocates (s : State) (stack off : Nat) (access : Option (Nat × Nat)) : Option Bool :=
  match access with
  | none => some false
  | some (c, va) => match translate s c va false with
    | .ok (.dev a k) => if lineOf s a = some (hbmKey stack off / 128) then some k else none
    | _ => none

/-- MEMORY_READ (R192, R203 to R206, R213): the line is allocated under the CACHE bit of the entry that translated the read. -/
def execMemoryRead (stack off : Nat) (found : ReadFound) (s : State) : Out :=
  match readAllocates s stack off found.access with
  | none => .refused (.notEnabled "the VA does not lead to the block")
  | some k =>
    gate (stackAnswers s stack off && findingOk s stack off found.ecc) "the stack does not answer"
      (touchLine k false (hbmKey stack off / 128) (eccFound true stack off found.ecc s))

/-- PATROL_SCRUB (R204), which meets no line. -/
def execPatrolScrub (stack off : Nat) (finding : EccFinding) (s : State) : Out :=
  gate (stackAnswers s stack off && finding != .lineSingle && finding != .lineDouble) "the stack does not answer" (eccFound false stack off finding s)

/-! ### Armour -/

/-- The stripe of an armoured write that stays in one stripe. -/
def oneStripe (s : State) (dpa n : Nat) : Option (Nat × Nat) :=
  match locate s dpa, locate s (dpa + n - 1) with
  | .armour q r _ _, .armour q' r' _ _ => if q = q' ∧ r = r' ∧ n ≥ 1 then some (q, r) else none
  | _, _ => none

/-- ARMOURED_WRITE (R207 to R209, R211): one write to a stripe at a time; new data and parity stay in the owner's stripe buffer until
acknowledged. -/
def execArmouredWrite (dpa : Nat) (data : List Byte) (s : State) : Out :=
  match oneStripe s dpa data.length with
  | none => .refused (.notEnabled "not a write to one armoured stripe")
  | some (q, r) =>
    gate ((armourOf s q).st != 5 && !stripeBusy s q r && s.dev.st != .off) "the owner does not take the write"
      (devStore dpa data s)

/-- ARMOURED_WRITE_ACK (R208): both stacks have acknowledged. -/
def execArmouredWriteAck (q r : Nat) (s : State) : Out :=
  gate (stripeBusy s q r) "no such write" { s with mem := { s.mem with unacked := s.mem.unacked.filter (fun e => !(e.q == q && e.stripe == r)) } }

/-- The armour of a quadrant after the loss of quadrant stack `j` (R209, R210, R214). -/
def armourLoss (a : Armour) (j : Nat) : Armour :=
  if a.st = 1 then { a with st := 2, lostJ := j }
  else if a.st = 2 ∨ a.st = 3 ∨ a.st = 4 then { a with st := 5, secondJ := j }
  else if a.lostJ = 0xF then { a with lostJ := j }
  else if a.secondJ = 0xF then { a with secondJ := j } else a

/-- A line of the plain part of its stack. -/
def plainLine (s : State) (key : Nat) : Bool := stackPart s (lineStack key) (key * 128 % (48 * gib)) == .plain

/-- The cache lines of a lost stack (R210): dirty lines of its armour pool are written back and clean from then on, dirty lines of its plain
part are discarded and counted; its clean plain lines go too. -/
def loseLines (stack : Nat) (s : State) : State :=
  let mine := fun (l : Line) => lineStack l.key == stack
  { s with mem := { s.mem with
      plainLoss := s.mem.plainLoss + (s.mem.cache.filter (fun l => mine l && l.dirty && plainLine s l.key)).length
      cache := (s.mem.cache.filter (fun l => !(mine l && plainLine s l.key))).map (fun l => if mine l then { l with dirty := false } else l) } }

/-- The loss of a stack (R210, R214, R235, R236): armour, a Fix stop aborted, the chart change, and MODULE_LOSS where data is gone. -/
def loseStack (stack : Nat) (s : State) : State :=
  let q := stack / 6
  let a := armourOf s q
  let t := abortFix 1 (loseLines stack { s with mem := { s.mem with lost := ninsert s.mem.lost stack } })
  let t1 := decideLeaving { units := [(uStack stack, .failed)] } (setArmour q (armourLoss a (stack % 6)) t)
  if a.st = 1 ∧ plainGib s q = 0 then noteSoft t1 else moduleLoss t1

/-- STACK_LOSS (R210). -/
def execStackLoss (stack : Nat) (s : State) : Out :=
  gate (decide (stack < 24) && decide (stack ∉ s.mem.lost) && unitState s (uStack stack) == .healthy && s.dev.st != .off) "the stack is not in service"
    (loseStack stack s)

/-- The cursor passes a stripe; after the last the state is REBUILT (R212). -/
def advanceCursor (q : Nat) (s : State) : State :=
  let a := armourOf s q
  setArmour q (if a.cursor + 1 ≥ poolStripes s q then { a with st := 4, cursor := a.cursor + 1 } else { a with cursor := a.cursor + 1 }) s

/-- A surviving granule meets an uncorrectable error: reserve copy and granule are poisoned, both counted, ROLLBACK (R212). -/
def rebuildFails (q j : Nat) (s : State) : State :=
  let a := armourOf s q
  let key := reserveKey s q a.cursor 0 a.lostJ
  let t := poisonGranule (poolKey s q a.cursor j 0) (poisonGranule key s)
  rollBack (advanceCursor q (countUe (6 * q + j) (countUe (key / (48 * gib)) t)))

/-- One stripe of the rebuild (R212): a lost parity granule is passed over, a lost data granule is reconstructed into the reserve. -/
def rebuildOne (q : Nat) (error : Option Nat) (s : State) : State :=
  let a := armourOf s q
  if parityJ a.cursor = a.lostJ then advanceCursor q s
  else match error with
    | some j => rebuildFails q j s
    | none => match rebuiltBytes s q a.cursor (survivors a.lostJ) with
      | some l => advanceCursor q (writeGranule (reserveKey s q a.cursor 0 a.lostJ) l s)
      | none => match (survivors a.lostJ).find? (fun j => (List.range 64).any (fun i =>
            decide (poolKey s q a.cursor j 0 / 64 + i ∈ s.mem.poison))) with
        | some j => rebuildFails q j s
        | none => s

/-- REBUILD_STRIPE (R212): `error` is the surviving quadrant stack that met an uncorrectable error. -/
def execRebuildStripe (q : Nat) (error : Option Nat) (s : State) : Out :=
  let a := armourOf s q
  gate (decide (q < 4) && a.st == 3 && decide (a.cursor < poolStripes s q) && !stripeBusy s q a.cursor && s.dev.st != .off &&
      (match error with
       | some j => decide (j < 6) && j != a.lostJ && parityJ a.cursor != a.lostJ
       | none => true)) "the stripe is not rebuilt" (rebuildOne q error s)

end Sys2Proof.Machine
end

