-- ==== Sys2Proof/Machine/Decision.lean ====
section
/-! DEFINITION. What the manager and the members exchange before a step closes: remote sync operations, among them the ARRIVEs of the
step-close muster, HANDOVER, the deadline, DECISION and the cut (R152 to R156, R219, R286 to R289, R298). -/
namespace Sys2Proof.Machine

/-- ARRIVE of the step-close muster on the manager's reserved cells (R215, R286). -/
def musterArrival (s : State) (rank cell : Nat) (act : SyncAct) : Bool :=
  s.grp.manager && reservedCell cell && decide (rank ∈ presentRanks s) && (match act with
    | .arrive _ _ => true
    | _ => false)

/-- A cell that other modules reach (R219). -/
def remoteCell (s : State) (cell : Nat) : Bool := (rangeOf s cell).any CellRange.remote

/-- A remote operation discarded and counted in SYNC_REMOTE_REFUSED (R219). -/
def refuseRemote (s : State) : State := { s with sync := { s.sync with remoteRefused := sat32 s.sync.remoteRefused 1 } }

/-- A remote operation at its memory die (R29, R219, R286): one of a FAILED module is discarded. -/
def remoteOp (rank cell : Nat) (act : SyncAct) (s : State) : State :=
  let r : Requester := { unit := 0, rank := some rank }
  if rankFailed s rank then s
  else if musterArrival s rank cell act then syncApply r cell act { s with grp := { s.grp with arrived := ninsert s.grp.arrived rank } }
  else if remoteCell s cell then syncApply r cell act s
  else refuseRemote s

/-- REMOTE_SYNC_OPERATION (R219, R298). -/
def execRemoteSyncOperation (rank cell : Nat) (act : SyncAct) (s : State) : Out :=
  gate (inGroup s && rank != s.grp.rank && decide (cell < 65536)) "no module sends it" (remoteOp rank cell act s)

/-! ### HANDOVER and the deadline -/

/-- A DEFERRED member's HANDOVER of the step before reaches the manager before DECISION(n): it is not EXPIRED (R288). -/
def lateHandover (rank : Nat) (s : State) : State := { s with grp := { s.grp with owing := s.grp.owing.filter (fun r => r != rank) } }

/-- HANDOVER (R286, R288). -/
def execHandover (rank step : Nat) (s : State) : Out :=
  let late := step + 1 == s.dev.step && decide (rank ∈ s.grp.owing) && !decisionOut s
  gate (s.grp.manager && inGroup s && s.dev.jobRunning && decide (rank ∈ presentRanks s) &&
      (late || (step == s.dev.step && decide (rank ∉ s.grp.handovers)))) "no HANDOVER is awaited from this rank"
    (if late then lateHandover rank s else takeHandover rank s)

/-- The median step time (R287): the 16th smallest of the last 32. -/
def medianTime (s : State) : Option Nat :=
  if s.grp.stepTimes.length < 32 then none else (s.grp.stepTimes.foldr insertTime [])[15]?

/-- D(n) after a CLOSE at `close`, if there is a deadline (R287). -/
def deadlineAfter (close : Nat) (s : State) : Option Nat :=
  match s.grp.deadline.mode with
  | 1 => (medianTime s).map (fun m => close + s.grp.deadline.factor * m / 256)
  | 2 => some (close + s.grp.deadline.absUs)
  | _ => none

/-- Whether the current step has a deadline (R287). -/
def hasDeadline (s : State) : Bool := s.grp.deadline.mode == 2 || (s.grp.deadline.mode == 1 && (medianTime s).isSome)

/-- The entries of DECISION(n) at its deadline (R287, R288): every present member without HANDOVER(n), and the expired ones. -/
def deadlineEntries (s : State) : List LateEntry :=
  ((presentRanks s).filter (fun r => decide (r ∉ s.grp.handovers))).map (fun r => ⟨r, if s.grp.deadline.policy = 0 then 1 else 2⟩) ++ expiredEntries s

/-- DEADLINE_EXPIRY (R287, R288): under dead reckoning the deadline is ignored (R289). -/
def execDeadlineExpiry (step : Nat) (s : State) : Out :=
  gate (s.grp.manager && inGroup s && s.dev.jobRunning && step == s.dev.step && !decisionOut s && hasDeadline s) "no deadline runs"
    (if replaying s then s else sendDecision (deadlineEntries s) s)

/-! ### DECISION and the cut -/

/-- Whether an entry of a group table has WAKE set (R146, R156). -/
def wakeAt (s : State) (c va k : Nat) : Bool :=
  match vaNum s c (va + 64 * k + 25) 1 with
  | .ok v => bitAt v 2
  | .error _ => false

/-- Some group of a bound context has WAKE set; without one a module makes no cut (R156). How the module knows its groups is not stated: it
knows the tables that accepted UPDATE descriptors named, and before the first of them it makes no cut: the model's choice (log 172). -/
def anyWake (s : State) : Bool :=
  s.ctxs.any (fun e => e.2.bound && e.2.groupTables.any (fun t => (List.range t.2).any (wakeAt s e.1 t.1)))

/-- A number with the bits set that a predicate holds of, of the micro-batches. -/
def mbMask (s : State) (p : Nat → Bool) : Nat := ((List.range (mbCount s)).map (fun j => if p j then 2 ^ j else 0)).sum

/-- A forward descriptor of a micro-batch of the step is accepted and not completed. -/
def forwardOpen (s : State) (mb : Nat) : Bool :=
  s.ctxs.any (fun e => e.2.bound && e.2.works.any (fun w =>
    w.opcode == 0x0300 && w.step == s.dev.step && w.lag == 0 && w.mb == mb && !w.back))

/-- The cut of the current step (R152): micro-batches not started; those whose forward is complete and whose backward is not started;
those carrying LAG 1 that have not started. -/
def cutNow (s : State) : Nat × Nat × Nat × Nat :=
  let n := s.dev.step
  let started (j : Nat) : Bool := decide (j ∈ s.bnd.begun)
  let whole := mbMask s (fun j => !started j)
  let back := mbMask s (fun j => started j && decide (j ∉ s.bnd.begunBack) && !forwardOpen s j)
  let lag := if n = 0 then 0 else deferredAt s.bnd.prevCut (n - 1)
  let dropped := mbMask s (fun j => bitAt lag j && decide (j ∉ s.bnd.begunLag))
  (n, whole, back, dropped)

/-- The kind DECISION(n) gives this module, if it lists it. -/
def ownKind (s : State) (l : List LateEntry) (k : Nat) : Bool := l.any (fun e => e.rank == s.grp.rank && e.kind == k)

/-- DECISION(n) takes effect on a member (R288, R289): the straggler record, the cut, what it does to holdings. -/
def takeDecision (l : List LateEntry) (s : State) : State :=
  let n := s.dev.step
  let t := if s.grp.manager then s else recordStragglers n l s
  let t1 := { t with grp := { t.grp with decided := some (n, l) } }
  let t2 := if ownKind s l 1 && !replaying s && anyWake s then makeCut (cutNow t1) t1 else t1
  settleDecision n l t2

/-- DECISION (R288). -/
def execDecision (step : Nat) (entries : List LateEntry) (s : State) : Out :=
  gate (inGroup s && s.dev.jobRunning && step == s.dev.step && !decidedNow s && entries.all (fun e => within 1 e.kind 3) &&
      (!s.grp.manager || s.grp.decisionSent == some (step, entries))) "no DECISION of this step is out"
    (takeDecision entries s)

end Sys2Proof.Machine
end

