-- ==== Sys2Proof/Machine/Update.lean ====
section
/-! DEFINITION. UPDATE, the reference update kernel (R144 to R151, R155, R311). -/
namespace Sys2Proof.Machine

/-! ### Group table and parameter list (R146) -/

/-- A group table entry's flags. -/
def grpWake (e : List Byte) : Bool := bitAt (fieldAt e 25 1) 2
def grpFreeze (e : List Byte) : Bool := bitAt (fieldAt e 25 1) 3
def grpH16 (e : List Byte) : Bool := bitAt (fieldAt e 25 1) 0
def grpV16 (e : List Byte) : Bool := bitAt (fieldAt e 25 1) 1
def grpRule (e : List Byte) : Nat := fieldAt e 24 1

/-- A binary32 field of an entry, exactly in binary64 (R147); the conversion of a signalling NaN raises INVALID (R50). -/
def grpNum (e : List Byte) (off : Nat) : FNum := toBin .b64 ({ v := Bin.b32.decode (fieldAt e off 4) }, 0)

/-- Reserved fields and enumerations of a group table entry. -/
def groupEntryOk (e : List Byte) : Bool := decide (grpRule e ≤ 3) && decide (fieldAt e 25 1 < 16) && fieldAt e 26 6 == 0 && fieldAt e 48 16 == 0

/-- A parameter list entry agrees with its group (R146). -/
def paramEntryOk (groups : List (List Byte)) (e : List Byte) : Bool :=
  fieldAt e 14 2 == 0 && fieldAt e 56 8 == 0 &&
  (match groups[fieldAt e 12 2]? with
   | some g => if grpWake g then fieldAt e 0 4 % 2 == 0 && fieldAt e 48 8 % 65536 == 0 && fieldAt e 48 8 != 0 else fieldAt e 48 8 == 0
   | none => false)

/-- Elements of a parameter: H's record, or the gradient's when a binary16 H has none. -/
def paramElems (s : State) (c : Nat) (e : List Byte) : Nat :=
  match scaleOf s c (fieldAt e 0 4), scaleOf s c (fieldAt e 8 4) with
  | some r, _ => r.rows * r.cols
  | none, some r => r.rows * r.cols
  | none, none => 0

/-- Whether a range lies in the union of some regions: it is followed from region to region. -/
def coveredBy (l : List (Nat × Nat)) : Nat → Nat → Nat → Bool
  | 0, _, n => n == 0
  | k + 1, va, n =>
    n == 0 || (match l.find? (fun r => decide (r.1 ≤ va) && decide (va < r.1 + r.2)) with
      | some r => coveredBy l k (r.1 + r.2) (n - min n (r.1 + r.2 - va))
      | none => false)

/-- Whether a range lies wholly within regions of its context (R311); with no Fix layout nothing is to be covered (log 24). -/
def inRegions (s : State) (c va n : Nat) : Bool :=
  match ctxRegions s c with
  | none => true
  | some l => coveredBy l (l.length + 1) va n

/-- The state of a parameter lies in the secured state (R311): H, both parities under WAKE, L and V. -/
def paramCovered (s : State) (c : Nat) (e : List Byte) : Bool :=
  let n := 2 * paramElems s c e
  inRegions s c (fieldAt e 16 8) n && (fieldAt e 48 8 == 0 || inRegions s c (fieldAt e 16 8 + fieldAt e 48 8) n) &&
    inRegions s c (fieldAt e 24 8) n && inRegions s c (fieldAt e 32 8) n

/-- Whether a record holds just the elements an UPDATE writes, so that every block is written whole (R91). -/
def fillsRecord (s : State) (c t n : Nat) : Bool := (scaleOf s c t).all (fun r => wholeBlocksOf r n)

/-- Records an UPDATE needs (R87, R91): 0x0402 for a tensor it reads, 0x0401 for one it writes, 0x0404 for one it would write in part. -/
def paramRecords (s : State) (c : Nat) (groups : List (List Byte)) (p : Nat) (e : List Byte) : Option Nat :=
  match groups[fieldAt e 12 2]? with
  | none => none
  | some g =>
    let here := if grpWake g then p else 0
    let there := if grpWake g then 1 - p else 0
    let none? := fun t => (scaleOf s c t).isNone
    if none? (fieldAt e 8 4) || (!grpH16 g && none? (fieldAt e 0 4 + here)) || (!grpV16 g && none? (fieldAt e 4 4)) then some 0x0402
    else if !grpH16 g && none? (fieldAt e 0 4 + there) then some 0x0401
    else if (!grpH16 g && !fillsRecord s c (fieldAt e 0 4 + there) (paramElems s c e)) ||
        (!grpV16 g && !fillsRecord s c (fieldAt e 4 4) (paramElems s c e)) then some 0x0404
    else none

/-! ### The split master weight (R144, R145) -/

/-- The largest finite magnitude of an H code's format, ignoring its sign. -/
def topCode (h16 : Bool) (level : Nat) : Nat := if h16 then 0x7BFF else Kl.emax .w level

/-- u(H) as an exponent of two; `none` where L is ignored. -/
def unitExp (h16 : Bool) (level : Nat) (scale : Int) (code : Nat) : Option Int :=
  let m := code % 32768
  if m ≥ topCode h16 level then none
  else if h16 then some ((max (m / 1024) 1 : Nat) - 40 : Int)
  else if m = 0 then some (-64 + scale - 23)
  else some (((m : Int) - 16384) / 256 + scale - 23)

/-- A power of two in binary64. -/
def pow64 (e : Int) : FNum := (Bin.b64.ofVal (.fin false 1 e), 0)

/-- A signed whole number in binary64. -/
def intTo64 (v : Int) : FNum := (Bin.b64.ofVal (.fin (decide (v < 0)) v.natAbs 0), 0)

/-- The value of an H code. -/
def hValue (h16 : Bool) (level : Nat) (scale : Int) (code : Nat) : Val :=
  if h16 then Bin.b16.decode code else Kl.value .w level scale code

/-- w = value(H) + L × u(H) (R144, R147). -/
def masterValue (h16 : Bool) (level : Nat) (scale : Int) (code l : Nat) : FNum :=
  let v := toBin .b64 ({ v := hValue h16 level scale code }, 0)
  match unitExp h16 level scale code with
  | some e => fadd v (fmul (intTo64 (signedOf 16 l)) (pow64 e))
  | none => v

/-- L from the written H (R145): the exact residual in units of u(H), to the nearest integer, clamped. -/
def lowHalf (h16 : Bool) (level : Nat) (scale : Int) (code : Nat) (w : FNum) : Nat :=
  match unitExp h16 level scale code with
  | none => 0
  | some e =>
    match (Val.add .rne (Bin.b64.decode w.1) (hValue h16 level scale code).neg).1 with
    | .fin s m x => unsignedOf 16 (max (-32768) (min 32767 (sgn s (toQuantum .rne s m (x - e) 0).1)))
    | _ => 0

/-! ### Reading a parameter -/

/-- One parameter as an update takes it: its group entry, its list entry, parity read and written. -/
structure Param where
  grp : List Byte
  ent : List Byte
  rd : Nat
  wr : Nat
  n : Nat
  deriving DecidableEq, Repr

def Param.hTensor (p : Param) (par : Nat) : Nat := fieldAt p.ent 0 4 + par
def Param.hVa (p : Param) (par : Nat) : Nat := fieldAt p.ent 16 8 + par * fieldAt p.ent 48 8
def Param.lVa (p : Param) : Nat := fieldAt p.ent 24 8
def Param.vVa (p : Param) : Nat := fieldAt p.ent 32 8
def Param.hFmt (p : Param) : Nat := if grpH16 p.grp then 3 else 2
def Param.vFmt (p : Param) : Nat := if grpV16 p.grp then 3 else 2

/-- The elements of one index: g, w and v in binary64 (R147), with g as it is before its test. -/
structure ParamElem where
  g : FNum
  w : FNum
  v : FNum
  deriving DecidableEq, Repr

/-- A 16-bit tensor stored densely. -/
def flatTensor (fmt id base n : Nat) : Tensor := ⟨fmt, id, base, 0, max 1 n⟩

/-- Reads H's code and scale. -/
def readH (s : State) (c : Nat) (p : Param) (par i : Nat) : Except AccErr (Nat × Int) :=
  match vaNum s c (p.hVa par + 2 * i) 2 with
  | .error e => .error e
  | .ok code =>
    if p.hFmt = 3 then .ok (code, 0)
    else match scaleOf s c (p.hTensor par) with
      | none => .ok (code, 0)
      | some r => match heldScale s c r (r.block i) with
        | .ok sc => .ok (code, sc)
        | .error e => .error e

/-- Reads one element of a parameter (R147). -/
def readParam (s : State) (c : Nat) (p : Param) (i : Nat) : Except AccErr ParamElem :=
  match readValue s c (flatTensor 2 (fieldAt p.ent 8 4) (fieldAt p.ent 40 8) p.n) 0 i, readH s c p p.rd i, vaNum s c (p.lVa + 2 * i) 2,
      readValue s c (flatTensor p.vFmt (fieldAt p.ent 4 4) p.vVa p.n) 0 i with
  | .ok g, .ok (h, sc), .ok l, .ok v =>
    .ok ⟨fmul (toBin .b64 g) (grpNum p.grp 16), masterValue (grpH16 p.grp) s.dev.level sc h l, toBin .b64 v⟩
  | .error e, _, _, _ => .error e
  | _, .error e, _, _ => .error e
  | _, _, .error e, _ => .error e
  | _, _, _, .error e => .error e

/-! ### The elementwise procedure (R147, R148) -/

/-- Whether a binary64 number is NaN or infinite. -/
def notFinite (x : FNum) : Bool :=
  match Bin.b64.decode x.1 with
  | .fin .. => false
  | _ => true

/-- Whether an element keeps its W and V: FREEZE, or a NaN or infinite gradient (R147, R148). -/
def Param.keeps (p : Param) (e : ParamElem) : Bool := grpFreeze p.grp || notFinite e.g

/-- 1 − x in binary64. -/
def oneMinus (x : FNum) : FNum := fsub (natTo64 1) x

/-- v2 of an element; one that keeps its values still raises what forming g raised (R53). -/
def nextV (p : Param) (e : ParamElem) : FNum :=
  if p.keeps e then (e.v.1, e.v.2 ||| e.g.2) else fadd (fmul (grpNum p.grp 4) e.v) (fmul (oneMinus (grpNum p.grp 4)) e.g)

/-- d of an element; `o` is value(O[i]) under ORTHO. -/
def stepOf (p : Param) (rule : Nat) (e : ParamElem) (v2 o : FNum) : FNum :=
  let beta := grpNum p.grp 4
  let beta2 := grpNum p.grp 8
  match rule with
  | 0 => v2
  | 1 => fadd (fmul beta v2) (fmul (oneMinus beta) e.g)
  | 2 =>
    let t := fadd (fmul beta2 e.v) (fmul (oneMinus beta2) e.g)
    let k := match Bin.b64.decode t.1 with
      | .nan .. => (0 : Int)
      | v => if Val.cmp v (.fin false 0 0) = 1 then 1 else if Val.cmp v (.fin false 0 0) = -1 then -1 else 0
    ((intTo64 k).1, t.2)
  | _ => fmul (grpNum p.grp 20) o

/-- w2 of an element: w − lr × wd × w − lr × d. -/
def nextW (p : Param) (rule : Nat) (e : ParamElem) (o : FNum) : FNum :=
  if p.keeps e then e.w
  else fsub (fsub e.w (fmul (fmul (grpNum p.grp 0) (grpNum p.grp 12)) e.w)) (fmul (grpNum p.grp 0) (stepOf p rule e (nextV p e) o))

/-! ### Orthogonalised mode (R149 to R151) -/

/-- A scratch tensor in the kernel's hands: its record, its block table, and what its writes have counted and raised. -/
structure Scratch where
  sr : ScaleRec
  blocks : Table BlockEntry := []
  clamps : Nat := 0
  flags : Nat := 0
  deriving DecidableEq, Repr

/-- The record of a scratch tensor as the kernel creates it (R150). The spec names no place for its block table, bitmaps and watch area:
the three addresses are free, and the block table is kept beside the record (log 29). -/
def newScratch (c id : Nat) (s : State) : State :=
  match freshValue s with
  | (a, s1) => match freshValue s1 with
    | (b, s2) => match freshValue s2 with
      | (d, s3) =>
        let r : ScaleRec := { id := id, ts := 0, initScale := 0, fmt := 2, mode := 0, delay := 1, margin := 3, decay := 64, gfmt := 0, gradHist := 0,
                              rows := 1, cols := 1, blocksVa := a.toNat, ovfVa := b.toNat, watchVa := d.toNat }
        ctxMod c (fun x => { x with scales := tset x.scales id r, scratch := tset x.scratch id [] }) s3

/-- The six scratch tensors of an UPDATE, created by its first parameter under ORTHO (R150). -/
def ensureScratch (c base : Nat) (s : State) : State :=
  ((List.range 6).map (fun k => base + k)).foldl (fun t id =>
    if (ctxOf t c).any (fun x => (tget x.scratch id).isSome && (tget x.scales id).isSome) then t else newScratch c id t) s

/-- A scratch tensor with the shape of the parameter in hand; another shape starts its block table anew, as R93 says of a record. -/
def scratchOf (c id rows cols : Nat) (s : State) : Scratch :=
  match scaleOf s c id with
  | some r =>
    let blocks := ((ctxOf s c).bind (fun x => tget x.scratch id)).getD []
    { sr := { r with rows := rows, cols := cols }, blocks := if r.rows = rows ∧ r.cols = cols then blocks else [] }
  | none => { sr := { id := id, ts := 0, initScale := 0, fmt := 2, mode := 0, delay := 1, margin := 3, decay := 64, gfmt := 0, gradHist := 0,
                      rows := rows, cols := cols, blocksVa := 0, ovfVa := 0, watchVa := 0 } }

/-- HELD_SCALE of a scratch block. -/
def Scratch.held (k : Scratch) (b : Nat) : Int := ((tget k.blocks b).map BlockEntry.held).getD 0

/-- The first write of a scratch block in a step (R93). -/
def Scratch.touch (k : Scratch) (b step : Nat) : Scratch :=
  match tget k.blocks b with
  | some e =>
    if e.last = step then k
    else match blockStep k.sr.decay e.offset e.clean e.ovf true with
      | (o, n, clamped) => { k with blocks := tset k.blocks b ⟨k.sr.ts + o, o, n, false, step⟩, clamps := k.clamps + (if clamped then 1 else 0) }
  | none => { k with blocks := tset k.blocks b ⟨k.sr.ts, 0, 0, false, step⟩ }

/-- Writes values, each with the flags raised on the way to it, to a scratch tensor in KL16, NEAREST (R150): the tensor and its codes. -/
def Scratch.fill (level step : Nat) : Nat → List (Val × Nat) → Scratch → Scratch × List Nat
  | _, [], k => (k, [])
  | i, v :: r, k =>
    let b := k.sr.block i
    let k1 := k.touch b step
    let w := Kl.write .w level .nearest 0 (k1.held b) { v := v.1 }
    let k2 : Scratch := { k1 with
      sr := { k1.sr with live := countWritten false 2 b w k1.sr.live }
      blocks := if w.sat then tmod k1.blocks b (fun e => { e with ovf := true }) else k1.blocks
      flags := k1.flags ||| v.2 ||| w.flags }
    match Scratch.fill level step (i + 1) r k2 with
    | (k3, l) => (k3, w.hi :: l)

/-- A scratch matrix: its tensor, its codes in row-major order. -/
structure Mat where
  k : Scratch
  codes : List Nat
  deriving DecidableEq, Repr

/-- An element as an operand. -/
def Mat.at' (a : Mat) (r c : Nat) : Operand :=
  let i := r * a.k.sr.cols + c
  ⟨.w, (a.codes[i]?).getD 0, a.k.held (a.k.sr.block i), false⟩

/-- An element's value. -/
def Mat.val (a : Mat) (level i : Nat) : Val := Kl.value .w level (a.k.held (a.k.sr.block i)) ((a.codes[i]?).getD 0)

/-- The largest HELD_SCALE of a matrix. -/
def Mat.top (a : Mat) : Int := maxScale ((List.range a.k.sr.blocks).map a.k.held)

/-- A × B or A × Bᵀ on the arrays in KL16 (R150), as values to write. -/
def Mat.mul (level : Nat) (a b : Mat) (turned : Bool) (rows inner cols : Nat) : List (Val × Nat) :=
  let X : Int := a.top + b.top + 128 - 33
  (List.range rows).flatMap (fun r => (List.range cols).map (fun n =>
    ((Acc.resolve X (Acc.run level X {} ((List.range inner).map (fun j => (a.at' r j, if turned then b.at' n j else b.at' j n))))).v, 0)))

/-- A binary32 code of a value. -/
def to32 (v : Val) : FNum := toBin .b32 ({ v := v }, 0)

/-- fma32 of three codes. -/
def fma32 (a b c : FNum) : FNum :=
  match Val.fma .rne (Bin.b32.decode a.1) (Bin.b32.decode b.1) (Bin.b32.decode c.1) with
  | (v, f) => match Bin.b32.encode .rne v with
    | (k, g) => (k, a.2 ||| b.2 ||| c.2 ||| f ||| g)

/-- The scratch matrices of a context under ORTHO: X, A, AA, B, BX. -/
structure OrthoMats where
  x : Mat
  a : Mat
  aa : Mat
  b : Mat
  bx : Mat
  deriving DecidableEq, Repr

/-- Refills a matrix. -/
def Mat.refill (level step : Nat) (m : Mat) (l : List (Val × Nat)) : Mat :=
  match Scratch.fill level step 0 l m.k with
  | (k, c) => ⟨k, c⟩

/-- A code of a format as a value with its flags. -/
def valOf (b : Bin) (x : FNum) : Val × Nat := (b.decode x.1, x.2)

/-- One of the five iterations (R150). -/
def orthoStep (level step m n : Nat) (o : OrthoMats) : OrthoMats :=
  let a := o.a.refill level step (Mat.mul level o.x o.x true m n m)
  let aa := o.aa.refill level step (Mat.mul level a a false m m m)
  let ca : FNum := (0x40540000, 0)
  let cb : FNum := (0xC0920000, 0)
  let cc : FNum := (0x40000000, 0)
  let b := o.b.refill level step ((List.range (m * m)).map (fun j =>
    valOf .b32 (fma32 cc (to32 (aa.val level j)) (f32 Val.mul cb (to32 (a.val level j))))))
  let bx := o.bx.refill level step (Mat.mul level b o.x false m m n)
  let x := o.x.refill level step ((List.range (m * n)).map (fun j =>
    valOf .b32 (fma32 ca (to32 (o.x.val level j)) (to32 (bx.val level j)))))
  ⟨x, a, aa, b, bx⟩

/-- ss (R150): squares added by block in ascending index, then the block sums. -/
def sumSquares (r : ScaleRec) (l : List FNum) : FNum :=
  let sums := l.zipIdx.foldl (fun (t : Table FNum) e =>
    let b := r.block e.2
    let q := fmul e.1 e.1
    tset t b (match tget t b with
      | some a => fadd a q
      | none => q)) []
  sums.foldl (fun a e => fadd a e.2) (natTo64 0)

/-- The square root in binary64. -/
def fsqrt (x : FNum) : FNum :=
  match Val.sqrt (Bin.b64.decode x.1) with
  | (v, f) => match Bin.b64.encode .rne v with
    | (k, g) => (k, x.2 ||| f ||| g)

/-- What the orthogonalised pass gives: value(O[i]) for every element, the scratch tensors after it, whether V was all zero, the flags of
the sum of squares and its root. -/
structure OrthoOut where
  o : List FNum
  scratch : List Scratch
  zero : Bool
  flags : Nat := 0
  deriving DecidableEq, Repr

/-- The second pass (R150): O from v2, turned when ROWS exceeds COLS. -/
def orthoPass (c : Nat) (w : Work) (r : ScaleRec) (v2 : List FNum) (s : State) : OrthoOut :=
  let m := min r.rows r.cols
  let n := max r.rows r.cols
  let turn := decide (r.rows > r.cols)
  let mk := fun (k rows cols : Nat) => (⟨scratchOf c (w.scratch + k) rows cols s, []⟩ : Mat)
  let lv := s.dev.level
  let y := (mk 0 r.rows r.cols).refill lv w.step (v2.map (fun f => (Bin.b64.decode f.1, 0)))
  let nrm := fsqrt (sumSquares r v2)
  let none' : OrthoOut := ⟨v2.map (fun _ => natTo64 0), [y.k], true, nrm.2⟩
  if nrm.1 % 2 ^ 63 = 0 then none'
  else
    let pick := fun (j : Nat) => if turn then j % n * r.cols + j / n else j
    let x0 := (List.range (m * n)).map (fun j => valOf .b64 (fdiv (toBin .b64 ({ v := y.val lv (pick j) }, 0)) (nrm.1, 0)))
    let o0 : OrthoMats := ⟨(mk 1 m n).refill lv w.step x0, mk 2 m m, mk 3 m m, mk 4 m m, mk 5 m n⟩
    let o := (List.range 5).foldl (fun t _ => orthoStep lv w.step m n t) o0
    let back := fun (i : Nat) => if turn then i % r.cols * n + i / r.cols else i
    ⟨(List.range (r.rows * r.cols)).map (fun i => toBin .b64 ({ v := o.x.val lv (back i) }, 0)),
      [y.k, o.x.k, o.a.k, o.aa.k, o.b.k, o.bx.k], false, nrm.2⟩

/-! ### Writing a parameter -/

/-- Keeps a scratch tensor: its record and block table, its clamps, its flags (R53, R93, R150). -/
def keepOne (c : Nat) (s : State) (k : Scratch) : State :=
  raiseFp c k.flags (ctxMod c (fun x => { x with
    scales := tset x.scales k.sr.id k.sr, scratch := tset x.scratch k.sr.id k.blocks, liveClamps := sat32 x.liveClamps k.clamps }) s)

/-- Keeps what the orthogonalised pass made. -/
def keepScratch (c : Nat) (o : OrthoOut) (s : State) : State := o.scratch.foldl (keepOne c) (if o.flags = 0 then s else raiseFp c o.flags s)

/-- Adds to a saturating 32-bit counter of a group table entry, at an offset. -/
def bumpGroup (c : Nat) (va off n : Nat) (s : State) : Except AccErr State :=
  if n = 0 then .ok s
  else match vaNum s c (va + off) 4 with
    | .error e => .error e
    | .ok v => vaWrite c (va + off) (leBytes 4 (sat32 v n)) s

/-- Writes the L halves of a granule from the H codes just written (R145). -/
def writeLows (c : Nat) (p : Param) : List (Nat × FNum) → State → Except AccErr State
  | [], s => .ok s
  | (i, w2) :: r, s =>
    match readH s c p p.wr i with
    | .error e => .error e
    | .ok (code, sc) =>
      match vaWrite c (p.lVa + 2 * i) (leBytes 2 (lowHalf (grpH16 p.grp) s.dev.level sc code w2)) s with
      | .error e => .error e
      | .ok t => writeLows c p r t

/-- Writes one granule of a parameter: V, H, L; counts held by its number (R98, R147). -/
def writeParamGranule (c : Nat) (w : Work) (p : Param) (part : Nat) (l : List (Nat × FNum × FNum)) (s : State) : Except AccErr State :=
  let vs : OutSpec := { tensor := fieldAt p.ent 4 4, fmt := p.vFmt, pair := false, round := .nearest, base := p.vVa, pitch := 0, cols := max 1 p.n }
  let hs : OutSpec := { tensor := p.hTensor p.wr, fmt := p.hFmt, pair := false, round := .nearest, base := p.hVa p.wr, pitch := 0, cols := max 1 p.n }
  let fl := l.foldl (fun f e => f ||| e.2.1.2 ||| e.2.2.2) 0
  match writeElems c vs w.step w.origin (l.map (fun e => (e.1, (outOf .b64 e.2.2).1))) (s, {}, fl) with
  | .error e => .error e
  | .ok (s1, cv, fv) =>
    match writeElems c hs w.step w.origin (l.map (fun e => (e.1, (outOf .b64 e.2.1).1))) (s1, {}, fv) with
    | .error e => .error e
    | .ok (s2, ch, fh) =>
      match writeLows c p (l.map (fun e => (e.1, e.2.1))) s2 with
      | .error e => .error e
      | .ok s3 => .ok (workMod c w.id (fun y => { y with held := y.held ++
          [⟨part, vs.tensor, cv, 0, s.mem.walker⟩, ⟨part, hs.tensor, ch, BitVec.ofNat 32 fh, s.mem.walker⟩] }) s3)

/-- Writes a parameter granule by granule, 2,048 elements each. -/
def writeParamAll (c : Nat) (w : Work) (p : Param) (l : List (Nat × FNum × FNum)) : Nat → Nat → State → Except AccErr State
  | 0, _, s => .ok s
  | k + 1, part, s =>
    let here := l.take 2048
    if here.isEmpty then .ok s
    else match writeParamGranule c w p part here s with
      | .error e => .error e
      | .ok t => writeParamAll c w p (l.drop 2048) k (part + 1) t

/-- The rule a parameter really takes (R149): ORTHO needs a two-dimensional H record. -/
def ruleOf (s : State) (c : Nat) (p : Param) : Nat :=
  if grpRule p.grp = 3 then
    match scaleOf s c (p.hTensor p.rd) with
    | some r => if r.rows > 1 ∧ r.cols > 1 then 3 else 0
    | none => 0
  else grpRule p.grp

/-- Updates one parameter (R147 to R151); an error leaves it as it was, and its granules are computed again. -/
def updateParam (c : Nat) (w : Work) (p : Param) (part : Nat) (s : State) : Except (AccErr × Access) State :=
  match mapAcc (readParam s c p) (List.range p.n) with
  | .error e => .error (e, .read)
  | .ok es =>
    let rule := ruleOf s c p
    let v2 := es.map (nextV p)
    let t := if rule = 3 then ensureScratch c w.scratch s else s
    let ortho : OrthoOut := match rule, scaleOf t c (p.hTensor p.rd) with
      | 3, some r => orthoPass c w r v2 t
      | _, _ => { o := [], scratch := [], zero := false }
    let w2 := es.zipIdx.map (fun e => nextW p rule e.1 ((ortho.o[e.2]?).getD (natTo64 0)))
    let skips := if grpFreeze p.grp then 0 else (es.filter (fun e => notFinite e.g)).length
    let va := w.groupVa + 64 * fieldAt p.ent 12 2
    let l := (w2.zip v2).zipIdx.map (fun e => (e.2, e.1.1, e.1.2))
    match writeParamAll c w p l (p.n + 1) part (keepScratch c ortho t) with
    | .error e => .error (e, .write)
    | .ok s1 =>
      match bumpGroup c va 32 (if ortho.zero then 1 else 0) s1 with
      | .error e => .error (e, .write)
      | .ok s2 => match bumpGroup c va 36 skips s2 with
        | .error e => .error (e, .write)
        | .ok s3 => .ok s3

/-- Granules of a parameter. -/
def Param.granules (p : Param) : Nat := (p.n + 2047) / 2048

/-- APPLIED_STEP after the last element of a group (R147): `rest` are the parameters still to come. -/
def stampGroup (c : Nat) (w : Work) (p : Param) (rest : List Param) (s : State) : Except AccErr State :=
  if rest.any (fun q => fieldAt q.ent 12 2 == fieldAt p.ent 12 2) then .ok s
  else vaWrite c (w.groupVa + 64 * fieldAt p.ent 12 2 + 40) (leBytes 8 w.step) s

/-- Updates parameters in list order from granule `part` on, those before the resume point left alone. -/
def updateParams (c : Nat) (w : Work) : List Param → Nat → State → State × Option (Nat × AccErr × Access)
  | [], _, s => (s, none)
  | p :: r, part, s =>
    if part < w.resume ∧ 0 < p.granules then updateParams c w r (part + p.granules) s
    else match updateParam c w p part s with
      | .error (e, a) => (s, some (part, e, a))
      | .ok t => match stampGroup c w p r t with
        | .error e => (s, some (part, e, .write))
        | .ok u => updateParams c w r (part + p.granules) u

/-- The parameters of a list, with the parities of the step (R155). -/
def paramsOf (s : State) (c : Nat) (w : Work) (groups : List (List Byte)) (l : List (List Byte)) : List Param :=
  l.map (fun e =>
    let g := (groups[fieldAt e 12 2]?).getD []
    let p := w.step % 2
    ⟨g, e, if grpWake g then p else 0, if grpWake g then 1 - p else 0, paramElems s c e⟩)

/-- Whether the scratch records that an update would create fit the context's scale table (R87, R150; log 29). -/
def scratchFits (s : State) (c : Nat) (w : Work) (ps : List Param) : Bool :=
  let fresh := ((List.range 6).map (fun k => w.scratch + k)).filter (fun id => (scaleOf s c id).isNone)
  !ps.any (fun p => ruleOf s c p == 3) || (ctxOf s c).all (fun x => decide (x.scales.length + fresh.length ≤ 16384))

/-- UPDATE past its checks. -/
def runParams (c : Nat) (w : Work) (ps : List Param) (s : State) : State :=
  let total := (ps.map Param.granules).sum
  match updateParams c w ps 0 s with
  | (t, none) => workMod c w.id (fun y => { y with started := true, parts := total }) t
  | (t, some (g, e, a)) => faultKernel c w g e a (workMod c w.id (fun y => { y with parts := total }) t)

/-- UPDATE as a whole (R146, R147, R311). -/
def runUpdate (c : Nat) (_ : Ctx) (w : Work) (s : State) : State :=
  match mapAcc (fun k => vaRead s c (w.groupVa + 64 * k) 64) (List.range w.groupCount), updateEntries s c w with
  | .ok groups, .ok l =>
    if !(groups.all groupEntryOk && l.all (paramEntryOk groups)) then endWork c w stBADPARAM none s
    else match (l.filterMap (paramRecords s c groups (w.step % 2))).head? with
      | some d => endWork c w stBADPARAM (some d) s
      | none =>
        if !(inRegions s c w.groupVa (64 * w.groupCount) && l.all (paramCovered s c)) then endWork c w stBADPARAM (some 0x0C02) s
        else if !scratchFits s c w (paramsOf s c w groups l) then endWork c w stBADPARAM (some 0x0403) s
        else runParams c w (paramsOf s c w groups l) s
  | .error e, _ => faultKernel c w w.resume e .read s
  | _, .error e => faultKernel c w w.resume e .read s

/-- UPDATE (R147). -/
def execUpdate (c id : Nat) (s : State) : Out := kernelRow 0x11 c id (runUpdate c) s

end Sys2Proof.Machine
end

