-- ==== Sys2Proof/Machine/Program.lean ====
section
/-! DEFINITION. PROGRAM: the operations a kernel image performs on the vector units and arrays (R37 to R58, R75, R263). The image's encoding is
the toolchain's own, so the operations are the row's operand (log 30). Its operands and results are elements of tensors: they are read
and written under the records of the scale table and counted like those of any kernel (R36, R87 to R100, R104). -/
namespace Sys2Proof.Machine

/-- How an operation ends: a new state with flags, an access error, or a refusal with ST_BAD_PARAM. -/
inductive VecEnd where
  | ok (s : State) (flags : Nat)
  | fault (e : AccErr) (a : Access)
  | bad (detail : Option Nat)

/-! ### Elements -/

/-- The code of a format (R66; 4 and 5 stand for binary32 and binary64). -/
def codeOfFmt : Fmt → Nat
  | .kl8a => 0 | .kl8b => 1 | .kl16 => 2 | .bin .b16 => 3 | .bin .b32 => 4 | .bin .b64 => 5

/-- The element index (R55). -/
def elemIndex (e : Elem) : Nat := e.row * e.cols + e.col

/-- Reads an element in a format: Kyonex codes at their block's HELD_SCALE, a GRAD tensor in its GFMT (R47, R92, R104, R105). -/
def readElem (s : State) (c : Nat) (f : Fmt) (e : Elem) : Except AccErr (OutVal × Nat) :=
  readValue s c ⟨codeOfFmt f, e.tensor, e.base, e.pitch, e.cols⟩ e.row e.col

/-- How an element is written. -/
def elemSpec (f : Fmt) (pair : Bool) (r : Round) (d : Elem) : OutSpec := { tensor := d.tensor, fmt := codeOfFmt f, pair := pair, round := r, base := d.base, pitch := d.pitch, cols := d.cols }

/-- The end of a write: an element is a granule of its own, whose counts and flags merge at once (R98). -/
def mergeWrite (c : Nat) (w : Work) (d : Elem) (r : Except AccErr (State × WatchLive × Nat)) : VecEnd :=
  match r with
  | .error e => .fault e .write
  | .ok (t, counts, flags) => .ok (mergeHeld c w.id w.hostTag w.step ⟨0, d.tensor, counts, BitVec.ofNat 32 flags, none⟩ t) 0

/-- Writes a value to an element (R44, R46, R48, R49, R59); `fl` are flags raised on the way to it. -/
def writeTo (c : Nat) (w : Work) (f : Fmt) (pair : Bool) (r : Round) (d : Elem) (v : OutVal) (fl : Nat) (s : State) : VecEnd :=
  mergeWrite c w d (writeElem c (elemSpec f pair r d) w.step w.origin (elemIndex d) v (s, {}, fl))

/-- Writes what `emit` gives for the element's HELD_SCALE, in a format as named. -/
def emitTo (c : Nat) (w : Work) (f : Fmt) (d : Elem) (emit : Int → Written) (fl : Nat) (s : State) : VecEnd :=
  mergeWrite c w d (putElem c (elemSpec f false .nearest d) (codeOfFmt f) false w.step (elemIndex d) emit (s, {}, fl))

/-- The `u` of STOCHASTIC at an element (R45). -/
def elemU (s : State) (w : Work) (d : Elem) : Nat := stochasticU (jobSeed s) d.tensor (elemIndex d) w.origin

/-- Writes a number of `n` bytes as the result of an operation. -/
def putNum (c n d v fl : Nat) (s : State) : VecEnd :=
  match vaWrite c d (leBytes n v) s with
  | .ok t => .ok t fl
  | .error e => .fault e .write

/-- An operation on two elements. -/
def elem2 (c : Nat) (fa fb : Fmt) (a b : Elem) (s : State) (k : OutVal → OutVal → Nat → VecEnd) : VecEnd :=
  match readElem s c fa a, readElem s c fb b with
  | .ok x, .ok y => k x.1 y.1 (x.2 ||| y.2)
  | .error e, _ => .fault e .read
  | _, .error e => .fault e .read

/-- An operation on one element. -/
def elem1 (c : Nat) (f : Fmt) (a : Elem) (s : State) (k : OutVal → Nat → VecEnd) : VecEnd :=
  match readElem s c f a with
  | .ok x => k x.1 x.2
  | .error e => .fault e .read

/-- A result of a binary operation, rounded once under its attribute (R46, R50). -/
def binTo (c : Nat) (w : Work) (f : Bin) (m : Rm) (d : Elem) (r : Val × Nat) (s : State) : VecEnd :=
  emitTo c w (.bin f) d (fun _ => Bin.write f m r.1 r.2) 0 s

/-- A two-operand operation of a binary format. -/
def bin2 (c : Nat) (w : Work) (f : Bin) (m : Rm) (op : Val → Val → Val × Nat) (a b d : Elem) (s : State) : VecEnd :=
  elem2 c (.bin f) (.bin f) a b s (fun x y _ => binTo c w f m d (op x.v y.v) s)

/-! ### Comparisons and products -/

/-- The smaller or larger of two values (R52). -/
def pickOf (larger : Bool) (a b : OutVal) : OutVal :=
  if a.v.isNan then a else if b.v.isNan then b
  else if larger then (if Val.below a.v b.v then b else a) else (if Val.below b.v a.v then b else a)

/-- Whether two values stand in a relation (R52): −0 equals +0 and a NaN is unordered. -/
def relHolds (rel : Rel) (a b : Val) : Bool :=
  let un := a.isNan || b.isNan
  let c := Val.cmp a b
  match rel with
  | .eq => !un && c == 0
  | .ne => un || c != 0
  | .lt => !un && c == -1
  | .le => !un && c != 1
  | .gt => !un && c == 1
  | .ge => !un && c != -1
  | .unordered => un
  | .ordered => !un
  | .notGreater => un || c != 1
  | .lessUnordered => un || c == -1
  | .notLess => un || c != -1
  | .greaterUnordered => un || c == 1

/-- The flags of a comparison (R50). A signalling predicate raises INVALID on a Kyonex NaN as it does on a quiet NaN of a binary format:
the model's choice, as R52 gives the Kyonex formats no predicates of their own (log 153). -/
def compareFlags (signalling : Bool) (a b : Val) : Nat :=
  if signalling && (a.isNan || b.isNan) then fINVALID else sigFlag [a, b]

/-- Vector-unit Kyonex multiplication (R52): offsets added exactly (R37), placed under R49; an 8-bit code of a GRAD tensor that meets KL16
is widened, a NaN keeping its mark (R105). The octave counted is that of the exact product, floor(p / F) (R38, R96). Infinity by zero raises
INVALID and gives the NaN of sign 0, as R42 gives an accumulator: the model's choice (log 153). -/
def klProduct (level : Nat) (d : Kl) (r : Round) (u : Nat) (sOut : Int) (x y : Operand) : Written :=
  match meetOperands level x y with
  | (a, b) =>
    let special (_ : Unit) : Written := match Val.mul (a.value level) (b.value level) with
      | (v, g) => let o := d.write level r u sOut { v := v }
        { o with flags := o.flags ||| g }
    match a.val level, b.val level with
    | .num s ea, .num t eb =>
      (match productOffset a.kl b.kl ea eb a.scale b.scale with
       | some (F, p) =>
         let w := d.placeOffset level r u sOut (xor s t) p F
         { hi := w.code, sat := w.sat, flush := w.flush, k := some (offsetQ F p), flags := klFlags false w.sat w.flush }
       | none => special ())
    | _, _ => special ()

/-- Writes a Kyonex product of two codes in the form its tensor takes (R52, R104). The offset is a whole number of KL16 units, so hi of a
GRAD pair is exact and its lo is 0 (R49, R59). -/
def productTo (c : Nat) (w : Work) (fd : Fmt) (r : Round) (d : Elem) (p q : Operand) (fl : Nat) (s : State) : VecEnd :=
  match outForm (gradFmt s c d.tensor) (elemSpec fd false r d) with
  | (fmt, pair, round) =>
    mergeWrite c w d (putElem c (elemSpec fd false r d) fmt pair w.step (elemIndex d)
      (fun sc => klProduct s.dev.level (klOfCode fmt) round (elemU s w d) sc p q) (s, {}, fl))

/-- An element as an operand, if it is a Kyonex code. -/
def operandOf (v : OutVal) : Option Operand := v.kl.map (fun k => ⟨k.1, k.2.2, k.2.1, false⟩)

/-- Whether two formats form a product (R37). -/
def pairMeets (fa fb : Fmt) : Bool :=
  match Fmt.kl fa, Fmt.kl fb with
  | some a, some b => (a == .w) == (b == .w)
  | _, _ => false

/-! ### Array products (R37 to R42, R105) -/

/-- What an element presents to the arrays: one operand, or the halves of a GRAD pair. -/
def readHalves (s : State) (c : Nat) (f : Fmt) (e : Elem) : Except AccErr (List Operand) :=
  readOperand s c ⟨codeOfFmt f, e.tensor, e.base, e.pitch, e.cols⟩ e.row e.col

/-- The operand pairs of a reduction in the order of their positions, each as it is multiplied (R105). -/
def readTerms (s : State) (c : Nat) (fm fs : Fmt) (l : List (Elem × Elem)) : Except AccErr (List (Operand × Operand)) :=
  match mapAcc (fun e => match readHalves s c fm e.1, readHalves s c fs e.2 with
      | .ok m, .ok b => .ok (m.flatMap (fun x => b.map (fun y => (x, y))))
      | .error x, _ => .error x
      | _, .error x => .error x) l with
  | .ok ll => .ok (ll.flatten.map (fun e => meetOperands s.dev.level e.1 e.2))
  | .error e => .error e

/-- X of a reduction (R39), over the elements the operation reads (log 30). -/
def termsX (l : List (Operand × Operand)) : Int :=
  maxScale (l.map (fun e => e.1.scale)) + maxScale (l.map (fun e => e.2.scale)) + maxScale (l.map (fun e => qtop e.1.kl e.2.kl)) - 33

/-- A reduction on the arrays, resolved (R40 to R42). -/
def reduceTerms (level : Nat) (l : List (Operand × Operand)) : OutVal := Acc.resolve (termsX l) (Acc.run level (termsX l) {} l)

/-! ### Draws -/

/-- Purpose codes of draws (R56). -/
def purposeOk (p : Nat) : Bool := within 1 p 4 || within 0x8000 p 0xFFFF

/-- The words of a draw (R55, R57). -/
def drawWords (s : State) (w : Work) (purpose tensor index pass : Nat) : Words :=
  if purpose = 3 ∨ purpose = 4 then sampleDraw (jobSeed s) purpose index tensor pass
  else tensorDraw (jobSeed s) purpose tensor index w.origin

/-- Bytes of a draw's words. -/
def wordBytes (k : Words) : List Byte := leBytes 4 k.x0 ++ leBytes 4 k.x1 ++ leBytes 4 k.x2 ++ leBytes 4 k.x3

/-! ### Cluster stores (R75, R221) -/

/-- A context's part of a logical cluster's store. -/
def storeOf (s : State) (c l : Nat) : Mem := ((ctxOf s c).bind (fun x => tget x.store l)).getD []

/-- Whether a range lies in the part of a store that a kernel may use: of a cluster it runs on, within STORE_KIB. -/
def storeOk (s : State) (c : Nat) (w : Work) (l off n : Nat) : Bool :=
  decide (l ∈ w.clusters) && (ctxOf s c).any (fun x => decide (off + n ≤ 1024 * x.storeKib))

/-- Writes bytes to a store. -/
def storeSet (c l off : Nat) (bytes : List Byte) (s : State) : State :=
  ctxMod c (fun x => { x with store := tset x.store l (Memory.setN ((tget x.store l).getD []) off bytes) }) s

/-- The bytes of a 64 × 64 tile with rows and columns exchanged (R75). -/
def turnedTile (m : Mem) (base width : Nat) : List Byte :=
  (List.range 64).flatMap (fun r => (List.range 64).flatMap (fun k => Memory.getN m (base + k * (64 * width) + r * width) width))

/-- A turned read of a store (R75). -/
def turnStore (c : Nat) (w : Work) (l width base pitch d : Nat) (s : State) : VecEnd :=
  if ¬ ((width = 1 ∨ width = 2) ∧ base % (4096 * width) = 0 ∧ pitch = 64 * width) then .bad (some 0x0303)
  else if !(storeOk s c w l base (4096 * width) && storeOk s c w l d (4096 * width)) then .bad none
  else .ok (storeSet c l d (turnedTile (storeOf s c l) base width) s) 0

/-! ### One operation -/

/-- The IEEE 754 rounding of a conversion to binary32 or binary64 (R47, R50): a Kyonex value goes to nearest. -/
def convRm (src : Fmt) (r : Round) : Rm := if r = .towardZero ∧ (Fmt.kl src).isNone then .rtz else .rne

/-- A conversion's result in its destination format. -/
def convTo (c : Nat) (w : Work) (src dst : Fmt) (r : Round) (pair : Bool) (d : Elem) (v : OutVal) (fl : Nat) (s : State) : VecEnd :=
  match dst with
  | .bin .b32 => binTo c w .b32 (convRm src r) d (v.v, fl) s
  | .bin .b64 => binTo c w .b64 (convRm src r) d (v.v, fl) s
  | _ => writeTo c w dst pair r d v fl s

/-- The integer of a conversion that IEEE 754 calls invalid: free, a function of the conversion and its operand (R4; log 10). -/
def invalidInt (f : Bin) (m : Rm) (bits : Nat) (signed : Bool) (v : Val) : Nat :=
  let rm := match m with
    | .rne => 0 | .rtz => 1 | .rup => 2 | .rdn => 3
  let x := match v with
    | .nan s p => [0, s.toNat, p]
    | .inf s => [1, s.toNat]
    | .fin s n e => [2, s.toNat, n, unsignedOf 16 e]
  (Config.invalidInt ([f.width, rm, bits, signed.toNat] ++ x)).toNat % 2 ^ bits

/-- Performs one operation. Minimum and maximum are exact in a binary format; in a Kyonex one the result is placed at the destination's
scale under the operation's ROUND (R43). A Kyonex sum of +Inf and −Inf raises INVALID, as the exact addition of R52 is IEEE 754's: the
model's choice (log 153). A Kyonex product with a GRAD pair operand, whose binary32 sum (R105) has no code, is formed of the values and
rounded under R44, as R37 lists no such pair: the model's choice too (log 153). -/
def vecStep (c : Nat) (w : Work) (op : VecOp) (s : State) : VecEnd :=
  match op with
  | .add f m a b d => bin2 c w f m (Val.add m) a b d s
  | .sub f m a b d => bin2 c w f m (fun x y => Val.add m x y.neg) a b d s
  | .mul f m a b d => bin2 c w f m Val.mul a b d s
  | .div f m a b d => bin2 c w f m Val.div a b d s
  | .fma f m a b k d => elem2 c (.bin f) (.bin f) a b s (fun x y _ => elem1 c (.bin f) k s (fun z _ =>
      binTo c w f m d (Val.fma m x.v y.v z.v) s))
  | .sqrt f m a d => elem1 c (.bin f) a s (fun x _ => binTo c w f m d (Val.sqrt x.v) s)
  | .convert f g m a d => elem1 c (.bin f) a s (fun x _ => binTo c w g m d (x.v, sigFlag [x.v]) s)
  | .toInt f m bits sg inexact a d => elem1 c (.bin f) a s (fun x _ =>
      match Val.toInt m bits sg inexact x.v with
      | some (v, fl) => putNum c (bits / 8) d (unsignedOf bits v) fl s
      | none => putNum c (bits / 8) d (invalidInt f m bits sg x.v) fINVALID s)
  | .ofInt f m st bits sg a d =>
    (match vaNum s c a (bits / 8) with
     | .error e => .fault e .read
     | .ok x =>
       let i : Int := if sg then signedOf bits x else x
       let v : Val := .fin (decide (i < 0)) i.natAbs 0
       if st then emitTo c w (.bin f) d (fun _ => write16 .stochastic (elemU s w d) { v := v }) 0 s else binTo c w f m d (v, 0) s)
  | .minimum f r a b d => elem2 c f f a b s (fun x y fl => writeTo c w f false r d (pickOf false x y) (fl ||| sigFlag [x.v, y.v]) s)
  | .maximum f r a b d => elem2 c f f a b s (fun x y fl => writeTo c w f false r d (pickOf true x y) (fl ||| sigFlag [x.v, y.v]) s)
  | .compare f rel sg a b d => elem2 c f f a b s (fun x y fl =>
      putNum c 4 d (if relHolds rel x.v y.v then 1 else 0) (fl ||| compareFlags sg x.v y.v) s)
  | .conv src dst r pair a d => elem1 c src a s (fun x fl => convTo c w src dst r pair d x (fl ||| sigFlag [x.v]) s)
  | .klAdd fa fb fd r pair a b d => elem2 c fa fb a b s (fun x y fl =>
      match Val.add .rne x.v y.v with
      | (v, g) => writeTo c w fd pair r d { v := v } (fl ||| g) s)
  | .klMul fa fb fd r a b d => elem2 c fa fb a b s (fun x y fl =>
      match operandOf x, operandOf y with
      | some p, some q => productTo c w fd r d p q fl s
      | _, _ => match Val.mul x.v y.v with
        | (v, g) => writeTo c w fd false r d { v := v } (fl ||| g) s)
  | .dot fm fs fd r pair l d =>
    (match readTerms s c fm fs l with
     | .error e => .fault e .read
     | .ok ps => writeTo c w fd pair r d (reduceTerms s.dev.level ps) 0 s)
  | .args src l off n =>
    if w.argsLen < src + n || !storeOk s c w l off n then .bad none
    else (match vaRead s c (w.argsVa + src) n with
      | .ok b => .ok (storeSet c l off b s) 0
      | .error e => .fault e .read)
  | .draw purpose t i pass d => (match vaWrite c d (wordBytes (drawWords s w purpose t i pass)) s with
      | .ok s2 => .ok s2 0
      | .error e => .fault e .write)
  | .stage l va off n =>
    if !storeOk s c w l off n then .bad none
    else (match vaRead s c va n with
      | .ok b => .ok (storeSet c l off b s) 0
      | .error e => .fault e .read)
  | .unstage l off va n =>
    if !storeOk s c w l off n then .bad none
    else (match vaWrite c va (Memory.getN (storeOf s c l) off n) s with
      | .ok t => .ok t 0
      | .error e => .fault e .write)
  | .turn l width base pitch d => turnStore c w l width base pitch d s

/-! ### What a kernel image may name (R56, R59, R87, R91, R104) -/

/-- Elements an operation reads, with the format each is named in. -/
def opReads : VecOp → List (Fmt × Elem)
  | .add f _ a b _ | .sub f _ a b _ | .mul f _ a b _ | .div f _ a b _ => [(.bin f, a), (.bin f, b)]
  | .fma f _ a b k _ => [(.bin f, a), (.bin f, b), (.bin f, k)]
  | .sqrt f _ a _ | .convert f _ _ a _ | .toInt f _ _ _ _ a _ => [(.bin f, a)]
  | .minimum f _ a b _ | .maximum f _ a b _ | .compare f _ _ a b _ => [(f, a), (f, b)]
  | .conv f _ _ _ a _ => [(f, a)]
  | .klAdd fa fb _ _ _ a b _ => [(fa, a), (fb, b)]
  | .klMul fa fb _ _ a b _ => [(fa, a), (fb, b)]
  | .dot fm fs _ _ _ l _ => l.flatMap (fun e => [(fm, e.1), (fs, e.2)])
  | .ofInt .. | .draw .. | .stage .. | .unstage .. | .turn .. | .args .. => []

/-- Elements an operation writes, with format and pair. -/
def opWrites : VecOp → List (Fmt × Bool × Elem)
  | .add f _ _ _ d | .sub f _ _ _ d | .mul f _ _ _ d | .div f _ _ _ d | .fma f _ _ _ _ d | .sqrt f _ _ d | .convert _ f _ _ d
  | .ofInt f _ _ _ _ _ d => [(.bin f, false, d)]
  | .minimum f _ _ _ d | .maximum f _ _ _ d => [(f, false, d)]
  | .conv _ f _ p _ d => [(f, p, d)]
  | .klAdd _ _ f _ p _ _ d => [(f, p, d)]
  | .klMul _ _ f _ _ _ d => [(f, false, d)]
  | .dot _ _ f _ p _ d => [(f, p, d)]
  | .toInt .. | .compare .. | .draw .. | .stage .. | .unstage .. | .turn .. | .args .. => []

/-- What is wrong with the form of an operation: a purpose code not listed, an integer of another width, a pair in a format that has
none or under STOCHASTIC (R59), STOCHASTIC in a binary format but binary16 (R50), a product of no pair of R37, a reduction outside the
ranges of R67. -/
def opFormBad : VecOp → Bool
  | .draw p .. => !purposeOk p
  | .toInt _ _ bits .. => !(bits == 32 || bits == 64)
  | .ofInt f _ st bits .. => !(bits == 32 || bits == 64) || (st && f != .b16)
  | .conv _ f r p _ _ => (p && !(f == .kl16 || f == .bin .b16)) || (p && r == .stochastic) || (r == .stochastic && (f == .bin .b32 || f == .bin .b64))
  | .klAdd fa fb fd r p _ _ _ => (Fmt.kl fa).isNone || (Fmt.kl fb).isNone || (Fmt.kl fd).isNone || (p && (fd != .kl16 || r == .stochastic))
  | .klMul fa fb fd _ _ _ _ => !pairMeets fa fb || (Fmt.kl fd).isNone
  | .dot fm fs fd r p l _ => (Fmt.kl fm).isNone || (Fmt.kl fs).isNone || fd == .bin .b32 || fd == .bin .b64 ||
      (p && (!(fd == .kl16 || fd == .bin .b16) || r == .stochastic)) || !within 1 l.length 65536
  | _ => false

/-- Whether a reduction's operands form no pair of R65; a GRAD operand is settled as it is read (R66, R105). -/
def termsBad (s : State) (c : Nat) : VecOp → Bool
  | .dot fm fs _ _ _ l _ => !pairMeets fm fs && l.any (fun e => !isGrad s c e.1.tensor && !isGrad s c e.2.tensor)
  | _ => false

/-- Whether an element is out of place for its record (R87, R104): `write` for an output. -/
def elemRefusal (s : State) (c : Nat) (write : Bool) (f : Fmt) (pair : Bool) (e : Elem) : Option Nat :=
  if isGrad s c e.tensor then (if f = .kl16 ∧ ¬ pair then none else some 0x0408)
  else if (Fmt.kl f).isSome ∧ (scaleOf s c e.tensor).isNone then some (if write then 0x0401 else 0x0402)
  else none

/-- The element indices of a block (R88). -/
def blockElems (r : ScaleRec) (b : Nat) : List Nat :=
  if r.linear then span (1024 * b) (min 1024 (r.rows * r.cols - 1024 * b))
  else
    let across := (r.cols + 31) / 32
    let i := 32 * (b / across)
    let j := 32 * (b % across)
    (span i (min 32 (r.rows - i))).flatMap (fun row => (span j (min 32 (r.cols - j))).map (fun col => row * r.cols + col))

/-- Whether the Kyonex elements that operations write fill every block they touch (R91). -/
def blocksFilled (s : State) (c : Nat) (ops : List VecOp) : Bool :=
  let ws := (ops.flatMap opWrites).filter (fun e => (Fmt.kl e.1).isSome)
  ws.all (fun e => (scaleOf s c e.2.2.tensor).all (fun r =>
    decide (elemIndex e.2.2 < r.rows * r.cols) && (blockElems r (r.block (elemIndex e.2.2))).all (fun i =>
      ws.any (fun x => x.2.2.tensor == e.2.2.tensor && elemIndex x.2.2 == i))))

/-- The first refusal of an operation. -/
def opRefusal (s : State) (c : Nat) (op : VecOp) : Option (Option Nat) :=
  if opFormBad op || termsBad s c op then some none
  else match (opReads op).findSome? (fun e => elemRefusal s c false e.1 false e.2) with
    | some d => some (some d)
    | none => ((opWrites op).findSome? (fun e => elemRefusal s c true e.1 e.2.1 e.2.2)).map some

/-- The refusal of a kernel image as a whole, before any of it runs (log 151). -/
def imageRefusal (s : State) (c : Nat) (ops : List VecOp) : Option (Option Nat) :=
  match ops.findSome? (opRefusal s c) with
  | some d => some d
  | none => if blocksFilled s c ops then none else some (some 0x0404)

/-! ### Frames of the activation stack (R138, R139) -/

/-- The range of addresses an element takes in a format. -/
def elemSpan (s : State) (c : Nat) (f : Fmt) (pair : Bool) (e : Elem) : Nat × Nat :=
  let g := gradFmt s c e.tensor
  (Tensor.addr ⟨codeOfFmt f, e.tensor, e.base, e.pitch, e.cols⟩ g e.row e.col,
    match g with
    | some 1 => 1 | some 2 => 2 | some _ => 4
    | none => if pair then 2 * Fmt.bytes f else Fmt.bytes f)

/-- The ranges an operation reads, and those it writes. -/
def opReadSpans (s : State) (c : Nat) (op : VecOp) : List (Nat × Nat) :=
  (opReads op).map (fun e => elemSpan s c e.1 false e.2) ++
    (match op with
     | .ofInt _ _ _ bits _ a _ => [(a, bits / 8)]
     | .stage _ va _ n => [(va, n)]
     | _ => [])
def opWriteSpans (s : State) (c : Nat) (op : VecOp) : List (Nat × Nat) :=
  (opWrites op).map (fun e => elemSpan s c e.1 e.2.1 e.2.2) ++
    (match op with
     | .toInt _ _ bits _ _ _ d => [(d, bits / 8)]
     | .compare _ _ _ _ _ d => [(d, 4)]
     | .draw _ _ _ _ d => [(d, 16)]
     | .unstage _ _ va n => [(va, n)]
     | _ => [])

/-- The bytes of some ranges that lie in a frame's tensor. -/
def bytesInFrame (f : Frame) (l : List (Nat × Nat)) : Nat :=
  (l.map (fun e => min (e.1 + e.2) (f.va + 64 + f.bytes) - max e.1 (f.va + 64))).sum

/-- What an operation does to the windows: a part of a pushed frame that it wrote enters that of the cluster at work, and a popped or peeked
frame that it read is missed where that cluster does not hold it. No rule names the cluster (R138, R139; log 1). -/
def noteFrame (c : Nat) (w : Work) (op : VecOp) (s : State) : State :=
  match ctxOf s c with
  | none => s
  | some x =>
    match freshValue s with
    | (f, t) =>
      let l := w.clFirst + f.toNat % max 1 w.clCount
      if w.astk = 1 then
        match (x.astk.frameOf w).map (fun k => (k.va, bytesInFrame k (opWriteSpans s c op))) with
        | some (va, n) => if n = 0 then s else keepPart c l va n t
        | none => s
      else if w.astk ≥ 2 ∧ (x.astk.frameAt w.movVa).any (fun k => decide (bytesInFrame k (opReadSpans s c op) ≠ 0)) then noteMiss c l x w t
      else s

/-- Runs operations from the resume point on; `k` numbers them. -/
def runOps (c id : Nat) (w : Work) : List VecOp → Nat → State → State
  | [], _, s => workMod c id (fun y => { y with started := true, parts := 0 }) s
  | op :: r, k, s =>
    if k < w.resume then runOps c id w r (k + 1) s
    else match vecStep c w op s with
      | .ok t fl => runOps c id w r (k + 1) (noteFrame c w op (raiseFp c fl t))
      | .fault e a => faultKernel c w k e a s
      | .bad d => endWork c w stBADPARAM d s

/-- PROGRAM as a whole. -/
def runProgram (ops : List VecOp) (c : Nat) (x : Ctx) (w : Work) (s : State) : State :=
  match imageRefusal s c ops with
  | some d => endWork c w stBADPARAM d s
  | none =>
    match writeFrame c x w s with
    | .error e => faultKernel c w 0 e .write s
    | .ok t => runOps c w.id w ops 0 t

/-- PROGRAM (R263). -/
def execProgram (c id : Nat) (ops : List VecOp) (s : State) : Out := kernelRow 0x20 c id (runProgram ops c) s

end Sys2Proof.Machine
end

