-- ==== Sys2Proof/Machine/Stripes.lean ====
section
/-! DEFINITION. STRIPE_SET and STRIPE_GET (R121, R252) and the balancing of a set (R127). -/
namespace Sys2Proof.Machine

/-- S of a stripe set record. -/
def stripesOf (p : Packet) : Nat := pf p 1 1

/-- CLUSTER[i] and BOUND[i] of a record. -/
def setClusters (p : Packet) : List Nat := (List.range (stripesOf p)).map (fun i => pf p (16 + 2 * i) 2)
def setBounds (p : Packet) : List Nat := (List.range (stripesOf p)).map (fun i => pf p (16 + 2 * stripesOf p + 2 * i) 2)

/-- Ranges and reserved fields of a record (R121); no defaults are coded, so a field holds its value. -/
def setFieldsOk (p : Packet) : Bool :=
  decide (pf p 0 1 < 64) && within 1 (stripesOf p) 128 && decide (pf p 2 1 ≤ 1) && decide (1 ≤ pf p 3 1) && decide (1 ≤ pf p 4 2) &&
    decide (pf p 6 1 ≤ 100) && pf p 7 1 == 0 && decide (1 ≤ pf p 8 2) && decide (2 * stripesOf p ≤ pf p 12 2) && pf p 14 2 == 0 &&
    (setClusters p).all (fun l => decide (l < 800))

/-- Boundaries ascend by at least MIN_ROWS, the last stripe included. -/
def boundsAscend (minRows : Nat) : List Nat → Bool
  | a :: b :: r => decide (a + minRows ≤ b) && boundsAscend minRows (b :: r)
  | _ => true

/-- Whether a number stands twice in a list. -/
def repeats : List Nat → Bool
  | [] => false
  | a :: r => decide (a ∈ r) || repeats r

/-- A record refused with 0x0505 (R121). The table says that BOUND[0] is 0 and names no detail for another value; the model gives it this
one, of the boundaries: the model's choice (log 172). -/
def setShapeBad (p : Packet) : Bool :=
  decide (pf p 8 2 < stripesOf p * pf p 4 2) || (setBounds p).headD 0 != 0 || !boundsAscend (pf p 4 2) (setBounds p ++ [pf p 8 2]) ||
    repeats (setClusters p)

/-- The stripe set of a record. -/
def setOf (p : Packet) : StripeSet :=
  { flags := pf p 2 1, maxMove := pf p 3 1, minRows := pf p 4 2, deadband := pf p 6 1, height := pf p 8 2, haloBase := pf p 10 2,
    haloCount := pf p 12 2, clusters := setClusters p, bound := setBounds p
    busy := List.replicate (stripesOf p) 0, wait := List.replicate (stripesOf p) 0
    busyLatched := List.replicate (stripesOf p) 0, waitLatched := List.replicate (stripesOf p) 0 }

def chkStripeSet (p : Packet) (s : State) : Checks :=
  { lenOk := p.paramLen == 16 + 4 * stripesOf p, fieldsOk := setFieldsOk p, units := clusterUnits s (setClusters p) }

/-- STRIPE_SET's effect (R121, R128): a context bound to a job takes the set at its next boundary, another at once (log 31). -/
def bodyStripeSet (p : Packet) (s : State) : State :=
  withCtx p 0x0310 0xFFFF s (fun x =>
    if setShapeBad p then completeWith p 0x0310 stBADPARAM 0x0505 s
    else completeOk p 0x0310 (ctxMod p.ctx (fun y =>
      if x.bound then { y with newStripes := tset y.newStripes (pf p 0 1) (setOf p) }
      else { y with stripes := tset y.stripes (pf p 0 1) (setOf p) }) s))

def acceptStripeSet (p : Packet) (s : State) : State := acceptPacket 0x0310 (chkStripeSet p s) (fun _ t => bodyStripeSet p t) p s

/-- STRIPE_SET (R121). -/
def execStripeSet (p : Packet) (s : State) : Out := packetOut 0x0310 acceptStripeSet p s

/-- The payload of STRIPE_GET: the record with the boundaries in force, then BUSY and WAIT of each stripe. -/
def stripePayload (id : Nat) (t : StripeSet) : List Byte :=
  leBytes 1 id ++ leBytes 1 t.clusters.length ++ leBytes 1 t.flags ++ leBytes 1 t.maxMove ++ leBytes 2 t.minRows ++ leBytes 1 t.deadband ++
    zeros 1 ++ leBytes 2 t.height ++ leBytes 2 t.haloBase ++ leBytes 2 t.haloCount ++ zeros 2 ++ t.clusters.flatMap (leBytes 2) ++
    t.bound.flatMap (leBytes 2) ++ (t.busyLatched.zip t.waitLatched).flatMap (fun e => leBytes 4 e.1 ++ leBytes 4 e.2)

def chkStripeGet (p : Packet) : Checks :=
  { lenOk := p.paramLen == 4, fieldsOk := decide (pf p 0 1 < 64) && pf p 1 3 == 0, charge := some (16 + 12 * 128) }

/-- STRIPE_GET's effect: a set given and not yet in force counts as defined (R121). -/
def bodyStripeGet (p : Packet) (idx : Nat) (s : State) : State :=
  withCtx p 0x0311 idx s (fun x =>
    match (tget x.stripes (pf p 0 1)).or (tget x.newStripes (pf p 0 1)) with
    | none => refuse8 p 0x0311 stBADPARAM (some 0x0508) idx s
    | some t => finishSlot p 0x0311 idx 0 (stripePayload (pf p 0 1) t) s)

def acceptStripeGet (p : Packet) (s : State) : State := acceptPacket 0x0311 (chkStripeGet p) (bodyStripeGet p) p s

/-- STRIPE_GET (R121). -/
def execStripeGet (p : Packet) (s : State) : Out := packetOut 0x0311 acceptStripeGet p s

/-! ### Balancing (R127) -/

/-- Rows of each stripe. -/
def StripeSet.rows (t : StripeSet) : List Nat := (List.range t.clusters.length).map (fun j => t.hi j - t.lo j)

/-- The new boundaries from index `i` on: `acc` sums the rates before it. Where every rate truncates to 0 the procedure divides by 0: `want` is
then 0, the model's choice (log 155). -/
def moveBounds (t : StripeSet) (rates : List Nat) (total : Nat) : Nat → Nat → Nat → List Nat
  | 0, _, _ => []
  | k + 1, i, acc =>
    let a := acc + (rates[i - 1]?).getD 0
    let want : Int := ((t.height * a / total : Nat) : Int)
    let b : Int := ((t.lo i : Nat) : Int)
    let d := min (max (want - b) (-(t.maxMove : Int))) t.maxMove
    let v := min (max (b + d) ((i * t.minRows : Nat) : Int)) ((t.height : Int) - ((t.clusters.length - i) * t.minRows : Nat))
    v.toNat :: moveBounds t rates total k (i + 1) a

/-- Boundaries pushed up so that each stripe keeps MIN_ROWS. -/
def pushBounds (minRows : Nat) : Nat → List Nat → List Nat
  | _, [] => []
  | prev, v :: r => max v (prev + minRows) :: pushBounds minRows (max v (prev + minRows)) r

/-- The boundaries of a set for the next step (R127). -/
def balance (t : StripeSet) : List Nat :=
  let n := t.clusters.length
  let busy := t.busyLatched.map (fun b => max b 1)
  let mean := busy.sum / n
  if ¬ bitAt t.flags 0 ∨ (busy.foldl max 0 - mean) * 100 ≤ t.deadband * mean then t.bound
  else
    let rates := (t.rows.zip busy).map (fun e => e.1 * 65536 / e.2)
    0 :: pushBounds t.minRows 0 (moveBounds t rates rates.sum (n - 1) 1 0)

end Sys2Proof.Machine
end

