-- ==== Sys2Proof/Machine/Latch.lean ====
section
/-! DEFINITION. The first action of the step boundary (R158): counts latched and restarted, Sextant (R323, R324), the step report (R253);
and the decisions the manager, or a module outside any group, makes for it: the group frequency (R340) and the Fix trigger (R313, R314). -/
namespace Sys2Proof.Machine

/-! ### The first action -/

/-- A count that the hardware measures in a way no row gives: 0 where nothing was there to count, else free (log 1). -/
def freeIf (n : Nat) (s : State) : Nat × State :=
  if n = 0 then (0, s) else match freshValue s with
    | (v, t) => (v.toNat % 2 ^ 32, t)

/-- Measured counts of a list. -/
def freeList : List Nat → State → List Nat × State
  | [], s => ([], s)
  | n :: r, s =>
    match freeIf n s with
    | (v, t) => match freeList r t with
      | (l, u) => (v :: l, u)

/-- Latches BUSY and WAIT of a context's stripe sets (R126). -/
def latchStripes : Table StripeSet → State → Table StripeSet × State
  | [], s => ([], s)
  | (k, x) :: r, s =>
    match freeList x.busy s with
    | (b, s1) => match freeList x.wait s1 with
      | (w, s2) => match latchStripes r s2 with
        | (l, s3) => ((k, { x with busyLatched := b, waitLatched := w, busy := b.map (fun _ => 0), wait := w.map (fun _ => 0) }) :: l, s3)

/-- A record's live counts become its shadow (R102); of a record deleted before, no slot is written (R252). -/
def latchRec (r : ScaleRec) : ScaleRec :=
  { r with shadow := r.live, shadowTs := r.ts, live := {}, latched := true, slotDue := r.deletedAt == 0 }

/-- The watch registers of a context for the latched step (R106): sums over all tensors. -/
def latchTotals (x : Ctx) : WatchTotals :=
  let sum (f : WatchLive → Nat) (o : Nat) : Nat := satAdd 32 ((x.tensors.map (fun r => f r.live)).sum) o
  { sat := sum WatchLive.saturated x.orphanSat, nonfinite := sum WatchLive.nonfinite x.orphanNonfinite
    flush := sum WatchLive.flushed x.orphanFlush, ovfBlocks := sum (fun l => l.ovfBlocks.length) x.orphanOvf, clamps := x.liveClamps }

/-- Descriptors that go on waiting for their batch as the next step begins (R184). -/
def starving (x : Ctx) : Nat := (x.works.filter (fun w => w.opcode == 0x0300 && w.batchWait && !batchReady x w)).length

/-- Latches the counts of a bound context (R102, R106, R139, R141, R189). -/
def latchCtx (step c : Nat) (s : State) : State :=
  match ctxOf s c with
  | none => s
  | some x =>
    if !x.bound then s
    else match freeIf x.astk.missLive s with
      | (miss, s1) => match freeIf x.ingest.live.starve s1 with
        | (starve, s2) => match latchStripes x.stripes s2 with
          | (st, s3) =>
            ctxMod c (fun y => { y with
              totals := latchTotals y, liveClamps := 0, orphanSat := 0, orphanNonfinite := 0, orphanFlush := 0, orphanOvf := 0
              scales := y.scales.map (fun e => (e.1, latchRec e.2)), dead := y.dead.map latchRec
              latchedStep := step, watchDue := true
              astk := { y.astk with peak := y.astk.peakLive, peakLive := y.astk.usedKib, miss := miss, missLive := 0 }
              dwgQueued := y.dwgQueuedLive, dwgPromoted := y.dwgPromotedLive, dwgIdle := y.dwgIdleLive
              dwgQueuedLive := 0, dwgPromotedLive := 0, dwgIdleLive := 0, stripes := st
              ingest := { y.ingest with latched := { y.ingest.live with starve := starve }, live := { starve := starving y } } }) s3

/-- Some B_eff of a die was not 0 in the step (R345). -/
def dieReefed (s : State) (die : Nat) : Bool := (s.pow.dies[die]?).any DiePower.reefed

/-- Latches the array counters (R86). The empty slots of R74 and R79 are a matter of cycles, which no row gives: of a cluster that held
chains in the step each of the four counts is a free value (log 150), but REEF is 0 on a die whose B_eff stood at 0 (R345); of another cluster they
are 0. -/
def latchArrayCounts : Table ArrayCounts → State → Table ArrayCounts × State
  | [], s => ([], s)
  | (k, a) :: r, s =>
    match freeList ((if a.ran && dieReefed s (k / 50) then 1 else 0) :: List.replicate 3 (if a.ran then 1 else 0)) s with
    | (l, s1) => match latchArrayCounts r s1 with
      | (t, s2) =>
        let g (i : Nat) : Nat := (l[i]?).getD 0
        ((k, { a with reef := g 0, swap := g 1, out := g 2, feed := g 3 }) :: t, s2)

/-- Counters of a new step: clusters with a chain in hand run in it too. -/
def heldClusters (s : State) : Table ArrayCounts := s.arrays.gangs.foldl (fun t e => tset t (e.1 / 4) { ran := true }) []

/-- Latches the array counters. -/
def latchArrays (s : State) : State :=
  match latchArrayCounts s.arrays.counts s with
  | (l, t) => { t with arrays := { t.arrays with latched := l, counts := heldClusters t } }

/-- Latches the memory counters (R214). -/
def latchMem (s : State) : State := { s with mem := { s.mem with latched := s.mem.counts, counts := [] } }

/-- REEF_SHARE (R347): the mean of B_eff / 64 in units of 0.01 %, rounded down; free for a step with no sample. -/
def reefShareNow (s : State) : Nat × State :=
  if s.pow.meanCount = 0 then (match freshValue s with
    | (v, t) => (v.toNat % 2 ^ 16, t))
  else (s.pow.reefSum * 10000 / (64 * 16 * s.pow.meanCount), s)

/-- POWER_MEAN_W of the step (R357), rounded down; free for a step with no sample. -/
def meanWNow (s : State) : Nat × State :=
  if s.pow.meanCount = 0 then (match freshValue s with
    | (v, t) => (v.toNat % 2 ^ 16, t))
  else (s.pow.meanSum / s.pow.meanCount / 1000, s)

/-- STAGE of a sensor is latched with its maximum (R357). -/
def latchSensor (stage : Nat → Int → Nat) (e : Nat × Sensor) : Nat × Sensor :=
  (e.1, { e.2 with maxLatched := e.2.max, stage := stage e.1 e.2.temp, max := e.2.temp })

/-- T_w and T_lim of a unit's sensor in °C (R352). -/
def thresholds (unit : Nat) : Int × Int :=
  if unit / 4096 = 4 then (85, 95)
  else if unit / 4096 = 8 then (95, 100)
  else if 16 ≤ unit % 4096 ∧ unit % 4096 < 24 then (90, 95)
  else (95, 100)

/-- STAGE of a temperature (R357): 0 normal, 1 warning, 2 limit. -/
def stageOf (unit : Nat) (temp : Int) : Nat :=
  if temp ≥ 16 * (thresholds unit).2 then 2 else if temp ≥ 16 * (thresholds unit).1 then 1 else 0

/-- A die's counts and voltage range are latched (R343, R357); the bubbles in force reach into the next step (R345). -/
def latchDie (bubbles : Nat) (d : DiePower) : DiePower :=
  { d with reefed := decide (0 < max bubbles d.tb), droopLatched := d.droop, stretchLatched := d.stretch, droop := 0, stretch := 0
           minLatched := d.voltMin, maxLatched := d.voltMax, voltMin := d.volt, voltMax := d.volt }

/-- Latches energy, power and thermal readings, and the flags of R340 (R347, R351, R357). -/
def latchPower (s : State) : State :=
  match reefShareNow s with
  | (reef, s1) => match meanWNow s1 with
    | (mean, t) =>
      { t with pow := { t.pow with
          energyLatched := t.pow.energyUj, reefShare := reef, meanW := mean, maxWLatched := t.pow.maxW, cappedLatched := t.pow.capped
          reefSum := 0, meanSum := 0, meanCount := 0, maxW := 0, capped := 0
          reefHigh := decide (reef ≥ 100 * secField t 0x10 3 1 10), thermalLatched := t.pow.thermalReq
          dies := t.pow.dies.map (latchDie t.pow.bubbles), sensors := t.pow.sensors.map (latchSensor stageOf) } }

/-- Latches the counts of sets 0x12 and 0x13, which keep counting (R299). -/
def latchColls (s : State) : State :=
  { s with colls := { s.colls with latched :=
             [s.colls.completed, s.colls.aborted, s.colls.staleGen, s.colls.deferredIn, s.colls.expired, s.colls.bytesSent] }
           grp := { s.grp with lateLatched := s.grp.late } }

/-- The numbers of the loaded contexts. -/
def ctxNumbers (s : State) : List Nat := s.ctxs.map Prod.fst

/-- Counts latched and restarted (R158). -/
def latchAll (step : Nat) (s : State) : State :=
  latchColls (latchPower (latchMem (latchPorts (latchArrays ((ctxNumbers s).foldl (fun t c => latchCtx step c t) s)))))

/-! ### Sextant (R323, R324) -/

/-- lg (R323). -/
def lg (c : Nat) : Nat := min 15 (ilog (1 + c))

/-- Sums over the latched memory counters. -/
def memSum (s : State) (f : MemCounts → Nat) : Nat := (s.mem.latched.map (fun e => f e.2)).sum

/-- The smallest margin of any junction to its limit in the latched step, in 1/16 °C (R323, R352). -/
def junctionMargin (s : State) : Option Int :=
  (s.pow.sensors.filter (fun e => e.1 / 4096 == 8 || e.1 / 4096 == 9)).foldl (fun b e =>
    let m := 16 * (thresholds e.1).2 - e.2.maxLatched
    match b with
    | none => some m
    | some v => some (min v m)) none

/-- The level of input 0x2 (R323): where the margin is no whole number of °C, which of the two levels it gives is free; free with no
reading. -/
def marginLevel (s : State) : Nat × State :=
  match freshValue s, junctionMargin s with
  | (v, t), none => (v.toNat % 16, t)
  | (v, t), some m =>
    if m % 16 = 0 then ((max 0 (min 15 (15 - m / 16))).toNat, s)
    else ((max 0 (min 15 (15 - m / 16 - v.toNat % 2))).toNat, t)

/-- Time in µs that Sextant looks back on faults and losses. -/
def lookBack : Nat := 600000000

/-- Times of the last 600 s, with `n` new events at `now`. -/
def recent (now n : Nat) (l : List Nat) : List Nat := (l.filter (fun t => decide (now ≤ t + lookBack))) ++ List.replicate n now

/-- The seven levels (R323). -/
def sextantLevels (s : State) : List Nat × State :=
  match marginLevel s with
  | (m, t) =>
    let ports := s.fab.portsLatched
    ([ lg (memSum s MemCounts.ce)
     , min 15 (4 * memSum s (fun c => c.ue + c.recon + c.poison))
     , m
     , lg ((s.pow.dies.map DiePower.droopLatched).sum)
     , lg ((ports.map (fun p => p.replays + p.fecUncorrected)).sum + 64 * s.fab.laneFailsLatched)
     , min 15 (4 * s.fix.absorbedTimes.length)
     , min 15 (8 * s.grp.lostTimes.length) ], t)

/-- The weight of an input (R324). -/
def seaWeight (s : State) (k : Nat) : Nat :=
  let w := secField s 0x12 k 1 0xFF
  if w = 0xFF then (([4, 16, 16, 4, 4, 8, 16] : List Nat)[k]?).getD 0 else w

/-- The sea state of some levels (R324). -/
def seaOf (s : State) (levels : List Nat) : Nat := min 15 (((List.range 7).map (fun k => seaWeight s k * (levels[k]?).getD 0)).sum / 16)

/-- Sextant sets its levels and the sea state (R323, R324). -/
def sextant (now : Nat) (s : State) : State :=
  let t : State := { s with
    fix := { s.fix with absorbedTimes := recent now s.fix.absorbedHw s.fix.absorbedTimes, absorbedHw := 0 }
    grp := { s.grp with lostTimes := recent now s.grp.lostNow s.grp.lostTimes, lostNow := 0 } }
  match sextantLevels t with
  | (l, u) => { u with fix := { u.fix with levels := l, sea := seaOf u l } }

/-! ### The group frequency (R340) -/

/-- Whether some present member's latest flags hold: this module's own from its latched step, the others' from their heartbeats. -/
def anyFlag (own : Bool) (f : Beat → Bool) (s : State) : Bool :=
  own || (inGroup s && ((presentRanks s).filter (fun r => r != s.grp.rank)).any (fun r => (tget s.grp.beats r).any f))

/-- F, HIGH_RUN and CLEAN_RUN for the next step (R340). -/
def freqDecision (s : State) : Nat × Nat × Nat :=
  let g := s.grp
  let r : Nat × Nat × Nat :=
    if anyFlag s.pow.thermalLatched Beat.thermal s then (g.freq - 25, 0, 0)
    else if anyFlag s.pow.reefHigh Beat.reefHigh s then
      (if g.highRun + 1 ≥ secField s 0x10 4 1 8 then (g.freq - 25, 0, 0) else (g.freq, satAdd 16 g.highRun 1, 0))
    else if g.cleanRun + 1 ≥ secField s 0x10 5 1 64 ∧ g.freq < g.target then (g.freq + 25, 0, 0)
    else (g.freq, 0, satAdd 16 g.cleanRun 1)
  (max 1000 (min r.1 g.target), r.2)

/-- The module decides the group frequency: the manager, or a module outside any group. -/
def decides (s : State) : Bool := !inGroup s || s.grp.manager

/-! ### The Fix trigger (R312 to R314) -/

/-- T_eff in µs at a sea state (R313). -/
def tEff (s : State) (sea : Nat) : Nat :=
  let thr := secField s 0x11 4 1 8
  let base := secField s 0x11 1 1 5 * 60000000
  if sea < thr then base else max 20000000 (base / 2 ^ (sea - thr + 1))

/-- The group sea state (R312). -/
def groupSea (s : State) : Nat :=
  if inGroup s then
    (((presentRanks s).filter (fun r => r != s.grp.rank)).map (fun r => ((tget s.grp.beats r).map Beat.sea).getD 0)).foldl max s.fix.sea
  else s.fix.sea

/-- A Fix is triggered at the boundary (R313), or one held or aborted earlier is pending (R314, R316). -/
def fixTriggered (now : Nat) (s : State) : Bool :=
  let bound := secField s 0x11 2 2 0
  secField s 0x11 0 1 0 == 1 && (fixLayout s).isSome &&
    ((bound != 0 && decide (bound ≤ s.fix.stepsSince + 1)) || decide (now ≥ s.fix.lastStopEndUs + tEff s (groupSea s)) ||
      s.fix.requested || s.fix.triggered)

/-- Why a triggered Fix is held (R314, R335): 1 not group-sealed, 2 export, 3 dead reckoning, 4 recovery. -/
def heldCause (s : State) : Option Nat :=
  if s.fix.lastFixStep.isSome && s.fix.lastFixStep != s.fix.recoveryStep then some 1
  else if s.fix.exporting.isSome then some 2
  else if replaying s then some 3
  else if s.fix.recovering.isSome || s.fix.restore.isSome then some 4
  else none

/-- Whether the deciding module takes a Fix at the boundary. -/
def fixDue (now : Nat) (s : State) : Bool := fixTriggered now s && (heldCause s).isNone

/-! ### The step report (R253) -/

/-- SHARED_PAIRS (R253, R326): on the manager, pairs that share a feed domain and members left unpaired for one. -/
def sharedPairs (s : State) : Nat :=
  if s.grp.manager then ((presentRanks s).filter (fun r => pairStatusOf s.grp.recs r == 1 || pairStatusOf s.grp.recs r == 2)).length else 0

/-- What the deciding module's trigger shows in FLAGS: bits 2 and 3. -/
def fixFlags (m : CloseMsg) (triggered : Bool) : Nat := (if m.fix || triggered then 4 else 0) + (if triggered && !m.fix then 8 else 0)

/-- The step report of the step that closes, latched at the first action (R253); `low` are the contexts that raise the low-water alarm. -/
def stepReport (m : CloseMsg) (time skews absorbed : Nat) (triggered : Bool) (low : Nat) (s : State) : List Byte :=
  let l := ((s.grp.decided.map Prod.snd).getD [])
  let mine (k : Nat) : Bool := decidedNow s && ownKind s l k
  let flags := (if s.pow.reefHigh then 1 else 0) + (if s.pow.thermalLatched then 2 else 0) + fixFlags m triggered +
    (if mine 1 then 16 else 0) + (if mine 2 then 32 else 0)
  leBytes 8 m.step ++ leBytes 8 s.pow.energyLatched ++ leBytes 4 (sat32 time 0) ++ leBytes 4 (sat32 skews 0) ++ leBytes 4 (sat32 absorbed 0) ++
    leBytes 2 s.pow.reefShare ++ leBytes 2 low ++ leBytes 1 flags ++ leBytes 1 s.grp.pairStatus ++ leBytes 1 s.fix.sea ++ zeros 1 ++
    leBytes 4 (sharedPairs s) ++ leBytes 4 s.sync.remoteRefused ++ leBytes 4 s.chart.epoch.toNat ++ zeros 16

end Sys2Proof.Machine
end

