-- ==== Sys2Proof/Machine/Boundary.lean ====
section
/-! DEFINITION. The step boundary (R158): its actions after the first, the stop of the job (R133), the watch slots (R102), the release of
held descriptors (R349, R350), the retune (R341); STEP_REPORT_GET (R253). -/
namespace Sys2Proof.Machine

/-! ### The second action: live sections and GROUP_SET edits -/

/-- What the second action applies: a live section, or a context's GROUP_SET edit, with its record in the manifest. -/
inductive BoundaryEdit where
  | live (x : LiveSection)
  | group (ctx : Nat) (e : GroupEdit)
  deriving DecidableEq, Repr

/-- Its number in the order of acceptance. -/
def BoundaryEdit.seq : BoundaryEdit → Nat
  | .live x => x.seq
  | .group _ e => e.seq

/-- Inserts an edit in the order of acceptance. -/
def insertEdit (e : BoundaryEdit) : List BoundaryEdit → List BoundaryEdit
  | [] => [e]
  | h :: r => if e.seq < h.seq then e :: h :: r else h :: insertEdit e r

/-- The body of a GROUP_SET record: the 88 bytes of the command (R146). -/
def editBytes (e : GroupEdit) : List Byte := leBytes 8 e.step ++ leBytes 8 e.tableVa ++ leBytes 2 e.group ++ zeros 6 ++ e.entry

/-- The record of an edit applied at the boundary that closes step `n` (R320): type 5 with its context in front, type 6 with the step and
the section's type. -/
def BoundaryEdit.record (n : Nat) : BoundaryEdit → ManRec
  | .live x => ⟨6, leBytes 8 n ++ leBytes 2 x.type ++ x.body⟩
  | .group c e => ⟨5, leBytes 1 c ++ editBytes e⟩

/-- An edit as its record gives it. -/
def recordEdit (r : ManRec) : Option BoundaryEdit :=
  if r.type = 6 then some (.live ⟨0, fieldAt r.body 8 2, r.body.drop 10⟩)
  else if r.type = 5 then
    let b := r.body.drop 1
    some (.group (fieldAt r.body 0 1) ⟨0, fieldAt b 0 8, fieldAt b 8 8, fieldAt b 16 2, (b.drop 24).take 64⟩)
  else none

/-- Applies an edit: a group table entry keeps its counters and APPLIED_STEP (R146). -/
def applyEdit (s : State) : BoundaryEdit → State
  | .live x => applyLive x s
  | .group c e => moduleWrite c (e.tableVa + 64 * e.group + 48) ((e.entry.drop 48).take 16)
      (moduleWrite c (e.tableVa + 64 * e.group) (e.entry.take 32) s)

/-- The GROUP_SET edits of bound contexts due at the boundary that closes step `n`. -/
def dueEdits (n : Nat) (s : State) : List BoundaryEdit :=
  s.ctxs.flatMap (fun e => if e.2.bound then (e.2.edits.filter (fun g => g.step == n)).map (BoundaryEdit.group e.1) else [])

/-- The edits the boundary applies: those a replayed step's manifest records (R331), else the pending ones in order of acceptance. -/
def boundaryEdits (n : Nat) (s : State) : List BoundaryEdit :=
  match replayManifest s (n + 1) with
  | some m => m.recs.filterMap recordEdit
  | none => (s.conf.live.map BoundaryEdit.live ++ dueEdits n s).foldr insertEdit []

/-- Takes the applied edits off the lists. -/
def dropEdits (n : Nat) (s : State) : State :=
  { s with
    conf := { s.conf with live := if (replayManifest s (n + 1)).isSome then s.conf.live else [] }
    ctxs := s.ctxs.map (fun (e : Nat × Ctx) => (e.1, if e.2.bound then { e.2 with edits := e.2.edits.filter (fun g => g.step != n) } else e.2)) }

/-- The second action. -/
def secondAction (n : Nat) (s : State) : State := (boundaryEdits n s).foldl applyEdit (dropEdits n s)

/-! ### The third action: the Fix trigger (R312 to R314) -/

/-- What the deciding module notes of its trigger, HELD_CAUSE being the latest (R335); a member that receives CLOSE with FIX knows the latest Fix group-sealed. -/
def noteTrigger (m : CloseMsg) (triggered : Bool) (s : State) : State :=
  if decides s then
    if m.fix then { s with fix := { s.fix with requested := false, triggered := true } }
    else if triggered then
      { s with fix := { s.fix with requested := false, triggered := true, deferred := sat32 s.fix.deferred 1, heldCause := (heldCause s).getD s.fix.heldCause } }
    else { s with fix := { s.fix with requested := false } }
  else if m.fix then { s with fix := { s.fix with recoveryStep := s.fix.lastFixStep } }
  else s

/-! ### The fourth action: formats, scales, SCALE_SET edits (R95, R97, R103, R106) -/

/-- A step qualifies for an 8-bit gradient (R103). -/
def qualifies (w : WatchLive) : Bool := decide (0 < w.elements) && decide (w.saturated * 65536 < w.elements) && w.nonfinite == 0

/-- GRAD_HIST and GFMT at the boundary (R103). -/
def gradDecision (r : ScaleRec) : ScaleRec :=
  if r.grad then
    let h := if r.shadow.maxk.isSome then r.gradHist * 2 % 256 + (if qualifies r.shadow then 1 else 0) else r.gradHist
    { r with gradHist := h, gfmt := if r.pin then 3 else if h = 0xFF then 1 else 2 }
  else r

/-- Ftop for a record's output format (R97): of a GRAD tensor that of its GFMT, where 0x3 is a pair of KL16. -/
def recordTop (r : ScaleRec) : Int := ftop (if r.grad then (if r.gfmt = 3 then 2 else r.gfmt) else r.fmt)

/-- MAXK_HIST, TS and whether TS was clamped (R97). -/
def placeScale (r : ScaleRec) : ScaleRec × Nat :=
  let h := (r.shadow.maxk :: r.hist).take 4
  if r.fmt = 3 ∧ ¬ r.grad then ({ r with hist := h, ts := 0 }, 0)
  else match (h[r.delay - 1]?).join with
    | none => ({ r with hist := h }, 0)
    | some k =>
      let raw := k + 1 + r.margin - recordTop r
      let ts := max (-8192) (min 8191 raw)
      ({ r with hist := h, ts := ts }, if ts = raw then 0 else 1)

/-- A record at the boundary: the gradient format, then TS. -/
def advanceRec (r : ScaleRec) : ScaleRec × Nat := placeScale (gradDecision r)

/-- The clamps of a list of records. -/
def clampCount (l : List ScaleRec) : Nat := (l.map (fun r => (advanceRec r).2)).sum

/-- The records of a context advance, deleted ones that descriptors still use among them (R252); the clamps enter the live count of the
step that begins (R97). -/
def advanceRecs (x : Ctx) : Ctx :=
  { x with
    liveClamps := sat32 x.liveClamps (clampCount x.tensors)
    scales := x.scales.map (fun e => (e.1, (advanceRec e.2).1))
    dead := x.dead.map (fun r => (advanceRec r).1) }

/-- The records whose block tables, bitmaps and watch areas lie in memory: the scratch tensors' places are not stated (log 29). -/
def Ctx.placed (x : Ctx) : List ScaleRec := x.tensors.filter (fun r => (tget x.scratch r.id).isNone)

/-- Clears the overflow bitmaps of a step (R95). -/
def clearBitmaps (c step : Nat) (s : State) : State :=
  match ctxOf s c with
  | none => s
  | some x => x.placed.foldl (fun t r => moduleWrite c (bitmapVa r step) (zeros ((r.blocks + 7) / 8)) t) s

/-- A SCALE_SET edit: where its block table faults, the record stands, the table is not written and the fault makes its record (R235;
log 25). -/
def scaleEdit (c : Nat) (s : State) (b : List Byte) : State :=
  match applyScale c b s with
  | .ok t => t
  | .error e =>
    let n := scaleRecord b (scaleOf s c (fieldAt b 0 4))
    moduleFault c e .write (ctxMod c (fun x => { x with scales := tset x.scales n.id n }) s)

/-- The fourth action on one context of the job (R106); the bitmaps of the next step are cleared where the records then place them (R95). -/
def fourthCtx (n : Nat) (s : State) (c : Nat) : State :=
  match ctxOf s c with
  | none => s
  | some x =>
    if !x.bound then s
    else
      let t := ctxMod c advanceRecs s
      clearBitmaps c (n + 1) (ctxMod c (fun y => { y with scaleEdits := [] }) (x.scaleEdits.foldl (scaleEdit c) t))

/-- The fourth action. -/
def fourthAction (n : Nat) (s : State) : State := (ctxNumbers s).foldl (fourthCtx n) s

/-! ### The fifth action: stripes (R127, R128) -/

/-- The stripe sets of a context for the next step: balanced, then replaced by those STRIPE_SET gave. -/
def nextStripes (x : Ctx) : Ctx :=
  if x.bound then
    { x with stripes := x.newStripes.foldl (fun t e => tset t e.1 e.2) (x.stripes.map (fun e => (e.1, { e.2 with bound := balance e.2 })))
             newStripes := [] }
  else x

/-- Applies a change to every context. -/
def mapCtxs (f : Ctx → Ctx) (s : State) : State := { s with ctxs := s.ctxs.map (fun (e : Nat × Ctx) => (e.1, f e.2)) }

/-- The fifth action. -/
def fifthAction (s : State) : State := mapCtxs nextStripes s

/-! ### The sixth action: stack segments, the step number (R139, R158) -/

/-- A segment is kept: another parity, or its micro-batch deferred at the step's cut (R139). -/
def keepsSegment (n deferred seg : Nat) : Bool := seg % 2 != n % 2 || bitAt deferred (seg / 2)

/-- The stack of a context at the boundary that closes step `n` (R139). -/
def sweepStack (n deferred : Nat) (x : Ctx) : Ctx :=
  if x.bound then
    { x with astk := { x.astk with
        leftover := ((x.astk.segs.filter (fun e => !keepsSegment n deferred e.1)).map (fun e => e.2.length)).sum
        segs := x.astk.segs.filter (fun e => keepsSegment n deferred e.1) } }
  else x

/-- Ring entries of batches before step `n` are freed at the boundary that closes `n` (R183). -/
def freeRing (n : Nat) (x : Ctx) : Ctx :=
  if x.bound then { x with ingest := { x.ingest with
    sealed := x.ingest.sealed.filter (fun b => decide (n ≤ x.ingest.firstStep + b))
    marks := x.ingest.marks.filter (fun e => decide (n ≤ x.ingest.firstStep + e.1)) } } else x

/-- A context loaded with FLAGS.JOB set while the job runs is bound at the boundary (R132). -/
def bindJob (x : Ctx) : Ctx := if x.job then { x with bound := true } else x

/-- The lowest ready depth of the step that begins (R189). -/
def openDepth (step : Nat) (x : Ctx) : Ctx := if x.bound then restartDepth step x else x

/-- A context is low on batches after the boundary that opens `step` (R185). -/
def lowOnBatches (step : Nat) (x : Ctx) : Bool :=
  x.bound && (match x.ingest.sched with
    | some d => d.lowWater != 0 && decide (x.ingest.depth step < d.lowWater)
    | none => false)

/-- The low-water alarm of one context; the interrupt goes out at the first boundary of a run (R185). -/
def lowAlarm (step : Nat) (s : State) (c : Nat) : State :=
  match ctxOf s c with
  | none => s
  | some x =>
    if !x.bound then s
    else if lowOnBatches step x then
      let t := ctxMod c (fun y => { y with ingest := { y.ingest with
        alarmRun := true, live := { y.ingest.live with lowwater := sat32 y.ingest.live.lowwater 1 } } }) s
      if x.ingest.alarmRun then t else raiseEvent (16 + c) t
    else ctxMod c (fun y => { y with ingest := { y.ingest with alarmRun := false } }) s

/-- The contexts that raise the alarm, as bits (R253). -/
def lowBits (step : Nat) (s : State) : Nat := ((s.ctxs.filter (fun e => lowOnBatches step e.2)).map (fun e => 2 ^ e.1)).sum

/-- The members DEFERRED at step `n`. -/
def deferredRanks (n : Nat) (s : State) : List Nat :=
  match s.grp.decided with
  | some (k, l) => if k = n then (l.filter (fun e => e.kind == 1)).map LateEntry.rank else []
  | none => []

/-- Step times, deadline and what the step exchanged, at the boundary that closes step `n` (R286 to R288). -/
def closeGroup (m : CloseMsg) (s : State) : State :=
  let n := m.step
  let times := match s.bnd.lastClose with
    | some (k, t) => if k + 1 = n then ((m.timeUs - t) :: s.grp.stepTimes).take 32 else s.grp.stepTimes
    | none => s.grp.stepTimes
  let t : State := { s with
    grp := { s.grp with
      stepTimes := times, deadline := s.grp.newDeadline.getD s.grp.deadline, newDeadline := none, prevLate := deferredRanks n s
      handovers := [], arrived := [], freq := m.freq, retune := m.freq != s.grp.curFreq }
    bnd := { s.bnd with
      lastClose := some (n, m.timeUs), prevCut := s.bnd.cut, cut := none, begun := [], begunBack := [], begunLag := [], backSeen := s.bnd.backSeen.filter (fun e => decide (n < e.2.2)), entered := none
      updated := [], handed := none, skewStep := 0, waves := allWaves } }
  { t with grp := { t.grp with lastD := (deadlineAfter m.timeUs t).or t.grp.lastD } }

/-- The sixth action: segments, ring entries, the step number, the manifest of the step that begins with the edits of this boundary. -/
def sixthAction (m : CloseMsg) (edits : List BoundaryEdit) (s : State) : State :=
  let n := m.step
  let t := mapCtxs (fun x => bindJob (freeRing n (sweepStack n (deferredAt s.bnd.cut n) x))) s
  let t1 := closeGroup m (commitColls n t)
  let t2 : State := { t1 with dev := { t1.dev with step := n + 1 }, fix := { t1.fix with stepsSince := t1.fix.stepsSince + 1 } }
  let t3 := openReplay (openStepWith (edits.map (fun e => e.record n)) (n + 1) t2)
  let t4 := mapCtxs (openDepth (n + 1)) t3
  endReplay ((ctxNumbers t4).foldl (lowAlarm (n + 1)) t4)

/-! ### CLOSE -/

/-- The state at the third action: counts latched, Sextant set, sections and edits applied. -/
def twoActions (m : CloseMsg) (s : State) : State := secondAction m.step (sextant m.timeUs (latchAll m.step s))

/-- Where the Fix trigger is evaluated: by a manager before it sends CLOSE, by a module outside any group at the third action (R312). -/
def triggerState (m : CloseMsg) (s : State) : State := if inGroup s then s else twoActions m s

/-- What CLOSE carries is what the deciding module decides (R133, R312, R340). -/
def closeDecided (m : CloseMsg) (s : State) : Bool :=
  m.fix == fixDue m.timeUs (triggerState m s) && m.stop == s.dev.stopAsked && m.freq == (freqDecision s).1 && !s.fix.checkpoint &&
    (!inGroup s || (decisionOut s && (presentRanks s).all (fun r => decide (r ∈ s.grp.arrived))))

/-- CLOSE can be observed: a Binnacle is active, the step is in its muster, the watch slots of the boundary before are written (R102), time has not gone back. -/
def closeReady (m : CloseMsg) (s : State) : Bool :=
  s.dev.st == .run && s.dev.jobRunning && !s.dev.takeover && m.step == s.dev.step && s.bnd.entered == some m.step && freqOk m.freq &&
    s.bnd.lastClose.all (fun e => decide (e.2 ≤ m.timeUs)) && !s.ctxs.any (fun e => e.2.bound && e.2.watchDue) &&
    (!decides s || closeDecided m s)

/-- The manager sends CLOSE and mirrors its decision to the deputy (R285, R286, R340). -/
def sendClose (m : CloseMsg) (s : State) : State :=
  if s.grp.manager && inGroup s then
    let args := [m.step, if m.fix then 1 else 0, if m.stop then 1 else 0, m.freq]
    let t := if s.grp.deputy = 0xFFFF then s else sendMsg 1 s.grp.deputy "MIRROR_CLOSE" (args ++ [s.grp.highRun, s.grp.cleanRun] ++ deadlineArgs s.grp.deadline) s
    sendAll 1 "CLOSE" args ((presentRanks t).filter (fun r => r != t.grp.rank)) t
  else s

/-- The deciding module's frequency decision (R340): its runs, and what telemetry counts of them. -/
def noteFreq (s : State) : State :=
  match freqDecision s with
  | (f, high, clean) =>
    { s with grp := { s.grp with
        highRun := high, cleanRun := clean
        lowerings := sat32 s.grp.lowerings (if f < s.grp.freq then 1 else 0), raises := sat32 s.grp.raises (if s.grp.freq < f then 1 else 0) } }

/-- The step report of the step that closes, from the values latched at the first action; `now` is the state after the first action. -/
def reportOf (m : CloseMsg) (triggered : Bool) (low : Nat) (before now : State) : List Byte × State :=
  let skews := before.bnd.skewStep
  match before.bnd.lastClose with
  | some (_, t) => (stepReport m (m.timeUs - t) skews before.fix.absorbed triggered low now, now)
  | none => match freshValue now with
    | (v, u) => (stepReport m (v.toNat % 2 ^ 32) skews before.fix.absorbed triggered low now, u)

/-- After the sixth action: the Fix stop, waiting for a chart change in publication (R235), or the stop of the job (R133, R315). A
recalibration asked for in RUN starts (R371). -/
def afterActions (m : CloseMsg) (s : State) : State :=
  let t : State := { s with test := { s.test with recalHeld := false }, dev := { s.dev with stopAsked := if m.stop then false else s.dev.stopAsked } }
  if m.fix then
    let u : State := { t with dev := { t.dev with jobRunning := !m.stop } }
    if u.chart.pub.isSome then { u with fix := { u.fix with stopDelayed := true } } else beginFixStop u
  else if m.stop then stopJob t
  else settleIngest t

/-- The boundary that closes step `m.step` (R158); a step that a member of a group ran without a paired consort was uncovered (R318). -/
def closeStep (m : CloseMsg) (s : State) : State :=
  let triggered := decides s && fixTriggered m.timeUs (triggerState m s)
  let s0 := commitCounts m.step (sendClose m (if decides s then noteFreq s else s))
  let s1 := sextant m.timeUs (latchAll m.step s0)
  let edits := boundaryEdits m.step s1
  match reportOf m triggered 0 s0 s1 with
  | (report, u) =>
    let s3 := noteTrigger m triggered (secondAction m.step { u with fix := { u.fix with absorbed := 0 } })
    let s6 := sixthAction m edits (fifthAction (fourthAction m.step s3))
    let low := lowBits (m.step + 1) s6
    let s7 : State := { s6 with bnd := { s6.bnd with report := report.take 30 ++ leBytes 2 low ++ report.drop 32 } }
    let s8 := if s7.grp.manager then pairConsorts (settleJoins s7) else s7
    afterActions m (if inGroup s && s.grp.consort == 0xFFFF then addUncovered s8 else s8)

/-- CLOSE (R158). -/
def execClose (m : CloseMsg) (s : State) : Out := gate (closeReady m s) "the step is not ready to close" (closeStep m s)

/-! ### Watch slots (R102) -/

/-- The last 448 bytes of a slot: the histogram and the OPS entries. -/
def slotHistogram (w : WatchLive) : List Byte :=
  (List.range 64).flatMap (fun b => leBytes 4 ((tget w.bins b).getD 0)) ++
    (List.range 16).flatMap (fun i => match w.ops[i]? with
      | some (_, tag, sat, fl) => leBytes 4 tag.toNat ++ leBytes 4 sat ++ leBytes 4 fl
      | none => zeros 12)

/-- The watch slot of a record for a latched step (R102). Where a SCALE_SET edit of the boundary flips WATCH, the slot takes the mode after
the edit, which the spec does not settle: the model's choice (log 154). -/
def slotBytes (step : Nat) (r : ScaleRec) : List Byte :=
  let w := r.shadow
  leBytes 4 r.id ++ leBytes 4 step ++ leBytes 8 w.elements ++ leBytes 4 w.zeros ++ leBytes 4 w.saturated ++ leBytes 4 w.nonfinite ++
    leBytes 4 w.flushed ++ leBytes 2 (maxkField w.maxk) ++ leBytes 2 (unsignedOf 16 r.shadowTs) ++ leBytes 4 (sat32 w.ovfBlocks.length 0) ++
    leBytes 1 r.gfmt ++ leBytes 1 ((if r.histogram then 1 else 0) + (if r.histogram && w.overrun then 2 else 0)) ++ zeros 22 ++
    (if r.histogram then slotHistogram w else [])

/-- Writes the slot of a record. -/
def writeSlot (c step : Nat) (s : State) (r : ScaleRec) : State := moduleWrite c (r.watchVa + 512 * (step % 2)) (slotBytes step r) s

/-- WATCH_SLOT_WRITE (R102): the slots of every record whose counts the boundary latched, then WATCH_STEP; a record deleted since is still
there until its slot is written (R252). -/
def execWatchSlotWrite (c : Nat) (s : State) : Out :=
  match ctxOf s c with
  | none => .refused (.notEnabled "no such context")
  | some x =>
    gate x.watchDue "no slots are due"
      (ctxMod c (fun y => { y with watchStep := BitVec.ofNat 32 x.latchedStep, watchDue := false })
        ((x.placed.filter ScaleRec.slotDue).foldl (writeSlot c x.latchedStep) s))

/-! ### Retune and release (R341, R342, R349) -/

/-- The fused voltage of a die for a frequency, which the spec does not give: free within the rail's range (log 6). -/
def fuseDie (d : DiePower) (v : Nat) : DiePower :=
  let u := 1300 + v % 601
  { d with volt := u, voltMin := min d.voltMin u, voltMax := max d.voltMax u }

/-- Every die takes its fused voltage. -/
def fuseDies : List DiePower → State → List DiePower × State
  | [], s => ([], s)
  | d :: r, s =>
    match freshValue s with
    | (v, t) => match fuseDies r t with
      | (l, u) => (fuseDie d v.toNat :: l, u)

/-- RETUNE_COMPLETE (R341, R342): all dies run at the group frequency; held descriptors are released in waves. A Fix stop that has ended lets
the module run only now (R350). -/
def execRetuneComplete (s : State) : Out :=
  gate (s.grp.retune && s.dev.st != .off && s.dev.st != .failed && s.dev.st != .anchored) "no retune runs"
    (match fuseDies s.pow.dies s with
     | (l, t) => endStop { t with grp := { t.grp with retune := false, curFreq := t.grp.freq }, pow := { t.pow with dies := l }, bnd := { t.bnd with waves := allWaves } })

/-- A recalibration holds the release of the waves (R371). -/
def recalHolds (s : State) : Bool := s.test.recal.isSome && !s.test.recalHeld

/-- DESCRIPTOR_RELEASE_WAVE (R349, R350): the waves go in order. -/
def execDescriptorReleaseWave (wave : Nat) (s : State) : Out :=
  gate (s.bnd.waves.head? == some wave && (s.dev.st == .run || s.dev.st == .ready) && !s.grp.retune && !recalHolds s && !s.fix.stopDelayed)
    "this wave is not due" { s with bnd := { s.bnd with waves := s.bnd.waves.tail } }

/-! ### STEP_REPORT_GET (R253) -/

def chkStepReport (p : Packet) : Checks := { lenOk := p.paramLen == 0, charge := some 64 }

/-- The payload: before the first boundary since power-up STEP is all ones and the rest 0. -/
def stepReportPayload (s : State) : List Byte := if s.bnd.report.isEmpty then leBytes 8 (2 ^ 64 - 1) ++ zeros 56 else s.bnd.report

def acceptStepReport (p : Packet) (s : State) : State :=
  acceptPacket 0x0701 (chkStepReport p) (fun idx t => finishSlot p 0x0701 idx 0 (stepReportPayload t) t) p s

/-- STEP_REPORT_GET (R253). -/
def execStepReportGet (p : Packet) (s : State) : Out := packetOut 0x0701 acceptStepReport p s

end Sys2Proof.Machine
end

