-- ==== Sys2Proof/Machine/Telemetry.lean ====
section
/-! DEFINITION. TELEMETRY_GET and its sets (R86, R214, R266, R267, R299, R357). -/
namespace Sys2Proof.Machine

/-- The array counters of a logical cluster in the order of R86. -/
def arrayBytes (a : ArrayCounts) : List Byte :=
  [a.issue, a.reef, a.swap, a.out, a.feed, a.restart, a.chains].flatMap (leBytes 4)

/-- Set 0x01 (R267): the latched counters of `count` logical clusters. -/
def setArrays (s : State) (first count : Nat) : List Byte :=
  (List.range count).flatMap (fun i => arrayBytes ((tget s.arrays.latched (first + i)).getD {}))

/-- The 0x0AC bytes of a context's block (R266). -/
def blockBytes (s : State) (x : Ctx) : List Byte := (List.range 43).flatMap (fun i => leBytes 4 (ctxReg s.dev.step x (4 * i)))

/-- Set 0x02 (R267). -/
def setBlocks (s : State) : List Byte := s.ctxs.flatMap (fun e => blockBytes s e.2)

/-- Set 0x03 (R267): the four counters of each stack. -/
def setMemory (s : State) : List Byte :=
  (List.range 24).flatMap (fun n => (List.range 4).flatMap (fun i => leBytes 4 ((memLatched s n).reg i)))

/-- Set 0x12 (R299). -/
def setColls (s : State) : List Byte :=
  (s.colls.latched.take 5).flatMap (leBytes 4) ++ leBytes 8 ((s.colls.latched[5]?).getD 0)

/-- A rank's counts in set 0x13. -/
def rankBytes (s : State) (r : GroupRec) : List Byte :=
  match (tget s.grp.lateLatched r.rank).getD (0, 0, 0) with
  | (a, b, c) => leBytes 2 r.rank ++ leBytes 2 a ++ leBytes 2 b ++ leBytes 2 c

/-- Set 0x13 (R299): the median step time and D(n), free where there is none, then the ranks in use. -/
def setLate (s : State) : List Byte × State :=
  match orFree (medianTime s) s with
  | (m, t) => match orFree t.grp.lastD t with
    | (d, u) => (leBytes 4 m ++ leBytes 4 d ++ u.grp.recs.flatMap (rankBytes u), u)

/-- Set 0x18 (R357). -/
def setPower (s : State) : List Byte :=
  leBytes 8 s.pow.energyLatched ++ leBytes 8 s.pow.energyUj ++ leBytes 2 s.pow.capW ++ leBytes 1 (secField s 0x10 2 1 128) ++
    leBytes 1 ((if s.pow.reefHigh then 1 else 0) + (if s.pow.thermalLatched then 2 else 0)) ++ leBytes 2 s.pow.meanW ++ leBytes 2 s.pow.maxWLatched ++
    leBytes 2 s.pow.reefShare ++ leBytes 4 s.pow.cappedLatched ++ leBytes 2 s.grp.freq ++ zeros 16

/-- A compute die's part of set 0x19; voltages in whole mV, rounded down. -/
def dieBytes (s : State) (d : DiePower) : List Byte :=
  leBytes 2 s.grp.curFreq ++ leBytes 2 (d.volt / 2) ++ leBytes 2 (d.minLatched / 2) ++ leBytes 2 (d.maxLatched / 2) ++ leBytes 4 d.droopLatched ++
    leBytes 4 d.stretchLatched ++ leBytes 1 d.tb ++ zeros 15

/-- Set 0x19 (R357). -/
def setDies (s : State) : List Byte := s.pow.dies.flatMap (dieBytes s)

/-- The sensor groups of set 0x1A in ascending unit ID. -/
def sensorUnits : List Nat := (List.range 24).map uStack ++ [0x8000, 0x8001] ++ (List.range 30).map uSup

/-- A sensor group's part of set 0x1A; before its first reading the values are free. -/
def sensorBytes (u : Nat) (s : State) : List Byte × State :=
  match tget s.pow.sensors u with
  | some x => (leBytes 2 u ++ leBytes 2 (unsignedOf 16 x.temp) ++ leBytes 2 (unsignedOf 16 x.maxLatched) ++ leBytes 1 x.stage ++ zeros 1, s)
  | none => match freshValue s with
    | (v, t) => (leBytes 2 u ++ leBytes 2 v.toNat ++ leBytes 2 (v.toNat / 2 ^ 16) ++ leBytes 1 (v.toNat / 2 ^ 32 % 3) ++ zeros 1, t)

/-- Set 0x1A (R357). -/
def setThermal (s : State) : List Byte × State :=
  sensorUnits.foldl (fun a u => match sensorBytes u a.2 with
    | (b, t) => (a.1 ++ b, t)) (leBytes 2 (unsignedOf 16 s.pow.inlet) ++ leBytes 2 s.pow.flow ++ zeros 4, s)

/-- Set 0x1B (R357). -/
def setFreq (s : State) : List Byte :=
  leBytes 2 s.grp.target ++ leBytes 2 s.grp.freq ++ leBytes 2 s.grp.highRun ++ leBytes 2 s.grp.cleanRun ++ leBytes 4 s.grp.lowerings ++
    leBytes 4 s.grp.raises

/-- A set's payload. -/
def telemetry (set first count : Nat) (s : State) : List Byte × State :=
  match set with
  | 0x01 => (setArrays s first count, s)
  | 0x02 => (setBlocks s, s)
  | 0x03 => (setMemory s, s)
  | 0x10 => (s.fab.portsLatched.flatMap portSet, s)
  | 0x11 => laneSets false s
  | 0x12 => (setColls s, s)
  | 0x13 => setLate s
  | 0x18 => (setPower s, s)
  | 0x19 => (setDies s, s)
  | 0x1A => setThermal s
  | _ => (setFreq s, s)

/-- The sets that are not reserved (R267, R299, R357). -/
def telemetrySets : List Nat := [0x01, 0x02, 0x03, 0x10, 0x11, 0x12, 0x13, 0x18, 0x19, 0x1A, 0x1B]

/-- The largest payload of a set. -/
def telemetryCharge (set count : Nat) : Nat :=
  match set with
  | 0x01 => 28 * count | 0x02 => 16 * 0xAC | 0x03 => 384 | 0x10 => 384 | 0x11 => 1536 | 0x12 => 28 | 0x13 => 8 + 8 * 272
  | 0x18 => 48 | 0x19 => 512 | 0x1A => 456 | _ => 16

/-- CL_FIRST and CL_COUNT name logical clusters. -/
def clusterRangeOk (p : Packet) : Bool := decide (pf p 2 2 < 800) && within 1 (pf p 4 2) (800 - pf p 2 2)

def chkTelemetry (p : Packet) (s : State) : Checks :=
  { lenOk := p.paramLen == (if pf p 0 1 = 1 then 6 else 2)
    fieldsOk := decide (pf p 0 1 ∈ telemetrySets) && pf p 1 1 == 0 && (pf p 0 1 != 1 || clusterRangeOk p)
    charge := some (telemetryCharge (pf p 0 1) (pf p 4 2))
    units := if pf p 0 1 = 1 then clusterUnits s ((List.range (pf p 4 2)).map (fun i => pf p 2 2 + i)) else [] }

/-- A set that a module without the manager role refuses (R299, R357). -/
def telemetryRole (set : Nat) (s : State) : Bool := (set == 0x13 && !s.grp.manager) || (set == 0x1B && inGroup s && !s.grp.manager)

/-- The status: context values of a saved-out context come from its save area (R267). -/
def telemetryStatus (set : Nat) (s : State) : Nat := if set = 0x02 ∧ s.ctxs.any (fun e => e.2.savedOut) then stPREEMPTED else 0

/-- TELEMETRY_GET's effect. -/
def bodyTelemetry (p : Packet) (idx : Nat) (s : State) : State :=
  let set := pf p 0 1
  if telemetryRole set s then refuse8 p 0x0700 stROLE none idx s
  else match telemetry set (pf p 2 2) (pf p 4 2) s with
    | (b, t) => finishSlot p 0x0700 idx (telemetryStatus set s) b t

def acceptTelemetry (p : Packet) (s : State) : State := acceptPacket 0x0700 (chkTelemetry p s) (bodyTelemetry p) p s

/-- TELEMETRY_GET (R267, R299, R357). -/
def execTelemetryGet (p : Packet) (s : State) : Out := packetOut 0x0700 acceptTelemetry p s

end Sys2Proof.Machine
end

