-- ==== Sys2Proof/Machine/Power.lean ====
section
/-! DEFINITION. Clocks, power, thermal and ANCHORED (R338 to R357): the frequency target, the power cap, samples at J1, reefing, the rails,
droops, sensors, throttling and protective shutdown, entry to ANCHORED and exit from it. -/
namespace Sys2Proof.Machine

/-! ### State sensors of PLDM (R374, R379, R380, R383) -/

/-- INPUT_STATUS of the voltage at J1 in mV (R374). -/
def inputStatus (mv : Int) : Nat :=
  if mv < -1000 then 3 else if mv < 20000 then 4 else if mv < 40000 then 1 else if mv < 60001 then 0 else 2

/-- The shutdown temperature of a unit's sensors in °C (R352). -/
def shutdownAt (unit : Nat) : Int := if unit / 4096 = 4 ∨ (16 ≤ unit % 4096 ∧ unit % 4096 < 24 ∧ unit / 4096 = 9) then 105 else 110

/-- The coolant inlet in 1/16 °C as thermal action takes it: a flow too low counts as a temperature (R352). -/
def inletNow (s : State) : Int :=
  if s.pow.flowStage = 2 then max s.pow.inlet 800 else if s.pow.flowStage = 1 then max s.pow.inlet 720 else s.pow.inlet

/-- Some sensor is at or above a threshold in °C, which depends on its unit, or the inlet at or above its own. -/
def sensorsReach (f : Nat → Int) (inlet : Int) (s : State) : Bool :=
  s.pow.sensors.any (fun e => decide (16 * f e.1 ≤ e.2.temp)) || decide (16 * inlet ≤ inletNow s)

/-- The THERMAL sensor (R383): 0 normal, 1 warning, 2 limit, 3 shutdown. -/
def thermalState (s : State) : Nat :=
  if sensorsReach shutdownAt 50 s then 3 else if sensorsReach (fun u => (thresholds u).2) 45 s then 2
  else if sensorsReach (fun u => (thresholds u).1) 40 s then 1 else 0

/-- A state sensor's reading (R383). -/
def stateSensor (s : State) : Nat → Nat
  | 0x10 => s.dev.st.code
  | 0x11 => inputStatus s.board.j1mv
  | 0x12 => s.board.leak
  | 0x13 => s.board.strapFault
  | _ => thermalState s

/-- The events of the sensors INPUT_STATUS, LEAK, STRAPS and THERMAL that changed from one state to another (R383). -/
def sensorEvents (before after : State) : State :=
  [0x11, 0x12, 0x13, 0x14].foldl (fun t n => sensorEvent n (stateSensor before n) (stateSensor after n) t) after

/-! ### Frequency and cap -/

def chkFreqSet (p : Packet) : Checks := { lenOk := p.paramLen == 4 }

/-- FREQ_SET's effect (R339): every other value, of bytes 3:2 too, has detail 0x0D01. -/
def bodyFreqSet (p : Packet) (s : State) : State :=
  if !freqOk (pf p 0 2) || pf p 2 2 != 0 then completeWith p 0x0711 stBADPARAM 0x0D01 s
  else if inGroup s && !s.grp.manager then completeOpen p 0x0711 stROLE s
  else completeOk p 0x0711 (setTarget (pf p 0 2) s)

def acceptFreqSet (p : Packet) (s : State) : State := acceptPacket 0x0711 (chkFreqSet p) (fun _ t => bodyFreqSet p t) p s

/-- FREQ_SET (R339). -/
def execFreqSet (p : Packet) (s : State) : Out := packetOut 0x0711 acceptFreqSet p s

def chkPowerCap (p : Packet) : Checks := { lenOk := p.paramLen == 4, fieldsOk := pf p 2 2 == 0 }

/-- CAP_W replaced in an accepted power section that is not yet applied (R348). -/
def recapLive (w : Nat) (x : LiveSection) : LiveSection := if x.type = 0x10 then { x with body := leBytes 2 w ++ x.body.drop 2 } else x

/-- POWER_CAP_SET's effect (R348). -/
def bodyPowerCap (p : Packet) (s : State) : State :=
  let w := pf p 0 2
  if !within 2000 w 4400 then completeWith p 0x0710 stBADPARAM 0x0D02 s
  else completeOk p 0x0710 { s with pow := { s.pow with capW := w }, conf := { s.conf with live := s.conf.live.map (recapLive w) } }

def acceptPowerCap (p : Packet) (s : State) : State := acceptPacket 0x0710 (chkPowerCap p) (fun _ t => bodyPowerCap p t) p s

/-- POWER_CAP_SET (R348). -/
def execPowerCapSet (p : Packet) (s : State) : Out := packetOut 0x0710 acceptPowerCap p s

/-! ### Samples (R344, R345, R351) -/

/-- The 1 ms power in mW: the mean of the latest 500 samples, of those there are before 500 (log 59). -/
def meanPower (samples : List Nat) : Nat := if samples.isEmpty then 0 else samples.sum / samples.length

/-- The 1 ms power in whole watts. -/
def powerW (s : State) : Nat := meanPower s.pow.samples / 1000

/-- The power bubble count (R345). -/
def bubbleCount (gain cap power : Nat) : Nat := min 48 (64 * gain * (power - cap) / (16 * cap))

/-- B_eff of every compute die, summed (R345, R347). -/
def reefNow (b : Nat) (dies : List DiePower) : Nat := (dies.map (fun d => max b d.tb)).sum

/-- Notes that a die's B_eff is not 0 in the step, so that some of its issue slots may be reef bubbles (R345). -/
def noteReef (b : Nat) (d : DiePower) : DiePower := { d with reefed := d.reefed || decide (0 < max b d.tb) }

/-- A sample adds its energy: 2 µs of `mw` milliwatts are 2 × `mw` nJ; the remainder below 1 µJ is carried forward; the counter saturates (R9, R351). -/
def addEnergy (mw : Nat) (p : PowerSys) : PowerSys :=
  { p with energyUj := satAdd 64 p.energyUj ((p.energyRem + 2 * mw) / 1000), energyRem := (p.energyRem + 2 * mw) % 1000 }

/-- The effect of a sample on the estimator. -/
def takeSample (mw : Nat) (s : State) : PowerSys :=
  let l := (mw :: s.pow.samples).take 500
  let w := meanPower l / 1000
  let b := bubbleCount (secField s 0x10 2 1 128) s.pow.capW w
  addEnergy mw { s.pow with
    samples := l, bubbles := b, meanSum := s.pow.meanSum + mw, meanCount := s.pow.meanCount + 1, maxW := max s.pow.maxW w
    capped := sat32 s.pow.capped (if b = 48 then 1 else 0), reefSum := s.pow.reefSum + reefNow b s.pow.dies
    dies := s.pow.dies.map (noteReef b) }

/-- POWER_SAMPLE (R344, R345, R351). -/
def execPowerSample (mw : Nat) (mv ma : Int) (s : State) : Out :=
  gate s.board.aux "CK_AON does not run"
    (sensorEvents s { s with pow := takeSample mw s, board := { s.board with j1mv := mv, j1ma := ma } })

/-! ### Rails and droops (R342, R343) -/

/-- Compute dies have power and clocks. -/
def diesRun (s : State) : Bool := s.dev.st != .off && s.dev.st != .failed && s.dev.st != .anchored

/-- A die's rail moves by 2.5 mV within 650 mV to 950 mV. -/
def moveRail (up : Bool) (d : DiePower) : DiePower :=
  let v := if up then min 1900 (d.volt + 5) else max 1300 (d.volt - 5)
  { d with volt := v, voltMin := min d.voltMin v, voltMax := max d.voltMax v }

/-- AVS_ADJUST (R342). -/
def execAvsAdjust (die : Nat) (up : Bool) (s : State) : Out :=
  gate (decide (die < 16) && diesRun s) "the die does not run" { s with pow := { s.pow with dies := lmod s.pow.dies die (moveRail up) } }

/-- A die's power record. -/
def diePower (s : State) (die : Nat) : DiePower := (s.pow.dies[die]?).getD {}

/-- DROOP_STRETCH (R343): an onset. -/
def execDroopStretch (die : Nat) (s : State) : Out :=
  gate (decide (die < 16) && diesRun s && !(diePower s die).stretching) "the die does not run or stretches already"
    { s with pow := { s.pow with dies := lmod s.pow.dies die (fun d => { d with stretching := true, droop := sat32 d.droop 1 }) } }

/-- DROOP_STRETCH_END (R343): `periods` were lengthened, at most 16. -/
def execDroopStretchEnd (die periods : Nat) (s : State) : Out :=
  gate ((diePower s die).stretching && decide (die < 16) && within 1 periods 16) "the die does not stretch so"
    { s with pow := { s.pow with dies := lmod s.pow.dies die (fun d => { d with stretching := false, stretch := sat32 d.stretch periods }) } }

/-! ### Thermal (R352, R353) -/

/-- Whether thermal reef of a compute die follows a unit's sensors (R352). -/
def namesDie (unit die : Nat) : Bool :=
  let i := unit % 4096
  if unit / 4096 = 4 then i / 6 == die / 4
  else if unit / 4096 = 8 then true
  else if i < 16 then i == die
  else if i < 24 then (i - 16) / 2 == die / 4
  else decide (28 ≤ i)

/-- A sensor naming the die, or the inlet, is at or above T_w. -/
def dieWarm (s : State) (die : Nat) : Bool :=
  s.pow.sensors.any (fun e => namesDie e.1 die && decide (16 * (thresholds e.1).1 ≤ e.2.temp)) || decide (640 ≤ inletNow s)

/-- Every sensor naming the die, the inlet among them, is below T_w − 2 °C. -/
def dieCool (s : State) (die : Nat) : Bool :=
  s.pow.sensors.all (fun e => !namesDie e.1 die || decide (e.2.temp < 16 * ((thresholds e.1).1 - 2))) && decide (inletNow s < 608)

/-- A reading of a sensor group: latest, maximum of the step, readings in a row at or above shutdown. -/
def readSensor (t : Table Sensor) (r : TempRead) : Table Sensor :=
  let hot (n : Nat) : Nat := if 16 * shutdownAt r.unit ≤ r.temp then n + 1 else 0
  match tget t r.unit with
  | some x => tset t r.unit { x with temp := r.temp, max := max x.max r.temp, hot := hot x.hot }
  | none => tset t r.unit { temp := r.temp, max := r.temp, hot := hot 0, maxLatched := r.temp }

/-- What a flow reading leaves of a flow that was too low: the rated minimum is 4.0 L/min (R385). -/
def flowAfter (flow stage : Nat) : Nat := if 400 ≤ flow then 0 else if 200 ≤ flow then min stage 1 else stage

/-- A die's thermal bubbles after a reading (R352): `tbFull` counts the readings it has stood at 48. -/
def heatDie (warm : Bool) (d : DiePower) : DiePower :=
  let tb := if warm then min 48 (d.tb + 4) else d.tb
  { d with tb := tb, tbFull := if tb = 48 ∧ d.tb = 48 then d.tbFull + 1 else 0 }

/-- The readings themselves. -/
def takeReadings (temps : List TempRead) (inlet : Int) (flow : Nat) (s : State) : State :=
  let t : State := { s with pow := { s.pow with
    sensors := temps.foldl readSensor s.pow.sensors, inlet := inlet, flow := flow, flowStage := flowAfter flow s.pow.flowStage } }
  { t with pow := { t.pow with
      inletHot := if 800 ≤ inletNow t then s.pow.inletHot + 1 else 0
      dies := (t.pow.dies.zipIdx).map (fun e => noteReef t.pow.bubbles (heatDie (dieWarm t e.2) e.1)) } }

/-- A member requests throttling: a sensor at T_lim, or a die's TB at 48 for 100 ms, that is 1,000 readings. -/
def mustThrottle (s : State) : Bool :=
  sensorsReach (fun u => (thresholds u).2) 45 s || s.pow.dies.any (fun d => decide (1000 ≤ d.tbFull))

/-- THERMAL_REQ after the readings: set, and cleared once every sensor has been below T_lim for 1 s, that is 10,000 readings. -/
def throttle (s : State) : State :=
  let cool := if sensorsReach (fun u => (thresholds u).2) 45 s then 0 else s.pow.coolReadings + 1
  if mustThrottle s then
    let t : State := { s with pow := { s.pow with thermalReq := true, coolReadings := cool } }
    if s.pow.thermalReq then t else raiseEvent 7 t
  else { s with pow := { s.pow with thermalReq := s.pow.thermalReq && decide (cool < 10000), coolReadings := cool } }

/-- All fabric ports go silent: their clocks stop. -/
def silencePorts (s : State) : State :=
  { s with fab := { s.fab with ports := s.fab.ports.map (fun p => { p with up := false, training := false, width := 0, active := [], refusing := false }) } }

/-- The HBM4 stacks go into self-refresh (R353, R374). -/
def selfRefresh (s : State) : State := { s with board := { s.board with selfRefresh := true } }

/-- The protective shutdown (R353): the stacks in self-refresh, the FAILED notice, then no clocks but CK_AON. -/
def protectiveShutdown (s : State) : State :=
  if s.dev.st = .off ∨ s.dev.st = .failed then s else silencePorts (selfRefresh (moduleLoss s))

/-- Two readings in a row at or above a shutdown temperature (R353). -/
def mustShutDown (s : State) : Bool := s.pow.sensors.any (fun e => decide (2 ≤ e.2.hot)) || decide (2 ≤ s.pow.inletHot)

/-- A unit whose sensors THERMAL_READING may carry (R357). -/
def sensorUnit (u : Nat) : Bool := unitValid u && (u / 4096 == 4 || u / 4096 == 8 || u / 4096 == 9)

/-- THERMAL_READING (R352, R353): one reading of each sensor it names. -/
def execThermalReading (temps : List TempRead) (inlet : Int) (flow : Nat) (s : State) : Out :=
  gate (s.board.aux && temps.all (fun r => sensorUnit r.unit) && decide ((temps.map TempRead.unit).Nodup)) "CK_AON does not run, or no such sensor"
    (let t := throttle (takeReadings temps inlet flow s)
     sensorEvents s (if mustShutDown t then protectiveShutdown t else t))

/-- THERMAL_REEF_DECAY (R352): every 1 ms TB falls by 4 on the dies whose sensors have cooled. -/
def execThermalReefDecay (s : State) : Out :=
  gate s.board.aux "CK_AON does not run"
    { s with pow := { s.pow with dies := (s.pow.dies.zipIdx).map (fun e =>
        if dieCool s e.2 ∧ 0 < e.1.tb then { e.1 with tb := e.1.tb - 4, tbFull := 0 } else e.1) } }

/-- COOLANT_FLOW_LOW (R352, R385): a flow below 4.0 L/min for 1 s, or below half of it. -/
def execCoolantFlowLow (flow : Nat) (s : State) : Out :=
  gate (s.board.aux && decide (flow < 400)) "the flow is not low"
    (sensorEvents s { s with pow := { s.pow with flow := flow, flowStage := if flow < 200 then 2 else 1 } })

/-- HEARTBEAT (R265). -/
def execHeartbeat (s : State) : Out :=
  gate s.board.aux "CK_AON does not run" { s with regs := { s.regs with heartbeat := s.regs.heartbeat + 1 } }

/-! ### ANCHORED (R354 to R356) -/

def chkAnchor (p : Packet) : Checks := { lenOk := p.paramLen == 0 }

/-- A context that keeps the module awake (R354). -/
def keepsAwake (x : Ctx) : Bool := x.busy || x.ingest.running || !x.faults.isEmpty || !x.lateFaults.isEmpty

/-- ANCHOR_ENTER's effect (R354, R355): the entry begins. -/
def bodyAnchorEnter (p : Packet) (s : State) : State :=
  if s.dev.st ≠ .ready ∨ s.ctxs.any (fun e => keepsAwake e.2) then completeWith p 0x0720 stBUSY 0x0D10 s
  else if inGroup s then completeWith p 0x0720 stBUSY 0x0D11 s
  else { s with dev := { s.dev with anchoring := some p } }

def acceptAnchorEnter (p : Packet) (s : State) : State := acceptPacket 0x0720 (chkAnchor p) (fun _ t => bodyAnchorEnter p t) p s

/-- ANCHOR_ENTER (R354). -/
def execAnchorEnter (p : Packet) (s : State) : Out := packetOut 0x0720 acceptAnchorEnter p s

/-- ANCHOR_ENTER_COMPLETE (R355, R356): dirty lines are written back, translation caches, stack caches and cluster stores empty, ports silent. -/
def execAnchorEnterComplete (s : State) : Out :=
  match s.dev.anchoring with
  | none => .refused (.notEnabled "no entry to ANCHORED runs")
  | some p =>
    gate (s.dev.st == .ready && s.mem.unacked.isEmpty) "the entry has not ended"
      (let m : MemSys := { s.mem with tlb := [], cache := [] }
       let t := silencePorts { s with dev := { s.dev with anchoring := none }, mem := m, ctxs := s.ctxs.map (fun e => (e.1, emptyStores e.2)) }
       enterState .anchored 0 (completeOk p 0x0720 t))

/-- ANCHOR_EXIT's effect (R356): it starts the exit from ANCHORED, from an entry under way once that has ended; elsewhere it has no effect. -/
def bodyAnchorExit (p : Packet) (s : State) : State :=
  if admitState s = .anchored then { s with dev := { s.dev with leaving := s.dev.leaving ++ [p] } } else completeOk p 0x0721 s

def acceptAnchorExit (p : Packet) (s : State) : State := acceptPacket 0x0721 (chkAnchor p) (fun _ t => bodyAnchorExit p t) p s

/-- ANCHOR_EXIT (R356). -/
def execAnchorExit (p : Packet) (s : State) : Out := packetOut 0x0721 acceptAnchorExit p s

/-- ANCHOR_EXIT_COMPLETE (R349, R356): the dies run at the frequency before entry, rails set, held descriptors released in waves. -/
def execAnchorExitComplete (s : State) : Out :=
  gate (s.dev.st == .anchored && !s.dev.leaving.isEmpty) "no exit from ANCHORED runs"
    (match fuseDies s.pow.dies s with
     | (l, t) =>
       let u := s.dev.leaving.foldl (fun v p => completeOk p 0x0721 v) { t with pow := { t.pow with dies := l }, dev := { t.dev with leaving := [] } }
       enterState .ready 0 { u with bnd := { u.bnd with waves := allWaves } })

end Sys2Proof.Machine
end

