-- ==== Sys2Proof/Machine/SelfTest.lean ====
section
/-! DEFINITION. Self-tests (R370 to R372): BIST_RUN, CLUSTER_TEST, MARGIN_SCAN, HBM_RECAL and their ends. -/
namespace Sys2Proof.Machine

/-! ### BIST_RUN (R372) -/

def chkBistRun (p : Packet) (s : State) : Checks :=
  { lenOk := p.paramLen == 4, fieldsOk := decide (pf p 0 1 < 32) && pf p 1 3 == 0, charge := some (16 + 8 * 4314), busy := bistBusy s }

/-- BIST_RUN's effect: in READY it is accepted with no context loaded. -/
def bodyBistRun (p : Packet) (idx : Nat) (s : State) : State :=
  if s.dev.st = .ready ∧ ¬ s.ctxs.isEmpty then refuse8 p 0x0800 stBUSY (some 0x0E60) idx s
  else complete p 0x0800 stPENDING none none idx [] { s with test := { s.test with bist := some (idx, pf p 0 1) } }

def acceptBistRun (p : Packet) (s : State) : State := acceptPacket 0x0800 (chkBistRun p s) (bodyBistRun p) p s

/-- BIST_RUN (R372). -/
def execBistRun (p : Packet) (s : State) : Out := packetOut 0x0800 acceptBistRun p s

/-- A failing unit's state. -/
def failedState (f : BistFail) : UnitState := faultState f.permanent

/-- The identities of the failing clusters, with takers chosen one after the other on the state the failures leave (R304). -/
def placeAll (s : State) : List Nat → List (Nat × Nat) × State
  | [] => ([], s)
  | l :: r =>
    match takerOf s (l / 50) [] with
    | none => placeAll s r
    | some p =>
      match placeAll (publishChange { units := [(uCluster p, .healthy)], moves := [(l, p)] } s.chart.epoch s) r with
      | (m, t) => ((l, p) :: m, t)

/-- The identities carried by clusters that a change takes out of service. -/
def strandedBy (s : State) (us : List (Nat × UnitState)) : List Nat :=
  (us.filter (fun x => x.1 / 4096 == 1)).flatMap (fun x => identities s (x.1 % 4096))

/-- The change that takes failing units out of service, their identities moved. -/
def failChange (s : State) (us : List (Nat × UnitState)) : Change :=
  let f := publishChange { units := us } s.chart.epoch s
  let m := (placeAll f (strandedBy s us)).1
  { units := us ++ (m.map (fun x => (uCluster x.2, .healthy))).filter (fun x => decide (x.1 ∉ us.map Prod.fst)), moves := m }

/-- A die is left with fewer than 25 HEALTHY clusters. -/
def dieShort (s : State) (die : Nat) : Bool := decide ((dieClusters s die .healthy).length < 25)

/-- Units that a BIST takes out of service: those whose kind has a state of its own and whose transition R21 permits. -/
def bistUnits (s : State) (fails : List BistFail) : List (Nat × UnitState) :=
  (fails.map (fun f => (f.unit, failedState f))).filter (fun x => x.1 / 4096 != 2 && transitionOk (x.1 / 4096) (unitState s x.1) x.2)

/-- The failing units leave service by one change; a die short of clusters is MODULE_LOSS (R304). -/
def bistChange (fails : List BistFail) (s : State) : State :=
  let us := bistUnits (foreseen s) fails
  if us.isEmpty then s
  else
    let c := failChange (foreseen s) us
    let t := settleTests c (decideLeaving c s)
    if (List.range 16).any (dieShort (foreseen t)) then moduleLoss t else t

/-- The payload of BIST_RUN (R372). -/
def bistPayload (classes tested : Nat) (fails : List BistFail) : List Byte :=
  leBytes 1 classes ++ zeros 3 ++ leBytes 4 tested ++ leBytes 4 fails.length ++ zeros 4 ++
    fails.flatMap (fun f => leBytes 2 f.unit ++ leBytes 1 f.cls ++ leBytes 1 (if f.permanent then 4 else 3) ++ leBytes 4 f.code.toNat)

/-- Device memory after a BIST is undefined: it reads as memory that nothing has written (log 60). -/
def wipeMemory (s : State) : State := { s with mem := { s.mem with hbm := [], poison := [], cache := [], unacked := [], tlb := [] } }

/-- BIST_COMPLETE (R372): HOLD with detail 0x0E11; a commit is required. -/
def execBistComplete (tested : Nat) (fails : List BistFail) (s : State) : Out :=
  match s.test.bist with
  | none => .refused (.notEnabled "no BIST runs")
  | some (idx, classes) =>
    gate (fails.all (fun f => unitValid f.unit && decide (f.cls < 32) && decide (f.cls &&& classes = f.cls)) && decide ((fails.map BistFail.unit).Nodup) &&
        (s.dev.st == .hold || s.dev.st == .ready)) "no such failures"
      (let t := finishPending idx 0 0 (bistPayload classes tested fails) (wipeMemory { s with test := { s.test with bist := none } })
       let u := enterHold 0x0E11 { t with conf := { t.conf with mustCommit := true } }
       bistChange fails u)

/-! ### CLUSTER_TEST (R370) -/

def chkClusterTest (p : Packet) (s : State) : Checks :=
  { lenOk := p.paramLen == 4, fieldsOk := decide (pf p 2 1 ≤ 1) && pf p 3 1 == 0, charge := some (208 * maskCount (pf p 0 2))
    busy := (bistBusy s).or (if pf p 0 2 != 0 && s.test.clusterSlot.isSome then some none else none) }

def acceptClusterTest (p : Packet) (s : State) : State := acceptPacket 0x0801 (chkClusterTest p s) (bodyClusterTest p) p s

/-- CLUSTER_TEST (R370). -/
def execClusterTest (p : Packet) (s : State) : Out := packetOut 0x0801 acceptClusterTest p s

/-- CLUSTER_TEST_RESULT (R21, R370): the cluster becomes SPARE or QUARANTINED. -/
def execClusterTestResult (phys : Nat) (pass : Bool) (s : State) : Out :=
  let f := foreseen s
  gate (decide (phys < 832) && unitState s (uCluster phys) == .testing && unitState f (uCluster phys) == .testing && diesRun s) "the cluster is not in test"
    (endTest phys pass (decideChange { units := [(uCluster phys, if pass then .spare else .quarantined)] } s))

/-! ### MARGIN_SCAN (R371) -/

def chkMarginScan (p : Packet) (s : State) : Checks :=
  { lenOk := p.paramLen == 4, fieldsOk := decide (pf p 0 1 < 64) && within 1 (pf p 1 1) 100 && pf p 2 2 == 0, charge := some 3072
    busy := (bistBusy s).or (if s.test.margin.isSome then some none else none) }

/-- MARGIN_SCAN's effect. -/
def bodyMarginScan (p : Packet) (idx : Nat) (s : State) : State :=
  complete p 0x0802 stPENDING none none idx [] { s with test := { s.test with margin := some (idx, pf p 0 1) } }

def acceptMarginScan (p : Packet) (s : State) : State := acceptPacket 0x0802 (chkMarginScan p s) (bodyMarginScan p) p s

/-- MARGIN_SCAN (R371). -/
def execMarginScan (p : Packet) (s : State) : Out := packetOut 0x0802 acceptMarginScan p s

/-- A lane's 64 bytes: measured; of a port that is not up, the outcome alone; of a port the scan does not name, free beyond the outcome. -/
def eyeBytes (mask k l : Nat) (e : LaneEye) (s : State) : List Byte × State :=
  let head := leBytes 2 (uLane k l) ++ leBytes 1 (portOf s k).outcome ++ zeros 1
  if !(portOf s k).up then (zeros 2 ++ leBytes 1 (portOf s k).outcome ++ zeros 61, s)
  else if bitAt mask k then
    (head ++ leBytes 2 e.eyeMv ++ leBytes 2 e.eyeMui ++ (e.horiz.take 7).flatMap (leBytes 4) ++ (e.vert.take 7).flatMap (leBytes 4), s)
  else match freeBytes 8 s with
    | (b, t) => (head ++ b.take 60, t)

/-- The 3,072 bytes of a scan, lane 0 of P0 first. -/
def eyesBytes (mask : Nat) (eyes : List LaneEye) (s : State) : List Byte × State :=
  (eyes.zip laneList).foldl (fun a e => match eyeBytes mask e.2.1 e.2.2 e.1 a.2 with
    | (b, t) => (a.1 ++ b, t)) ([], s)

/-- MARGIN_SCAN_COMPLETE (R371): one measurement for each lane. -/
def execMarginScanComplete (eyes : List LaneEye) (s : State) : Out :=
  match s.test.margin with
  | none => .refused (.notEnabled "no scan runs")
  | some (idx, mask) =>
    gate (eyes.length == 48 && eyes.all (fun e => e.horiz.length == 7 && e.vert.length == 7)) "48 lanes with 7 + 7 counts are measured"
      (match eyesBytes mask eyes s with
       | (b, t) => finishPending idx 0 0 b { t with test := { t.test with margin := none } })

/-! ### HBM_RECAL (R371) -/

def chkHbmRecal (p : Packet) (s : State) : Checks :=
  { lenOk := p.paramLen == 4, fieldsOk := decide (pf p 0 4 < 2 ^ 24), busy := (bistBusy s).or (if s.test.recal.isSome then some none else none) }

/-- HBM_RECAL's effect: at once, or in RUN and FIXING from the next step boundary. -/
def bodyHbmRecal (p : Packet) (s : State) : State :=
  let l := (List.range 24).filter (bitAt (pf p 0 4))
  if l.isEmpty then completeOk p 0x0803 s
  else { s with test := { s.test with recal := some p, recalHeld := s.dev.st == .run || s.dev.st == .fixing }, mem := { s.mem with recalQueue := l } }

def acceptHbmRecal (p : Packet) (s : State) : State := acceptPacket 0x0803 (chkHbmRecal p s) (fun _ t => bodyHbmRecal p t) p s

/-- HBM_RECAL (R371). -/
def execHbmRecal (p : Packet) (s : State) : Out := packetOut 0x0803 acceptHbmRecal p s

/-- HBM_RECAL_STACK_COMPLETE (R371): the stacks of a quadrant go one at a time, in ascending order; the last stack of all completes the
command. Outside a Fix stop the recalibration follows the retune. -/
def execHbmRecalStackComplete (stack : Nat) (s : State) : Out :=
  match s.test.recal with
  | none => .refused (.notEnabled "no recalibration runs")
  | some p =>
    gate (!s.test.recalHeld && s.mem.recalQueue.find? (fun n => n / 6 == stack / 6) == some stack && (inFixStop s || !s.grp.retune) && s.dev.st != .failed)
      "this stack is not recalibrating"
      (let t : State := { s with mem := { s.mem with recalQueue := s.mem.recalQueue.filter (fun n => n != stack) } }
       if t.mem.recalQueue.isEmpty then completeOk p 0x0803 { t with test := { t.test with recal := none } } else t)

end Sys2Proof.Machine
end

