-- ==== Sys2Proof/Machine/Board.lean ====
section
/-! DEFINITION. Power input, sideband and start-up (R249, R358 to R361, R374, R375, R379, R380): PWR_EN, AUX_3V3, loss of input power, the
leak loop, the straps, the choice of a firmware image and the end of the boot. -/
namespace Sys2Proof.Machine

/-! ### Straps (R379) -/

/-- The value of a strap, or `none` when its read-back is open, shorted to ground, to AUX_3V3 or to another signal. -/
def strapBit (r : StrapRead) : Option Nat :=
  if 150 ≤ r.up ∧ r.up ≤ 500 ∧ r.down < 150 then some 0
  else if 3150 < r.up ∧ 2800 ≤ r.down ∧ r.down ≤ 3150 then some 1
  else none

/-- The number that straps spell, bit 0 first; `none` when any is not a valid 0 or 1. -/
def strapNumber : List StrapRead → Option Nat
  | [] => some 0
  | r :: l =>
    match strapBit r, strapNumber l with
    | some b, some n => some (b + 2 * n)
    | _, _ => none

/-- SLOT_ID or FEED_ID as reported: 0xFF when not valid. -/
def strapId (l : List StrapRead) : Nat := (strapNumber l).getD 0xFF

/-- The STRAPS sensor: bit 0 slot fault, bit 1 feed fault. -/
def strapFaults (slotBad feedBad : Bool) : Nat := (if slotBad then 1 else 0) + (if feedBad then 2 else 0)

/-- SLOT_ID has six straps, FEED_ID four (R378). -/
def strapsRead (slot feed : List StrapRead) : Bool := slot.length == 6 && feed.length == 4

/-- STRAP_READ (R379): a read that is not valid or differs from the latched straps sets the fault; the latched values stay. -/
def execStrapRead (slot feed : List StrapRead) (s : State) : Out :=
  gate (s.board.aux && strapsRead slot feed) "CK_AON does not run"
    (sensorEvents s { s with board := { s.board with
      strapFault := strapFaults ((strapNumber slot).isNone || strapId slot != s.board.slotId) ((strapNumber feed).isNone || strapId feed != s.board.feedId) } })

/-! ### Power -/

/-- What stays when the converters start again while AUX_3V3 is present: the host's side, flash, management, straps, the energy counter and
the monitors on CK_AON; all else is as after reset (R351, R374). -/
def powerUp (s : State) : State :=
  { State.reset with
    pending := s.pending, free := s.free, nextId := s.nextId, host := { s.host with linkUp := false }, mgmt := s.mgmt
    regs := { State.reset.regs with heartbeat := s.regs.heartbeat }
    flash := { s.flash with selected := false, stuck := false }
    fab := { State.reset.fab with ports := s.flash.modes.map (fun m => { mode := m }) }
    fix := { State.reset.fix with exports := s.fix.exports }
    pow := { State.reset.pow with
      samples := s.pow.samples, energyUj := s.pow.energyUj, energyRem := s.pow.energyRem, sensors := s.pow.sensors, inlet := s.pow.inlet
      inletHot := s.pow.inletHot, flow := s.pow.flow, flowStage := s.pow.flowStage, thermalReq := s.pow.thermalReq, coolReadings := s.pow.coolReadings }
    board := { s.board with pwrEn := true, pwrWaits := false, converters := true } }

/-- The operating range at J1 (R374). -/
def inRange (mv : Int) : Bool := decide (40000 ≤ mv) && decide (mv ≤ 60000)

/-- PWR_EN_RISE (R249, R375): PWR_EN is high; with J1 in range for 10 ms the converters start and the boot begins, else PWR_EN waits. A
module in FAILED is power-cycled so: it passes through OFF (R249, R353, log 134). -/
def execPwrEnRise (mv : Int) (s : State) : Out :=
  gate (s.board.aux && !s.board.converters && (!s.board.pwrEn || s.board.pwrWaits) && (s.dev.st == .off || s.dev.st == .failed))
    "PWR_EN does not rise on stopped converters"
    (let t : State := { s with board := { s.board with j1mv := mv } }
     sensorEvents s (if inRange mv then sensorEvent 0x10 s.dev.st.code 1 (raiseEvent 2 (powerUp t))
       else { t with board := { t.board with pwrEn := true, pwrWaits := true } }))

/-- The effect of a loss of input power (R308, R374): within the hold-up the stacks go into self-refresh and the FAILED notice goes out; then
the converters stop, and with them the fabric ports. -/
def inputLost (s : State) : State :=
  let t := silencePorts (selfRefresh (if s.dev.st = .failed then s else moduleLoss s))
  { t with board := { t.board with converters := false } }

/-- PWR_EN_FALL (R375). -/
def execPwrEnFall (s : State) : Out :=
  gate (s.board.aux && s.board.pwrEn) "PWR_EN is not high"
    (let t := if s.board.converters then inputLost s else s
     { t with board := { t.board with pwrEn := false, pwrWaits := false } })

/-- INPUT_POWER_LOSS (R374): below 38 V for 1 ms, or above 66 V, while the converters run. -/
def execInputPowerLoss (mv : Int) (s : State) : Out :=
  gate (s.board.converters && s.board.aux && (decide (mv < 38000) || decide (66000 < mv))) "input power is not lost"
    (sensorEvents s (inputLost { s with board := { s.board with j1mv := mv } }))

/-- AUX_3V3_LOSS (R249): the module is OFF; what survives is the host's side and the flash. -/
def execAux3v3Loss (s : State) : Out :=
  gate s.board.aux "AUX_3V3 is absent"
    { State.reset with
      pending := s.pending, free := s.free, nextId := s.nextId, host := { s.host with linkUp := false }
      dev := { State.reset.dev with st := .off }
      flash := { s.flash with selected := false, stuck := false, transfer := none, verified := false }
      fix := { State.reset.fix with exports := s.fix.exports }
      board := { aux := false, pwrEn := s.board.pwrEn, converters := false, j1mv := s.board.j1mv, j1ma := 0 } }

/-- AUX_3V3_RISE (R379): CK_AON runs, the straps are latched at their first read; a PWR_EN that is high waits for J1. -/
def execAux3v3Rise (slot feed : List StrapRead) (s : State) : Out :=
  gate (!s.board.aux && strapsRead slot feed) "AUX_3V3 is present"
    { s with board := { s.board with
      aux := true, pwrWaits := s.board.pwrEn, slotId := strapId slot, feedId := strapId feed
      strapFault := strapFaults (strapNumber slot).isNone (strapNumber feed).isNone } }

/-! ### The leak loop (R380) -/

/-- The class of a loop resistance: 0 intact, 1 open, 2 leak. -/
def leakClass (ohms : Nat) : Nat := if ohms < 50 then 2 else if ohms ≤ 2000 then 0 else 1

/-- The LEAK sensor after a sample: a leak clears only when the loop has been intact for 1 s, that is 100 samples. -/
def leakAfter (cls intactRun old : Nat) : Nat := if cls = 2 then 2 else if old = 2 then (if 100 ≤ intactRun then 0 else 2) else cls

/-- LEAK_LOOP_SAMPLE (R380). -/
def execLeakLoopSample (ohms : Nat) (s : State) : Out :=
  let c := leakClass ohms
  let run := if c = 0 then s.board.intactRun + 1 else 0
  gate s.board.aux "CK_AON does not run"
    (sensorEvents s { s with board := { s.board with
      leak := leakAfter c run s.board.leak, leakHeld := if c = 2 then s.board.leakHeld + 1 else 0, intactRun := run } })

/-- LEAK_TIMEOUT (R380): a leak held for 100 ms, that is 10 samples, shuts the module down; with the converters off it is reported only. -/
def execLeakTimeout (s : State) : Out :=
  gate (s.board.aux && decide (10 ≤ s.board.leakHeld)) "no leak has been held for 100 ms"
    (if s.board.converters then protectiveShutdown s else s)

/-! ### Boot (R359 to R361) -/

/-- An image is taken only when its CRC and its signature pass. -/
def imageGood (i : ImageFound) : Bool := i.crcOk && i.signatureOk

/-- The image taken: the preferred one, else the other; `true` is B. -/
def chosenImage (prefersB : Bool) (a b : ImageFound) : Option Bool :=
  let first := if prefersB then b else a
  let second := if prefersB then a else b
  if imageGood first then some prefersB else if imageGood second then some (!prefersB) else none

/-- The active Binnacle after the choice: BB when BA finds no good image or fails its self-check, and BA is then FAILED in the chart,
whose epoch is 1 (R22). -/
def chooseBinnacle (baOk : Bool) (s : State) : State :=
  if baOk then s
  else { s with
    dev := { s.dev with bbActive := true, standbyBinnacle := false }
    chart := { s.chart with epoch := 1, units := tset (tset s.chart.units 0x8000 ⟨.failed, 1⟩) 0x8001 ⟨.healthy, 1⟩ } }

/-- FIRMWARE_IMAGE_SELECT (R359): with no good image BB is active, BA is FAILED and the module stays in BOOT. -/
def execFirmwareImageSelect (baOk : Bool) (imgA imgB : ImageFound) (s : State) : Out :=
  gate (s.dev.st == .boot && !s.flash.selected && !s.flash.stuck) "the boot ROM does not run"
    (match chosenImage s.flash.preferB imgA imgB with
     | none => chooseBinnacle false { s with flash := { s.flash with stuck := true } }
     | some b => chooseBinnacle baOk { s with flash := { s.flash with selected := true, runningB := b } })

/-- Units out of service at the end of the boot: clusters that fail the quick check are QUARANTINED, a failed fabric die FAILED with its
ports and lanes. -/
def bootUnits (quickFail fabricFail : List Nat) : List (Nat × UnitState) :=
  quickFail.map (fun p => (uCluster p, .quarantined)) ++
    fabricFail.flatMap (fun d => (uSup (28 + d), .failed) :: (dieUnits (28 + d)).map (fun u => (u, UnitState.failed)))

/-- The chart built at boot: epoch 1, identities placed under R304. -/
def bootChart (quickFail fabricFail : List Nat) (s : State) : State :=
  let us := bootUnits quickFail fabricFail
  publishChange (failChange s us) 1 s

/-- A compute die with fewer than 25 clusters that passed the quick check. -/
def dieFails (quickFail : List Nat) (die : Nat) : Bool := decide (52 < (quickFail.filter (fun p => p / 52 == die)).length + 25)

/-- The boot ends in FAILED (R361). -/
def bootFails (quickFail : List Nat) (trainFail : Bool) (fabricFail : List Nat) : Bool :=
  trainFail || (List.range 16).any (dieFails quickFail) || (decide (0 ∈ fabricFail) && decide (1 ∈ fabricFail))

/-- A port's training in the boot (R273, R274): its outcome, corrections and trained settings; a DISABLED port does not train. The
transmitters then go to electrical idle. -/
def bootTrained (s : State) (k : Nat) (found : PeerFound × List LaneFound) : Port :=
  let x := portOf s k
  if x.mode = 2 then x else { trainedPort ((numbered found.2).filter (laneUsable s k)) found.1 x with up := false }

/-- The boot's trainings of all ports. -/
def bootPorts (found : List (PeerFound × List LaneFound)) (s : State) : State :=
  { s with fab := { s.fab with ports := (numbered found).map (fun e => bootTrained s e.1 e.2) } }

/-- BOOT_COMPLETE (R22, R249, R304, R361): the chart with epoch 1, and HOLD with detail 0 or FAILED. -/
def execBootComplete (quickFail : List Nat) (trainFail : Bool) (fabricFail : List Nat) (ports : List (PeerFound × List LaneFound)) (s : State) : Out :=
  gate (s.dev.st == .boot && s.flash.selected && quickFail.all (fun p => decide (p < 832)) && decide quickFail.Nodup &&
      fabricFail.all (fun d => decide (d < 2)) && decide fabricFail.Nodup && ports.length == 6 && ports.all (fun o => foundOk o.2))
    "the boot does not end so"
    (if bootFails quickFail trainFail fabricFail then moduleLoss (bootChart quickFail fabricFail s)
     else enterState .hold 0 (bootPorts ports (bootChart quickFail fabricFail s)))

end Sys2Proof.Machine
end

