-- ==== Sys2Proof/Machine/Mgmt.lean ====
section
/-! DEFINITION. Management over MCTP (R382 to R384, R360): control commands, PLDM discovery, sensors, events, FRU data and firmware update.
The framing of the DMTF standards is outside the spec: a reply carries its completion code and what the spec gives. -/
namespace Sys2Proof.Machine

/-- Adds a reply. -/
def sendReply (r : MctpReply) (s : State) : State := { s with mgmt := { s.mgmt with replies := r :: s.mgmt.replies } }

/-- Management runs from AUX_3V3. -/
def managed (s : State) (t : State) : Out := gate s.board.aux "AUX_3V3 is absent" t

/-! ### MCTP control (R382) -/

/-- Completion codes of DSP0236 (log 61). -/
def ccInvalidData : Nat := 0x02
def ccUnsupported : Nat := 0x05
def ccTypeUnsupported : Nat := 0x80

/-- SET_ENDPOINT_ID (R382): IDs 8 to 254 can be assigned (log 61). -/
def execSetEndpointId (eid : Nat) (s : State) : Out :=
  managed s (if within 8 eid 254 then sendReply (.control 0 [eid]) { s with mgmt := { s.mgmt with eid := eid } }
    else sendReply (.control ccInvalidData []) s)

/-- GET_ENDPOINT_ID (R382). -/
def execGetEndpointId (s : State) : Out := managed s (sendReply (.control 0 [s.mgmt.eid]) s)

/-- The message types (R382): control, PLDM, Vendor Defined – IANA. -/
def messageTypes : List Nat := [0x00, 0x01, 0x7F]

/-- Bytes the spec does not give (log 9). -/
def openBytes (cmd n : Nat) : List Byte := (List.range n).map (Config.freeByte cmd)

/-- GET_MCTP_VERSION_SUPPORT (R382). -/
def execGetMctpVersionSupport (type : Nat) (s : State) : Out :=
  managed s (if type ∈ messageTypes ∨ type = 0xFF then sendReply (.control 0 ((openBytes (0x0400 + type) 4).map BitVec.toNat)) s
    else sendReply (.control ccTypeUnsupported []) s)

/-- GET_MESSAGE_TYPE_SUPPORT (R382). -/
def execGetMessageTypeSupport (s : State) : Out := managed s (sendReply (.control 0 messageTypes) s)

/-- GET_VENDOR_DEFINED_MESSAGE_SUPPORT (R382): Ecorva's IANA enterprise number, most significant byte first. -/
def execGetVendorDefinedMessageSupport (s : State) : Out := managed s (sendReply (.control 0 [0x00, 0x00, 0xC9, 0xE1]) s)

/-- The command codes of the supported control commands (log 61). -/
def controlCommands : List Nat := [0x01, 0x02, 0x04, 0x05, 0x06]

/-- UNSUPPORTED_MCTP_CONTROL_COMMAND (R382). -/
def execUnsupportedMctpControlCommand (cmd : Nat) (s : State) : Out :=
  gate (s.board.aux && decide (cmd ∉ controlCommands)) "AUX_3V3 is absent, or the command is supported" (sendReply (.control ccUnsupported []) s)

/-! ### PLDM (R383) -/

/-- PLDM_DISCOVERY (R383). -/
def execPldmDiscovery (cmd : Nat) (s : State) : Out := managed s (sendReply (.pldm 0 (openBytes (0x1000 + cmd) 16)) s)

/-- The hottest junction in 1/16 °C: compute, memory, media, fabric and Binnacle dies; `none` before a reading. -/
def hottest (s : State) : Option Int :=
  ((s.pow.sensors.filter (fun e => e.1 / 4096 != 4)).map (fun e => e.2.temp)).foldl (fun b v => match b with
    | none => some v
    | some m => some (max m v)) none

/-- A number the state does not hold is free. -/
def openInt (v : Option Int) (s : State) : Int × State :=
  match v with
  | some n => (n, s)
  | none => match freshValue s with
    | (f, t) => ((f.toNat % 2 ^ 16 : Nat), t)

/-- A numeric sensor's reading in its unit (R383), rounded toward minus infinity; `none` where no row measures it. -/
def numericReading (s : State) : Nat → Option Int
  | 0x01 => some (s.board.j1mv / 10)
  | 0x02 => some (s.board.j1ma / 10)
  | 0x03 => some (powerW s)
  | 0x05 => some (s.pow.inlet * 10 / 16)
  | 0x06 => some s.pow.flow
  | 0x07 => (hottest s).map (fun t => t * 10 / 16)
  | _ => none

/-- GET_SENSOR_READING (R383): a numeric sensor's reading; another ID is refused (log 61). -/
def execGetSensorReading (sensor : Nat) (s : State) : Out :=
  managed s (if within 1 sensor 7 then (match openInt (numericReading s sensor) s with
      | (v, t) => sendReply (.reading sensor v) t)
    else sendReply (.pldm 0x80 []) s)

/-- GET_STATE_SENSOR_READINGS (R383). -/
def execGetStateSensorReadings (sensor : Nat) (s : State) : Out :=
  managed s (if within 0x10 sensor 0x14 then sendReply (.reading sensor (stateSensor s sensor)) s else sendReply (.pldm 0x80 []) s)

/-- SET_EVENT_RECEIVER (R383). -/
def execSetEventReceiver (enable : Bool) (eid : Nat) (s : State) : Out :=
  managed s (sendReply (.pldm 0 []) { s with mgmt := { s.mgmt with receiver := if enable then some eid else none } })

/-- FRU_DATA_READ (R383): the serial number, and the rest of the FRU data, which the spec names without giving (log 9). -/
def execFruDataRead (s : State) : Out := managed s (sendReply (.pldm 0 (s.flash.serial ++ openBytes 0x2000 48)) s)

/-- ALERT_N is low while any state sensor from 0x0011 to 0x0014 is not 0 (R383). -/
def alertLow (s : State) : Bool := [0x11, 0x12, 0x13, 0x14].any (fun n => stateSensor s n != 0)

/-! ### Firmware update (R360, R384) -/

/-- Completion codes of DSP0267 (log 61). -/
def ccNotInUpdate : Nat := 0x80
def ccAlreadyInUpdate : Nat := 0x81

/-- The image header's magic, "ZFWI". -/
def imageMagic (l : List Byte) : Bool := fieldAt l 0 4 == 0x4957465A

/-- Writes the image that is not running (R360). -/
def writeImage (l : List Byte) (s : State) : State :=
  match freshValue s with
  | (v, t) =>
    let i : FwImage := { version := v.setWidth 32, bytes := l }
    if t.flash.runningB then { t with flash := { t.flash with imgA := i } } else { t with flash := { t.flash with imgB := i } }

/-- The transfer ends: the image is written and its header checked; the defaults record prefers it from then on when the checks pass. Where
they fail, the completion code is free. -/
def endTransfer (l : List Byte) (checksOk : Bool) (s : State) : State :=
  let t := writeImage l { s with flash := { s.flash with transfer := none } }
  if imageMagic l && checksOk then
    sendReply (.pldm 0 []) { t with flash := { t.flash with verified := true, preferB := !t.flash.runningB } }
  else match freshValue t with
    | (v, u) => sendReply (.pldm (1 + v.toNat % 255) []) { u with flash := { u.flash with verified := false } }

/-- PLDM_FIRMWARE_UPDATE (R360, R384): `first` begins an update, `last` ends its transfer; `checksOk` is whether CRC and signature pass. -/
def execPldmFirmwareUpdate (first : Bool) (bytes : List Byte) (checksOk last : Bool) (s : State) : Out :=
  managed s (match first, s.flash.transfer with
    | true, some _ => sendReply (.pldm ccAlreadyInUpdate []) s
    | false, none => sendReply (.pldm ccNotInUpdate []) s
    | _, old =>
      let l := old.getD [] ++ bytes
      if last then endTransfer l checksOk s else sendReply (.pldm 0 []) { s with flash := { s.flash with transfer := some l } })

/-- ACTIVATE_FIRMWARE (R384): completes at once; the new image runs from the next power-up. -/
def execActivateFirmware (s : State) : Out :=
  managed s (if s.flash.verified then sendReply (.pldm 0 []) { s with flash := { s.flash with verified := false } }
    else sendReply (.pldm ccNotInUpdate []) s)

end Sys2Proof.Machine
end

