-- ==== Sys2Proof/Machine/Queues.lean ====
section
/-! DEFINITION. Queue pairs, doorbells, completion entries and the writable registers of BAR0 (R238 to R243, R265, R266), PERST_N (R358)
and the CXL window (R220). -/
namespace Sys2Proof.Machine

/-! ### QUEUE_CREATE and QUEUE_DELETE -/

/-- A depth under R238. -/
def depthOk (d : Nat) : Bool := d ∈ [256, 512, 1024, 2048, 4096, 8192, 16384, 32768, 65536]

/-- QUEUE is 1 to 64 (R239). -/
def queueNoOk (p : Packet) : Bool := decide (1 ≤ pf p 0 2) && decide (pf p 0 2 ≤ 64)

/-- CONTEXT names the context of the queue that QUEUE numbers (R239, R250). -/
def queueCtxOk (p : Packet) : Bool := !queueNoOk p || ctxOfQueue (pf p 0 2) == p.ctx

def chkQueueCreate (p : Packet) : Checks :=
  { lenOk := p.paramLen == 24, ctxNamed := queueCtxOk p, fieldsOk := queueNoOk p && decide (pf p 2 1 < 2) && pf p 3 1 == 0 }

/-- QUEUE_CREATE's effect (R239). -/
def bodyQueueCreate (p : Packet) (s : State) : State :=
  let q := pf p 0 2
  if (ctxOf s p.ctx).isNone then completeWith p 0x0002 stBADPARAM 0x0A01 s
  else if (tget s.queues.q q).isSome then completeWith p 0x0002 stBADPARAM 0x0A02 s
  else if !depthOk (pf p 4 4) || pf p 8 8 % 4096 != 0 || pf p 16 8 % 4096 != 0 then completeWith p 0x0002 stBADPARAM 0x0A04 s
  else completeOk p 0x0002 { s with queues := { s.queues with
    q := tset s.queues.q q { depth := pf p 4 4, sqBase := pf p 8 8, cqBase := pf p 16 8, irq := bitAt (pf p 2 1) 0 } } }

def acceptQueueCreate (p : Packet) (s : State) : State := acceptPacket 0x0002 (chkQueueCreate p) (fun _ t => bodyQueueCreate p t) p s

/-- QUEUE_CREATE (R239). -/
def execQueueCreate (p : Packet) (s : State) : Out := packetOut 0x0002 acceptQueueCreate p s

def chkQueueDelete (p : Packet) : Checks := { lenOk := p.paramLen == 4, ctxNamed := queueCtxOk p, fieldsOk := queueNoOk p && pf p 2 2 == 0 }

/-- QUEUE_DELETE's effect (R239). -/
def bodyQueueDelete (p : Packet) (s : State) : State :=
  let q := pf p 0 2
  match tget s.queues.q q with
  | none => completeWith p 0x0003 stBADPARAM 0x0A02 s
  | some x =>
    if x.owing > 0 then completeOpen p 0x0003 stBUSY s
    else completeOk p 0x0003 { s with queues := { s.queues with q := tdel s.queues.q q } }

def acceptQueueDelete (p : Packet) (s : State) : State := acceptPacket 0x0003 (chkQueueDelete p) (fun _ t => bodyQueueDelete p t) p s

/-- QUEUE_DELETE (R239). -/
def execQueueDelete (p : Packet) (s : State) : Out := packetOut 0x0003 acceptQueueDelete p s

/-! ### Doorbells -/

/-- Changes a queue. -/
def queueMod (q : Nat) (f : Queue → Queue) (s : State) : State := { s with queues := { s.queues with q := tmod s.queues.q q f } }

/-- A doorbell write of a new SQ tail (R240, R241). -/
def doorbellSq (q v : Nat) (s : State) : State :=
  match tget s.queues.q q with
  | none => queueError q 5 s
  | some x =>
    if x.stopped then s
    else if v ≥ x.depth then queueError q 1 s
    else if (v + x.depth - x.head) % x.depth < (x.sqTail + x.depth - x.head) % x.depth then queueError q 2 s
    else queueMod q (fun y => { y with sqTail := v }) s

/-- A doorbell write of a new CQ head (R241, R242). -/
def doorbellCq (q v : Nat) (s : State) : State :=
  match tget s.queues.q q with
  | none => queueError q 5 s
  | some x =>
    let n := (v + x.depth - x.cqHead) % x.depth
    if v ≥ x.depth ∨ n > x.cqUsed then queueError q 4 s
    else queueMod q (fun y => { y with cqHead := v, cqUsed := y.cqUsed - n }) s

/-- SQ_TAIL (R240). -/
def execSqTail (q : Nat) (v : Word) (s : State) : Out := gate (decide (q ≤ 64)) "no such register" (doorbellSq q v.toNat s)

/-- CQ_HEAD (R242). -/
def execCqHead (q : Nat) (v : Word) (s : State) : Out := gate (decide (q ≤ 64)) "no such register" (doorbellCq q v.toNat s)

/-! ### The admin queue -/

/-- The admin queue as its registers set it. -/
def adminQueue (s : State) : Queue :=
  { depth := s.regs.adminDepthM1 + 1, sqBase := s.regs.adminSqBase.toNat, cqBase := s.regs.adminCqBase.toNat, irq := s.regs.adminIrq }

/-- Starts the admin queue from its registers, or latches error 0x6: the queue then stays stopped (R239, R241). -/
def startAdmin (s : State) : State :=
  let x := adminQueue s
  let t : State := { s with queues := { s.queues with q := tset s.queues.q 0 x } }
  if !depthOk x.depth || x.sqBase % 4096 != 0 || x.cqBase % 4096 != 0 then queueError 0 6 t
  else { t with regs := { t.regs with adminReady := true } }

/-- The end of a stop of the admin queue: READY goes to 0, and a queue enabled meanwhile starts (R239). -/
def endAdminStop (s : State) : State :=
  match tget s.queues.q 0 with
  | some x =>
    if x.stopping ∧ x.owing = 0 then
      let t := { s with regs := { s.regs with adminReady := false }, queues := { s.queues with q := tdel s.queues.q 0 } }
      if t.regs.adminEnable then startAdmin t else t
    else s
  | none => s

/-- A write of ADMIN_CTRL (R239, R265). -/
def writeAdminCtrl (v : Nat) (s : State) : State :=
  if s.regs.adminEnable then
    if bitAt v 31 then s
    else endAdminStop (queueMod 0 (fun x => { x with stopping := true }) { s with regs := { s.regs with adminEnable := false } })
  else
    let t := { s with regs := { s.regs with adminIrq := bitAt v 16, adminDepthM1 := v % 65536, adminEnable := bitAt v 31 } }
    if bitAt v 31 ∧ ¬ t.regs.adminReady then startAdmin t else t

/-- ADMIN_ENABLE (R239): a write of ADMIN_CTRL with ENABLE 1. -/
def execAdminEnable (v : Word) (s : State) : Out := gate (v.getLsbD 31) "ENABLE is 0" (writeAdminCtrl v.toNat s)

/-- ADMIN_DISABLE (R239): a write of ADMIN_CTRL with ENABLE 0. -/
def execAdminDisable (v : Word) (s : State) : Out := gate (!v.getLsbD 31) "ENABLE is 1" (writeAdminCtrl v.toNat s)

/-! ### Event and flag registers -/

/-- A W1C write of EVENT_CAUSE (R7, R265). -/
def writeEventCause (v : Word) (s : State) : State := { s with regs := { s.regs with eventCause := s.regs.eventCause &&& ~~~v } }

/-- A write of EVENT_MASK: MSI-X entry 65 when it unmasks a set bit (R265). -/
def writeEventMask (v : Word) (s : State) : State :=
  let t := { s with regs := { s.regs with eventMask := v } }
  if s.regs.eventMask &&& ~~~v &&& s.regs.eventCause = 0 then t else sendMsix 65 t

/-- A W1C write of a context's FP_FLAGS (R53, R266). -/
def writeFpFlags (c : Nat) (v : Word) (s : State) : State := ctxMod c (fun x => { x with fpFlags := x.fpFlags &&& ~~~v }) s

/-- EVENT_CAUSE (R265). -/
def execEventCause (v : Word) (s : State) : Out := .next (writeEventCause v s)

/-- EVENT_MASK (R265). -/
def execEventMask (v : Word) (s : State) : Out := .next (writeEventMask v s)

/-- QUEUE_ERR (R241): a host read returns the latched error and clears it. -/
def execQueueErr (s : State) : Out :=
  .next (clearQueueErr { s with host := { s.host with readback := BitVec.ofNat 32 (regValue s 0x20) } })

/-- FP_FLAGS (R266). -/
def execFpFlags (ctx : Nat) (v : Word) (s : State) : Out := gate (decide (ctx < 16)) "no such context" (writeFpFlags ctx v s)

/-- Replaces the low or high half of a 64-bit register. -/
def setHalf (b : BitVec 64) (high : Bool) (v : Nat) : BitVec 64 :=
  if high then BitVec.ofNat 64 (b.toNat % 2 ^ 32 + v * 2 ^ 32) else BitVec.ofNat 64 (b.toNat / 2 ^ 32 * 2 ^ 32 + v)

/-- A write of BAR0 (R7, R239, R265, R266): aligned offsets of the writable registers act, every other write is ignored. -/
def writeReg (off : Nat) (v : Word) (s : State) : State :=
  if off % 4 ≠ 0 ∨ off ≥ 0x20000 then s
  else if off ≥ 0x10000 then (if off % 0x1000 = 0 then writeFpFlags ((off - 0x10000) / 0x1000) v s else s)
  else if off ≥ 0x1000 ∧ off < 0x1000 + 8 * 65 then
    (if off % 8 = 0 then doorbellSq ((off - 0x1000) / 8) v.toNat s else doorbellCq ((off - 0x1000) / 8) v.toNat s)
  else match off with
    | 0x18 => writeEventCause v s
    | 0x1C => writeEventMask v s
    | 0x30 => if s.regs.adminEnable then s else { s with regs := { s.regs with adminSqBase := setHalf s.regs.adminSqBase false v.toNat } }
    | 0x34 => if s.regs.adminEnable then s else { s with regs := { s.regs with adminSqBase := setHalf s.regs.adminSqBase true v.toNat } }
    | 0x38 => if s.regs.adminEnable then s else { s with regs := { s.regs with adminCqBase := setHalf s.regs.adminCqBase false v.toNat } }
    | 0x3C => if s.regs.adminEnable then s else { s with regs := { s.regs with adminCqBase := setHalf s.regs.adminCqBase true v.toNat } }
    | 0x40 => writeAdminCtrl v.toNat s
    | _ => s

/-- REGISTER_WRITE (R7). -/
def execRegisterWrite (off : Nat) (v : Word) (s : State) : Out := .next (writeReg off v s)

/-! ### Posting completions -/

/-- A completion entry of a queue (R246). -/
def entryBytes (q : Nat) (x : Queue) (epoch : Word) (c : Completion) : List Byte :=
  completionBytes q x.head (if x.phase then 1 else 0) epoch c

/-- A queue after it posts its first ready completion (R242). -/
def afterPost (x : Queue) (c : Completion) : Queue :=
  { x with ready := x.ready.drop 1, cqTail := (x.cqTail + 1) % x.depth, cqUsed := x.cqUsed + 1,
           phase := if x.cqTail + 1 = x.depth then !x.phase else x.phase,
           owing := if c.status = stFAULTPENDING then x.owing else x.owing - 1 }

/-- Posts a queue's first ready completion: entry, then MSI-X (R242, R243). -/
def postEntry (q : Nat) (x : Queue) (c : Completion) (s : State) : State :=
  let s1 := hostWrite (x.cqBase + 32 * x.cqTail) (entryBytes q x s.chart.epoch c) s
  let s2 := queueMod q (fun _ => afterPost x c) s1
  let s3 := if x.irq then sendMsix q s2 else s2
  endAdminStop s3

/-- Drops a completion owed to a queue that PERST_N took away (R358). -/
def dropEntry (q : Nat) (c : Completion) (s : State) : State :=
  queueMod q (fun y => { y with ready := y.ready.drop 1, owing := if c.status = stFAULTPENDING then y.owing else y.owing - 1 }) s

/-- COMPLETION_POST (R242). Queue numbers from 1,000 are the queues that PERST_N took away. -/
def execCompletionPost (q : Nat) (s : State) : Out :=
  match tget s.queues.q q with
  | none => .refused (.notEnabled "no such queue")
  | some x =>
    match x.ready with
    | [] => .refused (.notEnabled "no completion is ready")
    | c :: _ =>
      if q ≥ 1000 then .next (dropEntry q c s)
      else gate (decide (x.cqUsed < x.depth) && s.host.linkUp && !s.host.perst && !s.dev.takeover) "no free entry" (postEntry q x c s)

/-! ### PERST_N -/

/-- A queue number after PERST_N: no queue, its completions are dropped (R358). -/
def orphanQueue (q : Nat) : Nat := q + 1000

/-- A packet whose completion will be dropped. -/
def orphanPacket (p : Packet) : Packet :=
  match p.src with
  | .host q => { p with src := .host (orphanQueue q) }
  | _ => p

/-- A context after PERST_N. -/
def orphanCtx (c : Ctx) : Ctx :=
  { c with works := c.works.map (fun w => { w with queue := orphanQueue w.queue })
           faults := c.faults.map (fun e => (e.1, { e.2 with queue := orphanQueue e.2.queue }))
           lateFaults := c.lateFaults.map (fun f => { f with queue := orphanQueue f.queue }) }

/-- The queues that still owe completions, under numbers no doorbell reaches. -/
def orphanQueues (t : Table Queue) : Table Queue :=
  (t.filter (fun e => decide (e.2.owing > 0))).map (fun e =>
    (orphanQueue e.1, { e.2 with sqTail := e.2.head, stopped := true, held := e.2.held.map (fun h => (h.1, h.2.1, orphanPacket h.2.2)) }))

/-- Every packet of a command under way loses its completion (R358). -/
def orphanAll (s : State) : State :=
  { s with
    ctxs := s.ctxs.map (fun e => (e.1, orphanCtx e.2))
    conf := { s.conf with applying := s.conf.applying.map (fun a => (a.1, orphanPacket a.2.1, a.2.2)) }
    mem := { s.mem with invalidates := s.mem.invalidates.map (fun i => { i with packet := orphanPacket i.packet }) }
    sync := { s.sync with hostWaits := s.sync.hostWaits.map (fun h => (h.1, orphanPacket h.2)) }
    dev := { s.dev with anchoring := s.dev.anchoring.map orphanPacket, starts := s.dev.starts.map (fun a => (a.1, orphanPacket a.2))
                        leaving := s.dev.leaving.map orphanPacket }
    fix := { s.fix with exporting := s.fix.exporting.map (fun a => (orphanPacket a.1, a.2))
                        restore := s.fix.restore.map (fun r => { r with packet := orphanPacket r.packet })
                        assume := s.fix.assume.map (fun r => { r with packet := orphanPacket r.packet }) }
    test := { s.test with recal := s.test.recal.map orphanPacket } }

/-- The effect of PERST_N (R358). QUEUE_ERR counts as a queue register (log 16). -/
def perstReset (s : State) : State :=
  let t := orphanAll s
  clearQueueErr { t with
    regs := { t.regs with adminSqBase := 0, adminCqBase := 0, adminEnable := false, adminReady := false, adminIrq := false, adminDepthM1 := 0xFF }
    queues := { q := orphanQueues s.queues.q, lastTurn := 64 }
    host := { t.host with perst := true, linkUp := false, msixMasked := [], msixPending := [] } }

/-- PERST_N (R358): asserted it resets the host port's state, the queue registers and the queues; deasserted the link may train. -/
def execPerstN (asserted : Bool) (s : State) : Out :=
  .next (if asserted then perstReset s else { s with host := { s.host with perst := false } })

/-! ### The CXL window -/

/-- The DPA of a window offset through the extents of the memory section, in order (R220): `i` extents remain from the `k`-th. -/
def extentDpa (s : State) : Nat → Nat → Nat → Option Nat
  | 0, _, _ => none
  | i + 1, k, off =>
    let size := secField s 3 (8 + 16 * k + 8) 4 0 * gib
    if off < size then some (secField s 3 (8 + 16 * k) 8 0 + off) else extentDpa s i (k + 1) (off - size)

/-- Whether the window is open (R220, R362). -/
def windowOpen (s : State) : Bool :=
  cxlEnabled s && s.dev.st ∈ [DevState.ready, .run, .fixing, .standby]

/-- The DPAs of an access, if every byte lies in an extent. -/
def cxlDpas (s : State) (off : Nat) : Nat → Option (List Nat)
  | 0 => some []
  | n + 1 =>
    match extentDpa s (secField s 3 6 1 0) 0 off, cxlDpas s (off + 1) n with
    | some d, some r => some (d :: r)
    | _, _ => none

/-- Reads bytes at DPAs; `none` is poison. -/
def readDpas (s : State) : List Nat → Option (List Byte)
  | [] => some []
  | d :: r =>
    match devByte s d, readDpas s r with
    | .ok b, some t => some (b :: t)
    | _, _ => none

/-- Runs of consecutive DPAs, so that a write of a whole block clears its poison (R205). -/
def dpaRuns : List Nat → List Byte → List (Nat × List Byte)
  | d :: ds, b :: bs =>
    match dpaRuns ds bs with
    | (e, l) :: r => if e = d + 1 then (d, b :: l) :: r else (d, [b]) :: (e, l) :: r
    | [] => [(d, [b])]
  | _, _ => []

/-- Writes runs. -/
def writeDpas (ds : List Nat) (l : List Byte) (s : State) : State :=
  (dpaRuns ds l).foldl (fun t r => devStore r.1 r.2 t) s

/-- The owner of an armoured stripe that runs are written to still applies another write (R208). -/
def runsWait (s : State) (ds : List Nat) (l : List Byte) : Bool :=
  (dpaRuns ds l).any (fun r => (armourStripes s r.1 r.2.length).any (fun e => stripeBusy s e.1 e.2))

/-- CXL_MEM_ACCESS (R208, R220): inside the open window the access acts on device memory, a write to an armoured stripe behind the one its owner
applies; outside it a read is poison and a write nothing. -/
def execCxlMemAccess (write : Bool) (off len : Nat) (data : List Byte) (s : State) : Out :=
  if !s.host.linkUp || s.host.perst then .refused (.notEnabled "the host link is down")
  else
    match if windowOpen s then cxlDpas s off (if write then data.length else len) else none with
    | none => .next (if write then s else { s with host := { s.host with cxlData := none } })
    | some ds =>
      if write then gate (!runsWait s ds data) "the stripe's owner applies another write" (writeDpas ds data s)
      else .next { s with host := { s.host with cxlData := readDpas s ds } }

end Sys2Proof.Machine
end

