-- ==== Sys2Proof/Machine/Fetch.lean ====
section
/-! DEFINITION. How packets reach the active Binnacle as bytes: fetched from the host queues (R240, R242, R244, R259), over the fabric (R268)
and over MCTP (R269). -/
namespace Sys2Proof.Machine

/-- The commands of group 0x00xx. -/
def acceptGroup0 : Nat → Option (Packet → State → State)
  | 0x0000 => some acceptNop
  | 0x0001 => some acceptIdentify
  | 0x0002 => some acceptQueueCreate
  | 0x0003 => some acceptQueueDelete
  | 0x0010 => some acceptResultRead
  | 0x0011 => some acceptResultRelease
  | 0x0020 => some acceptChartGet
  | 0x0021 => some acceptSkewLogGet
  | 0x0030 => some acceptStatusGet
  | 0x0031 => some acceptRegRead
  | _ => none

/-- The commands of group 0x01xx. -/
def acceptGroup1 : Nat → Option (Packet → State → State)
  | 0x0100 => some acceptConfigBegin
  | 0x0101 => some acceptConfigWrite
  | 0x0102 => some acceptConfigCommit
  | 0x0103 => some acceptConfigAbort
  | 0x0104 => some acceptConfigRead
  | 0x0108 => some acceptLiveSet
  | 0x0110 => some acceptContextSet
  | 0x0111 => some acceptContextGet
  | 0x0112 => some acceptContextClear
  | 0x0120 => some acceptScaleSet
  | 0x0121 => some acceptScaleGet
  | 0x0132 => some acceptGroupSet
  | 0x0134 => some acceptAstkSet
  | 0x0140 => some acceptJobStart
  | 0x0141 => some acceptJobStop
  | _ => none

/-- The commands of group 0x02xx to 0x04xx. -/
def acceptGroups24 : Nat → Option (Packet → State → State)
  | 0x0200 => some acceptPtRootSet
  | 0x0201 => some acceptTlbInvalidate
  | 0x0210 => some acceptDmaSubmit
  | 0x0220 => some acceptSyncAlloc
  | 0x0221 => some acceptSyncFree
  | 0x0222 => some acceptSyncOp
  | 0x0300 => some acceptKernel
  | 0x0310 => some acceptStripeSet
  | 0x0311 => some acceptStripeGet
  | 0x0400 => some acceptIngestSchedule
  | 0x0401 => some acceptIngestStart
  | 0x0402 => some acceptIngestStop
  | 0x0410 => some acceptTokenTableLoad
  | 0x0420 => some acceptManifestGet
  | _ => none

/-- The commands of group 0x05xx and 0x06xx. -/
def acceptGroups56 : Nat → Option (Packet → State → State)
  | 0x0500 => some acceptPortStatus
  | 0x0510 => some acceptGroupJoin
  | 0x0511 => some acceptGroupChart
  | 0x0520 => some acceptColl
  | 0x0521 => some acceptEpochAbort
  | 0x0530 => some acceptDeadline
  | 0x0600 => some acceptFaultGet
  | 0x0601 => some acceptFaultResolve
  | 0x0602 => some acceptUnitState
  | 0x0610 => some acceptFixRequest
  | 0x0611 => some acceptFixStatus
  | 0x0612 => some acceptFixExport
  | 0x0613 => some acceptFixRestore
  | 0x0620 => some acceptRoleSet
  | 0x0621 => some acceptAssume
  | 0x0622 => some acceptFeedOverride
  | 0x0630 => some acceptManifest
  | _ => none

/-- The commands of group 0x07xx and 0x08xx. -/
def acceptGroups78 : Nat → Option (Packet → State → State)
  | 0x0700 => some acceptTelemetry
  | 0x0701 => some acceptStepReport
  | 0x0710 => some acceptPowerCap
  | 0x0711 => some acceptFreqSet
  | 0x0720 => some acceptAnchorEnter
  | 0x0721 => some acceptAnchorExit
  | 0x0800 => some acceptBistRun
  | 0x0801 => some acceptClusterTest
  | 0x0802 => some acceptMarginScan
  | 0x0803 => some acceptHbmRecal
  | _ => none

/-- What accepting a packet of an opcode does; a packet of an opcode that is not defined passes or fails the CRC check and is refused (R247). -/
def acceptOp (op : Nat) : Packet → State → State :=
  ((acceptGroup0 op).or ((acceptGroup1 op).or ((acceptGroups24 op).or ((acceptGroups56 op).or (acceptGroups78 op))))).getD
    (acceptPacket op { lenOk := true } (fun _ t => t))

/-! ### Fetching (R240) -/

/-- A queue from which the Binnacle can fetch: slots stand between head and tail, and its CQ has more free entries than commands owing. -/
def fetchable (e : Nat × Queue) : Bool :=
  decide (e.1 < 1000) && !e.2.stopped && !e.2.stopping && e.2.head != e.2.sqTail && decide (e.2.owing < e.2.depth - e.2.cqUsed)

/-- The Binnacle fetches at all: not in BOOT or OFF, not during a takeover, the host reachable. -/
def fetches (s : State) : Bool :=
  s.dev.st != .off && s.dev.st != .boot && !s.dev.takeover && s.host.linkUp && !s.host.perst

/-- The queue whose turn it is: the next one above the last turn, else the lowest (R240). -/
def turnOf (s : State) : Option Nat :=
  let l := (s.queues.q.filter fetchable).map Prod.fst
  match l.find? (fun q => decide (s.queues.lastTurn < q)) with
  | some q => some q
  | none => l.head?

/-- The parameter bytes of a slot: inline, or PARAM_LEN bytes from PARAM_ADDR, at most 16 MiB (R244, R245). -/
def slotParams (s : State) (b : List Byte) : List Byte :=
  if bitAt (fieldAt b 2 2) 0 then hostRead s (fieldAt b 24 8) (min (fieldAt b 12 4) (16 * 2 ^ 20)) else b.drop 64

/-- The command in the slot at a queue's head: its opcode and packet. -/
def slotCommand (q : Nat) (x : Queue) (s : State) : Nat × Packet :=
  let b := hostRead s (x.sqBase + 512 * x.head) 512
  (fieldAt b 0 2, parsePacket (.host q) (b.take 64) (slotParams s b))

/-- Fetches a queue's next command: the head moves, the command owes its completion, and it is accepted or waits. -/
def fetchSlot (q : Nat) (x : Queue) (s : State) : State :=
  match slotCommand q x s with
  | (op, p) =>
    let t := queueMod q (fun y => { y with head := (y.head + 1) % y.depth }) { s with queues := { s.queues with lastTurn := q } }
    runPacket op (acceptOp op) p t

/-- The command at the head of a queue's waiting ones, when nothing makes it wait any longer (R230, R248, R259). -/
def releasable (s : State) (x : Queue) : Option (Nat × Packet) :=
  match x.held with
  | [] => none
  | (seq, op, p) :: _ => if waitsNow s op p seq (x.owing - x.held.length) then none else some (op, p)

/-- SQ_FETCH (R240, R259): a command of the queue that has waited for its acceptance is accepted; else the next slot is fetched in turn. -/
def execSqFetch (q : Nat) (s : State) : Out :=
  match tget s.queues.q q with
  | none => .refused (.notEnabled "no such queue")
  | some x =>
    match releasable s x with
    | some (op, p) =>
      gate (s.dev.st != .off && !s.dev.takeover) "the Binnacle does not run" (acceptOp op p (queueMod q (fun y => { y with held := y.held.drop 1 }) s))
    | none => gate (fetches s && fetchable (q, x) && turnOf s == some q) "it is not this queue's turn" (fetchSlot q x s)

/-! ### Fabric and MCTP -/

/-- A packet of a message: header, then inline parameters. -/
def messagePacket (src : Source) (b : List Byte) : Packet := parsePacket src (b.take 64) (b.drop 64)

/-- FABRIC_PACKET (R268). -/
def execFabricPacket (sender : Nat) (bytes : List Byte) (s : State) : Out :=
  gate (s.dev.st != .off && decide (64 ≤ bytes.length)) "no power, or no packet"
    (runPacket (fieldAt bytes 0 2) (acceptOp (fieldAt bytes 0 2)) (messagePacket (.fabric sender) bytes) s)

/-- MCTP_ILZAN_REQUEST (R269). -/
def execMctpIlzanRequest (endpoint : Nat) (bytes : List Byte) (s : State) : Out :=
  gate (s.board.aux && s.dev.st != .off && decide (64 ≤ bytes.length)) "no power, or no packet"
    (runPacket (fieldAt bytes 0 2) (acceptOp (fieldAt bytes 0 2)) (messagePacket (.mctp endpoint) bytes) s)

end Sys2Proof.Machine
end

