-- ==== Sys2Proof/Machine/Dispatch.lean ====
section
/-! DEFINITION. The effect of each command on everything but the queue: one arm for each constructor of Instr, one meaning for each arm. -/
namespace Sys2Proof.Machine
open Sys2Proof

def exec (i : Instr) (s : State) : Host.Outcome State Fault Refusal :=
  match i with
  | .nop p => Sys2Proof.Machine.execNop p s
  | .identify p => Sys2Proof.Machine.execIdentify p s
  | .queueCreate p => Sys2Proof.Machine.execQueueCreate p s
  | .queueDelete p => Sys2Proof.Machine.execQueueDelete p s
  | .resultRead p => Sys2Proof.Machine.execResultRead p s
  | .resultRelease p => Sys2Proof.Machine.execResultRelease p s
  | .chartGet p => Sys2Proof.Machine.execChartGet p s
  | .skewLogGet p => Sys2Proof.Machine.execSkewLogGet p s
  | .statusGet p => Sys2Proof.Machine.execStatusGet p s
  | .regRead p => Sys2Proof.Machine.execRegRead p s
  | .configBegin p => Sys2Proof.Machine.execConfigBegin p s
  | .configWrite p => Sys2Proof.Machine.execConfigWrite p s
  | .configCommit p => Sys2Proof.Machine.execConfigCommit p s
  | .configCommitApplied => Sys2Proof.Machine.execConfigCommitApplied s
  | .configAbort p => Sys2Proof.Machine.execConfigAbort p s
  | .configRead p => Sys2Proof.Machine.execConfigRead p s
  | .liveSet p => Sys2Proof.Machine.execLiveSet p s
  | .contextSet p => Sys2Proof.Machine.execContextSet p s
  | .contextGet p => Sys2Proof.Machine.execContextGet p s
  | .contextClear p => Sys2Proof.Machine.execContextClear p s
  | .scaleSetCreateReplace p => Sys2Proof.Machine.execScaleSetCreateReplace p s
  | .scaleSetDelete p => Sys2Proof.Machine.execScaleSetDelete p s
  | .scaleRecordRemove ctx tensor => Sys2Proof.Machine.execScaleRecordRemove ctx tensor s
  | .scaleGet p => Sys2Proof.Machine.execScaleGet p s
  | .groupSet p => Sys2Proof.Machine.execGroupSet p s
  | .astkSet p => Sys2Proof.Machine.execAstkSet p s
  | .jobStart p => Sys2Proof.Machine.execJobStart p s
  | .jobStop p => Sys2Proof.Machine.execJobStop p s
  | .ptRootSet p => Sys2Proof.Machine.execPtRootSet p s
  | .tlbInvalidate p => Sys2Proof.Machine.execTlbInvalidate p s
  | .tlbInvalidateComplete => Sys2Proof.Machine.execTlbInvalidateComplete s
  | .dmaSubmit p => Sys2Proof.Machine.execDmaSubmit p s
  | .copy ctx id part => Sys2Proof.Machine.execCopy ctx id part s
  | .fill ctx id part => Sys2Proof.Machine.execFill ctx id part s
  | .copy2d ctx id part => Sys2Proof.Machine.execCopy2d ctx id part s
  | .dmaGranuleWriteAck ctx id index granule => Sys2Proof.Machine.execDmaGranuleWriteAck ctx id index granule s
  | .syncAlloc p => Sys2Proof.Machine.execSyncAlloc p s
  | .syncFree p => Sys2Proof.Machine.execSyncFree p s
  | .syncOp p => Sys2Proof.Machine.execSyncOp p s
  | .read r cell => Sys2Proof.Machine.execRead r cell s
  | .write r cell v => Sys2Proof.Machine.execWrite r cell v s
  | .add r cell v => Sys2Proof.Machine.execAdd r cell v s
  | .cas r cell c v => Sys2Proof.Machine.execCas r cell c v s
  | .waitEq r cell v => Sys2Proof.Machine.execWaitEq r cell v s
  | .waitGe r cell v => Sys2Proof.Machine.execWaitGe r cell v s
  | .arrive r cell v t => Sys2Proof.Machine.execArrive r cell v t s
  | .waitReleaseWave wave => Sys2Proof.Machine.execWaitReleaseWave wave s
  | .waitEntryFree die => Sys2Proof.Machine.execWaitEntryFree die s
  | .remoteSyncOperation rank cell act => Sys2Proof.Machine.execRemoteSyncOperation rank cell act s
  | .kernelDispatch p => Sys2Proof.Machine.execKernelDispatch p s
  | .conv ctx id => Sys2Proof.Machine.execConv ctx id s
  | .convT ctx id => Sys2Proof.Machine.execConvT ctx id s
  | .poolMax ctx id => Sys2Proof.Machine.execPoolMax ctx id s
  | .poolAvg ctx id => Sys2Proof.Machine.execPoolAvg ctx id s
  | .argmaxC ctx id => Sys2Proof.Machine.execArgmaxC ctx id s
  | .matmul ctx id => Sys2Proof.Machine.execMatmul ctx id s
  | .gatherSum ctx id => Sys2Proof.Machine.execGatherSum ctx id s
  | .update ctx id => Sys2Proof.Machine.execUpdate ctx id s
  | .program ctx id ops => Sys2Proof.Machine.execProgram ctx id ops s
  | .deferredIdleIssue ctx id => Sys2Proof.Machine.execDeferredIdleIssue ctx id s
  | .descriptorIssue ctx id => Sys2Proof.Machine.execDescriptorIssue ctx id s
  | .chainStart ctx id chain cluster gang => Sys2Proof.Machine.execChainStart ctx id chain cluster gang s
  | .shadowLoadComplete cluster gang => Sys2Proof.Machine.execShadowLoadComplete cluster gang s
  | .swapToken cluster gang => Sys2Proof.Machine.execSwapToken cluster gang s
  | .chainComplete cluster gang => Sys2Proof.Machine.execChainComplete cluster gang s
  | .drainComplete cluster gang => Sys2Proof.Machine.execDrainComplete cluster gang s
  | .vectorGranuleComplete ctx id granule => Sys2Proof.Machine.execVectorGranuleComplete ctx id granule s
  | .kernelComplete ctx id => Sys2Proof.Machine.execKernelComplete ctx id s
  | .haloStamp ctx id stripe done => Sys2Proof.Machine.execHaloStamp ctx id stripe done s
  | .stripeSet p => Sys2Proof.Machine.execStripeSet p s
  | .stripeGet p => Sys2Proof.Machine.execStripeGet p s
  | .ingestSchedule p => Sys2Proof.Machine.execIngestSchedule p s
  | .ingestStart p => Sys2Proof.Machine.execIngestStart p s
  | .ingestStop p => Sys2Proof.Machine.execIngestStop p s
  | .tokenTableLoad p => Sys2Proof.Machine.execTokenTableLoad p s
  | .manifestGet p => Sys2Proof.Machine.execManifestGet p s
  | .xrsFrameParse ctx stream engine => Sys2Proof.Machine.execXrsFrameParse ctx stream engine s
  | .sampleDecodeComplete ctx stream ticks fields => Sys2Proof.Machine.execSampleDecodeComplete ctx stream ticks fields s
  | .assemblyStart ctx => Sys2Proof.Machine.execAssemblyStart ctx s
  | .sampleSlow ctx stream ticks => Sys2Proof.Machine.execSampleSlow ctx stream ticks s
  | .decodeTimeout ctx stream => Sys2Proof.Machine.execDecodeTimeout ctx stream s
  | .portStatusGet p => Sys2Proof.Machine.execPortStatusGet p s
  | .groupJoin p => Sys2Proof.Machine.execGroupJoin p s
  | .groupChartGet p => Sys2Proof.Machine.execGroupChartGet p s
  | .collectiveSubmit p => Sys2Proof.Machine.execCollectiveSubmit p s
  | .reduce ctx id => Sys2Proof.Machine.execReduce ctx id s
  | .allReduce ctx id => Sys2Proof.Machine.execAllReduce ctx id s
  | .allGather ctx id => Sys2Proof.Machine.execAllGather ctx id s
  | .reduceScatter ctx id => Sys2Proof.Machine.execReduceScatter ctx id s
  | .broadcast ctx id => Sys2Proof.Machine.execBroadcast ctx id s
  | .collectiveSignature rank sig => Sys2Proof.Machine.execCollectiveSignature rank sig s
  | .collectiveChunkReceive rank collId step gen chunk data => Sys2Proof.Machine.execCollectiveChunkReceive rank collId step gen chunk data s
  | .collectiveResultReceive collId step gen chunk sums codes => Sys2Proof.Machine.execCollectiveResultReceive collId step gen chunk sums codes s
  | .collectiveChunkAck collId step chunk owner => Sys2Proof.Machine.execCollectiveChunkAck collId step chunk owner s
  | .epochAbort p => Sys2Proof.Machine.execEpochAbort p s
  | .deadlineSet p => Sys2Proof.Machine.execDeadlineSet p s
  | .faultGet p => Sys2Proof.Machine.execFaultGet p s
  | .faultResolve p => Sys2Proof.Machine.execFaultResolve p s
  | .retry ctx index => Sys2Proof.Machine.execRetry ctx index s
  | .abortDescriptor ctx index => Sys2Proof.Machine.execAbortDescriptor ctx index s
  | .abortContext ctx index => Sys2Proof.Machine.execAbortContext ctx index s
  | .unitStateSet p => Sys2Proof.Machine.execUnitStateSet p s
  | .plannedMove logical phys state => Sys2Proof.Machine.execPlannedMove logical phys state s
  | .fixRequest p => Sys2Proof.Machine.execFixRequest p s
  | .fixStatusGet p => Sys2Proof.Machine.execFixStatusGet p s
  | .fixExport p => Sys2Proof.Machine.execFixExport p s
  | .fixRestore p => Sys2Proof.Machine.execFixRestore p s
  | .fixRestoreComplete => Sys2Proof.Machine.execFixRestoreComplete s
  | .roleSet p => Sys2Proof.Machine.execRoleSet p s
  | .standbyAssume p => Sys2Proof.Machine.execStandbyAssume p s
  | .standbyPullComplete => Sys2Proof.Machine.execStandbyPullComplete s
  | .feedOverride p => Sys2Proof.Machine.execFeedOverride p s
  | .stepManifestGet p => Sys2Proof.Machine.execStepManifestGet p s
  | .telemetryGet p => Sys2Proof.Machine.execTelemetryGet p s
  | .stepReportGet p => Sys2Proof.Machine.execStepReportGet p s
  | .powerCapSet p => Sys2Proof.Machine.execPowerCapSet p s
  | .freqSet p => Sys2Proof.Machine.execFreqSet p s
  | .anchorEnter p => Sys2Proof.Machine.execAnchorEnter p s
  | .anchorEnterComplete => Sys2Proof.Machine.execAnchorEnterComplete s
  | .anchorExit p => Sys2Proof.Machine.execAnchorExit p s
  | .anchorExitComplete => Sys2Proof.Machine.execAnchorExitComplete s
  | .bistRun p => Sys2Proof.Machine.execBistRun p s
  | .bistComplete tested fails => Sys2Proof.Machine.execBistComplete tested fails s
  | .clusterTest p => Sys2Proof.Machine.execClusterTest p s
  | .clusterTestResult phys pass => Sys2Proof.Machine.execClusterTestResult phys pass s
  | .marginScan p => Sys2Proof.Machine.execMarginScan p s
  | .marginScanComplete eyes => Sys2Proof.Machine.execMarginScanComplete eyes s
  | .hbmRecal p => Sys2Proof.Machine.execHbmRecal p s
  | .hbmRecalStackComplete stack => Sys2Proof.Machine.execHbmRecalStackComplete stack s
  | .sqTail q v => Sys2Proof.Machine.execSqTail q v s
  | .cqHead q v => Sys2Proof.Machine.execCqHead q v s
  | .sqFetch q => Sys2Proof.Machine.execSqFetch q s
  | .completionPost q => Sys2Proof.Machine.execCompletionPost q s
  | .pcieCompletionTimeout r => Sys2Proof.Machine.execPcieCompletionTimeout r s
  | .eventCause v => Sys2Proof.Machine.execEventCause v s
  | .eventMask v => Sys2Proof.Machine.execEventMask v s
  | .queueErr => Sys2Proof.Machine.execQueueErr s
  | .adminEnable v => Sys2Proof.Machine.execAdminEnable v s
  | .adminDisable v => Sys2Proof.Machine.execAdminDisable v s
  | .fpFlags ctx v => Sys2Proof.Machine.execFpFlags ctx v s
  | .registerWrite off v => Sys2Proof.Machine.execRegisterWrite off v s
  | .perstN asserted => Sys2Proof.Machine.execPerstN asserted s
  | .cxlMemAccess write off len data => Sys2Proof.Machine.execCxlMemAccess write off len data s
  | .fabricPacket sender bytes => Sys2Proof.Machine.execFabricPacket sender bytes s
  | .mctpIlzanRequest endpoint bytes => Sys2Proof.Machine.execMctpIlzanRequest endpoint bytes s
  | .setEndpointId eid => Sys2Proof.Machine.execSetEndpointId eid s
  | .getEndpointId => Sys2Proof.Machine.execGetEndpointId s
  | .getMctpVersionSupport type => Sys2Proof.Machine.execGetMctpVersionSupport type s
  | .getMessageTypeSupport => Sys2Proof.Machine.execGetMessageTypeSupport s
  | .getVendorDefinedMessageSupport => Sys2Proof.Machine.execGetVendorDefinedMessageSupport s
  | .unsupportedMctpControlCommand cmd => Sys2Proof.Machine.execUnsupportedMctpControlCommand cmd s
  | .pldmDiscovery cmd => Sys2Proof.Machine.execPldmDiscovery cmd s
  | .getSensorReading sensor => Sys2Proof.Machine.execGetSensorReading sensor s
  | .getStateSensorReadings sensor => Sys2Proof.Machine.execGetStateSensorReadings sensor s
  | .setEventReceiver enable eid => Sys2Proof.Machine.execSetEventReceiver enable eid s
  | .fruDataRead => Sys2Proof.Machine.execFruDataRead s
  | .pldmFirmwareUpdate first bytes checksOk last => Sys2Proof.Machine.execPldmFirmwareUpdate first bytes checksOk last s
  | .activateFirmware => Sys2Proof.Machine.execActivateFirmware s
  | .pwrEnRise j1mv => Sys2Proof.Machine.execPwrEnRise j1mv s
  | .pwrEnFall => Sys2Proof.Machine.execPwrEnFall s
  | .aux3v3Rise slot feed => Sys2Proof.Machine.execAux3v3Rise slot feed s
  | .aux3v3Loss => Sys2Proof.Machine.execAux3v3Loss s
  | .inputPowerLoss j1mv => Sys2Proof.Machine.execInputPowerLoss j1mv s
  | .firmwareImageSelect baOk imgA imgB => Sys2Proof.Machine.execFirmwareImageSelect baOk imgA imgB s
  | .bootComplete quickFail trainFail fabricFail ports => Sys2Proof.Machine.execBootComplete quickFail trainFail fabricFail ports s
  | .powerSample milliwatts j1mv j1ma => Sys2Proof.Machine.execPowerSample milliwatts j1mv j1ma s
  | .thermalReading temps inlet flow => Sys2Proof.Machine.execThermalReading temps inlet flow s
  | .thermalReefDecay => Sys2Proof.Machine.execThermalReefDecay s
  | .coolantFlowLow flow => Sys2Proof.Machine.execCoolantFlowLow flow s
  | .leakLoopSample ohms => Sys2Proof.Machine.execLeakLoopSample ohms s
  | .leakTimeout => Sys2Proof.Machine.execLeakTimeout s
  | .strapRead slot feed => Sys2Proof.Machine.execStrapRead slot feed s
  | .heartbeat => Sys2Proof.Machine.execHeartbeat s
  | .avsAdjust die up => Sys2Proof.Machine.execAvsAdjust die up s
  | .droopStretch die => Sys2Proof.Machine.execDroopStretch die s
  | .droopStretchEnd die periods => Sys2Proof.Machine.execDroopStretchEnd die periods s
  | .chartChangeDecision changes moves => Sys2Proof.Machine.execChartChangeDecision changes moves s
  | .fenceAck => Sys2Proof.Machine.execFenceAck s
  | .supervisorApplyAck => Sys2Proof.Machine.execSupervisorApplyAck s
  | .binnacleMirrorAck => Sys2Proof.Machine.execBinnacleMirrorAck s
  | .fencedOutputDiscard die unit epoch => Sys2Proof.Machine.execFencedOutputDiscard die unit epoch s
  | .supervisorStateMismatch unit reported epoch => Sys2Proof.Machine.execSupervisorStateMismatch unit reported epoch s
  | .staleProgressReport unit epoch => Sys2Proof.Machine.execStaleProgressReport unit epoch s
  | .clusterFault phys array permanent => Sys2Proof.Machine.execClusterFault phys array permanent s
  | .clusterWatchdog cluster => Sys2Proof.Machine.execClusterWatchdog cluster s
  | .supervisorHeartbeatMiss sup => Sys2Proof.Machine.execSupervisorHeartbeatMiss sup s
  | .supervisorRestartEnd sup => Sys2Proof.Machine.execSupervisorRestartEnd sup s
  | .binnacleTakeover => Sys2Proof.Machine.execBinnacleTakeover s
  | .binnacleTakeoverEnd => Sys2Proof.Machine.execBinnacleTakeoverEnd s
  | .mediaEngineFault unit => Sys2Proof.Machine.execMediaEngineFault unit s
  | .addressTranslation ctx va unit access => Sys2Proof.Machine.execAddressTranslation ctx va unit access s
  | .memoryRead stack off found => Sys2Proof.Machine.execMemoryRead stack off found s
  | .armouredWrite dpa data => Sys2Proof.Machine.execArmouredWrite dpa data s
  | .armouredWriteAck quadrant stripe => Sys2Proof.Machine.execArmouredWriteAck quadrant stripe s
  | .patrolScrub stack off finding => Sys2Proof.Machine.execPatrolScrub stack off finding s
  | .stackLoss stack => Sys2Proof.Machine.execStackLoss stack s
  | .rebuildStripe quadrant error => Sys2Proof.Machine.execRebuildStripe quadrant error s
  | .sliceExpiry ctx => Sys2Proof.Machine.execSliceExpiry ctx s
  | .contextSaveComplete ctx => Sys2Proof.Machine.execContextSaveComplete ctx s
  | .contextRestore ctx => Sys2Proof.Machine.execContextRestore ctx s
  | .handover rank step => Sys2Proof.Machine.execHandover rank step s
  | .deadlineExpiry step => Sys2Proof.Machine.execDeadlineExpiry step s
  | .decision step entries => Sys2Proof.Machine.execDecision step entries s
  | .manifestFinalise => Sys2Proof.Machine.execManifestFinalise s
  | .stepManifestReceive bytes => Sys2Proof.Machine.execStepManifestReceive bytes s
  | .stepManifestAck step => Sys2Proof.Machine.execStepManifestAck step s
  | .close m => Sys2Proof.Machine.execClose m s
  | .watchSlotWrite ctx => Sys2Proof.Machine.execWatchSlotWrite ctx s
  | .retuneComplete => Sys2Proof.Machine.execRetuneComplete s
  | .descriptorReleaseWave wave => Sys2Proof.Machine.execDescriptorReleaseWave wave s
  | .musterLimitExpiry rank => Sys2Proof.Machine.execMusterLimitExpiry rank s
  | .groupHeartbeatSend => Sys2Proof.Machine.execGroupHeartbeatSend s
  | .groupHeartbeatReceive rank sea reefHigh thermal => Sys2Proof.Machine.execGroupHeartbeatReceive rank sea reefHigh thermal s
  | .heartbeatTimeout rank => Sys2Proof.Machine.execHeartbeatTimeout rank s
  | .probeTimeout rank => Sys2Proof.Machine.execProbeTimeout rank s
  | .failedNotice rank => Sys2Proof.Machine.execFailedNotice rank s
  | .groupChartChange recs routes => Sys2Proof.Machine.execGroupChartChange recs routes s
  | .portTraining port => Sys2Proof.Machine.execPortTraining port s
  | .portTrainingComplete port peer lanes => Sys2Proof.Machine.execPortTrainingComplete port peer lanes s
  | .laneFailure port lane => Sys2Proof.Machine.execLaneFailure port lane s
  | .portDown port => Sys2Proof.Machine.execPortDown port s
  | .flitReceive port flit => Sys2Proof.Machine.execFlitReceive port flit s
  | .flitReplay port seq => Sys2Proof.Machine.execFlitReplay port seq s
  | .rocePacketReceive port qp op ecnCe timeUs => Sys2Proof.Machine.execRocePacketReceive port qp op ecnCe timeUs s
  | .cnpReceive port qp => Sys2Proof.Machine.execCnpReceive port qp s
  | .sendRateRise port qp => Sys2Proof.Machine.execSendRateRise port qp s
  | .fixQuiesceComplete => Sys2Proof.Machine.execFixQuiesceComplete s
  | .fixCopyComplete => Sys2Proof.Machine.execFixCopyComplete s
  | .fixHeaderAck timeUs => Sys2Proof.Machine.execFixHeaderAck timeUs s
  | .fixStreamChunkReceive chunk bytes crc => Sys2Proof.Machine.execFixStreamChunkReceive chunk bytes crc s
  | .fixChunkAck chunk ok => Sys2Proof.Machine.execFixChunkAck chunk ok s
  | .sealAck timeMs => Sys2Proof.Machine.execSealAck timeMs s
  | .fixSealReport rank step => Sys2Proof.Machine.execFixSealReport rank step s
  | .ilzanReplyReceive rank opcode status value => Sys2Proof.Machine.execIlzanReplyReceive rank opcode status value s
  | .groupChartPublication epoch gen manager deputy recs routes => Sys2Proof.Machine.execGroupChartPublication epoch gen manager deputy recs routes s
  | .remoteSyncReply seq value => Sys2Proof.Machine.execRemoteSyncReply seq value s
  | .probeReceive rank port => Sys2Proof.Machine.execProbeReceive rank port s
  | .laneDownReceive port lane => Sys2Proof.Machine.execLaneDownReceive port lane s
  | .hostLinkDlActive active => Sys2Proof.Machine.execHostLinkDlActive active s
  | .fixExportComplete => Sys2Proof.Machine.execFixExportComplete s
  | .rollingTest unit carrier => Sys2Proof.Machine.execRollingTest unit carrier s
  | .fixPullRequest rank step upTo => Sys2Proof.Machine.execFixPullRequest rank step upTo s

end Sys2Proof.Machine
end

