-- ==== Sys2Proof/WellFormed.lean ====
section
/-! DEFINITION. Well-formed commands: every operand lies in the range its field or its name has in the spec. Whether a command may be
accepted is not asked here: a packet with a reserved field set is well formed, and its meaning refuses it. -/
namespace Sys2Proof

/-- A context number (R221). -/
def ctxOk (c : Nat) : Bool := decide (c < 16)

/-- A sync cell (R215). -/
def cellOk (c : Nat) : Bool := decide (c < 65536)

/-- A rank is 16 bits wide (R281). -/
def rankOk (r : Nat) : Bool := decide (r < 65536)

/-- A step number is 64 bits wide (R129). -/
def stepOk (n : Nat) : Bool := decide (n < 2 ^ 64)

/-- A unit ID is 16 bits wide (R19). -/
def unitOk (u : Nat) : Bool := decide (u < 65536)

/-- A source: a host queue (R238), a fabric sender, an MCTP endpoint. -/
def sourceOk : Source → Bool
  | .host q => decide (q ≤ 64)
  | .fabric r => rankOk r
  | .mctp e => decide (e < 256)

/-- The fields of a packet's header and its parameters (R244). -/
def packetOk (p : Packet) : Bool :=
  sourceOk p.src && decide (p.flags < 2 ^ 16) && decide (p.ctx < 256) && decide (p.resv5 < 2 ^ 24) && decide (p.paramLen < 2 ^ 32) &&
    decide (p.resv20 < 2 ^ 32) && decide (p.paramAddr < 2 ^ 64) && decide (p.resv32 < 2 ^ 224) && decide (p.params.length ≤ 2 ^ 24)

/-- A requester of a sync-cell operation (R216). -/
def requesterOk (r : Requester) : Bool :=
  unitOk r.unit && r.ctx.all ctxOk && r.cluster.all (fun l => decide (l < 800)) && r.rank.all rankOk

/-- A PCIe request. -/
def pcieOk : PcieRequest → Bool
  | .slot q => decide (q ≤ 64)
  | .params op p => decide (op < 65536) && packetOk p
  | .target c va _ _ => ctxOk c && decide (va < 2 ^ 64)
  | .shard c va u => ctxOk c && decide (va < 2 ^ 64) && unitOk u

/-- A collective's signature (R292). -/
def sigOk (g : CollSig) : Bool :=
  decide (g.op < 256) && decide (g.flags < 256) && decide (g.fmtRound < 256) && rankOk g.root && decide (g.collId < 2 ^ 32) && stepOk g.step &&
    decide (g.elements < 2 ^ 64)

/-- Well-formed commands. -/
def Instr.wf : Instr → Bool
  | .nop p | .identify p | .queueCreate p | .queueDelete p | .resultRead p
  | .resultRelease p | .chartGet p | .skewLogGet p | .statusGet p | .regRead p
  | .configBegin p | .configWrite p | .configCommit p | .configAbort p | .configRead p
  | .liveSet p | .contextSet p | .contextGet p | .contextClear p | .scaleSetCreateReplace p
  | .scaleSetDelete p | .scaleGet p | .groupSet p | .astkSet p | .jobStart p
  | .jobStop p | .ptRootSet p | .tlbInvalidate p | .dmaSubmit p | .syncAlloc p
  | .syncFree p | .syncOp p | .kernelDispatch p | .stripeSet p | .stripeGet p
  | .ingestSchedule p | .ingestStart p | .ingestStop p | .tokenTableLoad p | .manifestGet p
  | .portStatusGet p | .groupJoin p | .groupChartGet p | .collectiveSubmit p | .epochAbort p
  | .deadlineSet p | .faultGet p | .faultResolve p | .unitStateSet p | .fixRequest p
  | .fixStatusGet p | .fixExport p | .fixRestore p | .roleSet p | .standbyAssume p
  | .feedOverride p | .stepManifestGet p | .telemetryGet p | .stepReportGet p | .powerCapSet p
  | .freqSet p | .anchorEnter p | .anchorExit p | .bistRun p | .clusterTest p
  | .marginScan p | .hbmRecal p => packetOk p
  | .configCommitApplied | .tlbInvalidateComplete | .fixRestoreComplete | .standbyPullComplete
  | .anchorEnterComplete | .anchorExitComplete | .queueErr | .getEndpointId
  | .getMessageTypeSupport | .getVendorDefinedMessageSupport | .fruDataRead | .activateFirmware
  | .pwrEnFall | .aux3v3Loss | .thermalReefDecay | .leakTimeout
  | .heartbeat | .fenceAck | .supervisorApplyAck | .binnacleMirrorAck
  | .binnacleTakeover | .binnacleTakeoverEnd | .manifestFinalise | .retuneComplete
  | .groupHeartbeatSend | .fixQuiesceComplete | .fixCopyComplete | .fixExportComplete => true
  | .scaleRecordRemove ctx _ | .conv ctx _ | .convT ctx _ | .poolMax ctx _
  | .poolAvg ctx _ | .argmaxC ctx _ | .matmul ctx _ | .gatherSum ctx _
  | .update ctx _ | .deferredIdleIssue ctx _ | .descriptorIssue ctx _ | .kernelComplete ctx _
  | .decodeTimeout ctx _ | .reduce ctx _ | .allReduce ctx _ | .allGather ctx _
  | .reduceScatter ctx _ | .broadcast ctx _ | .fpFlags ctx _ => ctxOk ctx
  | .copy ctx _ _ | .fill ctx _ _ | .copy2d ctx _ _ | .program ctx _ _
  | .vectorGranuleComplete ctx _ _ | .sampleSlow ctx _ _ => ctxOk ctx
  | .dmaGranuleWriteAck ctx _ _ _ | .haloStamp ctx _ _ _ | .sampleDecodeComplete ctx _ _ _ => ctxOk ctx
  | .read r cell => requesterOk r && cellOk cell
  | .write r cell _ | .add r cell _ | .waitEq r cell _ | .waitGe r cell _ => requesterOk r && cellOk cell
  | .cas r cell _ _ | .arrive r cell _ _ => requesterOk r && cellOk cell
  | .waitReleaseWave wave | .descriptorReleaseWave wave => decide (wave < 16)
  | .waitEntryFree die => decide (die < 8)
  | .remoteSyncOperation rank cell _ => rankOk rank && cellOk cell
  | .chainStart ctx _ _ cluster gang => ctxOk ctx && decide (cluster < 800) && decide (gang < 4)
  | .shadowLoadComplete cluster gang | .swapToken cluster gang | .chainComplete cluster gang | .drainComplete cluster gang => decide (cluster < 800) && decide (gang < 4)
  | .xrsFrameParse ctx _ engine => ctxOk ctx && unitOk engine
  | .assemblyStart ctx | .sliceExpiry ctx | .contextSaveComplete ctx | .contextRestore ctx
  | .watchSlotWrite ctx => ctxOk ctx
  | .collectiveSignature rank sig => rankOk rank && sigOk sig
  | .collectiveChunkReceive rank collId step gen _ _ => rankOk rank && decide (collId < 2 ^ 32) && stepOk step && decide (gen < 65536)
  | .collectiveResultReceive collId step gen _ _ _ => decide (collId < 2 ^ 32) && stepOk step && decide (gen < 65536)
  | .collectiveChunkAck collId step _ owner => decide (collId < 2 ^ 32) && stepOk step && rankOk owner
  | .retry ctx index | .abortDescriptor ctx index | .abortContext ctx index => ctxOk ctx && decide (index < 16)
  | .plannedMove logical phys _ => decide (logical < 800) && decide (phys < 832)
  | .bistComplete _ fails => fails.all (fun f => unitOk f.unit && decide (f.cls < 256))
  | .clusterTestResult phys _ => decide (phys < 832)
  | .marginScanComplete eyes => eyes.all (fun e => decide (e.eyeMv < 65536) && decide (e.eyeMui < 65536))
  | .hbmRecalStackComplete stack | .stackLoss stack => decide (stack < 24)
  | .sqTail q _ | .cqHead q _ => decide (q ≤ 64)
  | .sqFetch q | .completionPost q => decide (q < 2000)
  | .pcieCompletionTimeout r => pcieOk r
  | .eventCause _ | .eventMask _ | .adminEnable _ | .adminDisable _
  | .perstN _ | .pwrEnRise _ | .inputPowerLoss _ | .coolantFlowLow _
  | .leakLoopSample _ | .fixHeaderAck _ | .sealAck _ | .hostLinkDlActive _ => true
  | .registerWrite off _ => decide (off < 2 ^ 32)
  | .cxlMemAccess _ _ _ data => decide (data.length ≤ 20480)
  | .fabricPacket sender bytes => rankOk sender && decide (bytes.length ≤ 2 ^ 26)
  | .mctpIlzanRequest endpoint bytes => decide (endpoint < 256) && decide (bytes.length ≤ 2 ^ 26)
  | .setEndpointId eid => decide (eid < 256)
  | .getMctpVersionSupport type => decide (type < 256)
  | .unsupportedMctpControlCommand cmd | .pldmDiscovery cmd => decide (cmd < 256)
  | .getSensorReading sensor | .getStateSensorReadings sensor => decide (sensor < 65536)
  | .setEventReceiver _ eid => decide (eid < 256)
  | .pldmFirmwareUpdate _ bytes _ _ => decide (bytes.length ≤ 2 ^ 26)
  | .aux3v3Rise slot feed | .strapRead slot feed => decide (slot.length ≤ 6) && decide (feed.length ≤ 6)
  | .firmwareImageSelect _ _ _ | .powerSample _ _ _ => true
  | .bootComplete quickFail _ _ ports => quickFail.all (fun p => decide (p < 832)) && ports.all (fun e => e.2.all (fun f => decide (f.logical < 8)))
  | .thermalReading temps _ _ => temps.all (fun t => unitOk t.unit)
  | .avsAdjust die _ | .droopStretchEnd die _ => decide (die < 16)
  | .droopStretch die => decide (die < 16)
  | .chartChangeDecision changes moves => changes.all (fun c => unitOk c.1) && moves.all (fun m => decide (m.1 < 800) && decide (m.2 < 832))
  | .fencedOutputDiscard die unit _ => decide (die < 30) && unitOk unit
  | .supervisorStateMismatch unit _ _ => unitOk unit
  | .staleProgressReport unit _ => unitOk unit
  | .clusterFault phys array _ => decide (phys < 832) && array.all (fun a => decide (a < 4))
  | .clusterWatchdog cluster => decide (cluster < 800)
  | .supervisorHeartbeatMiss sup | .supervisorRestartEnd sup => decide (sup < 30)
  | .mediaEngineFault unit => unitOk unit
  | .addressTranslation ctx _ unit _ => ctxOk ctx && unitOk unit
  | .memoryRead stack off _ | .patrolScrub stack off _ => decide (stack < 24) && decide (off < 48 * 2 ^ 30)
  | .armouredWrite _ data => decide (data.length ≤ 20480)
  | .armouredWriteAck quadrant _ | .rebuildStripe quadrant _ => decide (quadrant < 4)
  | .handover rank step | .fixSealReport rank step => rankOk rank && stepOk step
  | .deadlineExpiry step | .stepManifestAck step => stepOk step
  | .decision step entries => stepOk step && entries.all (fun e => rankOk e.rank && decide (e.kind < 4))
  | .stepManifestReceive bytes => decide (bytes.length ≤ 2 ^ 26)
  | .close m => stepOk m.step && decide (m.freq < 65536)
  | .musterLimitExpiry rank | .heartbeatTimeout rank | .probeTimeout rank | .failedNotice rank => rankOk rank
  | .groupHeartbeatReceive rank sea _ _ => rankOk rank && decide (sea < 16)
  | .groupChartChange recs _ => recs.all (fun r => rankOk r.rank)
  | .portTraining port | .portDown port => decide (port < 6)
  | .portTrainingComplete port _ _ => decide (port < 6)
  | .laneFailure port lane | .laneDownReceive port lane => decide (port < 6) && decide (lane < 8)
  | .flitReceive port flit => decide (port < 6) && flit.bytes.length == 256
  | .flitReplay port _ | .cnpReceive port _ | .sendRateRise port _ => decide (port < 6)
  | .rocePacketReceive port _ _ _ _ => decide (port < 6)
  | .fixStreamChunkReceive _ bytes _ => decide (bytes.length ≤ 2 ^ 26)
  | .fixChunkAck _ _ | .remoteSyncReply _ _ => true
  | .ilzanReplyReceive rank opcode status _ => rankOk rank && decide (opcode < 65536) && decide (status < 65536)
  | .groupChartPublication _ gen manager deputy recs _ => decide (gen < 65536) && rankOk manager && rankOk deputy && recs.all (fun r => rankOk r.rank)
  | .probeReceive rank port => rankOk rank && decide (port < 6)
  | .rollingTest unit carrier => unitOk unit && carrier.all (fun p => decide (p < 832))
  | .fixPullRequest rank step _ => rankOk rank && stepOk step

end Sys2Proof
end

