-- ==== Sys2Proof/Safety.lean ====
section
/-! DEFINITION. The terms the claims use: when a command is accepted at once, how its result slot is taken, what a sound state is. -/
namespace Sys2Proof.Machine

/-- The module has power, the packet waits for nothing, and every acceptance check of R247 up to check 7 passes: it is accepted at once. The
command counts as owing its completion while it is checked (R242). -/
abbrev Passes (op : Nat) (c : Checks) (p : Packet) (s : State) : Prop :=
  s.dev.st ≠ .off ∧ behindHeld (owe p s) p = false ∧ mustWait (owe p s) op p = false ∧ acceptance (owe p s) op c p = none

/-- The command is accepted and starts at once: in FIXING ten opcodes start when the Fix stop ends (R248). -/
abbrev Accepted (op : Nat) (c : Checks) (p : Packet) (s : State) : Prop :=
  Passes op c p s ∧ (waitsForStop op = true → s.dev.st ≠ .fixing)

/-- A result slot is taken for a payload of at most `n` bytes, and `f` goes on with its index (R255). -/
def withSlot (p : Packet) (n : Nat) (s : State) (f : Nat → State → State) : State := f (allocSlot p n s).1 (allocSlot p n s).2

/-- The state in which a unit makes accesses, through its translation cache (R197). -/
def atUnit (u : Nat) (s : State) : State := { s with mem := { s.mem with walker := some u } }

/-- The state between the accesses of units. -/
def atRest (s : State) : State := { s with mem := { s.mem with walker := none } }

/-- The state in which a cluster of a kernel works; which cluster it is the spec leaves open (log 1). -/
def atWork (w : Work) (s : State) : State := atUnit (someCluster w s).1 (someCluster w s).2

/-- The canonical forms and fixed sizes of a sound state: the three memories are in canonical form, there are six ports with as many stored modes, four quadrants
and sixteen compute dies, and the chart-skew log keeps at most 256 records (R33). -/
structure Sound (s : State) : Prop where
  hbm : Memory.wf s.mem.hbm = true
  host : Memory.wf s.host.mem = true
  cxl : Memory.wf s.host.cxlMem = true
  ports : s.fab.ports.length = 6
  armour : s.mem.armour.length = 4
  dies : s.pow.dies.length = 16
  modes : s.flash.modes.length = 6
  skews : s.chart.skews.length ≤ 256

end Sys2Proof.Machine
end

