-- ==== Sys2Proof/Certificates/Slice0/ClaimsBoard.lean ====
section
/-! DEFINITION. Claims about the board, the boot, management over MCTP and packets that arrive as bytes. -/
namespace Sys2Proof.Claims
open Sys2Proof.Machine

/-- A strap read sets the fault of each ID that is not valid or differs from the latched one; the latched values stay (R379). -/
def strapRead : Prop := ∀ sl fd s, s.board.aux = true → sl.length = 6 → fd.length = 4 →
  ∃ t, exec (.strapRead sl fd) s = .next (sensorEvents s t) ∧ t.board.slotId = s.board.slotId ∧ t.board.feedId = s.board.feedId ∧
    t.board.strapFault = strapFaults ((strapNumber sl).isNone || strapId sl != s.board.slotId)
      ((strapNumber fd).isNone || strapId fd != s.board.feedId)

/-- What a strap's read-back means (R379). -/
def strapLevels : Prop := ∀ r, (strapBit r = some 0 ↔ 150 ≤ r.up ∧ r.up ≤ 500 ∧ r.down < 150) ∧
  (strapBit r = some 1 ↔ 3150 < r.up ∧ 2800 ≤ r.down ∧ r.down ≤ 3150)

/-- PWR_EN rises with J1 in range: the boot begins, with PWR_EN high and the converters running, and STATE_CHANGE is set (R249, R374, R375). -/
def pwrEnRise : Prop := ∀ mv s, s.board.aux = true → s.board.converters = false → (s.board.pwrEn = false ∨ s.board.pwrWaits = true) →
  (s.dev.st = .off ∨ s.dev.st = .failed) → 40000 ≤ mv → mv ≤ 60000 →
  ∃ t, exec (.pwrEnRise mv) s = .next (sensorEvents s (sensorEvent 0x10 s.dev.st.code 1 t)) ∧ t.dev.st = .boot ∧ t.board.pwrEn = true ∧
    t.board.converters = true ∧ t.board.j1mv = mv ∧ t.ctxs = [] ∧ t.mem.hbm = [] ∧ t.flash.serial = s.flash.serial ∧ t.host.mem = s.host.mem ∧
    t.pow.energyUj = s.pow.energyUj ∧ t.regs.eventCause.getLsbD 2 = true

/-- PWR_EN rises with J1 out of range: it waits (R374, R375). -/
def pwrEnWaits : Prop := ∀ mv s, s.board.aux = true → s.board.converters = false → (s.board.pwrEn = false ∨ s.board.pwrWaits = true) →
  (s.dev.st = .off ∨ s.dev.st = .failed) → (mv < 40000 ∨ 60000 < mv) →
  exec (.pwrEnRise mv) s = .next (sensorEvents s { s with board := { s.board with j1mv := mv, pwrEn := true, pwrWaits := true } })

/-- PWR_EN falls while the converters run: the module is lost and the converters stop (R308, R375). -/
def pwrEnFall : Prop := ∀ s, s.board.aux = true → s.board.pwrEn = true →
  (s.board.converters = false → exec .pwrEnFall s = .next { s with board := { s.board with pwrEn := false, pwrWaits := false } }) ∧
  (s.board.converters = true → exec .pwrEnFall s =
    .next { inputLost s with board := { (inputLost s).board with pwrEn := false, pwrWaits := false } })

/-- Below 38 V, or above 66 V, while the converters run, input power is lost (R374). -/
def inputPowerLoss : Prop := ∀ mv s, s.board.aux = true → s.board.converters = true → (mv < 38000 ∨ 66000 < mv) →
  exec (.inputPowerLoss mv) s = .next (sensorEvents s (inputLost { s with board := { s.board with j1mv := mv } }))

/-- Without AUX_3V3 the module is OFF; the host's memory and the flash's images stay (R249). -/
def auxLoss : Prop := ∀ s, s.board.aux = true → ∃ t, exec .aux3v3Loss s = .next t ∧ t.dev.st = .off ∧ t.board.aux = false ∧
  t.board.converters = false ∧ t.host.mem = s.host.mem ∧ t.flash.imgA = s.flash.imgA ∧ t.flash.imgB = s.flash.imgB ∧ t.ctxs = [] ∧ t.mem.hbm = []

/-- AUX_3V3 rises: CK_AON runs and the straps are latched, 0xFF where not valid (R379). -/
def auxRise : Prop := ∀ sl fd s, s.board.aux = false → sl.length = 6 → fd.length = 4 →
  exec (.aux3v3Rise sl fd) s = .next { s with board := { s.board with aux := true, pwrWaits := s.board.pwrEn
                                                                      slotId := (strapNumber sl).getD 0xFF, feedId := (strapNumber fd).getD 0xFF
                                                                      strapFault := strapFaults (strapNumber sl).isNone (strapNumber fd).isNone } }

/-- A leak loop below 50 ohms is a leak at once; a leak clears only after the loop has been intact for 100 samples (R380). -/
def leakSample : Prop := ∀ o s, s.board.aux = true →
  (o < 50 → ∃ t, exec (.leakLoopSample o) s = .next (sensorEvents s t) ∧ t.board.leak = 2 ∧ t.board.leakHeld = s.board.leakHeld + 1 ∧ t.board.intactRun = 0) ∧
  (50 ≤ o → o ≤ 2000 → ∃ t, exec (.leakLoopSample o) s = .next (sensorEvents s t) ∧ t.board.leakHeld = 0 ∧ t.board.intactRun = s.board.intactRun + 1 ∧
    t.board.leak = (if s.board.leak = 2 ∧ s.board.intactRun + 1 < 100 then 2 else 0)) ∧
  (2000 < o → ∃ t, exec (.leakLoopSample o) s = .next (sensorEvents s t) ∧ t.board.leakHeld = 0 ∧ t.board.intactRun = 0 ∧
    t.board.leak = (if s.board.leak = 2 then 2 else 1))

/-- A leak held for 100 ms shuts a powered module down; with the converters off it is only reported (R380). -/
def leakTimeout : Prop := ∀ s, s.board.aux = true → 10 ≤ s.board.leakHeld →
  (s.board.converters = true → exec .leakTimeout s = .next (protectiveShutdown s)) ∧
  (s.board.converters = false → exec .leakTimeout s = .next s)

/-- The image that the defaults record prefers is taken when its CRC and signature are good, else the other (R359). -/
def firmwareSelect : Prop := ∀ a b s, s.dev.st = .boot → s.flash.selected = false → s.flash.stuck = false →
  ∀ first second, (first, second) = (if s.flash.preferB then (b, a) else (a, b)) →
  (imageGood first = true → exec (.firmwareImageSelect true a b) s =
    .next { s with flash := { s.flash with selected := true, runningB := s.flash.preferB } }) ∧
  (imageGood first = false → imageGood second = true → exec (.firmwareImageSelect true a b) s =
    .next { s with flash := { s.flash with selected := true, runningB := !s.flash.preferB } })

/-- With no good image BB becomes active, BA is FAILED and the module stays in BOOT (R359). -/
def firmwareNone : Prop := ∀ ok a b s, s.dev.st = .boot → s.flash.selected = false → s.flash.stuck = false → imageGood a = false → imageGood b = false →
  exec (.firmwareImageSelect ok a b) s = .next { s with
    flash := { s.flash with stuck := true }
    dev := { s.dev with bbActive := true, standbyBinnacle := false }
    chart := { s.chart with epoch := 1, units := tset (tset s.chart.units 0x8000 ⟨.failed, 1⟩) 0x8001 ⟨.healthy, 1⟩ } }

/-- A failed self-check of BA makes BB the active Binnacle, without a standby (R359). -/
def firmwareSelectBB : Prop := ∀ a b s, s.dev.st = .boot → s.flash.selected = false → s.flash.stuck = false →
  (imageGood a || imageGood b) = true → ∃ t, exec (.firmwareImageSelect false a b) s = .next t ∧ t.dev.bbActive = true ∧ t.flash.selected = true ∧
    t.dev.standbyBinnacle = false ∧ unitState t 0x8000 = .failed ∧ unitState t 0x8001 = .healthy

/-- The boot ends with the chart of epoch 1 in HOLD with detail 0 or in FAILED (R22, R249, R361). -/
def bootComplete : Prop := ∀ q tf ff ports s, s.dev.st = .boot → s.flash.selected = true → (∀ x, x ∈ q → x < 832) → q.Nodup →
  (∀ x, x ∈ ff → x < 2) → ff.Nodup → ports.length = 6 → (∀ x, x ∈ ports → foundOk x.2 = true) →
  (bootFails q tf ff = true → exec (.bootComplete q tf ff ports) s = .next (moduleLoss (bootChart q ff s))) ∧
  (bootFails q tf ff = false → exec (.bootComplete q tf ff ports) s = .next (enterState .hold 0 (bootPorts ports (bootChart q ff s))))

/-- The boot's chart has epoch 1 (R22). -/
def bootEpoch : Prop := ∀ q ff s, (bootChart q ff s).chart.epoch = 1

/-- Endpoint IDs 8 to 254 can be assigned; the reply gives the ID (R382). The range is the model's (log 61). -/
def setEndpointId : Prop := ∀ e s, s.board.aux = true →
  (8 ≤ e → e ≤ 254 → exec (.setEndpointId e) s = .next (sendReply (.control 0 [e]) { s with mgmt := { s.mgmt with eid := e } })) ∧
  (e < 8 ∨ 254 < e → exec (.setEndpointId e) s = .next (sendReply (.control 2 []) s))

/-- The queries of MCTP control are answered: endpoint ID, message types, Ecorva's IANA number, an error for a command not supported (R382). -/
def mctpControl : Prop := ∀ s, s.board.aux = true →
  exec .getEndpointId s = .next (sendReply (.control 0 [s.mgmt.eid]) s) ∧
  exec .getMessageTypeSupport s = .next (sendReply (.control 0 [0x00, 0x01, 0x7F]) s) ∧
  exec .getVendorDefinedMessageSupport s = .next (sendReply (.control 0 [0x00, 0x00, 0xC9, 0xE1]) s) ∧
  (∀ c, c ∉ controlCommands → exec (.unsupportedMctpControlCommand c) s = .next (sendReply (.control 5 []) s))

/-- Versions are given for the supported message types and for 0xFF; another type is refused (R382). The bytes are free (log 9). -/
def mctpVersion : Prop := ∀ ty s, s.board.aux = true →
  (ty ∈ [0x00, 0x01, 0x7F, 0xFF] → ∃ l, l.length = 4 ∧ exec (.getMctpVersionSupport ty) s = .next (sendReply (.control 0 l) s)) ∧
  (ty ∉ [0x00, 0x01, 0x7F, 0xFF] → exec (.getMctpVersionSupport ty) s = .next (sendReply (.control 0x80 []) s))

/-- PLDM discovery and FRU data are answered; what the spec does not give of them is free (R383, log 9). -/
def pldmData : Prop := ∀ s, s.board.aux = true →
  (∀ c, ∃ l, exec (.pldmDiscovery c) s = .next (sendReply (.pldm 0 l) s)) ∧
  (∃ l, exec .fruDataRead s = .next (sendReply (.pldm 0 (s.flash.serial ++ l)) s))

/-- The numeric sensors that a row measures read as measured: J1 in 10 mV and 10 mA, power, inlet, flow (R383). -/
def sensorReading : Prop := ∀ s, s.board.aux = true →
  exec (.getSensorReading 0x01) s = .next (sendReply (.reading 0x01 (s.board.j1mv / 10)) s) ∧
  exec (.getSensorReading 0x02) s = .next (sendReply (.reading 0x02 (s.board.j1ma / 10)) s) ∧
  exec (.getSensorReading 0x03) s = .next (sendReply (.reading 0x03 (powerW s)) s) ∧
  exec (.getSensorReading 0x06) s = .next (sendReply (.reading 0x06 s.pow.flow) s)

/-- The state sensors read the device state, the input, the leak loop, the straps and the thermal stage (R383). -/
def stateReadings : Prop := ∀ s, s.board.aux = true →
  exec (.getStateSensorReadings 0x10) s = .next (sendReply (.reading 0x10 s.dev.st.code) s) ∧
  exec (.getStateSensorReadings 0x11) s = .next (sendReply (.reading 0x11 (inputStatus s.board.j1mv)) s) ∧
  exec (.getStateSensorReadings 0x12) s = .next (sendReply (.reading 0x12 s.board.leak) s) ∧
  exec (.getStateSensorReadings 0x13) s = .next (sendReply (.reading 0x13 s.board.strapFault) s) ∧
  exec (.getStateSensorReadings 0x14) s = .next (sendReply (.reading 0x14 (thermalState s)) s)

/-- SET_EVENT_RECEIVER names where events go, or stops them (R383). -/
def eventReceiver : Prop := ∀ en e s, s.board.aux = true → exec (.setEventReceiver en e) s =
  .next (sendReply (.pldm 0 []) { s with mgmt := { s.mgmt with receiver := if en then some e else none } })

/-- A piece of an update is kept until the last; an update with no beginning, or a second beginning, is refused (R384). -/
def firmwareUpdate : Prop := ∀ b ok s, s.board.aux = true →
  (s.flash.transfer = none → exec (.pldmFirmwareUpdate true b ok false) s =
    .next (sendReply (.pldm 0 []) { s with flash := { s.flash with transfer := some b } })) ∧
  (∀ l, s.flash.transfer = some l → exec (.pldmFirmwareUpdate false b ok false) s =
    .next (sendReply (.pldm 0 []) { s with flash := { s.flash with transfer := some (l ++ b) } })) ∧
  (s.flash.transfer = none → exec (.pldmFirmwareUpdate false b ok false) s = .next (sendReply (.pldm 0x80 []) s))

/-- An update's end writes the image that does not run; it is preferred from then on when its checks pass (R360). -/
def firmwareUpdateEnds : Prop := ∀ b l s, s.board.aux = true → s.flash.transfer = some l → imageMagic (l ++ b) = true →
  ∃ t, exec (.pldmFirmwareUpdate false b true true) s = .next (sendReply (.pldm 0 []) t) ∧ t.flash.verified = true ∧
    t.flash.preferB = (!s.flash.runningB) ∧ t.flash.transfer = none ∧
    (s.flash.runningB = true → t.flash.imgA.bytes = l ++ b ∧ t.flash.imgB = s.flash.imgB) ∧
    (s.flash.runningB = false → t.flash.imgB.bytes = l ++ b ∧ t.flash.imgA = s.flash.imgA)

/-- ACTIVATE_FIRMWARE completes at once after a verified update, and is refused without one (R384). -/
def activateFirmware : Prop := ∀ s, s.board.aux = true →
  (s.flash.verified = true → exec .activateFirmware s = .next (sendReply (.pldm 0 []) { s with flash := { s.flash with verified := false } })) ∧
  (s.flash.verified = false → exec .activateFirmware s = .next (sendReply (.pldm 0x80 []) s))

/-- A packet over the fabric or over MCTP is taken as the command its header names, its sender the owner of what it gets (R268, R269). -/
def packetsArrive : Prop := ∀ n bytes s, s.dev.st ≠ .off → 64 ≤ bytes.length →
  exec (.fabricPacket n bytes) s = .next (runPacket (fieldAt bytes 0 2) (acceptOp (fieldAt bytes 0 2)) (messagePacket (.fabric n) bytes) s) ∧
  (s.board.aux = true → exec (.mctpIlzanRequest n bytes) s =
    .next (runPacket (fieldAt bytes 0 2) (acceptOp (fieldAt bytes 0 2)) (messagePacket (.mctp n) bytes) s))

/-- A packet whose opcode is not defined is refused with ST_BAD_OPCODE once its CRC is right (R247). -/
def undefinedOpcode : Prop := ∀ op p s, opRow op = none → p.crc = packetCrc op p →
  acceptOp op p s = complete p op stBADOPCODE none none 0xFFFF [] s

end Sys2Proof.Claims
end

