-- ==== Sys2Proof/Certificates/Slice0/ClaimsChart.lean ====
section
/-! DEFINITION. Claims about the chart: hardware faults, moves and orders, publication, skews. -/
namespace Sys2Proof.Claims
open Sys2Proof.Machine

/-- What CLUSTER_FAULT and CLUSTER_WATCHDOG make of a HEALTHY cluster whose identities have takers, from the state after a Fix stop's abort:
planned moves that the fault overtakes fall away, one change takes the cluster out of service with its identities moved, and the fault is
noted as absorbed (R304, R235, R236). -/
def Spared (phys : Nat) (permanent : Bool) (m : List (Nat × Nat)) (t : State) : State :=
  noteAbsorbed (noteFault (uCluster phys) permanent (decideLeaving (quarantineChange phys (if permanent then .failed else .quarantined) m)
    (dropPlanned (identities (foreseen t) phys) (phys :: m.map Prod.snd) t)))

/-- CLUSTER_FAULT of a HEALTHY cluster: spared while its die keeps 25 HEALTHY clusters and a taker for every identity (R304). -/
def clusterFault : Prop := ∀ phys arr perm m s t, phys < 832 → (∀ a, arr = some a → a < 4) → unitState s (uCluster phys) = .healthy →
  leaving s (uCluster phys) = false → s.dev.st ≠ .off → t = abortFix 1 (noteArray phys arr s) → unitState (foreseen t) (uCluster phys) = .healthy →
  movesFrom (foreseen t) phys (identities (foreseen t) phys) [] = some m → 25 ≤ healthyAfter (foreseen t) phys m →
  exec (.clusterFault phys arr perm) s = .next (settleTests {} (dropTest phys (Spared phys perm m t)))

/-- CLUSTER_FAULT with too few clusters left, or an identity no cluster can take, is MODULE_LOSS (R304, R235). -/
def clusterFaultLoss : Prop := ∀ phys arr perm s t, phys < 832 → (∀ a, arr = some a → a < 4) → unitState s (uCluster phys) = .healthy →
  leaving s (uCluster phys) = false → s.dev.st ≠ .off → t = abortFix 1 (noteArray phys arr s) → unitState (foreseen t) (uCluster phys) = .healthy →
  (∀ m, movesFrom (foreseen t) phys (identities (foreseen t) phys) [] = some m → healthyAfter (foreseen t) phys m < 25 →
    exec (.clusterFault phys arr perm) s = .next (moduleLoss (Spared phys perm m t))) ∧
  (movesFrom (foreseen t) phys (identities (foreseen t) phys) [] = none →
    exec (.clusterFault phys arr perm) s = .next (moduleLoss (decideLeaving { units := [(uCluster phys, if perm then .failed else .quarantined)] } t)))

/-- CLUSTER_FAULT of a SPARE cluster or of one in test: it is QUARANTINED or FAILED, a test of it has failed, and no identity moves (R21, R370). -/
def clusterFaultIdle : Prop := ∀ phys arr perm s t, phys < 832 → (∀ a, arr = some a → a < 4) →
  (unitState s (uCluster phys) = .spare ∨ unitState s (uCluster phys) = .testing) → leaving s (uCluster phys) = false → s.dev.st ≠ .off →
  t = abortFix 1 (noteArray phys arr s) → unitState (foreseen t) (uCluster phys) ≠ .healthy →
  exec (.clusterFault phys arr perm) s = .next (endTest phys false (noteFault (uCluster phys) perm
    (decideLeaving { units := [(uCluster phys, if perm then .failed else .quarantined)] } t)))

/-- A logical cluster that holds issuable work without progress is a fault of its carrier (R303). -/
def clusterWatchdog : Prop := ∀ l m s, l < 800 → holdsWork s l = true → clusterServes s l = true →
  unitState (foreseen (abortFix 1 s)) (uCluster (carrier s l)) = .healthy →
  movesFrom (foreseen (abortFix 1 s)) (carrier s l) (identities (foreseen (abortFix 1 s)) (carrier s l)) [] = some m →
  25 ≤ healthyAfter (foreseen (abortFix 1 s)) (carrier s l) m →
  exec (.clusterWatchdog l) s = .next (settleTests {} (dropTest (carrier s l) (Spared (carrier s l) false m (abortFix 1 s))))

/-- A due planned move that R21 still permits is decided as one change, and the cluster's orders are done (R305). -/
def plannedMove : Prop := ∀ l phys st m s, plannedMoves (foreseen s) (carrier s l) (plannedFrom s (carrier s l)) (promised s) = some m →
  (plannedFrom s (carrier s l)).any (fun x => x.1 == l && x.2.2 == st) = true → (l, phys) ∈ m → clusterIdle s (carrier s l) = true →
  ((if st = .healthy then [] else [(uCluster (carrier s l), st)]) ++ m.map (fun x => (uCluster x.2, UnitState.healthy))).all (permits (foreseen s)) = true →
  exec (.plannedMove l phys st) s = .next (decideChange
    { units := (if st = .healthy then [] else [(uCluster (carrier s l), st)]) ++ m.map (fun x => (uCluster x.2, .healthy)), moves := m }
    { s with chart := { s.chart with planned := s.chart.planned.filter (fun x => decide (x ∉ plannedFrom s (carrier s l))) } })

/-- UNIT_STATE_SET of a unit that is no cluster: a transition from its foreseen state that R21 permits is decided, one that it does not is
refused (R21, R334). -/
def unitStateSet : Prop := ∀ p s st, Accepted 0x0602 (chkUnitState p) p s → unitStateOf (pf p 2 1) = some st → pf p 0 2 / 4096 ≠ 1 →
  pf p 0 2 / 4096 ≠ 2 → kindHas (pf p 0 2 / 4096) st = true →
  (transitionOk (pf p 0 2 / 4096) (unitState (foreseen (owe p s)) (pf p 0 2)) st = true →
    exec (.unitStateSet p) s = .next (completeOk p 0x0602 (decideLeaving { units := [(pf p 0 2, st)] } (owe p s)))) ∧
  (transitionOk (pf p 0 2 / 4096) (unitState (foreseen (owe p s)) (pf p 0 2)) st = false →
    exec (.unitStateSet p) s = .next (completeOpen p 0x0602 stBADPARAM (owe p s)))

/-- UNIT_STATE_SET of an array group, or of a state that the kind does not have, is refused with 0x0C20 (R20, R334). -/
def unitStateSetKind : Prop := ∀ p s st, Accepted 0x0602 (chkUnitState p) p s → unitStateOf (pf p 2 1) = some st →
  (pf p 0 2 / 4096 = 2 ∨ kindHas (pf p 0 2 / 4096) st = false) →
  exec (.unitStateSet p) s = .next (completeWith p 0x0602 stBADPARAM 0x0C20 (owe p s))

/-- UNIT_STATE_SET of a HEALTHY cluster orders a planned move, or is refused with 0x0C21 (R334). -/
def unitStateSetCluster : Prop := ∀ p s st, Accepted 0x0602 (chkUnitState p) p s → unitStateOf (pf p 2 1) = some st → pf p 0 2 / 4096 = 1 →
  kindHas 1 st = true → unitState (foreseen (owe p s)) (pf p 0 2) = .healthy → transitionOk 1 .healthy st = true →
  exec (.unitStateSet p) s = .next (orderOut p (pf p 0 2 % 4096) st (owe p s))

/-- UNIT_STATE_SET of a SPARE cluster to HEALTHY orders the planned move of a doubled identity to it, or is refused with 0x0C22 where its die
has none (R305, R334). -/
def unitStateSetSpare : Prop := ∀ p s, Accepted 0x0602 (chkUnitState p) p s → unitStateOf (pf p 2 1) = some .healthy → pf p 0 2 / 4096 = 1 →
  unitState (foreseen (owe p s)) (pf p 0 2) = .spare →
  (∀ l, doubledOf (foreseen (owe p s)) (pf p 0 2 % 4096 / 52) = some l →
    exec (.unitStateSet p) s = .next (completeOk p 0x0602 (planTake l (pf p 0 2 % 4096) (owe p s)))) ∧
  (doubledOf (foreseen (owe p s)) (pf p 0 2 % 4096 / 52) = none →
    exec (.unitStateSet p) s = .next (completeWith p 0x0602 stBADPARAM 0x0C22 (owe p s)))

/-- The rolling test of a HEALTHY cluster of one identity orders the planned move to TESTING, while its die has a SPARE (R305). -/
def rollingTest : Prop := ∀ u k s, unitValid u = true → s.dev.st ≠ .off → s.dev.st ≠ .boot → u / 4096 = 1 → unitState s u = .healthy →
  unitState (foreseen s) u = .healthy → (identities s (u % 4096)).length = 1 → plannedFrom s (u % 4096) = [] → leaving s u = false →
  (dieClusters s (u % 4096 / 52) .spare).head? = some k → exec (.rollingTest u (some k)) s = .next (planMove (u % 4096) .testing s)

/-- The rolling test takes a SPARE or QUARANTINED cluster, an engine or a lane to TESTING by a change; an array group of a cluster in test is
TESTING with it (R21, R85, R305). -/
def rollingTestIdle : Prop := ∀ u s, unitValid u = true → s.dev.st ≠ .off → s.dev.st ≠ .boot → unitState (foreseen s) u = unitState s u →
  ((u / 4096 = 1 ∧ (unitState s u = .spare ∨ unitState s u = .quarantined)) ∨
    (u / 4096 = 5 ∧ (unitState s u = .quarantined ∨ (unitState s u = .healthy ∧ sameEngines s [] u ≠ []))) ∨
    (u / 4096 = 7 ∧ (unitState s u = .healthy ∨ unitState s u = .quarantined)) →
    exec (.rollingTest u none) s = .next (decideLeaving { units := [(u, .testing)] } s)) ∧
  (u / 4096 = 2 → unitState s (uCluster (u % 4096 / 4)) = .testing → exec (.rollingTest u none) s = .next s)

/-- The first missed heartbeat of a supervisor in a power-up restarts it, its compute die's chains discarded (R306). -/
def supervisorMiss : Prop := ∀ sup s, sup < 30 → unitState s (uSup sup) = .healthy → sup ∉ s.chart.restarting → leaving s (uSup sup) = false →
  s.dev.st ≠ .off → uSup sup ∉ s.chart.faulted →
  ∃ t, exec (.supervisorHeartbeatMiss sup) s = .next (noteAbsorbed (if sup < 16 then discardDie sup t else t)) ∧
    t = { abortFix 1 s with chart := { (abortFix 1 s).chart with
      restarting := ninsert (abortFix 1 s).chart.restarting sup, faulted := ninsert (abortFix 1 s).chart.faulted (uSup sup) } }

/-- The second one fails the die (R306). -/
def supervisorMissAgain : Prop := ∀ sup s, sup < 30 → unitState s (uSup sup) = .healthy → sup ∉ s.chart.restarting → leaving s (uSup sup) = false →
  s.dev.st ≠ .off → uSup sup ∈ s.chart.faulted → exec (.supervisorHeartbeatMiss sup) s = .next (failDie sup (abortFix 1 s))

/-- A restarted supervisor is restated HEALTHY by a change (R306). -/
def supervisorRestart : Prop := ∀ sup s, sup ∈ s.chart.restarting → exec (.supervisorRestartEnd sup) s = .next (decideChange
  { restate := [uSup sup] } { s with chart := { s.chart with restarting := s.chart.restarting.filter (fun n => n != sup) } })

/-- A takeover aborts the Fix stop and makes the standby Binnacle the active one; there is then no standby (R307). -/
def takeover : Prop := ∀ s, s.dev.st ≠ .off → s.dev.st ≠ .failed → s.dev.takeover = false →
  (s.dev.standbyBinnacle = true → ∃ t, exec .binnacleTakeover s = .next t ∧ t.dev = { (abortFix 1 s).dev with
      takeover := true, bbActive := !(abortFix 1 s).dev.bbActive, standbyBinnacle := false } ∧ t.mem = (abortFix 1 s).mem) ∧
  (s.dev.standbyBinnacle = false → exec .binnacleTakeover s = .next (moduleLoss s))

/-- The end of a takeover fails the Binnacle that was active, by a change, as far as R21 permits it; a publication whose steps 2 and 3 are
done ends first, any other goes on (R25, R307). -/
def takeoverEnd : Prop := ∀ s t, s.dev.takeover = true →
  (match s.chart.pub with
    | some b => t = if b.applied then endPublication b { s with dev := { s.dev with takeover := false } } else { s with dev := { s.dev with takeover := false } }
    | none => t = { s with dev := { s.dev with takeover := false } }) →
  exec .binnacleTakeoverEnd s = .next (decideChange
    { units := [(if s.dev.bbActive then 0x8000 else 0x8001, UnitState.failed), (binnacleUnit s, .healthy)].filter (permits (foreseen t)) } t)

/-- A decision with no change in publication is allocated the epoch after the current one; one with a change in publication waits (R23, R25).
Clusters it takes out of a pass of CLUSTER_TEST leave the pass (R370). -/
def chartDecision : Prop := ∀ us ms s, s.dev.st ≠ .off → s.dev.st ≠ .boot → s.dev.takeover = false → (us ≠ [] ∨ ms ≠ []) →
  changeOk (foreseen s) { units := us, moves := ms } = true →
  exec (.chartChangeDecision us ms) s = .next (settleTests { units := us, moves := ms } (decideLeaving { units := us, moves := ms } s))

/-- Step 2 of a publication: the units that go out of service are fenced and their chains abandoned; a transition that R21 no longer permits
falls away (R25, R29, R30; log 148). -/
def fenceAck : Prop := ∀ b s, s.chart.pub = some b → b.fenced = false → s.dev.takeover = false →
  exec .fenceAck s = .next (setPub (fun x => { x with fenced := true })
    (abandonOn (((lawful s b.change).units.filter (fun x => fences (unitState s x.1) x.2)).map Prod.fst) (fenceUnits (lawful s b.change) s)))

/-- Step 3: with a standby Binnacle only the publication moves on; without one it ends (R25). -/
def applyAck : Prop := ∀ b s, s.chart.pub = some b → b.fenced = true → b.applied = false → s.dev.takeover = false →
  (s.dev.standbyBinnacle = true →
    exec .supervisorApplyAck s = .next { s with chart := { s.chart with pub := some { b with applied := true } } }) ∧
  (s.dev.standbyBinnacle = false → exec .supervisorApplyAck s = .next (endPublication { b with applied := true } s))

/-- Steps 4 and 5: the mirror's acknowledgement ends the publication (R25). -/
def mirrorAck : Prop := ∀ b s, s.chart.pub = some b → b.applied = true → s.dev.standbyBinnacle = true → s.dev.takeover = false →
  exec .binnacleMirrorAck s = .next (endPublication { b with mirrored := true } s)

/-- A discarded output of a fenced unit is logged as a chart skew once for each die, unit and epoch (R29, R33). -/
def fencedOutput : Prop := ∀ die unit epoch s, unit ∈ s.chart.fence → (16 ≤ die ∧ die ≤ 23 ∨ 28 ≤ die ∧ die ≤ 29) →
  ((die, unit, epoch) ∈ s.chart.discards → exec (.fencedOutputDiscard die unit epoch) s = .next s) ∧
  ((die, unit, epoch) ∉ s.chart.discards → exec (.fencedOutputDiscard die unit epoch) s = .next (logSkew unit 2 die epoch
    { s with chart := { s.chart with discards := (die, unit, epoch) :: s.chart.discards } }))

/-- Where a supervisor's report differs from the chart, the chart prevails: the unit is fenced and its charted state restated by a change
(R31, R32). -/
def stateMismatch : Prop := ∀ u rep epoch s, unitValid u = true → u / 4096 ≠ 2 → rep ≠ unitState s u → s.dev.st ≠ .off →
  ∃ t, exec (.supervisorStateMismatch u rep epoch) s = .next (decideChange { restate := [u] }
      { t with chart := { t.chart with fence := ninsert t.chart.fence u } }) ∧ t = leaveService [] u (logSkew u 3 0xFF epoch s)

/-- A report under a former identity is ignored and the cluster reconciled (R31, R32). -/
def staleReport : Prop := ∀ u epoch s, unitValid u = true → u / 4096 = 1 → epochOlder epoch (changeEpoch s u) = true →
  exec (.staleProgressReport u epoch) s = .next (reconcile u (logSkew u 4 0xFF epoch s))

/-- A faulted media engine in service is QUARANTINED; the fault is absorbed while another engine has its function, else it is MODULE_LOSS (R172, R302). -/
def engineFault : Prop := ∀ u s, unitValid u = true → u / 4096 = 5 → unitState s u = .healthy → leaving s u = false → s.dev.st ≠ .off →
  (sameEngines s [] u ≠ [] → exec (.mediaEngineFault u) s =
    .next (noteAbsorbed (noteFault u false (decideLeaving { units := [(u, .quarantined)] } s)))) ∧
  (sameEngines s [] u = [] → exec (.mediaEngineFault u) s =
    .next (moduleLoss (noteFault u false (decideLeaving { units := [(u, .quarantined)] } s))))

/-- A media engine that faults in its test is QUARANTINED (R21, R302). -/
def engineFaultTesting : Prop := ∀ u s, unitValid u = true → u / 4096 = 5 → unitState s u = .testing → leaving s u = false → s.dev.st ≠ .off →
  exec (.mediaEngineFault u) s = .next (noteFault u false (decideLeaving { units := [(u, .quarantined)] } s))

end Sys2Proof.Claims
end

