-- ==== Sys2Proof/Certificates/Slice0/ClaimsFabric.lean ====
section
/-! DEFINITION. Claims about ingest, the fabric's ports and collectives. -/
namespace Sys2Proof.Claims
open Sys2Proof.Machine

/-- INGEST_SCHEDULE of a good schedule puts it in force from its cursor, with nothing assembled. -/
def ingestSchedule : Prop := ∀ p s, Accepted 0x0400 (chkIngestSchedule p (owe p s)) p s → schedRefusal (owe p s) p.ctx (schedOf p) = none →
  exec (.ingestSchedule p) s = .next (completeOk p 0x0400 (settleIngest (ctxMod p.ctx (fun x => { x with ingest := freshIngest (schedOf p) x.ingest }) (owe p s))))

/-- INGEST_SCHEDULE that a check refuses leaves ingest as it was. -/
def ingestScheduleRefused : Prop := ∀ p s d, Accepted 0x0400 (chkIngestSchedule p (owe p s)) p s → schedRefusal (owe p s) p.ctx (schedOf p) = some d →
  exec (.ingestSchedule p) s = .next (completeWith p 0x0400 stBADPARAM d (owe p s))

/-- INGEST_START starts ingest from its cursor and pending list. -/
def ingestStart : Prop := ∀ p s x, Accepted 0x0401 (chkIngestStart p) p s → ctxOf s p.ctx = some x → x.ingest.sched.isSome = true → x.ingest.needsSchedule = false →
  exec (.ingestStart p) s = .next (completeOk p 0x0401 (settleIngest (ctxMod p.ctx (fun y => { y with ingest := { y.ingest with
    running := true, faultStopped := false, heldSince := if y.ingest.admitted then 0 else s.nextId } }) (owe p s))))

/-- INGEST_STOP halts ingest and discards the samples in decode. -/
def ingestStop : Prop := ∀ p s x, Accepted 0x0402 (chkIngestStop p) p s → ctxOf s p.ctx = some x →
  exec (.ingestStop p) s = .next (completeOk p 0x0402 (settleIngest (ctxMod p.ctx (fun y => { y with ingest := { y.ingest with
    running := false, faultStopped := false, samples := [] } }) (owe p s))))

/-- TOKEN_TABLE_LOAD of a good table puts it in force. -/
def tokenTableLoad : Prop := ∀ p s, Accepted 0x0410 (chkTokenTableLoad p (owe p s)) p s →
  fieldAt (p.params.take p.paramLen) 20 4 = (crc32c ((p.params.take p.paramLen).drop 32)).toNat →
  (merges (p.params.take p.paramLen)).any (entryBad (p.params.take p.paramLen)) = false →
  numRepeats ((merges (p.params.take p.paramLen)).map (fun m => m.1 + m.2.1 * 2 ^ 20)) = false →
  exec (.tokenTableLoad p) s = .next (completeOk p 0x0410 { owe p s with tokens := p.params.take p.paramLen })

/-- TOKEN_TABLE_LOAD whose CRC is wrong leaves the table as it was. -/
def tokenTableBad : Prop := ∀ p s, Accepted 0x0410 (chkTokenTableLoad p (owe p s)) p s →
  fieldAt (p.params.take p.paramLen) 20 4 ≠ (crc32c ((p.params.take p.paramLen).drop 32)).toNat →
  exec (.tokenTableLoad p) s = .next (completeWith p 0x0410 stBADPARAM 0x0710 (owe p s))

/-- MANIFEST_GET copies a batch's manifest into a slot. -/
def manifestGet : Prop := ∀ p s x d m, Accepted 0x0420 (chkManifestGet p (owe p s)) p s → ctxOf s p.ctx = some x → x.ingest.sched = some d →
  x.ingest.manifests.find? (fun m => m.batch == pf p 0 8) = some m →
  exec (.manifestGet p) s = .next (withSlot p (mSize (batchSizeOf (owe p s) p.ctx)) (owe p s)
    (fun idx t => finishSlot p 0x0420 idx 0 (manifestPayload t p.ctx d m) t))

/-- XRS_FRAME_PARSE of a sample the context may read, by a parser in service. -/
def xrsFrameParse : Prop := ∀ c j engine s x d, ctxOf s c = some x → x.ingest.sched = some d → x.ingest.active = true → x.ingest.mayRead j = true →
  engine % 16 = 0 → engine < 64 → unitServes s (0x5000 + engine) = true → 0x5000 + engine ∉ s.chart.fence →
  exec (.xrsFrameParse c j engine) s = .next (readSample c j (0x5000 + engine) d s)

/-- A record that parses joins the samples of the context with its field values, under the ID of its place in the stream, on engines picked for
its fields. -/
def parsedSample : Prop := ∀ c j u d s sh v es t, shardOfId d (streamId (jobSeed s) d j) = some sh →
  parseRecord s c d.fields sh (streamId (jobSeed s) d j % 2 ^ 40) = .ok (.ok v) → pickEngines d.fields v s = (es, t) →
  readSample c j u d s = addSample c { stream := j, id := streamId (jobSeed s) d j, engine := u, values := v, engines := es } t

/-- SAMPLE_DECODE_COMPLETE within 2 s, or in a rebuild at any time: the sample is marked slow past the threshold, outside a rebuild; the
outputs, or the drop reason, are known and assembly goes on. -/
def sampleDecodeComplete : Prop := ∀ c j ticks fields s x d a u, ctxOf s c = some x → x.ingest.sched = some d → inDecode x j = some a → x.ingest.active = true →
  (ticks < decodeLimit ∨ x.ingest.rebuild ≠ []) → (∀ e ∈ a.engines, unitState s e = .healthy ∧ restarts s e = false) →
  u = (if slowTicks x.ingest < ticks ∧ x.ingest.rebuild = [] ∧ a.slow = false then markSlow c a.stream s else s) →
  (∀ o t, decodeFields u.tokens (jobSeed u) a.id (a.stream / d.passLen) 0 d.fields a.values fields = .ok (o, t) →
    exec (.sampleDecodeComplete c j ticks fields) s = .next (fillSlots c (sampleMod c a.stream (fun y => { y with decoded := some o, truncated := t })
      (ctxMod c (fun y => { y with ingest := { y.ingest with times := (y.ingest.times ++ [ticks]).drop ((y.ingest.times.length + 1) - 1023) } }) u)))) ∧
  (∀ r, decodeFields u.tokens (jobSeed u) a.id (a.stream / d.passLen) 0 d.fields a.values fields = .error r →
    exec (.sampleDecodeComplete c j ticks fields) s = .next (fillSlots c (sampleMod c a.stream (fun y => { y with corrupt := some r }) u)))

/-- ASSEMBLY_START begins the next batch with no slot filled. -/
def assemblyStart : Prop := ∀ c s x d, ctxOf s c = some x → x.ingest.sched = some d → mayAssemble s d x.ingest = true →
  exec (.assemblyStart c) s = .next (fillSlots c (ctxMod c (fun y => { y with ingest := { y.ingest with
    assembling := true, cursorBefore := y.ingest.cursor, pendingBefore := y.ingest.pendingList, filled := [] } }) s))

/-- SAMPLE_SLOW past the threshold marks the sample slow; during a rebuild it changes nothing. -/
def sampleSlow : Prop := ∀ c j ticks s x a, ctxOf s c = some x → inDecode x j = some a → x.ingest.active = true → a.slow = false → slowTicks x.ingest < ticks →
  (x.ingest.rebuild = [] → exec (.sampleSlow c j ticks) s = .next (fillSlots c (sampleMod c j (fun y => { y with slow := true }) s))) ∧
  (x.ingest.rebuild ≠ [] → exec (.sampleSlow c j ticks) s = .next s)

/-- DECODE_TIMEOUT makes the sample corrupt with reason 7; during a rebuild it changes nothing. -/
def decodeTimeout : Prop := ∀ c j s x a, ctxOf s c = some x → inDecode x j = some a → x.ingest.active = true →
  (x.ingest.rebuild = [] → exec (.decodeTimeout c j) s = .next (fillSlots c (sampleMod c j (fun y => { y with corrupt := some 7 }) s))) ∧
  (x.ingest.rebuild ≠ [] → exec (.decodeTimeout c j) s = .next s)

/-- PORT_STATUS_GET answers with a slot; memory, the chart and the ports stay. -/
def portStatusGet : Prop := ∀ p s, Accepted 0x0500 (chkPortStatus p) p s →
  ∃ idx l u, exec (.portStatusGet p) s = .next (finishSlot p 0x0500 idx 0 l u) ∧ u.fab = s.fab ∧ u.mem = s.mem ∧ u.chart = s.chart

/-- PORT_TRAINING starts a training of a port that is not up, while the fabric dies run; the QUARANTINED lanes of a native port go to TESTING. -/
def portTraining : Prop := ∀ k s, k < 6 → fabricRuns s = true → (portOf s k).mode ≠ 2 → (portOf s k).up = false → (portOf s k).training = false →
  unitState s (uPort k) ≠ .failed →
  ∃ u, exec (.portTraining k) s = .next (if (portOf s k).mode = 0 then decideUnits ((lanesIn s k .quarantined).map (fun l => (uLane k l, .testing))) u else u) ∧
    u = portMod k (fun x => { x with training := true, retrains := sat32 x.retrains (if s.dev.st = .boot then 0 else 1) }) s

/-- PORT_TRAINING_COMPLETE: the outcome, the width and the corrections follow from what the training found; what waits is sent; lanes of a
native port in test become HEALTHY where they carry traffic, else QUARANTINED; the manager is told. -/
def portTrainingComplete : Prop := ∀ k peer lanes s, k < 6 → (portOf s k).training = true → foundOk lanes = true →
  ∃ u, exec (.portTrainingComplete k peer lanes) s = .next (reportPort k (decideUnits
      ((if (portOf s k).mode = 0 then lanesIn s k .testing else []).map (fun l =>
        (uLane k l, if ((numbered lanes).filter (laneUsable s k)).any (fun e => e.1 == l) then .healthy else .quarantined))) u)) ∧
    u = sendQueued k (portMod k (trainedPort ((numbered lanes).filter (laneUsable s k)) peer) s)

/-- A port after a training: a link needs all eight lanes, a native one at least four; it is up on those and only those, starts its sequence
numbers anew and sends again first what had not been acknowledged (R271, R274). -/
def trained : Prop := ∀ good peer x, (∃ c, (trainedPort good peer x).outcome = trainOutcome x.mode good.length c peer) ∧
  (trainedPort good peer x).up = outcomeUp (trainedPort good peer x).outcome ∧
  ((trainedPort good peer x).up = true → (trainedPort good peer x).width = good.length ∧ (if x.mode = 0 then 4 else 8) ≤ good.length ∧
    (trainedPort good peer x).txSeq = 0 ∧ (trainedPort good peer x).rxSeq = 0 ∧ (trainedPort good peer x).replay = [] ∧
    (trainedPort good peer x).queue = x.replay ++ x.queue ∧ (peer = .samegroup ∨ peer = .foreign)) ∧
  ((trainedPort good peer x).up = false → (trainedPort good peer x).width = 0 ∧ (trainedPort good peer x).active = [] ∧
    (trainedPort good peer x).replay = x.replay ∧ (trainedPort good peer x).queue = x.queue)

/-- LANE_FAILURE: LANE_DOWN is sent, the lane's quarantine is decided, the fault counts as absorbed, and the port narrows. -/
def laneFailure : Prop := ∀ k lane s, usesLane s k lane = true → exec (.laneFailure k lane) s = .next (narrowPort k lane
  (decideUnits [(laneUnit s k lane, .quarantined)] (sendMsg 1 0xFFFF "LANE_DOWN" [k, lane]
    { s with fab := { s.fab with laneFails := s.fab.laneFails + 1 }, fix := { s.fix with absorbed := s.fix.absorbed + 1, absorbedHw := s.fix.absorbedHw + 1 } })))

/-- A port that narrows with five lanes or more in use stays up one lane narrower and replays; with four it goes down (R276). -/
def narrows : Prop := ∀ k lane s u, u = portMod k (fun x => { x with active := x.active.filter (fun l => l != lane), width := (portOf s k).active.length - 1 }) s →
  (5 ≤ (portOf s k).active.length → narrowPort k lane s = replayAll k (portMod k (fun x => { x with replays := sat32 x.replays 1, refusing := false }) u)) ∧
  ((portOf s k).active.length ≤ 4 → narrowPort k lane s = portGoesDown k u)

/-- LANE_DOWN_RECEIVE: this end stops using the lane. -/
def laneDownReceive : Prop := ∀ k lane s, usesLane s k lane = true → exec (.laneDownReceive k lane) s = .next (narrowPort k lane s)

/-- PORT_DOWN takes the port down and moves what is unacknowledged to other ports. -/
def portDown : Prop := ∀ k s, k < 6 → (portOf s k).up = true → exec (.portDown k) s = .next (portGoesDown k (noteSoft s))

/-- FLIT_RECEIVE of 256 bytes: a flit whose codeword or CRC is bad is refused; one out of turn only acknowledges; the next one in turn is
accepted (R271). -/
def flitReceive : Prop := ∀ k b ok s, k < 6 → (portOf s k).mode = 0 → (portOf s k).up = true → b.length = 256 →
  (flitSound b ok = false → exec (.flitReceive k ⟨b, ok⟩) s = .next (portMod k (fun x => { x with refusing := true }) s)) ∧
  (flitSound b ok = true → Sys2Proof.Machine.flitOk (flitOf b) = true → (flitOf b).seq ≠ (portOf s k).rxSeq →
    exec (.flitReceive k ⟨b, ok⟩) s = .next (takeAck k (flitOf b).ack s)) ∧
  (flitSound b ok = true → Sys2Proof.Machine.flitOk (flitOf b) = true → (flitOf b).seq = (portOf s k).rxSeq →
    exec (.flitReceive k ⟨b, ok⟩) s = .next (acceptFlit k (flitOf b) (takeAck k (flitOf b).ack s)))

/-- A flit accepted in its turn is delivered once where its DEST is this module, and goes on to another DEST; what a FOREIGN port does not carry
does neither (R274, R279). -/
def flitAccepted : Prop := ∀ k f s, ∃ t, t = portMod k (fun x => { x with rxSeq := (x.rxSeq + 1) % 65536, refusing := false }) s ∧
  (portCarries (portOf s k) f = true → forThis s f = true → acceptFlit k f s = { t with fab := { t.fab with delivered := t.fab.delivered ++ [f] } }) ∧
  (portCarries (portOf s k) f = true → forThis s f = false → acceptFlit k f s = { t with fab := t.fab.emit f }) ∧
  (portCarries (portOf s k) f = false → acceptFlit k f s = t)

/-- The bytes of a flit are 256, sound, and hold exactly that flit: no bit of its fields is dropped (R271). -/
def flitCoding : Prop := ∀ f : Flit, f.cls < 256 → f.dest < 65536 → f.src < 65536 → f.seq < 65536 → f.ack < 65536 → f.len < 256 → f.payload.length = 240 →
  (flitBytes f).length = 256 ∧ flitSound (flitBytes f) true = true ∧ flitOf (flitBytes f) = f

/-- FLIT_REPLAY of a flit in the replay buffer counts a replay and an absorbed fault, and sends the flits from that one on again. -/
def flitReplay : Prop := ∀ k seq s, k < 6 → (portOf s k).mode = 0 → (portOf s k).up = true → (portOf s k).replay.any (fun f => f.seq == seq) = true →
  exec (.flitReplay k seq) s = .next (replayFrom k seq (portMod k (fun x => { x with replays := sat32 x.replays 1 }) (noteSoft s)))

/-- ROCE_PACKET_RECEIVE without a congestion mark: a supported request changes nothing here, another is refused with a NAK and counted. -/
def rocePacketReceive : Prop := ∀ k qp op t s, etherUp s k = true →
  (roceSupported op = true → exec (.rocePacketReceive k qp op false t) s = .next s) ∧
  (roceSupported op = false → exec (.rocePacketReceive k qp op false t) s = .next
    (sendMsg 0 0xFFFF "ROCE_NAK" [k, qp] (portMod k (fun x => { x with protoRefused := sat32 x.protoRefused 1 }) s)))

/-- CNP_RECEIVE halves the rate, not below 1/64 of the port rate; SEND_RATE_RISE adds 1/16, not above it. -/
def cnpReceive : Prop := ∀ k qp s, etherUp s k = true → exec (.cnpReceive k qp) s = .next (portMod k (fun x => { x with
  rates := tset x.rates qp (max (2 ^ 26) (sendRate x qp / 2)), cnpRx := sat32 x.cnpRx 1 }) s)
def sendRateRise : Prop := ∀ k qp s, etherUp s k = true → sendRate (portOf s k) qp < 2 ^ 32 → exec (.sendRateRise k qp) s = .next (portMod k (fun x => { x with
  rates := tset x.rates qp (min (2 ^ 32) (sendRate x qp + 2 ^ 28)) }) s)

/-- COLLECTIVE_SUBMIT of a descriptor that no check refuses is queued. -/
def collectiveSubmit : Prop := ∀ p s x, Accepted 0x0520 (chkColl p) p s → ctxOf s p.ctx = some x →
  firstBad (collRefusals (owe p s) p.ctx (collWork p s.nextId)) = none →
  exec (.collectiveSubmit p) s = .next (reschedule (ctxMod p.ctx (enqueue { owe p s with nextId := s.nextId + 1 } p.ctx (collWork p s.nextId))
    { owe p s with nextId := s.nextId + 1 }))

/-- COLLECTIVE_SUBMIT that a check refuses completes with the first failing check's status and detail. -/
def collectiveRefused : Prop := ∀ p s x st d, Accepted 0x0520 (chkColl p) p s → ctxOf s p.ctx = some x →
  firstBad (collRefusals (owe p s) p.ctx (collWork p s.nextId)) = some (st, d) →
  exec (.collectiveSubmit p) s = .next (complete p 0x0520 st d none 0xFFFF [] (owe p s))

/-- A collective of operation `op` may start: signatures and chunks go out. -/
def CollStarts (op c id : Nat) (i : Instr) : Prop := ∀ s x w, ctxOf s c = some x → x.work id = some w → w.collOp = op → collReady s x w = true →
  collRoom s = true → fabricServes s = true → collBefore s w = false → x.dead = [] → exec i s = .next (startColl c w s)

def reduce : Prop := ∀ c id, CollStarts 0 c id (.reduce c id)
def allReduce : Prop := ∀ c id, CollStarts 1 c id (.allReduce c id)
def allGather : Prop := ∀ c id, CollStarts 2 c id (.allGather c id)
def reduceScatter : Prop := ∀ c id, CollStarts 3 c id (.reduceScatter c id)
def broadcast : Prop := ∀ c id, CollStarts 4 c id (.broadcast c id)

/-- COLLECTIVE_SIGNATURE that agrees with those received is kept, and lets go on what waited for it; one that differs ends the collective on
every member; that of an older step changes nothing. -/
def collectiveSignature : Prop := ∀ rank g s, rank ∈ collRanks s → rank ≠ s.grp.rank →
  (g.step < s.dev.step → exec (.collectiveSignature rank g) s = .next s) ∧
  (s.dev.step ≤ g.step → s.colls.sigs.any (fun e => e.sig.collId == g.collId && e.sig.step == g.step && e.sig != g) = false →
    exec (.collectiveSignature rank g) s = .next (settleSig g { s with colls := { s.colls with sigs := s.colls.sigs ++ [⟨rank, s.grp.gen, g⟩] } })) ∧
  (s.dev.step ≤ g.step → s.colls.sigs.any (fun e => e.sig.collId == g.collId && e.sig.step == g.step && e.sig != g) = true →
    exec (.collectiveSignature rank g) s = .next (mismatchColl rank g { s with colls := { s.colls with sigs := s.colls.sigs ++ [⟨rank, s.grp.gen, g⟩] } }))

/-- COLLECTIVE_CHUNK_RECEIVE of a current chunk is acknowledged and entered, and the sums that it completes are formed; one of an old GEN is
counted and dropped, one of an aborted GEN refused. -/
def collectiveChunkReceive : Prop := ∀ rank collId step gen k data s, rank ≠ s.grp.rank → inGroup s = true → data.length ≤ chunkElems →
  s.grp.recs.any (fun r => r.rank == rank) = true → rankFailed s rank = false →
  (staleGen s gen = true → exec (.collectiveChunkReceive rank collId step gen k data) s = .next { s with colls := { s.colls with staleGen := sat32 s.colls.staleGen 1 } }) ∧
  (staleGen s gen = false → refusedGen s gen = true → exec (.collectiveChunkReceive rank collId step gen k data) s = .next s) ∧
  (staleGen s gen = false → refusedGen s gen = false → sigOf s collId step = none → exec (.collectiveChunkReceive rank collId step gen k data) s = .next
    (formAll (enterChunk rank collId step gen k data (sendMsg 4 rank "CHUNK_ACK" [collId, step, k] s)))) ∧
  (∀ g, staleGen s gen = false → refusedGen s gen = false → sigOf s collId step = some g → exec (.collectiveChunkReceive rank collId step gen k data) s = .next
    (formChunks g (enterChunk rank collId step gen k data (sendMsg 4 rank "CHUNK_ACK" [collId, step, k] s))))

/-- The descriptor of a collective runs here and its results may be written. -/
abbrev Writes (collId step : Nat) (s : State) (c : Nat) (w : Work) : Prop :=
  collWorkOf s collId step = some (c, w) ∧ w.st = .issued ∧ (flightOf s c w.id).isSome = true ∧ mayWrite s w = true

/-- COLLECTIVE_RESULT_RECEIVE: a result of an old GEN is counted, one of an aborted GEN or of a collective whose signatures differ does nothing; a
current one is written into the tensor of the collective that runs, its counts held and the chunk done, once; it is kept for one that does not yet
run; a fault of the output stops that collective and keeps the result. -/
def collectiveResultReceive : Prop := ∀ collId step gen k sums codes s, inGroup s = true → sums.length ≤ chunkElems → codes.length ≤ chunkElems →
  (staleGen s gen = true → exec (.collectiveResultReceive collId step gen k sums codes) s = .next { s with colls := { s.colls with staleGen := sat32 s.colls.staleGen 1 } }) ∧
  (staleGen s gen = false → refusedGen s gen = true ∨ (collId, step) ∈ s.colls.mismatched →
    exec (.collectiveResultReceive collId step gen k sums codes) s = .next s) ∧
  (staleGen s gen = false → refusedGen s gen = false → (collId, step) ∉ s.colls.mismatched → (∀ c w, ¬ Writes collId step s c w) →
    exec (.collectiveResultReceive collId step gen k sums codes) s = .next
      { s with colls := { s.colls with unwritten := s.colls.unwritten ++ [⟨collId, step, gen, k, sums, codes⟩] } }) ∧
  (∀ c w, staleGen s gen = false → refusedGen s gen = false → (collId, step) ∉ s.colls.mismatched → Writes collId step s c w →
    (k ∈ w.partsDone → exec (.collectiveResultReceive collId step gen k sums codes) s = .next s) ∧
    (∀ t counts fl, k ∉ w.partsDone → writeChunk c w ⟨collId, step, gen, k, sums, codes⟩ s = .ok (t, counts, fl) →
      exec (.collectiveResultReceive collId step gen k sums codes) s = .next (finishColl c w.id (workMod c w.id (fun y => { y with
        partsDone := ninsert y.partsDone k, held := y.held ++ [⟨k, w.collOut, counts, BitVec.ofNat 32 fl, none⟩] }) t))) ∧
    (∀ e, k ∉ w.partsDone → writeChunk c w ⟨collId, step, gen, k, sums, codes⟩ s = .error e →
      exec (.collectiveResultReceive collId step gen k sums codes) s = .next (faultColl c w.id e .write
        { s with colls := { s.colls with unwritten := s.colls.unwritten ++ [⟨collId, step, gen, k, sums, codes⟩] } })))

/-- COLLECTIVE_CHUNK_ACK takes the chunk off those unacknowledged; with the last one of a collective that has completed nothing of it is in flight. -/
def collectiveChunkAck : Prop := ∀ collId step chunk owner s f,
  s.colls.flight.find? (fun f => f.sig.collId == collId && f.sig.step == step && decide ((chunk, owner) ∈ f.unacked)) = some f →
  (f.done = false ∨ f.unacked.filter (fun u => u != (chunk, owner)) ≠ [] → exec (.collectiveChunkAck collId step chunk owner) s = .next (handoverIfOut
    { s with colls := { s.colls with flight := s.colls.flight.map (fun g => if g.ctx = f.ctx ∧ g.work = f.work then
        { g with unacked := f.unacked.filter (fun u => u != (chunk, owner)) } else g) } })) ∧
  (f.done = true → f.unacked.filter (fun u => u != (chunk, owner)) = [] →
    exec (.collectiveChunkAck collId step chunk owner) s = .next (handoverIfOut (dropFlight f.ctx f.work s)))

/-- EPOCH_ABORT discards what belongs to its GEN from its step on. -/
def epochAbort : Prop := ∀ p s, Accepted 0x0521 (chkEpochAbort p) p s →
  exec (.epochAbort p) s = .next (completeOk p 0x0521 (abortEpoch (pf p 0 8) (pf p 8 2) (owe p s)))

/-- DEADLINE_SET on the manager is mirrored to the deputy and waits for the next boundary; on another module it is refused with ST_ROLE. -/
def deadlineSet : Prop := ∀ p s, Accepted 0x0530 (chkDeadline p) p s →
  (s.grp.manager = true → s.grp.deputy = 0xFFFF → exec (.deadlineSet p) s = .next (completeOk p 0x0530 { owe p s with grp := { s.grp with
    newDeadline := some { mode := pf p 0 1, policy := pf p 1 1, factor := pf p 2 2, absUs := pf p 4 4, limitMs := pf p 8 4 } } })) ∧
  (s.grp.manager = true → s.grp.deputy ≠ 0xFFFF → exec (.deadlineSet p) s = .next (completeOk p 0x0530
    { sendMsg 1 s.grp.deputy "MIRROR_DEADLINE" [pf p 0 1, pf p 1 1, pf p 2 2, pf p 4 4, pf p 8 4] (owe p s) with grp := { s.grp with
    newDeadline := some { mode := pf p 0 1, policy := pf p 1 1, factor := pf p 2 2, absUs := pf p 4 4, limitMs := pf p 8 4 } } })) ∧
  (s.grp.manager = false → exec (.deadlineSet p) s = .next (completeOpen p 0x0530 stROLE (owe p s)))

end Sys2Proof.Claims
end

