-- ==== Sys2Proof/Certificates/Slice0/ClaimsFix.lean ====
section
/-! DEFINITION. Claims about Fixes: the stop, the stream and its seals, exports, step manifests, restores, standbys. -/
namespace Sys2Proof.Claims
open Sys2Proof.Machine

/-- FIX_REQUEST asks for a Fix at the next boundary; it completes with ST_SHARED_FEED where a member is unpaired for its feed (R313, R326). -/
def fixRequest : Prop := ∀ p s, Accepted 0x0610 (chkFixRequest p) p s → roleBars (owe p s) p = false →
  exec (.fixRequest p) s = .next (completeOpen p 0x0610 (if unpairedFeed (owe p s) then stSHAREDFEED else 0)
    { owe p s with fix := { s.fix with requested := true } })

/-- A module whose role bars the order refuses it with ST_ROLE (R334). -/
def fixRequestRole : Prop := ∀ p s, Accepted 0x0610 (chkFixRequest p) p s → roleBars (owe p s) p = true →
  exec (.fixRequest p) s = .next (completeOpen p 0x0610 stROLE (owe p s))

/-- FIX_STATUS_GET answers with 64 bytes of status (R335). -/
def fixStatusGet : Prop := ∀ p s, Accepted 0x0611 (chkFixStatus p) p s →
  exec (.fixStatusGet p) s = .next (withSlot p 64 (owe p s) (fun idx t => finishSlot p 0x0611 idx 0 (fixStatusPayload t) t))

/-- FIX_EXPORT starts the export of the latest group-sealed Fix; with none it is refused with 0x0C10 (R333, R334). -/
def fixExport : Prop := ∀ p s, Accepted 0x0612 (chkFixExport p (owe p s)) p s → s.fix.exporting = none →
  exec (.fixExport p) s = .next (withSlot p 128 (owe p s) (fun idx t =>
    if (t.fix.recoveryStep.bind (slotOf t)).isNone then refuse8 p 0x0612 stBADPARAM (some 0x0C10) idx t
    else complete p 0x0612 stPENDING none none idx [] { t with fix := { t.fix with exporting := some (p, idx) } }))

/-- The export's slot becomes ready with the exported header, and no export runs any more (R334). -/
def fixExportComplete : Prop := ∀ p idx i s, s.fix.exporting = some (p, idx) → (s.fix.recoveryStep.bind (slotOf s)).bind (slotImage s) = some i →
  exec .fixExportComplete s = .next (finishPending idx 0 0 (fixHeader s.flash.serial i)
    { exportImage (pf p 0 8) i s with fix := { (exportImage (pf p 0 8) i s).fix with exporting := none } })

/-- The order is not barred by the module's role; with CHECKPOINT_REQUIRED any member takes an exported Fix (R329, R334). -/
def orderAllowed (p : Packet) (t : State) : Prop := roleBars t p = true → pf p 0 1 = 1 ∧ t.fix.checkpoint = true

/-- FIX_RESTORE of an image of the level in force: ST_PENDING, then on a manager ordered by its host to restore an own slot the group's
ROLLBACK, on any other module the restore (R329, R332). -/
def fixRestore : Prop := ∀ p s i idx t u, Accepted 0x0613 (chkFixRestore p) p s → (idx, t) = allocSlot p 0 (owe p s) → orderAllowed p t →
  restoreImage p t = .ok i → i.level = t.dev.level → u = complete p 0x0613 stPENDING none none idx [] t →
  ((isHost p.src && inGroup t && t.grp.manager && pf p 0 1 == 0) = true →
    exec (.fixRestore p) s = .next (runRecovery u.grp.recs [] [] [] p idx (pf p 8 8) (pf p 16 8) u)) ∧
  ((isHost p.src && inGroup t && t.grp.manager && pf p 0 1 == 0) = false →
    exec (.fixRestore p) s = .next (beginRestore ⟨p, 0x0613, pf p 0 1, pf p 8 8, pf p 16 8, pf p 2 2, idx, some i⟩ u))

/-- FIX_RESTORE is refused with ST_ROLE where the role bars it, of no image with its detail, of an image of another level with ST_LEVEL
(R334). -/
def fixRestoreRefused : Prop := ∀ p s idx t, Accepted 0x0613 (chkFixRestore p) p s → (idx, t) = allocSlot p 0 (owe p s) →
  (¬ orderAllowed p t → exec (.fixRestore p) s = .next (refuse8 p 0x0613 stROLE none idx t)) ∧
  (∀ d, orderAllowed p t → restoreImage p t = .error d → exec (.fixRestore p) s = .next (refuse8 p 0x0613 stBADPARAM (some d) idx t)) ∧
  (∀ i, orderAllowed p t → restoreImage p t = .ok i → i.level ≠ t.dev.level → exec (.fixRestore p) s = .next (refuse8 p 0x0613 stLEVEL none idx t))

/-- FIX_RESTORE_COMPLETE in FIXING or STANDBY: the restore takes effect and this rank's part of the recovery is done; a standby that took a lost
member's place for its pull keeps it (R329, R330, R332). -/
def fixRestoreComplete : Prop := ∀ r i s u, s.fix.restore = some r → r.image = some i → (s.dev.st = .fixing ∨ s.dev.st = .standby) →
  ingestAgrees s r.step i = true → u = (if r.opcode = 0x0621 then { s with fix := { s.fix with home := none } } else { s with grp := { s.grp with gen := r.gen } }) →
  ∃ t, t = applyRestore i r.step r.replayTo (restoreLog r u) u ∧ exec .fixRestoreComplete s = .next (restoreDone t.grp.rank (restoreEnds r t))

/-- A restore whose batches disagree with the schedule holds the module with 0x0E10; a standby stays in STANDBY (R186, R249). -/
def fixRestoreDisagrees : Prop := ∀ r i s, s.fix.restore = some r → r.image = some i → (s.dev.st = .fixing ∨ s.dev.st = .standby) →
  ingestAgrees s r.step i = false → exec .fixRestoreComplete s = .next (refuseRestore r s)

/-- The stop has quiesced: the dirty lines of the regions are written back and copying begins into the slot that does not hold the latest
group-sealed Fix, whose earlier Fix loses COMPLETE, or a region that cannot be copied aborts the Fix with its cause (R315, R388); a context
fault during the stop aborts it with cause 1 (R235). -/
def fixQuiesce : Prop := ∀ s t, s.fix.stage = .quiesce → stillMoving s = false → t = undouble (writeBackRegions s) →
  (s.fix.abortDue = true → exec .fixQuiesceComplete s = .next (abortFix 1 s)) ∧
  (s.fix.abortDue = false → regionFault t = none → exec .fixQuiesceComplete s = .next { openSlot (nextSlot t) t with
    fix := { (openSlot (nextSlot t) t).fix with stage := .copying } }) ∧
  (∀ c, s.fix.abortDue = false → regionFault t = some c → exec .fixQuiesceComplete s = .next (abortFix c t))

/-- The copy is complete and the header is being written: the slot's place in device memory holds the regions, and the draft the step, the chart,
the group chart and the regions of this moment, and neither COMPLETE nor SEALED (R310, R311, R315). -/
def fixCopy : Prop := ∀ l s, s.fix.stage = .copying → s.fix.abortDue = false → readRegions s (fixRegions s) = .ok l →
  ∃ t d, exec .fixCopyComplete s = .next t ∧ t.fix.stage = .header ∧ t.fix.draft = some d ∧ d.step = s.dev.step ∧ d.level = s.dev.level ∧
    d.chartEpoch = s.chart.epoch ∧ d.groupEpoch = s.grp.epoch ∧ d.gen = s.grp.gen ∧ d.regions = l ∧ d.chart = some s.chart ∧ d.recs = s.grp.recs ∧ d.complete = false ∧ d.sealed = false ∧
    t.mem = (storeRegions (nextSlot s) l s).mem ∧ t.ctxs = s.ctxs

/-- Poison that the copy meets, in a page table too, aborts the Fix with cause 2 and is a ROLLBACK; any other fault of a page, and a context
fault that struck during the stop, aborts it with cause 1 (R213, R235, R316). -/
def fixCopyPoison : Prop := ∀ s, s.fix.stage = .copying →
  (s.fix.abortDue = true → exec .fixCopyComplete s = .next (abortFix 1 s)) ∧
  (∀ d, s.fix.abortDue = false → readRegions s (fixRegions s) = .error (.mem d) →
    exec .fixCopyComplete s = .next (rollBack (abortFix 2 (countPoison (.mem d) s)))) ∧
  (∀ c f, s.fix.abortDue = false → readRegions s (fixRegions s) = .error (.tf c f) → exec .fixCopyComplete s =
    .next (if f.reason = 6 then rollBack (abortFix 2 (countPoison (.tf c f) s)) else abortFix 1 s))

/-- The header stands in the slot with COMPLETE set; RUN resumes, and the Fix is streamed to the consort or, with none, sealed (R315, R317); a
context fault during the stop aborts the Fix instead (R235). -/
def fixHeaderAck : Prop := ∀ us d s, s.fix.draft = some d → s.fix.stage = .header →
  (s.fix.abortDue = true → exec (.fixHeaderAck us) s = .next (abortFix 1 s)) ∧
  (s.fix.abortDue = false → ∃ t, (t.fix.stage = .none ∧ t.fix.draft = none ∧ t.fix.triggered = false ∧ t.fix.taken = sat32 s.fix.taken 1 ∧ t.fix.lastFixStep = some d.step ∧
      t.fix.stepsSince = 0 ∧ slotImage t (nextSlot s) = some { d with complete := true } ∧
      t.mem = (storeHeader (nextSlot s) (setSlot (nextSlot s) (some { d with complete := true }) (orFree none s).2)).mem) ∧
    exec (.fixHeaderAck us) s = .next (if (consortOf (resumeRun t)).isSome then
        startStream { d with complete := true } (some (us / 1000)) (resumeRun t)
      else sealOwn d.step (resumeRun t)))

/-- A chunk with a right CRC is written and acknowledged 1; one with a wrong CRC is not written and acknowledged 0 (R317). -/
def fixChunkReceive : Prop := ∀ ch bytes crc k s, s.fix.assume = none → partnerOf s = some k → (fixLayout s).isSome = true →
  bytes.length ≤ 64 * 2 ^ 20 → ch * 64 * 2 ^ 20 + bytes.length ≤ 129 * gib →
  (crc32c bytes = crc → exec (.fixStreamChunkReceive ch bytes crc) s =
    .next (sealCopy k (sendMsg 5 k "FIX_CHUNK_ACK" [ch, 1] (putChunk ch bytes s)))) ∧
  (crc32c bytes ≠ crc → exec (.fixStreamChunkReceive ch bytes crc) s = .next (sendMsg 5 k "FIX_CHUNK_ACK" [ch, 0] s))

/-- A standby in its pull takes the chunks that come right to its own slot and acknowledges none, and keeps the manifests that come for its
replay (R330). -/
def standbyTakes : Prop := ∀ ch bytes crc r s, s.fix.assume = some r →
  ((fixLayout s).isSome = true → bytes.length ≤ 64 * 2 ^ 20 → ch * 64 * 2 ^ 20 + bytes.length ≤ 129 * gib →
    exec (.fixStreamChunkReceive ch bytes crc) s = .next (if crc32c bytes = crc then putChunk ch bytes s else s)) ∧
  exec (.stepManifestReceive bytes) s = .next { s with fix := { s.fix with replayLog := s.fix.replayLog ++ [parseManifest bytes] } }

/-- An acknowledged chunk counts; one that failed for the third time ends the stream, whose time counts as uncovered; earlier it is sent again,
its bytes with their own CRC (R317, R318). -/
def fixChunkAck : Prop := ∀ ch i s, s.fix.stage = .stream → streamImage s = some i → ch < fixChunks i → ch ∉ s.fix.acks →
  (exec (.fixChunkAck ch true) s = .next { s with fix := { s.fix with acks := ninsert s.fix.acks ch } }) ∧
  (2 ≤ (tget s.fix.fails ch).getD 0 → ∃ t v, exec (.fixChunkAck ch false) s = .next t ∧ t.fix = { s.fix with
    stage := .none, acks := [], fails := [], uncoveredMs := sat32 s.fix.uncoveredMs v } ∧ t.mem = s.mem ∧ t.grp = s.grp) ∧
  ((tget s.fix.fails ch).getD 0 < 2 → exec (.fixChunkAck ch false) s = .next (sendChunk64 s.grp.consort i (streamBase s) ch
    { s with fix := { s.fix with fails := tset s.fix.fails ch ((tget s.fix.fails ch).getD 0 + 1) } }))

/-- SEAL_ACK after every chunk's acknowledgement ends the stream and seals the own slot; its length counts from its start, and is free where
no row timed that (R317, R318). -/
def sealAck : Prop := ∀ ms i s, streamImage s = some i → s.fix.stage = .stream →
  (∀ c, c < fixChunks i → c ∈ s.fix.acks) → (∀ b, s.fix.streamStartMs = some b → b ≤ ms) →
  ∃ t, t.fix.stage = .none ∧ (∀ b, s.fix.streamStartMs = some b → t.fix.lastStreamMs = ms - b) ∧ t.fix.acks = [] ∧ t.mem = s.mem ∧
    exec (.sealAck ms) s = .next (sealOwn i.step t)

/-- A member's seal report is held once; when every present member has one the step is the group's recovery point (R319). -/
def fixSealReport : Prop := ∀ r st s, s.grp.manager = true → r ∈ presentRanks s →
  exec (.fixSealReport r st) s = .next (groupSeal st { s with fix := { s.fix with
    seals := if (r, st) ∈ s.fix.seals then s.fix.seals else s.fix.seals ++ [(r, st)] } })

/-- A pull of the sealed Fix held for the partner streams its chunks, each with its CRC, and the manifests from it on (R317, R330). -/
def fixPull : Prop := ∀ r st up i s, s.fix.consortSlot = some i → i.step = st → i.sealed = true →
  ∃ t, t = (List.range (fixChunks i)).foldl (fun u c => sendChunk64 r i (fieldAt ((fixLayout s).getD []) 16 8) c u)
      { s with fix := { s.fix with pulls := s.fix.pulls ++ [(r, st, up)] } } ∧
    exec (.fixPullRequest r st up) s = .next ((t.fix.partnerLog.filter (fun e => decide (st ≤ e.1) && decide (e.1 < up))).foldl
      (fun u e => sendMsg 5 r "MANIFEST" (e.2.map BitVec.toNat) u) t)

/-- STEP_MANIFEST_GET answers with the manifest of the step, own or the partner's, or is refused with 0x0C30 (R321). -/
def stepManifestGet : Prop := ∀ p s, Accepted 0x0630 (chkManifest p) p s →
  exec (.stepManifestGet p) s = .next (withSlot p 4194304 (owe p s) (fun idx t =>
    match (if pf p 8 1 = 0 then (ownManifest t (pf p 0 8)).map manBytes
      else (t.fix.partnerLog.find? (fun e => e.1 == pf p 0 8)).map Prod.snd) with
    | none => refuse8 p 0x0630 stBADPARAM (some 0x0C30) idx t
    | some b => finishSlot p 0x0630 idx 0 b t))

/-- A finalised manifest goes to the consort byte for byte, or with none the module enters the muster; a replayed step whose DIGEST differs stops
(R320, R331). -/
def manifestFinalise : Prop := ∀ s, (ownManifest s s.dev.step).any (fun m => !m.final) = true → stepWorkDone s = true → decisionIn s = true →
  logRoom s = true → s.fix.checkpoint = false →
  (digestDiffers s = false → ∀ k, consortOf (finalise s) = some k → exec .manifestFinalise s =
    .next (sendMsg 5 k "MANIFEST" ((((ownManifest (finalise s) (finalise s).dev.step).map manBytes).getD []).map BitVec.toNat) (finalise s))) ∧
  (digestDiffers s = false → consortOf (finalise s) = none → exec .manifestFinalise s = .next (enterMuster (finalise s))) ∧
  (digestDiffers s = true → exec .manifestFinalise s = .next (replayMismatch s.dev.step (finalise s)))

/-- The partner's manifest is stored at CLOG_DPA, replaces the one of its step in the partner's log, which keeps to its ring, and is acknowledged
(R320, R321; its place in the ring: log 170). -/
def manifestReceive : Prop := ∀ bytes k s t, s.fix.assume = none → partnerOf s = some k →
  t = (match fixLayout s with
    | some b => storeRing (fieldAt b 40 8) (logSize s) s.fix.clogAt bytes s
    | none => s) →
  exec (.stepManifestReceive bytes) s = .next (sendMsg 5 k "MANIFEST_ACK" [fieldAt bytes 8 8] { t with fix := { t.fix with
    clogAt := (t.fix.clogAt + bytes.length) % logSize s
    partnerLog := trimLog (logSize s) (s.fix.partnerLog.filter (fun e => e.1 != fieldAt bytes 8 8) ++ [(fieldAt bytes 8 8, bytes)]) } })

/-- The acknowledgement of the step's manifest lets the module enter the muster, once no work of the step is open (R157, R286, R320). -/
def manifestAck : Prop := ∀ s, (ownManifest s s.dev.step).any (fun m => m.final && !m.acked) = true → (consortOf s).isSome = true →
  s.fix.checkpoint = false → exec (.stepManifestAck s.dev.step) s = .next (offerMuster { s with fix := { s.fix with
    log := s.fix.log.map (fun m => if m.step = s.dev.step then { m with acked := true } else m) } })

/-- STANDBY_ASSUME: the standby takes the lost member's rank, consort and GEN, and pulls its sealed Fix from that consort under its own rank;
outside STANDBY it is refused (R249, R330). -/
def standbyAssume : Prop := ∀ p s, Accepted 0x0621 (chkAssume p) p s →
  (s.dev.st = .standby → (allocSlot p 0 (owe p s)).2.dev.st = .standby → ∃ t, exec (.standbyAssume p) s =
    .next (sendMsg 5 (pf p 2 2) "FIX_PULL" [ownRank t, pf p 8 8] t) ∧
    t.fix.assume = some ⟨p, 0x0621, 2, pf p 8 8, 0, pf p 4 2, (allocSlot p 0 (owe p s)).1, none⟩ ∧ t.fix.consortChunks = [] ∧
    t.grp.rank = pf p 0 2 ∧ t.grp.consort = pf p 2 2 ∧ t.grp.gen = pf p 4 2 ∧ (s.fix.home = none → ownRank t = s.grp.rank)) ∧
  ((allocSlot p 0 (owe p s)).2.dev.st ≠ .standby → exec (.standbyAssume p) s =
    .next (refuse8 p 0x0621 stWRONGSTATE none (allocSlot p 0 (owe p s)).1 (allocSlot p 0 (owe p s)).2))

/-- The end of a pull, with its chunks in and their CRCs right, begins the restore or refuses it with 0x0C12 (R330). -/
def standbyPull : Prop := ∀ r h s, s.fix.assume = some r → devRead s (chunkBase s) 128 = .ok h → chunksAllIn s h = true →
  slotCrcOk s (chunkBase s) h = true → fieldAt h 8 8 = r.step → exec .standbyPullComplete s = .next (pullEnds r h s)

end Sys2Proof.Claims
end

