-- ==== Sys2Proof/Certificates/Slice0/ClaimsFrames.lean ====
section
/-! DEFINITION. Frame claims: what the commands of each family leave unchanged whenever they run. -/
namespace Sys2Proof.Claims
open Sys2Proof.Machine

/-- Whenever the command runs, this part of the state is unchanged. -/
def Keeps {α : Type} (part : State → α) (i : Instr) : Prop := ∀ s t, exec i s = .next t → part t = part s

/-- The same where the command runs in a state that meets a condition. -/
def KeepsIf {α : Type} (c : State → Prop) (part : State → α) (i : Instr) : Prop := ∀ s t, c s → exec i s = .next t → part t = part s

/-- Every byte of device memory, of host memory and of the memory behind CXL. -/
def bytes (s : State) : Mem × Mem × Mem := (s.mem.hbm, s.host.mem, s.host.cxlMem)

/-- What the commands of `queriesFrame` leave as it is. -/
def queriesKept (s : State) :=
  (s.host, s.regs, s.dev, s.chart, s.conf, s.mem, s.sync, s.ctxs, s.arrays, s.tokens, s.grp, s.colls, s.fix, s.pow, s.board, s.flash, s.test, s.bnd)

/-- The commands that only read, and those that change queues and result slots alone, leave all else as it is. -/
def queriesFrame : Prop :=
  (∀ a, Keeps queriesKept (.nop a)) ∧ (∀ a, Keeps queriesKept (.identify a)) ∧ (∀ a, Keeps queriesKept (.queueCreate a)) ∧
  (∀ a, Keeps queriesKept (.queueDelete a)) ∧ (∀ a, Keeps queriesKept (.resultRelease a)) ∧ (∀ a, Keeps queriesKept (.chartGet a)) ∧
  (∀ a, Keeps queriesKept (.skewLogGet a)) ∧ (∀ a, Keeps queriesKept (.statusGet a)) ∧ (∀ a, Keeps queriesKept (.configRead a)) ∧
  (∀ a, Keeps queriesKept (.contextGet a)) ∧ (∀ a, Keeps queriesKept (.scaleGet a)) ∧ (∀ a, Keeps queriesKept (.stripeGet a)) ∧
  (∀ a, Keeps queriesKept (.manifestGet a)) ∧ (∀ a, Keeps queriesKept (.portStatusGet a)) ∧
  (∀ a, Keeps queriesKept (.groupChartGet a)) ∧ (∀ a, Keeps queriesKept (.faultGet a)) ∧ (∀ a, Keeps queriesKept (.fixStatusGet a)) ∧
  (∀ a, Keeps queriesKept (.stepManifestGet a)) ∧ (∀ a, Keeps queriesKept (.telemetryGet a)) ∧
  (∀ a, Keeps queriesKept (.stepReportGet a))

/-- What the commands of `configFrame` leave as it is. -/
def configKept (s : State) :=
  (s.chart, s.mem, s.sync, s.ctxs, s.arrays, s.tokens, s.colls, s.fix, s.board, s.flash, s.test, s.bnd, bytes s)

/-- The configuration commands before a commit takes force leave memory, contexts, sync cells and the chart as they are. -/
def configFrame : Prop :=
  (∀ a, Keeps configKept (.configBegin a)) ∧ (∀ a, Keeps configKept (.configWrite a)) ∧ (∀ a, Keeps configKept (.configCommit a)) ∧
  (∀ a, Keeps configKept (.configAbort a)) ∧ (∀ a, Keeps configKept (.liveSet a))

/-- What the commands of `contextFrame` leave as it is. -/
def contextKept (s : State) :=
  (s.host, s.regs, s.chart, s.conf, bytes s, s.mem.poison, s.mem.armour, s.mem.lost, s.mem.cache, s.mem.unacked, s.mem.counts, s.sync.cells,
    s.sync.ranges, s.sync.held, s.sync.waits.length, s.arrays, s.tokens, s.grp, s.colls, s.fix, s.pow, s.board, s.flash, s.test, s.bnd)

/-- The commands that set up contexts, page tables and jobs leave memory, the chart, sync cells and the group as they are; wait-list entries may
pass from a context to the shared part, and translations of an earlier context may leave the caches. -/
def contextFrame : Prop :=
  (∀ a, Keeps contextKept (.contextSet a)) ∧ (∀ a, Keeps contextKept (.contextClear a)) ∧ (∀ a, Keeps contextKept (.groupSet a)) ∧
  (∀ a, Keeps contextKept (.astkSet a)) ∧ (∀ a, Keeps contextKept (.ptRootSet a)) ∧ (∀ a, Keeps contextKept (.jobStop a)) ∧
  (∀ a, Keeps contextKept (.stripeSet a)) ∧ (∀ a, Keeps contextKept (.ingestSchedule a)) ∧ (∀ a, Keeps contextKept (.ingestStart a)) ∧
  (∀ a, Keeps contextKept (.ingestStop a)) ∧ (∀ a b, Keeps contextKept (.scaleRecordRemove a b))

/-- What the commands of `syncFrame` leave as it is. -/
def syncKept (s : State) :=
  (s.host, s.regs, s.dev.st, s.dev.detail, s.dev.step, s.dev.jobRunning, s.dev.stopAsked, s.chart, s.conf, s.mem, s.arrays, s.tokens, s.grp,
    s.colls, s.fix, s.pow, s.board, s.flash, s.test)

/-- The sync-cell operations write no memory and change neither chart, configuration, collectives nor Fixes; SYNC_OP may join the commands
that start after a Fix stop. -/
def syncFrame : Prop :=
  (∀ a, Keeps syncKept (.syncOp a)) ∧ (∀ a b, Keeps syncKept (.read a b)) ∧ (∀ a b c, Keeps syncKept (.write a b c)) ∧
  (∀ a b c, Keeps syncKept (.add a b c)) ∧ (∀ a b c d, Keeps syncKept (.cas a b c d)) ∧ (∀ a b c, Keeps syncKept (.waitEq a b c)) ∧
  (∀ a b c, Keeps syncKept (.waitGe a b c)) ∧ (∀ a b c d, Keeps syncKept (.arrive a b c d)) ∧
  (∀ a, Keeps syncKept (.waitReleaseWave a)) ∧ (∀ a, Keeps syncKept (.waitEntryFree a)) ∧ (∀ a b, Keeps syncKept (.remoteSyncReply a b))

/-- What the commands of `submitFrame` leave as it is. -/
def submitKept (s : State) :=
  (s.dev, s.conf, s.mem, s.sync.cells, s.sync.ranges, s.sync.held, s.sync.waits.length, s.arrays, s.tokens, s.grp, s.colls, s.fix, s.pow,
    s.board, s.flash, s.test, s.bnd.cut, s.bnd.entered, s.bnd.updated, s.bnd.waves, bytes s)

/-- Submitting work moves no data: DMA_SUBMIT, KERNEL_DISPATCH and COLLECTIVE_SUBMIT write no memory and no sync cell. -/
def submitFrame : Prop :=
  (∀ a, Keeps submitKept (.dmaSubmit a)) ∧ (∀ a, Keeps submitKept (.kernelDispatch a)) ∧ (∀ a, Keeps submitKept (.collectiveSubmit a))

/-- What the commands of `arrayFrame` leave as it is; a fault of a chain may mark that a Fix stop is to be aborted (R235). -/
def arrayKept (s : State) :=
  (s.dev, s.chart, s.slots, s.conf, s.sync.cells, s.sync.ranges, s.sync.held, s.sync.waits.length, s.tokens, s.colls,
    { s.fix with abortDue := false }, s.pow, s.board, s.flash, s.test, s.bnd)

/-- A granule of a vector kernel is held, and its counts mark no overflow: the one thing its completion may write is a bitmap (R94). -/
def granulePlain (c id granule : Nat) (s : State) : Prop :=
  ∀ w, (ctxOf s c).bind (fun x => x.work id) = some w → ∀ h ∈ w.held, h.part = granule → h.counts.ovfBlocks = []

/-- Chains in the arrays write no memory until they drain; the completion of a vector kernel's granule writes none but overflow bitmaps. -/
def arrayFrame : Prop :=
  (∀ a b c d e, Keeps arrayKept (.chainStart a b c d e)) ∧ (∀ a b, Keeps arrayKept (.shadowLoadComplete a b)) ∧
  (∀ a b, Keeps arrayKept (.swapToken a b)) ∧ (∀ a b, Keeps arrayKept (.chainComplete a b)) ∧
  (∀ a b c, Keeps arrayKept (.vectorGranuleComplete a b c)) ∧
  (∀ a b c d e, Keeps bytes (.chainStart a b c d e)) ∧ (∀ a b, Keeps bytes (.shadowLoadComplete a b)) ∧
  (∀ a b, Keeps bytes (.swapToken a b)) ∧ (∀ a b, Keeps bytes (.chainComplete a b)) ∧
  (∀ a b c, KeepsIf (granulePlain a b c) bytes (.vectorGranuleComplete a b c))

/-- No command accepted in FIXING waits for the end of a Fix stop, which a fault may bring (R236, R248). -/
def noStarts (s : State) : Prop := s.dev.starts = []

/-- In addition no sample is in decode that would restart on another media engine (R172). -/
def noSamples (s : State) : Prop := noStarts s ∧ ∀ e ∈ s.ctxs, e.2.ingest.samples = []

/-- What the commands of `chartFrame` leave as it is. -/
def chartKept (s : State) := (s.conf, s.tokens, s.grp, s.colls, s.pow, s.board, s.flash)

/-- Faults and chart changes move identities and fences; they change no configuration, no power state and, of memory, at most the batch that
a restarted sample completes. -/
def chartFrame : Prop :=
  (∀ a b c, Keeps chartKept (.plannedMove a b c)) ∧ (∀ a b, Keeps chartKept (.chartChangeDecision a b)) ∧ Keeps chartKept .fenceAck ∧
  Keeps chartKept .supervisorApplyAck ∧ Keeps chartKept .binnacleMirrorAck ∧ (∀ a b c, Keeps chartKept (.fencedOutputDiscard a b c)) ∧
  (∀ a b c, Keeps chartKept (.supervisorStateMismatch a b c)) ∧ (∀ a b, Keeps chartKept (.staleProgressReport a b)) ∧
  (∀ a b c, KeepsIf noStarts chartKept (.clusterFault a b c)) ∧ (∀ a, KeepsIf noStarts chartKept (.clusterWatchdog a)) ∧
  (∀ a, KeepsIf noStarts chartKept (.supervisorHeartbeatMiss a)) ∧ (∀ a, Keeps chartKept (.supervisorRestartEnd a)) ∧
  KeepsIf noStarts chartKept .binnacleTakeover ∧ Keeps chartKept .binnacleTakeoverEnd ∧ (∀ a, Keeps chartKept (.mediaEngineFault a)) ∧
  (∀ a b, Keeps chartKept (.rollingTest a b)) ∧ (∀ a, Keeps chartKept (.unitStateSet a)) ∧
  (∀ a b c, Keeps bytes (.plannedMove a b c)) ∧ Keeps bytes .fenceAck ∧ Keeps bytes .supervisorApplyAck ∧ Keeps bytes .binnacleMirrorAck ∧
  (∀ a b c, Keeps bytes (.fencedOutputDiscard a b c)) ∧ (∀ a, Keeps bytes (.supervisorRestartEnd a)) ∧ Keeps bytes .binnacleTakeoverEnd ∧
  (∀ a b, Keeps bytes (.staleProgressReport a b)) ∧ (∀ a b c, KeepsIf noStarts bytes (.clusterFault a b c)) ∧
  (∀ a, KeepsIf noStarts bytes (.clusterWatchdog a)) ∧ KeepsIf noStarts bytes .binnacleTakeover ∧
  (∀ a, KeepsIf noSamples bytes (.supervisorHeartbeatMiss a)) ∧ (∀ a b, KeepsIf noSamples bytes (.chartChangeDecision a b)) ∧
  (∀ a b c, KeepsIf noSamples bytes (.supervisorStateMismatch a b c)) ∧ (∀ a, KeepsIf noSamples bytes (.mediaEngineFault a)) ∧
  (∀ a b, KeepsIf noSamples bytes (.rollingTest a b)) ∧ (∀ a, KeepsIf noSamples bytes (.unitStateSet a))

/-- What the commands of `powerFrame` leave as it is. -/
def powerKept (s : State) :=
  (s.host, s.dev, s.chart, s.queues, s.slots, s.conf, s.mem, s.sync, s.ctxs, s.arrays, s.tokens, s.fab, s.colls, s.fix, s.flash, s.test)

/-- No Fix stop has ended that waits for the end of a retune (R350). -/
def noResume (s : State) : Prop := s.fix.resumeDue = false

/-- Samples, droops, rails, a retune in no Fix stop, sensors, the leak loop and the straps touch no context, no memory, no sync cell, no chart and
no queue. -/
def powerFrame : Prop :=
  (∀ a b c, Keeps powerKept (.powerSample a b c)) ∧ Keeps powerKept .thermalReefDecay ∧ (∀ a, Keeps powerKept (.coolantFlowLow a)) ∧
  (∀ a b, Keeps powerKept (.avsAdjust a b)) ∧ (∀ a, Keeps powerKept (.droopStretch a)) ∧
  (∀ a b, Keeps powerKept (.droopStretchEnd a b)) ∧ KeepsIf noResume powerKept .retuneComplete ∧
  (∀ a, Keeps powerKept (.descriptorReleaseWave a)) ∧ Keeps powerKept .heartbeat ∧ (∀ a b, Keeps powerKept (.strapRead a b)) ∧
  (∀ a, Keeps powerKept (.leakLoopSample a))

/-- What the commands of `managementFrame` leave as it is. -/
def managementKept (s : State) :=
  (s.host, s.regs, s.dev, s.chart, s.queues, s.slots, s.conf, s.mem, s.sync, s.ctxs, s.arrays, s.tokens, s.fab, s.grp, s.colls, s.fix, s.pow, s.board, s.test, s.bnd)

/-- Management over MCTP changes its own state and the firmware flash, and nothing else. -/
def managementFrame : Prop :=
  (∀ a, Keeps managementKept (.setEndpointId a)) ∧ Keeps managementKept .getEndpointId ∧
  (∀ a, Keeps managementKept (.getMctpVersionSupport a)) ∧ Keeps managementKept .getMessageTypeSupport ∧
  Keeps managementKept .getVendorDefinedMessageSupport ∧ (∀ a, Keeps managementKept (.unsupportedMctpControlCommand a)) ∧
  (∀ a, Keeps managementKept (.pldmDiscovery a)) ∧ (∀ a, Keeps managementKept (.getSensorReading a)) ∧
  (∀ a, Keeps managementKept (.getStateSensorReadings a)) ∧ (∀ a b, Keeps managementKept (.setEventReceiver a b)) ∧
  Keeps managementKept .fruDataRead ∧ (∀ a b c d, Keeps managementKept (.pldmFirmwareUpdate a b c d)) ∧
  Keeps managementKept .activateFirmware

/-- What the commands of `portFrame` leave as it is. -/
def portKept (s : State) :=
  (s.host, s.regs, s.dev, s.queues, s.slots, s.conf, s.mem, s.sync, s.ctxs, s.arrays, s.tokens, s.grp, s.colls, s.pow, s.board, s.mgmt, s.flash, s.test, s.bnd)

/-- Ports, lanes, flits and the send rate touch no context, no memory, no sync cell and no queue. -/
def portFrame : Prop :=
  (∀ a, Keeps portKept (.portTraining a)) ∧ (∀ a b c, Keeps portKept (.portTrainingComplete a b c)) ∧
  (∀ a b, Keeps portKept (.laneFailure a b)) ∧ (∀ a, Keeps portKept (.portDown a)) ∧ (∀ a b, Keeps portKept (.flitReceive a b)) ∧
  (∀ a b, Keeps portKept (.flitReplay a b)) ∧ (∀ a b c d e, Keeps portKept (.rocePacketReceive a b c d e)) ∧
  (∀ a b, Keeps portKept (.cnpReceive a b)) ∧ (∀ a b, Keeps portKept (.sendRateRise a b)) ∧
  (∀ a b, Keeps portKept (.laneDownReceive a b)) ∧ (∀ a b, Keeps portKept (.probeReceive a b)) ∧ Keeps portKept .groupHeartbeatSend ∧
  (∀ a b c, Keeps portKept (.fixPullRequest a b c)) ∧
  (∀ a b, Keeps portKept (.fixChunkAck a b))

/-- What the commands of `groupFrame` leave as it is. -/
def groupKept (s : State) :=
  (s.host, s.regs, s.dev, s.chart, s.conf, s.mem, s.ctxs, s.arrays, s.tokens, s.colls, s.pow, s.board, s.flash, s.test, s.bnd)

/-- Heartbeats, the group chart and the orders to the group change no context, no memory and no queue. -/
def groupFrame : Prop :=
  (∀ a b c d, Keeps groupKept (.groupHeartbeatReceive a b c d)) ∧ (∀ a, Keeps groupKept (.heartbeatTimeout a)) ∧
  (∀ a b, Keeps groupKept (.groupChartChange a b)) ∧ (∀ a b c d e f, Keeps groupKept (.groupChartPublication a b c d e f)) ∧
  (∀ a, Keeps groupKept (.deadlineSet a)) ∧
  (∀ a, Keeps groupKept (.roleSet a)) ∧ (∀ a, Keeps groupKept (.feedOverride a)) ∧ (∀ a, Keeps groupKept (.freqSet a)) ∧
  (∀ a b, Keeps groupKept (.fixSealReport a b))

/-- What the commands of `manifestFrame` leave as it is. -/
def manifestKept (s : State) :=
  (s.host, s.regs, s.dev, s.chart, s.conf, s.ctxs, s.arrays, s.tokens, s.colls, s.pow, s.board, s.flash, s.test, s.bnd, s.mem.armour, s.mem.lost)

/-- Where a byte of device memory stands: its own place, or of an armoured byte the places of its stripe (R190, R191, R208). -/
def keysOf (s : State) (d : Nat) : List Nat :=
  match locate s d with
  | .beyond => []
  | .plain st off => [hbmKey st off]
  | .armour q r _ b => (List.range 6).map (fun j => poolKey s q r j b)

/-- The command writes device memory at most in the ring whose address stands at `off` of the Fix layout: LOG_DPA or CLOG_DPA, LOG_MIB long (R309). -/
def WritesRing (off : Nat) (i : Instr) : Prop := ∀ s t, exec i s = .next t → Memory.wf s.mem.hbm = true →
  ∀ k, (∀ b d, fixLayout s = some b → fieldAt b off 8 ≤ d → d < fieldAt b off 8 + logSize s → k ∉ keysOf s d) →
    Memory.get t.mem.hbm k = Memory.get s.mem.hbm k

/-- HANDOVER and the deadline, which may record a DECISION in the step's manifest, and the partner's manifest write no memory but the step log
they belong to, and change no context and no queue (R289, R320, R321). -/
def manifestFrame : Prop :=
  (∀ a b, Keeps manifestKept (.handover a b)) ∧ (∀ a, Keeps manifestKept (.deadlineExpiry a)) ∧ (∀ a, Keeps manifestKept (.stepManifestReceive a)) ∧
  (∀ a b, WritesRing 32 (.handover a b)) ∧ (∀ a, WritesRing 32 (.deadlineExpiry a)) ∧ (∀ a, WritesRing 40 (.stepManifestReceive a))

/-- What the commands of `testFrame` leave as it is; a CLUSTER_TEST accepted in FIXING starts at the end of the stop (R248). -/
def testKept (s : State) :=
  ({ s.dev with starts := [] }, s.conf, s.sync, s.ctxs, s.arrays, s.tokens, s.grp, s.colls, s.fix, s.pow, s.board, s.flash, s.bnd, bytes s)

/-- The self-test commands until their results change no context, no memory bytes, no configuration and no group. -/
def testFrame : Prop :=
  (∀ a, Keeps testKept (.bistRun a)) ∧ (∀ a, Keeps testKept (.clusterTest a)) ∧ (∀ a b, Keeps testKept (.clusterTestResult a b)) ∧
  (∀ a, Keeps testKept (.marginScan a)) ∧ (∀ a, Keeps testKept (.marginScanComplete a)) ∧ (∀ a, Keeps testKept (.hbmRecal a)) ∧
  (∀ a, Keeps testKept (.hbmRecalStackComplete a))

/-- What the commands of `registerFrame` leave as it is. -/
def registerKept (s : State) :=
  (s.dev, s.chart, s.slots, s.conf, s.mem, s.sync, s.arrays, s.tokens, s.fab, s.grp, s.colls, s.fix, s.pow, s.board, s.mgmt, s.flash, s.test, s.bnd, bytes s)

/-- Writes of registers, doorbells and the host link leave the chart, the configuration, the group and all memory as they are. -/
def registerFrame : Prop :=
  (∀ a b, Keeps registerKept (.sqTail a b)) ∧ (∀ a b, Keeps registerKept (.cqHead a b)) ∧ (∀ a, Keeps registerKept (.eventCause a)) ∧
  (∀ a, Keeps registerKept (.eventMask a)) ∧ Keeps registerKept .queueErr ∧ (∀ a, Keeps registerKept (.adminEnable a)) ∧
  (∀ a, Keeps registerKept (.adminDisable a)) ∧ (∀ a b, Keeps registerKept (.fpFlags a b)) ∧
  (∀ a b, Keeps registerKept (.registerWrite a b)) ∧ (∀ a, Keeps registerKept (.hostLinkDlActive a))

end Sys2Proof.Claims
end

