-- ==== Sys2Proof/Certificates/Slice0/ClaimsGroup.lean ====
section
/-! DEFINITION. Claims about the group: joining, its chart, heartbeats and losses, remote operations, HANDOVER, deadline and DECISION. -/
namespace Sys2Proof.Claims
open Sys2Proof.Machine

/-- FEED_OVERRIDE is the manager's: it sets or clears the override; elsewhere ST_ROLE (R326, R334). -/
def feedOverride : Prop := ∀ p s, Accepted 0x0622 (chkFeedOverride p) p s →
  (s.grp.manager = true → exec (.feedOverride p) s = .next (completeOk p 0x0622 { owe p s with grp := { s.grp with feedOverride := pf p 0 1 == 1 } })) ∧
  (s.grp.manager = false → exec (.feedOverride p) s = .next (completeOpen p 0x0622 stROLE (owe p s)))

/-- ROLE_SET outside a group, in HOLD or READY, makes the module manager or standby of a group; otherwise 0x0B20 (R283). -/
def roleSet : Prop := ∀ p s, Accepted 0x0620 (chkRoleSet p) p s →
  (inGroup s = false → s.dev.st = .hold ∨ s.dev.st = .ready →
    exec (.roleSet p) s = .next (completeOk p 0x0620 (takeRole (pf p 0 1 == 1) (pf p 4 4) (owe p s)))) ∧
  (inGroup s = true → exec (.roleSet p) s = .next (completeWith p 0x0620 stBUSY 0x0B20 (owe p s)))

/-- GROUP_JOIN on the manager, outside a job: the joining module takes the lowest free rank of its role and a record in state JOINING; the
completion's VALUE gives the rank in its low 16 bits (R281, R283). -/
def groupJoin : Prop := ∀ p s r, Accepted 0x0510 (chkGroupJoin p) p s → pf p 5 1 = s.dev.level → pf p 0 4 = s.grp.groupId →
  s.dev.jobRunning = false → r < 65536 → freeRank (owe p s) (pf p 4 1 == 1) = some r →
  ∃ t v, exec (.groupJoin p) s = .next (changeChart (insertRec
      { rank := r, state := 1, level := pf p 5 1, feed := pf p 6 1, serialLow := BitVec.ofNat 32 (pf p 12 4) } t.grp.recs) t) ∧
    t = complete p 0x0510 0 none (some v) 0xFFFF [] (freshValue (owe p s)).2 ∧ v.toNat % 65536 = r

/-- GROUP_JOIN's refusals: level, group, no free rank, a compute module while the job runs (R5, R283). -/
def groupJoinRefused : Prop := ∀ p s, Accepted 0x0510 (chkGroupJoin p) p s →
  (pf p 5 1 ≠ s.dev.level → exec (.groupJoin p) s = .next (completeOpen p 0x0510 stLEVEL (owe p s))) ∧
  (pf p 5 1 = s.dev.level → pf p 0 4 ≠ s.grp.groupId → exec (.groupJoin p) s = .next (completeWith p 0x0510 stBADPARAM 0x0B21 (owe p s))) ∧
  (pf p 5 1 = s.dev.level → pf p 0 4 = s.grp.groupId → freeRank (owe p s) (pf p 4 1 == 1) = none →
    exec (.groupJoin p) s = .next (completeWith p 0x0510 stBUSY 0x0B22 (owe p s))) ∧
  (pf p 5 1 = s.dev.level → pf p 0 4 = s.grp.groupId → ∀ r, freeRank (owe p s) (pf p 4 1 == 1) = some r → pf p 4 1 = 0 →
    s.dev.jobRunning = true → exec (.groupJoin p) s = .next (completeWith p 0x0510 stBUSY 0x0B23 (owe p s)))

/-- The manager takes a module in only when it runs the group's level; at another level the answer is ST_LEVEL_UNSUPPORTED, and the group chart
stays as it was (R5). -/
def groupLevel : Prop := (∀ p s t, exec (.groupJoin p) s = .next t → t.grp.recs ≠ s.grp.recs → pf p 5 1 = s.dev.level) ∧
  ∀ p s, Accepted 0x0510 (chkGroupJoin p) p s → pf p 5 1 ≠ s.dev.level →
    exec (.groupJoin p) s = .next (completeOpen p 0x0510 0x0060 (owe p s)) ∧ (completeOpen p 0x0510 0x0060 (owe p s)).grp = s.grp

/-- GROUP_CHART_GET answers with the 16-byte header and 16 bytes for each record (R282). -/
def groupChartGet : Prop := ∀ p s, Accepted 0x0511 (chkGroupChart p) p s →
  exec (.groupChartGet p) s = .next (withSlot p 4368 (owe p s) (fun idx t => finishSlot p 0x0511 idx 0 (groupChartPayload t) t))

/-- The manager publishes a changed group chart and its route tables, and takes these tables itself; a change of the present members calls for
a new pairing (R280, R282, R325). -/
def groupChartChange : Prop := ∀ recs routes s, s.grp.manager = true → recsOk recs = true → routesOk routes = true →
  recs.any (fun r => r.rank == s.grp.rank && r.state == 0) = true →
  (takeRoutes routes s).fab.routes = routes.foldl (fun t e => tset t e.1 e.2) [] ∧
  ∃ u t, u = changeChart (recs.foldr insertRec []) (takeRoutes routes s) ∧
    t = (if presentRanks u = presentRanks s then u else { u with grp := { u.grp with pairingDue := true } }) ∧
    exec (.groupChartChange recs routes) s = .next (sendAll 1 "ROUTES" (routes.flatMap (fun e => e.1 :: e.2.length :: e.2)) (chartReaders t) t)

/-- A member takes a newer chart of its group as it stands (R282, R285). -/
def groupChartPublication : Prop := ∀ ep gen m d recs routes s, s.grp.manager = false → s.grp.joined = true → recsOk recs = true →
  routesOk routes = true → (s.grp.recs = [] ∨ epochOlder s.grp.epoch ep = true) →
  ∃ t, exec (.groupChartPublication ep gen m d recs routes) s = .next (chartTaken s.grp.recs s.grp.consort t) ∧
    t.grp.epoch = ep ∧ t.grp.gen = gen ∧ t.grp.managerRank = m ∧ t.grp.deputy = d ∧ t.grp.recs = recs.foldr insertRec [] ∧ t.mem = s.mem

/-- A member beats to its manager with its rank, its sea state and its two power flags; a standby under its own rank while it pulls (R285, R324). -/
def heartbeatSend : Prop := ∀ s, inGroup s = true → s.dev.st ≠ .failed → s.dev.st ≠ .off → s.grp.manager = false →
  exec .groupHeartbeatSend s = .next (sendMsg 1 s.grp.managerRank "HEARTBEAT"
    [ownRank s, s.fix.sea, if s.pow.reefHigh then 1 else 0, if s.pow.thermalLatched then 1 else 0] s) ∧
  (s.fix.home = none → ownRank s = s.grp.rank) ∧ (∀ h, s.fix.home = some h → ownRank s = h.rank)

/-- The latest beat of a sender is kept, not timed out (R329, R340). -/
def heartbeatReceive : Prop := ∀ r sea hi th s, inGroup s = true → (groupRec s r).isSome = true → r ≠ s.grp.rank →
  (s.grp.manager = true ∨ r = s.grp.managerRank) →
  ∃ t, exec (.groupHeartbeatReceive r sea hi th) s = .next t ∧ tget t.grp.beats r = some ⟨sea, hi, th, false⟩ ∧
    { t with grp := { t.grp with beats := s.grp.beats } } = s

/-- A missed heartbeat sends a probe on two ports (R329). -/
def heartbeatTimeout : Prop := ∀ r s, inGroup s = true → watches s r = true →
  ∃ t, exec (.heartbeatTimeout r) s = .next (sendMsg 1 r "PROBE" [s.grp.rank, 0] (sendMsg 1 r "PROBE" [s.grp.rank, 1] t)) ∧
    tget t.grp.beats r = some { (tget s.grp.beats r).getD {} with timedOut := true }

/-- An unanswered probe: the manager declares the module lost; the deputy takes the manager's role, with the seals the mirror told it of, and
declares the former manager lost (R285, R329). -/
def probeTimeout : Prop := ∀ r b s, inGroup s = true → watches s r = true → tget s.grp.beats r = some b → b.timedOut = true →
  (s.grp.manager = true → exec (.probeTimeout r) s = .next (declareLost r s)) ∧
  (s.grp.manager = false → exec (.probeTimeout r) s =
    .next (declareLost s.grp.managerRank { s with
      grp := { s.grp with manager := true, managerRank := s.grp.rank }, fix := { s.fix with seals := s.fix.seals ++ mirroredSeals s } }))

/-- A probe is answered on the port it came on (R285). -/
def probeReceive : Prop := ∀ r k s, k < 6 → (portOf s k).up = true → inGroup s = true → (r = s.grp.managerRank ∨ r = s.grp.deputy) →
  exec (.probeReceive r k) s = .next (sendMsg 1 r "PROBE_REPLY" [ownRank s, k] s)

/-- A FAILED notice declares the module lost (R308, R329). -/
def failedNotice : Prop := ∀ r s, s.grp.manager = true → mayLose s r = true → exec (.failedNotice r) s = .next (declareLost r s)

/-- A present member that has not arrived by the muster limit is declared lost (R290). -/
def musterLimit : Prop := ∀ r s, s.grp.manager = true → s.dev.jobRunning = true → mayLose s r = true → r ∈ presentRanks s → r ∉ s.grp.arrived →
  exec (.musterLimitExpiry r) s = .next (declareLost r s)

/-- The loss of a module that is still JOINING, or of a member outside a job, is only marked; that of a present member calls for a new pairing
(R325, R329). -/
def lossMarked : Prop := ∀ rank r s, groupRec s rank = some r → r.role ≠ 3 → (r.state = 1 ∨ (s.dev.jobRunning = false ∧ s.fix.recovering = none)) →
  ∃ t, t = changeChart (s.grp.recs.map (fun x => if x.rank = rank then { x with state := 2 } else x)) s ∧
    declareLost rank s = (if r.state = 0 then { t with grp := { t.grp with pairingDue := true } } else t)

/-- A module whose GROUP_JOIN is answered with ST_OK is a member under the rank of the reply (R281, R283). -/
def ilzanReplyJoin : Prop := ∀ m v s, s.dev.st ≠ .off → inGroup s = false → s.grp.manager = false → admitState s ≠ .anchored →
  exec (.ilzanReplyReceive m 0x0510 0 v) s = .next (joinGroup m (v.toNat % 65536) s) ∧
  (joinGroup m (v.toNat % 65536) s).grp.joined = true ∧ (joinGroup m (v.toNat % 65536) s).grp.rank = v.toNat % 65536 ∧
  (joinGroup m (v.toNat % 65536) s).grp.managerRank = m

/-- A worker whose JOB_START completes other than with ST_OK is declared lost by its manager; a completion with ST_OK changes nothing (R132). -/
def jobStartReply : Prop := ∀ r st v s, s.dev.st ≠ .off → s.grp.manager = true → mayLose s r = true →
  exec (.ilzanReplyReceive r 0x0140 st v) s = .next (if st = 0 then s else declareLost r s)

/-- A remote operation reaches a REMOTE cell, and nothing of one on another cell happens but its count (R219); one of a FAILED rank is
discarded (R298). -/
def remoteSync : Prop := ∀ r cell act s, inGroup s = true → r ≠ s.grp.rank → cell < 65536 →
  (rankFailed s r = true → exec (.remoteSyncOperation r cell act) s = .next s) ∧
  (rankFailed s r = false → musterArrival s r cell act = false → remoteCell s cell = true →
    exec (.remoteSyncOperation r cell act) s = .next (syncApply { unit := 0, rank := some r } cell act s)) ∧
  (rankFailed s r = false → musterArrival s r cell act = false → remoteCell s cell = false →
    exec (.remoteSyncOperation r cell act) s = .next { s with sync := { s.sync with remoteRefused := sat32 s.sync.remoteRefused 1 } })

/-- A member's ARRIVE of the step-close muster is noted and applied to the manager's reserved cell (R215, R286). -/
def musterArrive : Prop := ∀ r cell v t s, inGroup s = true → r ≠ s.grp.rank → cell < 65536 → rankFailed s r = false → s.grp.manager = true →
  reservedCell cell = true → r ∈ presentRanks s →
  exec (.remoteSyncOperation r cell (.arrive v t)) s = .next (syncApply { unit := 0, rank := some r } cell (.arrive v t)
    { s with grp := { s.grp with arrived := ninsert s.grp.arrived r } })

/-- A HANDOVER of the step is taken; a DEFERRED member's late one of the step before, ahead of the DECISION, takes it off the owing (R286, R288). -/
def handover : Prop := ∀ r st s, s.grp.manager = true → inGroup s = true → s.dev.jobRunning = true → r ∈ presentRanks s →
  (st = s.dev.step → r ∉ s.grp.handovers → exec (.handover r st) s = .next (takeHandover r s)) ∧
  (st + 1 = s.dev.step → r ∈ s.grp.owing → decisionOut s = false → exec (.handover r st) s =
    .next { s with grp := { s.grp with owing := s.grp.owing.filter (fun x => x != r) } })

/-- The deadline of a step sends DECISION: every present member without HANDOVER, DEFERRED or by POLICY 1 of kind 2, and the expired ones
(R287, R288); under dead reckoning it is ignored (R289). -/
def deadlineExpiry : Prop := ∀ s, s.grp.manager = true → inGroup s = true → s.dev.jobRunning = true → decisionOut s = false → hasDeadline s = true →
  (replaying s = true → exec (.deadlineExpiry s.dev.step) s = .next s) ∧
  (replaying s = false → exec (.deadlineExpiry s.dev.step) s = .next (sendDecision (((presentRanks s).filter
    (fun r => decide (r ∉ s.grp.handovers))).map (fun r => ⟨r, if s.grp.deadline.policy = 0 then 1 else 2⟩) ++ expiredEntries s) s))

/-- DECISION of the step on a member it does not list: the straggler record is written, the decision is known, no cut is made (R288). -/
def decisionUnlisted : Prop := ∀ l s, inGroup s = true → s.dev.jobRunning = true → decidedNow s = false →
  (∀ e, e ∈ l → 1 ≤ e.kind ∧ e.kind ≤ 3) → s.grp.manager = false → ownKind s l 1 = false →
  exec (.decision s.dev.step l) s = .next (settleDecision s.dev.step l { recordStragglers s.dev.step l s with
    grp := { (recordStragglers s.dev.step l s).grp with decided := some (s.dev.step, l) } })

/-- DECISION that defers this member, with a WAKE group and no replay: the cut is made (R152, R156, R288). -/
def decisionDeferred : Prop := ∀ l s, inGroup s = true → s.dev.jobRunning = true → decidedNow s = false →
  (∀ e, e ∈ l → 1 ≤ e.kind ∧ e.kind ≤ 3) → s.grp.manager = false → ownKind s l 1 = true → replaying s = false → anyWake s = true →
  ∃ t, t = { recordStragglers s.dev.step l s with grp := { (recordStragglers s.dev.step l s).grp with decided := some (s.dev.step, l) } } ∧
    exec (.decision s.dev.step l) s = .next (settleDecision s.dev.step l (makeCut (cutNow t) t))

end Sys2Proof.Claims
end

