-- ==== Sys2Proof/Certificates/Slice0/ClaimsHost.lean ====
section
/-! DEFINITION. Claims about group 0x00xx, the queues and the writable registers: one clause for each command, saying where it completes
and what the next state is. -/
namespace Sys2Proof.Claims
open Sys2Proof.Machine

/-- NOP only completes. -/
def nop : Prop := ∀ p s, Accepted 0x0000 (chkNop p) p s → exec (.nop p) s = .next (completeOk p 0x0000 (owe p s))

/-- IDENTIFY fills a slot of 64 bytes. -/
def identify : Prop := ∀ p s, Accepted 0x0001 (chkIdentify p) p s →
  exec (.identify p) s = .next (withSlot p 64 (owe p s) (fun idx t => finishSlot p 0x0001 idx 0 (identifyPayload t) t))

/-- RESULT_READ of a ready slot by a host queue: the bytes go to DEST, VALUE holds STATUS, the count of earlier reads and the payload's length,
and the slot stays with its count raised, or goes when it is to be released and its last byte was read. -/
def resultReadHost : Prop := ∀ p s q sl, p.src = .host q → Accepted 0x0010 (chkResultRead p) p s →
  slotNamed s (pf p 0 2) .host = some sl → sl.ready = true → pf p 4 4 + pf p 8 4 ≤ sl.payload.length →
  ∃ u, exec (.resultRead p) s = .next (complete p 0x0010 0 (some sl.detail)
      (some (BitVec.ofNat 64 (sl.status + sl.reads * 2 ^ 16 + sl.payload.length * 2 ^ 32))) 0xFFFF [] u) ∧
    u.host.mem = Memory.setN s.host.mem (pf p 12 8) ((sl.payload.drop (pf p 4 4)).take (pf p 8 4)) ∧ u.mem = s.mem ∧ u.ctxs = s.ctxs ∧
    tget u.slots.s (pf p 0 2 % 512) =
      (if sl.autoRelease ∧ pf p 4 4 + pf p 8 4 = sl.payload.length then none else some { sl with reads := satAdd 16 sl.reads 1 })

/-- RESULT_READ of a ready slot over the fabric or MCTP returns the bytes in the reply and writes no host memory. -/
def resultReadReply : Prop := ∀ p s sl, isHost p.src = false → pf p 12 8 = 0 → Accepted 0x0010 (chkResultRead p) p s →
  slotNamed s (pf p 0 2) (ownerOf p.src) = some sl → sl.ready = true → pf p 4 4 + pf p 8 4 ≤ sl.payload.length →
  ∃ u, exec (.resultRead p) s = .next (complete p 0x0010 0 (some sl.detail)
      (some (BitVec.ofNat 64 (sl.status + sl.reads * 2 ^ 16 + sl.payload.length * 2 ^ 32))) 0xFFFF
      ((sl.payload.drop (pf p 4 4)).take (pf p 8 4)) u) ∧ u.host = s.host ∧ u.mem = s.mem

/-- RESULT_READ of a slot that is not ready completes with ST_NOT_READY, and of no such slot with 0x0A07. -/
def resultReadRefused : Prop := ∀ p s, p.src = .host 0 → Accepted 0x0010 (chkResultRead p) p s →
  (slotNamed s (pf p 0 2) .host = none → exec (.resultRead p) s = .next (completeWith p 0x0010 stBADPARAM 0x0A07 (owe p s))) ∧
  (∀ sl, slotNamed s (pf p 0 2) .host = some sl → sl.ready = false →
    exec (.resultRead p) s = .next (completeOpen p 0x0010 stNOTREADY (owe p s)))

/-- RESULT_RELEASE frees a ready slot at once and a pending one when its producer finishes. -/
def resultRelease : Prop := ∀ p s sl, Accepted 0x0011 (chkResultRelease p) p s → slotNamed s (pf p 0 2) (ownerOf p.src) = some sl →
  exec (.resultRelease p) s = .next (completeOk p 0x0011 (
    if sl.ready then slotDrop (pf p 0 2) (owe p s)
    else { owe p s with slots := { s.slots with s := tset s.slots.s (pf p 0 2 % 512) { sl with releaseLate := true } } }))

/-- CHART_GET copies the chart into a slot. -/
def chartGet : Prop := ∀ p s, Accepted 0x0020 (chkChartGet p) p s →
  exec (.chartGet p) s = .next (withSlot p (16 + 1600 + 8 * 4314) (owe p s) (fun idx t => finishSlot p 0x0020 idx 0 (chartPayload t) t))

/-- SKEW_LOG_GET copies the chart-skew log into a slot. -/
def skewLogGet : Prop := ∀ p s, Accepted 0x0021 (chkSkewLogGet p) p s →
  exec (.skewLogGet p) s = .next (withSlot p (16 + 16 * 256) (owe p s) (fun idx t => finishSlot p 0x0021 idx 0 (skewPayload t) t))

/-- STATUS_GET returns DEVICE_STATE in bits 31:0 and CHART_EPOCH in bits 63:32 of VALUE. -/
def statusGet : Prop := ∀ p s, Accepted 0x0030 (chkStatusGet p) p s →
  exec (.statusGet p) s = .next (complete p 0x0030 0 none (some (BitVec.ofNat 64 (deviceState s + s.chart.epoch.toNat * 2 ^ 32))) 0xFFFF [] (owe p s))

/-- REG_READ returns the register in bits 31:0 of VALUE, and a read of QUEUE_ERR clears it. -/
def regRead : Prop := ∀ p s, Accepted 0x0031 (chkRegRead p) p s →
  ∃ x u, exec (.regRead p) s = .next (complete p 0x0031 0 none (some x) 0xFFFF [] u) ∧ x.toNat % 2 ^ 32 = regValue s (pf p 0 4) % 2 ^ 32 ∧
    u.regs = (if pf p 0 4 = 0x20 then { s.regs with queueErrCode := 0, queueErrQueue := 0 } else s.regs) ∧ u.mem = s.mem ∧ u.dev = s.dev

/-- QUEUE_CREATE makes an empty queue pair, running, with PHASE 1. -/
def queueCreate : Prop := ∀ p s, Accepted 0x0002 (chkQueueCreate p) p s →
  ctxOfQueue (pf p 0 2) = p.ctx → (ctxOf s p.ctx).isSome = true → tget s.queues.q (pf p 0 2) = none →
  depthOk (pf p 4 4) = true → pf p 8 8 % 4096 = 0 → pf p 16 8 % 4096 = 0 →
  exec (.queueCreate p) s = .next (completeOk p 0x0002 { owe p s with queues := { s.queues with
    q := tset (owe p s).queues.q (pf p 0 2) { depth := pf p 4 4, sqBase := pf p 8 8, cqBase := pf p 16 8, irq := bitAt (pf p 2 1) 0 } } })

/-- QUEUE_CREATE's own refusals, in the order of R239: the context, the queue that exists, depth and bases. -/
def queueCreateRefused : Prop := ∀ p s, Accepted 0x0002 (chkQueueCreate p) p s → ctxOfQueue (pf p 0 2) = p.ctx →
  (ctxOf s p.ctx = none → exec (.queueCreate p) s = .next (completeWith p 0x0002 stBADPARAM 0x0A01 (owe p s))) ∧
  ((ctxOf s p.ctx).isSome = true → (tget s.queues.q (pf p 0 2)).isSome = true →
    exec (.queueCreate p) s = .next (completeWith p 0x0002 stBADPARAM 0x0A02 (owe p s))) ∧
  ((ctxOf s p.ctx).isSome = true → tget s.queues.q (pf p 0 2) = none →
    (depthOk (pf p 4 4) = false ∨ pf p 8 8 % 4096 ≠ 0 ∨ pf p 16 8 % 4096 ≠ 0) →
    exec (.queueCreate p) s = .next (completeWith p 0x0002 stBADPARAM 0x0A04 (owe p s)))

/-- QUEUE_DELETE removes a queue that owes no completion. -/
def queueDelete : Prop := ∀ p s x, Accepted 0x0003 (chkQueueDelete p) p s → p.src = .host 0 → ctxOfQueue (pf p 0 2) = p.ctx → pf p 0 2 ≠ 0 →
  tget s.queues.q (pf p 0 2) = some x → x.owing = 0 →
  exec (.queueDelete p) s = .next (completeOk p 0x0003 { owe p s with queues := { s.queues with q := tdel (owe p s).queues.q (pf p 0 2) } })

/-- SQ_TAIL takes a tail that is in range and does not move back behind the tail it had. -/
def sqTail : Prop := ∀ q (v : Word) s x, q ≤ 64 → tget s.queues.q q = some x → x.stopped = false → v.toNat < x.depth →
  (x.sqTail + x.depth - x.head) % x.depth ≤ (v.toNat + x.depth - x.head) % x.depth →
  exec (.sqTail q v) s = .next { s with queues := { s.queues with q := tmod s.queues.q q (fun y => { y with sqTail := v.toNat }) } }

/-- SQ_TAIL out of range latches error 0x1 and stops the queue. -/
def sqTailError : Prop := ∀ q (v : Word) s x, q ≤ 64 → tget s.queues.q q = some x → x.stopped = false → x.depth ≤ v.toNat →
  exec (.sqTail q v) s = .next (queueError q 1 s)

/-- CQ_HEAD frees the entries between the old head and the new. -/
def cqHead : Prop := ∀ q (v : Word) s x, q ≤ 64 → tget s.queues.q q = some x → v.toNat < x.depth →
  (v.toNat + x.depth - x.cqHead) % x.depth ≤ x.cqUsed →
  exec (.cqHead q v) s = .next { s with queues := { s.queues with
    q := tmod s.queues.q q (fun y => { y with cqHead := v.toNat, cqUsed := y.cqUsed - (v.toNat + x.depth - x.cqHead) % x.depth }) } }

/-- SQ_FETCH reads the 512-byte slot at the head of the queue whose turn it is, advances the head and takes the command up. -/
def sqFetch : Prop := ∀ q s x, tget s.queues.q q = some x → x.held = [] → fetches s = true → fetchable (q, x) = true → turnOf s = some q →
  exec (.sqFetch q) s = .next (runPacket (slotCommand q x s).1 (acceptOp (slotCommand q x s).1) (slotCommand q x s).2
    { s with queues := { q := tmod s.queues.q q (fun y => { y with head := (y.head + 1) % y.depth }), lastTurn := q } })

/-- SQ_FETCH of a queue with a command that waits and need not wait any longer accepts it. -/
def sqFetchHeld : Prop := ∀ q s x op p, tget s.queues.q q = some x → releasable s x = some (op, p) → s.dev.st ≠ .off → s.dev.takeover = false →
  exec (.sqFetch q) s = .next (acceptOp op p { s with queues := { s.queues with q := tmod s.queues.q q (fun y => { y with held := y.held.drop 1 }) } })

/-- COMPLETION_POST writes the 32-byte entry at the CQ's tail and sends the queue's MSI-X entry when IRQ is 1; of a masked entry it sets the
pending bit. -/
def completionPost : Prop := ∀ q s x c r, tget s.queues.q q = some x → x.ready = c :: r → q < 1000 → x.cqUsed < x.depth → s.host.linkUp = true →
  s.host.perst = false → s.dev.takeover = false →
  ∃ u, exec (.completionPost q) s = .next (endAdminStop u) ∧
    u.host.mem = Memory.setN s.host.mem (x.cqBase + 32 * x.cqTail) (entryBytes q x s.chart.epoch c) ∧
    u.host.msix = s.host.msix ++ (if x.irq ∧ q ∉ s.host.msixMasked then [q] else []) ∧
    (x.irq = true → q ∈ s.host.msixMasked → q ∈ u.host.msixPending) ∧
    u.queues.q = tmod s.queues.q q (fun _ => { x with ready := r, cqTail := (x.cqTail + 1) % x.depth, cqUsed := x.cqUsed + 1
                                                      phase := if x.cqTail + 1 = x.depth then !x.phase else x.phase
                                                      owing := if c.status = stFAULTPENDING then x.owing else x.owing - 1 }) ∧
    u.mem = s.mem ∧ u.ctxs = s.ctxs ∧ u.dev = s.dev

/-- EVENT_CAUSE is written with 1 to clear. -/
def eventCause : Prop := ∀ v s, exec (.eventCause v) s = .next { s with regs := { s.regs with eventCause := s.regs.eventCause &&& ~~~v } }

/-- EVENT_MASK takes the value; unmasking a bit that is set sends MSI-X entry 65, or sets its pending bit where it is masked. -/
def eventMask : Prop := ∀ v s, exec (.eventMask v) s = .next (
  if s.regs.eventMask &&& ~~~v &&& s.regs.eventCause = 0 then { s with regs := { s.regs with eventMask := v } }
  else sendMsix 65 { s with regs := { s.regs with eventMask := v } })

/-- QUEUE_ERR reads as the latched error and clears it. -/
def queueErr : Prop := ∀ s, exec .queueErr s = .next { s with
  regs := { s.regs with queueErrCode := 0, queueErrQueue := 0 }
  host := { s.host with readback := BitVec.ofNat 32 (s.regs.queueErrCode * 2 ^ 16 + s.regs.queueErrQueue) } }

/-- ADMIN_ENABLE with good registers starts queue 0, empty and with PHASE 1. -/
def adminEnable : Prop := ∀ (v : Word) s, v.getLsbD 31 = true → s.regs.adminEnable = false → s.regs.adminReady = false →
  depthOk (v.toNat % 65536 + 1) = true → s.regs.adminSqBase.toNat % 4096 = 0 → s.regs.adminCqBase.toNat % 4096 = 0 →
  exec (.adminEnable v) s = .next { s with
    regs := { s.regs with adminIrq := bitAt v.toNat 16, adminDepthM1 := v.toNat % 65536, adminEnable := true, adminReady := true }
    queues := { s.queues with q := tset s.queues.q 0 { depth := v.toNat % 65536 + 1, sqBase := s.regs.adminSqBase.toNat,
                                                       cqBase := s.regs.adminCqBase.toNat, irq := bitAt v.toNat 16 } } }

/-- ADMIN_ENABLE with a depth outside the list or a base that is not 4 KiB aligned latches error 0x6: READY stays 0 and queue 0 is stopped, so that
its doorbell is ignored. -/
def adminEnableBad : Prop := ∀ (v w : Word) s, v.getLsbD 31 = true → s.regs.adminEnable = false → s.regs.adminReady = false →
  (depthOk (v.toNat % 65536 + 1) = false ∨ s.regs.adminSqBase.toNat % 4096 ≠ 0 ∨ s.regs.adminCqBase.toNat % 4096 ≠ 0) →
  ∃ t, exec (.adminEnable v) s = .next t ∧ t.regs.adminReady = false ∧ t.regs.adminEnable = true ∧
    t.regs.eventCause = s.regs.eventCause ||| 1 ∧ (tget t.queues.q 0).map (fun x => x.stopped) = some true ∧
    (s.regs.queueErrCode = 0 → t.regs.queueErrCode = 6 ∧ t.regs.queueErrQueue = 0) ∧ exec (.sqTail 0 w) t = .next t ∧
    t.mem = s.mem ∧ t.ctxs = s.ctxs ∧ t.dev = s.dev ∧ (∀ q, q ≠ 0 → tget t.queues.q q = tget s.queues.q q)

/-- ADMIN_DISABLE with no command in flight takes queue 0 away; with one in flight fetching stops and READY stays 1. -/
def adminDisable : Prop := ∀ (v : Word) s x, v.getLsbD 31 = false → s.regs.adminEnable = true → tget s.queues.q 0 = some x →
  ∃ t, exec (.adminDisable v) s = .next t ∧ t.regs.adminEnable = false ∧
    (x.owing = 0 → t.regs.adminReady = false ∧ tget t.queues.q 0 = none) ∧
    (0 < x.owing → t.regs.adminReady = s.regs.adminReady ∧ tget t.queues.q 0 = some { x with stopping := true })

/-- FP_FLAGS of a loaded context is written with 1 to clear. -/
def fpFlags : Prop := ∀ c v s, c < 16 → exec (.fpFlags c v) s = .next { s with
  ctxs := tmod s.ctxs c (fun x => { x with fpFlags := x.fpFlags &&& ~~~v }) }

/-- REGISTER_WRITE of an offset that is not writable changes nothing. -/
def registerWriteIgnored : Prop := ∀ off v s, (off % 4 ≠ 0 ∨ off ∈ [0x00, 0x04, 0x08, 0x0C, 0x10, 0x14, 0x20] ∨ 0x20000 ≤ off) →
  exec (.registerWrite off v) s = .next s

/-- REGISTER_WRITE of a half of a base of the admin queue takes effect while ENABLE is 0 only. -/
def registerWriteBase : Prop := ∀ (v : Word) s,
  (s.regs.adminEnable = true → exec (.registerWrite 0x30 v) s = .next s ∧ exec (.registerWrite 0x3C v) s = .next s) ∧
  (s.regs.adminEnable = false → exec (.registerWrite 0x30 v) s = .next { s with regs := { s.regs with
      adminSqBase := BitVec.ofNat 64 (s.regs.adminSqBase.toNat / 2 ^ 32 * 2 ^ 32 + v.toNat) } } ∧
    exec (.registerWrite 0x3C v) s = .next { s with regs := { s.regs with
      adminCqBase := BitVec.ofNat 64 (s.regs.adminCqBase.toNat % 2 ^ 32 + v.toNat * 2 ^ 32) } })

/-- PERST_N asserted: the queue registers take their reset values, no doorbell names a queue, memory, contexts' scale records and device state stay. -/
def perstN : Prop := ∀ s, ∃ t, exec (.perstN true) s = .next t ∧ t.host.linkUp = false ∧ t.host.perst = true ∧
  t.regs = { s.regs with queueErrCode := 0, queueErrQueue := 0, adminSqBase := 0, adminCqBase := 0, adminEnable := false, adminReady := false, adminIrq := false, adminDepthM1 := 0xFF } ∧
  (∀ q, q ≤ 64 → tget t.queues.q q = none) ∧ t.mem.hbm = s.mem.hbm ∧ t.dev.st = s.dev.st ∧ t.slots = s.slots ∧ t.chart = s.chart ∧
  t.ctxs.map (fun e => (e.1, e.2.scales, e.2.parked, e.2.resident)) = s.ctxs.map (fun e => (e.1, e.2.scales, e.2.parked, e.2.resident))

/-- PERST_N deasserted lets the link train and changes nothing else. -/
def perstNEnds : Prop := ∀ s, exec (.perstN false) s = .next { s with host := { s.host with perst := false } }

/-- CXL_MEM_ACCESS inside the open window reads device memory, and writes it. -/
def cxlMemAccess : Prop := ∀ off len data s ds, s.host.linkUp = true → s.host.perst = false → windowOpen s = true →
  (cxlDpas s off len = some ds → exec (.cxlMemAccess false off len data) s = .next { s with host := { s.host with cxlData := readDpas s ds } }) ∧
  (cxlDpas s off data.length = some ds → runsWait s ds data = false → exec (.cxlMemAccess true off len data) s = .next (writeDpas ds data s))

/-- CXL_MEM_ACCESS outside the window: a read is poison, a write changes nothing. -/
def cxlMemOutside : Prop := ∀ off len data s, s.host.linkUp = true → s.host.perst = false → windowOpen s = false →
  exec (.cxlMemAccess false off len data) s = .next { s with host := { s.host with cxlData := none } } ∧
  exec (.cxlMemAccess true off len data) s = .next s

end Sys2Proof.Claims
end

