-- ==== Sys2Proof/Certificates/Slice0/ClaimsKernel.lean ====
section
/-! DEFINITION. Claims about kernel descriptors: their dispatch and issue, the kernels of the arrays and of the vector units, chains and
gangs, halo stamps and stripe sets. -/
namespace Sys2Proof.Claims
open Sys2Proof.Machine

/-- KERNEL_DISPATCH of a descriptor that no check refuses: it is placed in the context's dispatcher. -/
def kernelDispatch : Prop := ∀ p s x, Accepted 0x0300 (chkKernel p (owe p s)) p s → ctxOf s p.ctx = some x →
  firstBad (kernelRefusals (owe p s) x p.ctx (queueOf p) (kernelWork p s.nextId)) = none →
  exec (.kernelDispatch p) s = .next (placeKernel p.ctx (kernelWork p s.nextId) { owe p s with nextId := s.nextId + 1 })

/-- KERNEL_DISPATCH that a check refuses completes with the first failing check's status and detail and places nothing. -/
def kernelDispatchRefused : Prop := ∀ p s x st d, Accepted 0x0300 (chkKernel p (owe p s)) p s → ctxOf s p.ctx = some x →
  firstBad (kernelRefusals (owe p s) x p.ctx (queueOf p) (kernelWork p s.nextId)) = some (st, d) →
  exec (.kernelDispatch p) s = .next (complete p 0x0300 st d none 0xFFFF [] (owe p s))

/-- Descriptor `id` of context `c` is the work item `w`. -/
abbrev IsWork (c id : Nat) (s : State) (x : Ctx) (w : Work) : Prop := ctxOf s c = some x ∧ x.work id = some w

/-- The descriptor as it issues: with the stripe sets of its step, and the halo waits of its stripes that have not ended (R122, R124). -/
def issuedWork (s : State) (x : Ctx) (w : Work) : Work :=
  { takeSets s x w with st := .issued, halo := waitsLeft s (haloWaits x (takeSets s x w)) }

/-- DESCRIPTOR_ISSUE of a descriptor no unit of which has a newer change epoch: it is issued. -/
def descriptorIssue : Prop := ∀ c id s x w, IsWork c id s x w → w.opcode = 0x0300 → w.st = .waiting → mayStart s x w = true → staleClusters s w = [] →
  exec (.descriptorIssue c id) s = .next (noteBegun x w (noteStripes c (issuedWork s x w) (workMod c w.id (fun _ => issuedWork s x w) s)))

/-- DESCRIPTOR_ISSUE of a descriptor older than a unit's change epoch: no part of it runs, it completes with ST_CHART_STALE and the unit in DETAIL,
and every refusing unit is recorded in the chart-skew log. -/
def descriptorStale : Prop := ∀ c id s x w l ph r, IsWork c id s x w → w.opcode = 0x0300 → w.st = .waiting → mayStart s x w = true →
  staleClusters s w = (l, ph) :: r →
  exec (.descriptorIssue c id) s = .next (endWork c w stCHARTSTALE (some (uCluster ph)) (logStaleClusters ((0, ph) :: r) w.epoch s))

/-- DEFERRED_IDLE_ISSUE issues a deferred descriptor where a cluster of it has nothing else to issue. -/
def deferredIdleIssue : Prop := ∀ c id s x w, IsWork c id s x w → w.st = .deferred → mayStart s x w = true →
  w.clusters.any (deferredOnly s) = true → staleClusters s w = [] →
  exec (.deferredIdleIssue c id) s = .next (noteBegun x w (noteStripes c (issuedWork s x w) (workMod c w.id (fun _ => issuedWork s x w) s)))

/-- KERNEL_COMPLETE: SIGNAL adds to its cell once every write of the kernel's clusters is acknowledged (R217), frames are freed, the completion
is ST_OK. -/
def kernelComplete : Prop := ∀ c id s x w, IsWork c id s x w → w.opcode = 0x0300 → w.st = .issued → w.started = true → w.partsDone.length = w.parts →
  w.held = [] → stampsDone x w = true → signalReady s w = true →
  exec (.kernelComplete c id) s = .next (endWork c w 0 none (if w.signal then syncAdd w.syncCell w.syncAdd s else s))

/-- A deferred descriptor that is not promoted runs only where a cluster of it has nothing else to issue (R140). -/
abbrev MayDefer (s : State) (w : Work) : Prop := w.deferWg = false ∨ w.promoted = true ∨ w.clusters.any (deferredOnly s) = true

/-- An issued kernel of kernel code `op` may run part of its work; no deleted record that it still uses is kept aside (R252). -/
abbrev KernelIssued (op c id : Nat) (s : State) (x : Ctx) (w : Work) : Prop :=
  IsWork c id s x w ∧ w.opcode = 0x0300 ∧ w.op = op ∧ w.st = .issued ∧ mayRun s x = true ∧ w.clusters.any (clusterServes s) = true ∧
    MayDefer s w ∧ deadFor x id = []

/-- An issued kernel of kernel code `op` may start. -/
abbrev KernelReady (op c id : Nat) (s : State) (x : Ctx) (w : Work) : Prop := KernelIssued op c id s x w ∧ w.started = false

/-- An array kernel starts: its header is written where it pushes, X is fixed from its operands, and its product is split into chains. -/
def ArrayStarts (c : Nat) (i : Instr) (s : State) (x : Ctx) (w : Work) : Prop :=
  ∀ t X, writeFrame c x w (atWork w s) = .ok t → fixX t c w = .ok X →
    exec i s = .next (atRest (workMod c w.id (fun y => { y with started := true, parts := (chainsOf x w).length, xexp := X }) t))

/-- MATMUL, CONV and CONV_T start on the arrays. -/
def matmul : Prop := ∀ c id s x w, KernelReady 0x08 c id s x w → ArrayStarts c (.matmul c id) s x w
def conv : Prop := ∀ c id s x w, KernelReady 0x00 c id s x w → ArrayStarts c (.conv c id) s x w
def convT : Prop := ∀ c id s x w, KernelReady 0x01 c id s x w → ArrayStarts c (.convT c id) s x w

/-- A vector kernel whose granules can all be computed and written from its resume point: it has started and has that many parts. -/
def VectorRuns (c total : Nat) (o : OutSpec) (f : State → Nat → Except AccErr (OutVal × Nat)) (i : Instr) (s : State) (x : Ctx) (w : Work) : Prop :=
  ∀ t u, writeFrame c x w (atWork w s) = .ok t →
    runGranules c w o f total (granuleElems t c w) (granuleCount t c w total - w.resume) w.resume t = (u, none) →
    exec i s = .next (atRest (workMod c w.id (fun y => { y with started := true, parts := granuleCount t c w total }) u))

/-- A sliding-window kernel of the vector units runs each stripe whose halo waits have ended, whatever the waits of the others (R124): their granules
are written, and the stripes have run. -/
def StripesRun (c planes per : Nat) (one : Nat → List Nat → State → Except (AccErr × Access) State) (i : Instr) (s : State) (x : Ctx) (w : Work) : Prop :=
  ∀ t u, (if w.started then .ok (atWork w s) else writeFrame c x w (atWork w s)) = .ok t →
    runList one ((stripeGranules x w planes per).filter (fun e => decide (e.2.1 ∈ readyStripes x w) && !granuleMade w e.1)) t = (u, none) →
    exec i s = .next (atRest (workMod c w.id (fun y => { y with
      started := true, parts := (stripeGranules x w planes per).length, ran := (readyStripes x w).foldl ninsert y.ran }) u))

/-- POOL_MAX and POOL_AVG run the stripes on the vector units whose halos are ready. -/
def poolMax : Prop := ∀ c id s x w, KernelIssued 0x02 c id s x w → readyStripes x w ≠ [] →
  StripesRun c (w.nimg * w.cIn) (granuleElems (atWork w s) c w) (runGranule c w (poolSpec w) (poolMaxAt c w)) (.poolMax c id) s x w
def poolAvg : Prop := ∀ c id s x w, KernelIssued 0x03 c id s x w → readyStripes x w ≠ [] →
  StripesRun c (w.nimg * w.cIn) (granuleElems (atWork w s) c w) (runGranule c w (poolSpec w) (poolAvgAt c w)) (.poolAvg c id) s x w

/-- ARGMAX_C writes one 16-bit index for each image position. -/
def argmaxC : Prop := ∀ c id s x w, KernelIssued 0x04 c id s x w → readyStripes x w ≠ [] →
  StripesRun c w.nimg 2048 (argmaxGranule c w) (.argmaxC c id) s x w

/-- GATHER_SUM of slots that all have their record sums them element by element. -/
def gatherSum : Prop := ∀ c id s x w, KernelReady 0x10 c id s x w →
  (presentSlots (atWork w s) w).any (fun i => (scaleOf (atWork w s) c (slotTensor w i).id).isNone) = false →
  VectorRuns c ((outShape (atWork w s) c w).1 * (outShape (atWork w s) c w).2) (gatherSpec (atWork w s) c w)
    (gatherAt c w (presentSlots (atWork w s) w)) (.gatherSum c id) s x w

/-- GATHER_SUM with a present slot that has no record completes with 0x0402. -/
def gatherSumRefused : Prop := ∀ c id s x w, KernelReady 0x10 c id s x w →
  (presentSlots (atWork w s) w).any (fun i => (scaleOf (atWork w s) c (slotTensor w i).id).isNone) = true →
  exec (.gatherSum c id) s = .next (atRest (endWork c w stBADPARAM (some 0x0402) (atWork w s)))

/-- UPDATE of good lists updates every parameter in order. -/
def update : Prop := ∀ c id s x w groups l t, KernelReady 0x11 c id s x w →
  mapAcc (fun k => vaRead (atWork w s) c (w.groupVa + 64 * k) 64) (List.range w.groupCount) = .ok groups → updateEntries (atWork w s) c w = .ok l →
  groups.all groupEntryOk = true → l.all (paramEntryOk groups) = true → l.filterMap (paramRecords (atWork w s) c groups (w.step % 2)) = [] →
  inRegions (atWork w s) c w.groupVa (64 * w.groupCount) = true → l.all (paramCovered (atWork w s) c) = true →
  scratchFits (atWork w s) c w (paramsOf (atWork w s) c w groups l) = true →
  updateParams c w (paramsOf (atWork w s) c w groups l) 0 (atWork w s) = (t, none) →
  exec (.update c id) s = .next (atRest (workMod c w.id (fun y => { y with
    started := true, parts := ((paramsOf (atWork w s) c w groups l).map Param.granules).sum }) t))

/-- PROGRAM performs its operations in order, raising the flags of each; an image that a check refuses runs not at all. -/
def program : Prop := ∀ c id ops s x w, KernelReady 0x20 c id s x w →
  (∀ t, imageRefusal (atWork w s) c ops = none → writeFrame c x w (atWork w s) = .ok t →
    exec (.program c id ops) s = .next (atRest (runOps c id w ops 0 t))) ∧
  (∀ d, imageRefusal (atWork w s) c ops = some d → exec (.program c id ops) s = .next (atRest (endWork c w stBADPARAM d (atWork w s))))

/-- The lowest array of gang `g` of the mode of a kernel (R64). -/
abbrev lowest (w : Work) (g : Nat) : Nat := gangAt w.gang g

/-- CHAIN_START: the gang whose turn has come to the context and, on a doubled cluster, to the identity takes the chain with cleared accumulators;
a chain that a fenced cluster abandoned is reissued under the current epoch (R30, R222, R304). -/
def chainStart : Prop := ∀ c id chain l g s x w, IsWork c id s x w → chainMayStart s c x w chain l g = true →
  nextTurn s l (lowest w g) = some c → nextIdentity s (carrier s l) (lowest w g) = some l →
  ∃ t r, exec (.chainStart c id chain l g) s = .next t ∧ (gangOf t l (lowest w g)).run = some r ∧ r.ctx = c ∧ r.id = id ∧ r.chain = chain ∧
    r.mode = w.gang ∧ r.gang = g ∧ r.passed = 0 ∧ r.shadow = none ∧ (∀ a ∈ r.accs, a = {}) ∧
    (gangOf t l (lowest w g)).drain = (gangOf s l (lowest w g)).drain ∧ t.mem = s.mem ∧
    tget t.arrays.turns (4 * l + lowest w g) = some c ∧ tget t.arrays.idents (4 * carrier s l + lowest w g) = some l ∧
    (tget w.abandoned chain = none → t.ctxs = s.ctxs) ∧
    (tget w.abandoned chain ≠ none → ((ctxOf t c).bind (fun y => y.work id)).map Work.epoch = some s.chart.epoch)

/-- A chain runs on a gang, and no deleted record that its kernel still uses is kept aside (R252). -/
abbrev Runs (l g : Nat) (s : State) (r : ChainRun) (k : Running) : Prop :=
  (gangOf s l g).run = some r ∧ runningOf s r = some k ∧ deadFor k.x r.id = []

/-- SHADOW_LOAD_COMPLETE: the next stationary tile stands in the shadow registers, and the live ones are as before; nothing loads while a retune
stops issue (R341). -/
def shadowLoadComplete : Prop := ∀ l g s r k codes, Runs l g s r k → r.shadow = none → r.nextLoad < k.tiles.length → issues s k.x = true →
  tileCodes (atUnit (uCluster (carrier s l)) s) r k ((k.tiles[r.nextLoad]?).getD []) = .ok codes →
  exec (.shadowLoadComplete l g) s = .next (atRest (setGang l g
    { gangOf s l g with run := some { r with shadow := some (r.nextLoad, codes), nextLoad := r.nextLoad + 1 } } s))

/-- A gang whose chain has passed another tile. -/
def passedTile (l g : Nat) (r : ChainRun) (codes : List Nat) (accs : List Acc) (s : State) : State :=
  setGang l g { gangOf s l g with run := some { r with shadow := none, live := codes, passed := r.passed + 1, accs := accs } } s

/-- SWAP_TOKEN: the shadow registers become live, and every vector of the chain passes the tile; the vectors count as issued, those of a tile that
an interrupted chain had passed before as restarted (R84, R86), and a deferred descriptor's new ones as idle slots used (R141). -/
def swapToken : Prop := ∀ l g s r k tile codes accs, Runs l g s r k → r.shadow = some (tile, codes) → issues s k.x = true →
  passTile (atUnit (uCluster (carrier s l)) s) r k ((k.tiles[tile]?).getD []) codes = .ok accs →
  (r.passed < (tget k.w.redo r.chain).getD 0 → exec (.swapToken l g) s = .next (atRest (noteMiss r.ctx l k.x k.w
    (countArray l (fun n => { n with restart := sat32 n.restart k.ch.rows.length }) (passedTile l g r codes accs s))))) ∧
  ((tget k.w.redo r.chain).getD 0 ≤ r.passed → (k.w.deferWg = false ∨ k.w.promoted = true) → exec (.swapToken l g) s = .next (atRest (noteMiss r.ctx l k.x k.w
    (countArray l (fun n => { n with issue := sat32 n.issue k.ch.rows.length }) (passedTile l g r codes accs s))))) ∧
  ((tget k.w.redo r.chain).getD 0 ≤ r.passed → k.w.deferWg = true → k.w.promoted = false → exec (.swapToken l g) s = .next (atRest
    (ctxMod r.ctx (fun y => { y with dwgIdleLive := sat32 y.dwgIdleLive k.ch.rows.length }) (noteMiss r.ctx l k.x k.w
      (countArray l (fun n => { n with issue := sat32 n.issue k.ch.rows.length }) (passedTile l g r codes accs s))))))

/-- CHAIN_COMPLETE: where no set still drains from the accumulator files of the gang, the set goes to the drain of those files, the gang may take the
next chain, and every other chain and set of the cluster stays as it was. -/
def chainComplete : Prop := ∀ l g s r k, Runs l g s r k → r.passed = k.tiles.length → filesFree s l r.mode r.gang = true →
  ∃ t, exec (.chainComplete l g) s = .next t ∧ (gangOf t l (fileAt r.mode r.gang)).drain = some r ∧ (gangOf t l g).run = none ∧
    (∀ h, h ≠ fileAt r.mode r.gang → (gangOf t l h).drain = (gangOf s l h).drain) ∧ (∀ h, h ≠ g → (gangOf t l h).run = (gangOf s l h).run) ∧
    t.mem.hbm = s.mem.hbm ∧ t.ctxs = s.ctxs

/-- DRAIN_COMPLETE in a module that has not failed: every element is rounded and written, the chain is done, its counts merge, and a pushed part
enters the window of its cluster. -/
def drainComplete : Prop := ∀ l g s r k t counts flags, s.dev.st ≠ .off → s.dev.st ≠ .failed → (gangOf s l g).drain = some r → runningOf s r = some k → deadFor k.x r.id = [] →
  writeElems r.ctx (outSpecOf k.w) k.w.step k.w.origin (drainList r k) (atUnit (uCluster (carrier s l)) s, {}, 0) = .ok (t, counts, flags) →
  exec (.drainComplete l g) s = .next (atRest (countArray l (fun n => { n with chains := sat32 n.chains 1 })
    (partDone r.ctx k.w r.chain ⟨r.chain, k.w.outTensor, counts, BitVec.ofNat 32 flags, none⟩
      (if k.w.astk = 1 then keepPart r.ctx l (k.w.outVa - 64) (k.ch.rows.length * k.ch.cols.length * k.w.outBytes) (dropDrain l g t) else dropDrain l g t))))

/-- VECTOR_GRANULE_COMPLETE of a granule on units that are not fenced, or reissued on a cluster of the kernel: it is done and its counts merge
(R29, R98). -/
def vectorGranuleComplete : Prop := ∀ c id granule s x w, IsWork c id s x w → deadFor x id = [] → w.held.filter (fun h => h.part == granule) ≠ [] →
  (∀ h ∈ w.held, h.part = granule → granuleServes s w h = true) →
  exec (.vectorGranuleComplete c id granule) s = .next ((w.held.filter (fun h => h.part == granule)).foldl (fun u h => mergeHeld c w.id w.hostTag w.step h u)
    (workMod c id (fun y => { y with held := y.held.filter (fun h => h.part != granule), partsDone := ninsert y.partsDone granule })
      (keepGranule c w (w.held.filter (fun h => h.part == granule)) s)))

/-- HALO_STAMP writes the stamp of the step and pass to the stripe's EDGE or DONE cell, once, after every write of its cluster is acknowledged
(R217); one from a fenced cluster is discarded. -/
def haloStamp : Prop := ∀ c id stripe done s x w t l, IsWork c id s x w → outStripes x w = some t → t.clusters[stripe]? = some l → w.started = true →
  w.haloBase + 2 * stripe + (if done then 1 else 0) ∉ w.stamps → rowsWritten x w stripe (coveredRows w t stripe done) = true →
  writesAcked s (uCluster (carrier s l)) = true →
  (uCluster (carrier s l) ∉ s.chart.fence → exec (.haloStamp c id stripe done) s = .next (workMod c id
    (fun y => { y with stamps := (w.haloBase + 2 * stripe + (if done then 1 else 0)) :: y.stamps })
    (releaseWaits (w.haloBase + 2 * stripe + (if done then 1 else 0)) (setCell (w.haloBase + 2 * stripe + (if done then 1 else 0))
      (BitVec.ofNat 32 (w.step % 2 ^ 24 * 256 + w.haloPass + 1)) s)))) ∧
  (uCluster (carrier s l) ∈ s.chart.fence → exec (.haloStamp c id stripe done) s = .next s)

/-- STRIPE_SET of a good set: it takes effect at the next boundary in a context bound to a job, at once in another (log 31). -/
def stripeSet : Prop := ∀ p s x, Accepted 0x0310 (chkStripeSet p (owe p s)) p s → ctxOf s p.ctx = some x → setShapeBad p = false →
  (x.bound = true → exec (.stripeSet p) s = .next (completeOk p 0x0310 (ctxMod p.ctx (fun y => { y with newStripes := tset y.newStripes (pf p 0 1) (setOf p) }) (owe p s)))) ∧
  (x.bound = false → exec (.stripeSet p) s = .next (completeOk p 0x0310 (ctxMod p.ctx (fun y => { y with stripes := tset y.stripes (pf p 0 1) (setOf p) }) (owe p s))))

/-- STRIPE_GET copies a set into a slot; of no set it is refused with 0x0508. -/
def stripeGet : Prop := ∀ p s x, Accepted 0x0311 (chkStripeGet p) p s → ctxOf s p.ctx = some x →
  (∀ t, tget x.stripes (pf p 0 1) = some t →
    exec (.stripeGet p) s = .next (withSlot p (16 + 12 * 128) (owe p s) (fun idx u => finishSlot p 0x0311 idx 0 (stripePayload (pf p 0 1) t) u))) ∧
  (tget x.stripes (pf p 0 1) = none → tget x.newStripes (pf p 0 1) = none →
    exec (.stripeGet p) s = .next (withSlot p (16 + 12 * 128) (owe p s) (fun idx u => refuse8 p 0x0311 stBADPARAM (some 0x0508) idx u)))

end Sys2Proof.Claims
end

