-- ==== Sys2Proof/Certificates/Slice0/ClaimsMemory.lean ====
section
/-! DEFINITION. Claims about memory's own events: PCIe errors, translation, error correction, armour, stack loss, rebuild. -/
namespace Sys2Proof.Claims
open Sys2Proof.Machine

/-- An unreadable submission slot is queue error 0x3 (R245). -/
def pcieTimeoutSlot : Prop := ∀ q x s, tget s.queues.q q = some x → x.stopped = false → x.head ≠ x.sqTail → q < 1000 →
  exec (.pcieCompletionTimeout (.slot q)) s = .next (queueError q 3 s)

/-- Unreadable parameters refuse the host's command with ST_BAD_PARAM and detail 0x0A0B, and its slot is taken (R241, R245). -/
def pcieTimeoutParams : Prop := ∀ op p s, isHost p.src = true → bitAt p.flags 0 = true → s.dev.st ≠ .off →
  exec (.pcieCompletionTimeout (.params op p)) s = .next (completeWith p op stBADPARAM 0x0A0B (owe p (takeSlot p.src s)))

/-- A DMA granule whose host page does not answer faults the descriptor at that granule with reason 0x7, on the engine at work (R196, R202). -/
def pcieTimeoutGranule : Prop := ∀ c va acc id x w i g d s, ctxOf s c = some x → x.work id = some w → w.opcode = 0x0210 → mayAccess w acc = true →
  ((w.st = .issued ∧ mayRun s x = true) ∨ (w.st = .waiting ∧ mayIssue s x = true)) → dmaAt w (acc == .write) va = some (i, g) →
  pcieDetail s c va (engineDie s).1 acc = some d →
  exec (.pcieCompletionTimeout (.target c va acc id)) s = .next (faultGranule c w i g d (engineDie s).2)

/-- A kernel's read, write or turned read of a host page that does not answer drops its chains and faults it with reason 0x7 (R196, R229). -/
def pcieTimeoutKernel : Prop := ∀ c va acc id x w d s, ctxOf s c = some x → x.work id = some w → w.opcode = 0x0300 → mayAccess w acc = true →
  kernelRuns w = true → mayRun s x = true → pcieDetail s c va (someCluster w s).1 acc = some d →
  exec (.pcieCompletionTimeout (.target c va acc id)) s = .next (stopKernel c w d (someCluster w s).2)

/-- A shard read of the host that does not answer is the ingest's fault (R188, R196). -/
def pcieTimeoutShard : Prop := ∀ c va unit x d s, ctxOf s c = some x → pcieDetail s c va unit .shard = some d → x.ingest.active = true →
  unit / 4096 = 5 → unitValid unit = true → unit % 16 = 0 →
  exec (.pcieCompletionTimeout (.shard c va unit)) s = .next (ingestFault c d x.ingest.cursor s)

/-- The host link's state is what the event says. -/
def hostLink : Prop := ∀ a s, (a = true → s.host.perst = false ∧ s.dev.st ≠ .off) →
  exec (.hostLinkDlActive a) s = .next { s with host := { s.host with linkUp := a } }

/-- A translated page enters the translation cache of its unit, once: a cluster's has 64 entries, a memory die's 8,192, and no other unit has one; from
a full one an entry that no rule names leaves (R197). -/
def translationFills : Prop := ∀ c va unit acc x r s, ctxOf s c = some x → accessOk unit acc = true → mayRun s x = true →
  translate (atUnit unit s) c va (acc == .write) = .ok r →
  exec (.addressTranslation c va unit acc) s = .next (fillTlb unit c va s) ∧
  (∀ e, tlbFind s unit c va = some e → fillTlb unit c va s = s) ∧
  (∀ e sh lv dpa, tlbFind s unit c va = none → leafOf s c va = .ok (e, sh, lv, dpa) →
    ((s.mem.tlb.filter (fun t => t.unit == unit)).length < tlbSize unit →
      fillTlb unit c va s = { s with mem := { s.mem with tlb := s.mem.tlb ++ [⟨unit, c, va / 2 ^ sh * 2 ^ sh, 2 ^ sh, e, lv, dpa⟩] } }) ∧
    (tlbSize unit = 0 → fillTlb unit c va s = s))

/-- A translation cache keeps within its size (R197). -/
def tlbBound : Prop := ∀ unit c va s, (∀ u, (s.mem.tlb.filter (fun t => t.unit == u)).length ≤ tlbSize u) →
  ∀ u, ((fillTlb unit c va s).mem.tlb.filter (fun t => t.unit == u)).length ≤ tlbSize u

/-- An untranslatable access of a cluster drops the kernel's chains and faults its descriptor at the lowest part not done; the poisoned entry that a
walk met counts as a read of poison (R199, R206, R229). -/
def translationStopsKernel : Prop := ∀ c va unit acc x w f s, ctxOf s c = some x → accessOk unit acc = true → mayRun s x = true →
  unit / 4096 = 1 → translate (atUnit unit s) c va (acc == .write) = .error f →
  x.works.find? (fun w => runsOn (countPoison (.tf va f) s) w (unit % 4096) && (acc == .sync || mayAccess w acc)) = some w →
  exec (.addressTranslation c va unit acc) s =
    .next (faultWork c w (accDetail (.tf va f) unit acc) (lowestPart w) (dropChains c w.id (countPoison (.tf va f) s)))

/-- A row's access of a stack was translated by the entry whose CACHE bit is `k`; the row names no translation where `k` is 0 by that. -/
abbrev ReadsUnder (s : State) (st off : Nat) (access : Option (Nat × Nat)) (k : Bool) : Prop := readAllocates s st off access = some k

/-- An access that finds nothing wrong, or one bit wrong in a cached line, changes only the count of poison reads, and that only where the block is
poisoned, and the stack cache (R192, R203, R204, R206). -/
def eccClean : Prop := ∀ st off f access k s, stackAnswers s st off = true → (f = .clean ∨ (f = .lineSingle ∧ (lineAt s st off).isSome = true)) →
  ReadsUnder s st off access k →
  exec (.patrolScrub st off .clean) s = .next s ∧
  (blockPoisoned s st off = false → exec (.memoryRead st off ⟨f, access⟩) s = .next (touchLine k false (hbmKey st off / 128) s)) ∧
  (blockPoisoned s st off = true → exec (.memoryRead st off ⟨f, access⟩) s =
    .next (touchLine k false (hbmKey st off / 128) (countMem st (fun m => { m with poison := sat32 m.poison 1 }) s)))

/-- Two bits wrong in a cached line: a clean line is fetched again, a dirty line's two blocks are poisoned (R205). -/
def eccLineDouble : Prop := ∀ st off access k l s, stackAnswers s st off = true → lineAt s st off = some l → blockPoisoned s st off = false →
  ReadsUnder s st off access k →
  exec (.memoryRead st off ⟨.lineDouble, access⟩) s = .next (touchLine k false (hbmKey st off / 128)
    (if l.dirty then poisonBlock (2 * l.key + 1) (poisonBlock (2 * l.key) s) else s))

/-- A correctable error is corrected and counted (R204). -/
def eccCorrectable : Prop := ∀ st off access k s, stackAnswers s st off = true → ReadsUnder s st off access k →
  exec (.patrolScrub st off .correctable) s = .next (noteSoft (countMem st (fun m => { m with ce := sat32 m.ce 1 }) s)) ∧
  (blockPoisoned s st off = false → exec (.memoryRead st off ⟨.correctable, access⟩) s =
    .next (touchLine k false (hbmKey st off / 128) (noteSoft (countMem st (fun m => { m with ce := sat32 m.ce 1 }) s))))

/-- An uncorrectable error in the plain part, no Fix copying, is counted and poisons its own 64-byte block (R205). -/
def eccPlain : Prop := ∀ st off s, stackAnswers s st off = true → s.fix.stage ≠ .copying → stackPart s st off = .plain →
  exec (.patrolScrub st off .uncorrectable) s = .next (poisonBlock (hbmKey st off / 64) (countUe st s))

/-- An uncorrectable error in the pool of a quadrant INTACT whose other five granules are sound is reconstructed and counted twice (R213, R214). -/
def eccReconstructs : Prop := ∀ st off r l s, stackAnswers s st off = true → stackPart s st off = .pool r → (armourOf s (st / 6)).st = 1 →
  (armourOf (countUe st s) (st / 6)).st = 1 → rebuiltBytes (countUe st s) (st / 6) r (survivors (st % 6)) = some l →
  exec (.patrolScrub st off .uncorrectable) s = .next (writeGranule (poolKey (countUe st s) (st / 6) r (st % 6) 0) l
    (countMem st (fun m => { m with recon := sat32 m.recon 1 }) (countUe st s)))

/-- A write to one armoured stripe is made and stays in its owner's stripe buffer, new data and parity, until its acknowledgement; the owner applies
one write to a stripe at a time (R208). -/
def armouredWrite : Prop := ∀ dpa data q r s, oneStripe s dpa data.length = some (q, r) → (armourOf s q).st ≠ 5 → stripeBusy s q r = false →
  s.dev.st ≠ .off →
  ∃ t, t = touchLines false true dpa data.length (devWrite dpa data s) ∧ exec (.armouredWrite dpa data) s = .next { t with mem := { t.mem with
    unacked := t.mem.unacked ++ (armourStripes t dpa data.length).map
      (fun e => ⟨uMemDie (2 * e.1 + e.2 % 2), e.1, e.2, stripeBytes t e.1 e.2 dpa data.length, t.mem.walker⟩) } }

/-- The acknowledgement of both stacks ends the write (R208). -/
def armouredWriteAck : Prop := ∀ q r s, stripeBusy s q r = true → ∃ t, exec (.armouredWriteAck q r) s = .next t ∧ stripeBusy t q r = false ∧
  (∀ e, ¬ (e.q = q ∧ e.stripe = r) → (e ∈ t.mem.unacked ↔ e ∈ s.mem.unacked)) ∧ { t with mem := { t.mem with unacked := s.mem.unacked } } = s

/-- The loss of a stack out of an INTACT quadrant leaves it with that stack lost; a second loss in a quadrant is LOST for good (R209, R210). -/
def stackLoss : Prop := ∀ st s, st < 24 → st ∉ s.mem.lost → unitState s (uStack st) = .healthy → s.dev.st ≠ .off →
  exec (.stackLoss st) s = .next (loseStack st s)

/-- What a loss makes of a quadrant's armour (R210). -/
def armourAfterLoss : Prop := ∀ a j,
  (a.st = 1 → armourLoss a j = { a with st := 2, lostJ := j }) ∧
  (a.st = 2 ∨ a.st = 3 ∨ a.st = 4 → armourLoss a j = { a with st := 5, secondJ := j })

/-- What a loss does to the stack caches: the dirty lines of the plain part of the lost stack are counted and gone, no line of its armour pool is dirty
any more, and every line of another stack stays as it is (R210). -/
def linesAfterLoss : Prop := ∀ st s,
  (loseLines st s).mem.plainLoss = s.mem.plainLoss +
    (s.mem.cache.filter (fun l => lineStack l.key == st && l.dirty && plainLine s l.key)).length ∧
  (∀ l, l ∈ (loseLines st s).mem.cache → lineStack l.key = st → l.dirty = false ∧ plainLine s l.key = false) ∧
  (∀ l, lineStack l.key ≠ st → (l ∈ (loseLines st s).mem.cache ↔ l ∈ s.mem.cache)) ∧ (loseLines st s).mem.hbm = s.mem.hbm

/-- A stripe whose lost granule is parity is passed over; after the last the quadrant is REBUILT (R212). -/
def rebuildParity : Prop := ∀ q s, q < 4 → (armourOf s q).st = 3 → (armourOf s q).cursor < poolStripes s q →
  stripeBusy s q (armourOf s q).cursor = false → s.dev.st ≠ .off → parityJ (armourOf s q).cursor = (armourOf s q).lostJ →
  exec (.rebuildStripe q none) s = .next (setArmour q
    (if (armourOf s q).cursor + 1 ≥ poolStripes s q then { armourOf s q with st := 4, cursor := (armourOf s q).cursor + 1 }
     else { armourOf s q with cursor := (armourOf s q).cursor + 1 }) s)

/-- A lost data granule is reconstructed from the other five into the reserve, and the cursor passes it (R212). -/
def rebuildData : Prop := ∀ q l s, q < 4 → (armourOf s q).st = 3 → (armourOf s q).cursor < poolStripes s q →
  stripeBusy s q (armourOf s q).cursor = false → s.dev.st ≠ .off → parityJ (armourOf s q).cursor ≠ (armourOf s q).lostJ →
  rebuiltBytes s q (armourOf s q).cursor (survivors (armourOf s q).lostJ) = some l →
  exec (.rebuildStripe q none) s =
    .next (advanceCursor q (writeGranule (reserveKey s q (armourOf s q).cursor 0 (armourOf s q).lostJ) l s))

/-- FAULT_GET's payload: the count, the parked bit and 64 bytes for each pending record (R232, R252). -/
def faultGet : Prop := ∀ p s x, Accepted 0x0600 (chkFaultGet p) p s → ctxOf s p.ctx = some x →
  exec (.faultGet p) s = .next (withSlot p 1040 (owe p s) (fun idx t => withCtx p 0x0600 idx t (fun y =>
    finishSlot p 0x0600 idx 0 (leBytes 1 y.faults.length ++ leBytes 1 (if y.parked then 1 else 0) ++ zeros 14 ++
      y.faults.flatMap (fun e => faultBytes p.ctx e.1 e.2)) t)))

/-- FAULT_RESOLVE performs its action on the record it names and completes; in dead reckoning an abort record of the descriptor names the action
instead (R232, R233). -/
def faultResolve : Prop := ∀ p s x f, Accepted 0x0601 (chkFaultResolve p) p s → ctxOf s p.ctx = some x → tget x.faults (pf p 0 1) = some f →
  (pf p 1 1 = 0 → f.cls ≠ 4) →
  ∀ act, act = (replayedAbort (owe p s) p.ctx f.step f.hostTag).getD (pf p 1 1) →
  (act = 0 → exec (.faultResolve p) s = .next (completeOk p 0x0601 (doRetry p.ctx (pf p 0 1) (owe p s)))) ∧
  (act = 1 → exec (.faultResolve p) s = .next (completeOk p 0x0601 (doAbort p.ctx (pf p 0 1) (owe p s)))) ∧
  (act = 2 → exec (.faultResolve p) s = .next (completeOk p 0x0601 (doAbortContext p.ctx (pf p 0 1) (owe p s))))

/-- FAULT_RESOLVE refuses an empty record with 0x0904 and the retry of an INGEST_OVERRUN with 0x0905 (R232). -/
def faultResolveRefused : Prop := ∀ p s x, Accepted 0x0601 (chkFaultResolve p) p s → ctxOf s p.ctx = some x →
  (tget x.faults (pf p 0 1) = none → exec (.faultResolve p) s = .next (completeWith p 0x0601 stBADPARAM 0x0904 (owe p s))) ∧
  (∀ f, tget x.faults (pf p 0 1) = some f → pf p 1 1 = 0 → f.cls = 4 →
    exec (.faultResolve p) s = .next (completeWith p 0x0601 stBADPARAM 0x0905 (owe p s)))

/-- RETRY frees the record and resumes its descriptor (R232), unless dead reckoning follows an abort record of it (R233). -/
def retry : Prop := ∀ c i f id w x s, pendingRecord s c i = some f → f.cls ≠ 4 → replayedAbort s c f.step f.hostTag = none → f.work = some id →
  ctxOf (freeRecordSlot c i s) c = some x → x.work id = some w →
  exec (.retry c i) s = .next (reschedule (resumeWork c f w (freeRecordSlot c i s)))

/-- ABORT_DESCRIPTOR writes an abort record, frees the fault record and ends the descriptor with ST_ABORTED (R232, R233). -/
def abortDescriptor : Prop := ∀ c i f id w x s, pendingRecord s c i = some f → f.work = some id →
  ctxOf (freeRecordSlot c i (abortRecord c 1 f s)) c = some x → x.work id = some w →
  exec (.abortDescriptor c i) s = .next (abortWork c w none (freeRecordSlot c i (abortRecord c 1 f s)))

/-- ABORT_CONTEXT ends every descriptor of the context, frees every record and unparks it (R232). -/
def abortContext : Prop := ∀ c i f s, pendingRecord s c i = some f → exec (.abortContext c i) s = .next (doAbortContext c i s)

/-- A slice that ends with no context waiting for the resources leaves the context resident; otherwise pre-emption begins (R223, R225). -/
def sliceExpiry : Prop := ∀ c x s, ctxOf s c = some x → x.resident = true → x.saving = false → s.grp.retune = false →
  (contended s c x = false → exec (.sliceExpiry c) s = .next (ctxMod c (fun y => { y with sliceRun := false }) s)) ∧
  (contended s c x = true → exec (.sliceExpiry c) s = .next (preempt c s))

/-- A completed save writes the areas in use in ascending order and the header last, keeps the CRC-32C of what it wrote and the register block, and the
context gives up its resources, once no cluster of it is being spared (R225, R226, R235, R266). -/
def contextSave : Prop := ∀ c x s l h t0 t, ctxOf s c = some x → x.saving = true → sparingUnder x s = false → saveAreas c x (savedAreas x) s = (l, t0) → saveHeader t0 = (h, t) →
  exec (.contextSaveComplete c) s = .next (reschedule (ctxMod c (fun y => { y with
    resident := false, saving := false, savedOut := true, savedHeader := h, savedUse := savedAreas x, savedCrc := crc32c l
    savedRegs := blockRegs s.dev.step x, saveCount := y.saveCount + 1, waitSince := (moduleWrite c x.saveVa h t).nextId })
    (moduleWrite c x.saveVa h t)))

/-- A fault record in use lies in the save area at 0x1000 + 64 × its index, and every area in use lies in the area's 16 MiB (R226). -/
def saveLayout : Prop := ∀ x,
  (∀ i f, tget x.faults i = some f → (0x1000 + 64 * i, 64) ∈ savedAreas x) ∧
  ((∀ e, e ∈ x.faults → e.1 < 16) → (∀ e, e ∈ x.stripes → e.1 < 32) → x.works.length ≤ 2047 → x.scales.length ≤ 16384 →
    ∀ a, a ∈ savedAreas x → 0x40 ≤ a.1 ∧ a.1 + a.2 ≤ 16 * 2 ^ 20)

/-- A restore whose save area holds the header written last and areas with the CRC-32C of the save makes the context resident under the current epoch,
tests its halo waits and presents its waits again (R227, R228). -/
def contextRestore : Prop := ∀ c x h l s, ctxOf s c = some x → x.savedOut = true → x.resident = false → x.runnable = true →
  fits (x :: residentsBut s c) = true → comesNext s c = true → readSaved s c x = .ok (h, l) → h = x.savedHeader → crc32c l = x.savedCrc →
  exec (.contextRestore c) s = .next (reschedule (presentAll x.savedWaits (refreshEpochs c (ctxMod c (fun y => { y with works := y.works.map (retestHalos s y) })
    (ctxMod c (fun y => { y with
      savedOut := false, savedHeader := [], savedUse := [], resident := true, sliceRun := true, waitSince := 0, savedWaits := [] }) s)))))

/-- A restore that finds another header, or areas whose CRC-32C differs, gives the context a memory fault record with resume point all ones, and the
context stays saved out (R226, R235). -/
def contextRestoreDamaged : Prop := ∀ c x h l s, ctxOf s c = some x → x.savedOut = true → x.resident = false → x.runnable = true →
  fits (x :: residentsBut s c) = true → comesNext s c = true → readSaved s c x = .ok (h, l) → (h ≠ x.savedHeader ∨ crc32c l ≠ x.savedCrc) →
  ∃ dpa f t, exec (.contextRestore c) s = .next (reschedule (addFault c f true t)) ∧ f.resume = 2 ^ 64 - 1 ∧ f.work = none ∧
    f.detail = .memory dpa (binnacleUnit s) 1 ∧ t.ctxs = s.ctxs ∧ t.mem = s.mem

end Sys2Proof.Claims
end

