-- ==== Sys2Proof/Certificates/Slice0/ClaimsPower.lean ====
section
/-! DEFINITION. Claims about the step boundary, telemetry, clocks and power, thermal action, ANCHORED and the self-tests. -/
namespace Sys2Proof.Claims
open Sys2Proof.Machine

/-- CLOSE of a step that is ready to close performs the boundary (R158). -/
def close : Prop := ∀ m s, closeReady m s = true → exec (.close m) s = .next (closeStep m s)

/-- The watch slots of every record whose counts the boundary latched are written, one deleted since included, then WATCH_STEP; none is due any
more (R102, R252). Scratch tensors have no watch
area (log 29). -/
def watchSlotWrite : Prop := ∀ c x s, ctxOf s c = some x → x.watchDue = true →
  exec (.watchSlotWrite c) s = .next (ctxMod c (fun y => { y with watchStep := BitVec.ofNat 32 x.latchedStep, watchDue := false })
    ((x.placed.filter (fun r => r.slotDue)).foldl
      (fun t r => moduleWrite c (r.watchVa + 512 * (x.latchedStep % 2)) (slotBytes x.latchedStep r) t) s))

/-- After a retune all dies run at the group frequency and held descriptors are released in waves; a Fix stop that has ended waits for it
(R341, R349, R350). -/
def retuneComplete : Prop := ∀ s, s.grp.retune = true → s.dev.st ≠ .off → s.dev.st ≠ .failed → s.dev.st ≠ .anchored →
  ∃ t, t.grp.retune = false ∧ t.grp.curFreq = s.grp.freq ∧ t.bnd.waves = List.range 16 ∧ t.mem = s.mem ∧ t.ctxs = s.ctxs ∧ t.dev = s.dev ∧
    (s.fix.resumeDue = false → exec .retuneComplete s = .next t) ∧
    (s.fix.resumeDue = true → exec .retuneComplete s = .next (resumeRun { t with fix := { t.fix with resumeDue := false } }))

/-- The waves of a release go one after the other (R349). -/
def releaseWave : Prop := ∀ w r s, s.bnd.waves = w :: r → s.dev.st = .run ∨ s.dev.st = .ready → s.grp.retune = false → recalHolds s = false →
  s.fix.stopDelayed = false → exec (.descriptorReleaseWave w) s = .next { s with bnd := { s.bnd with waves := r } }

/-- STEP_REPORT_GET answers with the report of the last boundary, or STEP all ones and zeros before the first (R253). -/
def stepReportGet : Prop := ∀ p s, Accepted 0x0701 (chkStepReport p) p s →
  exec (.stepReportGet p) s = .next (withSlot p 64 (owe p s) (fun idx t =>
    finishSlot p 0x0701 idx 0 (if t.bnd.report.isEmpty then leBytes 8 (2 ^ 64 - 1) ++ zeros 56 else t.bnd.report) t))

/-- TELEMETRY_GET answers with its set; the manager's sets are refused elsewhere with ST_ROLE (R267, R299, R357). -/
def telemetryGet : Prop := ∀ p s, Accepted 0x0700 (chkTelemetry p (owe p s)) p s →
  exec (.telemetryGet p) s = .next (withSlot p (telemetryCharge (pf p 0 1) (pf p 4 2)) (owe p s) (fun idx t =>
    if telemetryRole (pf p 0 1) t then refuse8 p 0x0700 stROLE none idx t
    else finishSlot p 0x0700 idx (telemetryStatus (pf p 0 1) t) (telemetry (pf p 0 1) (pf p 2 2) (pf p 4 2) t).1
      (telemetry (pf p 0 1) (pf p 2 2) (pf p 4 2) t).2))

/-- FREQ_SET: a frequency of R338 becomes the target; another, or one with a value in bytes 3:2, is refused with 0x0D01; a member that is not the manager answers ST_ROLE (R339). -/
def freqSet : Prop := ∀ p s, Accepted 0x0711 (chkFreqSet p) p s →
  (freqOk (pf p 0 2) = true → pf p 2 2 = 0 → (inGroup (owe p s) && !s.grp.manager) = false →
    exec (.freqSet p) s = .next (completeOk p 0x0711 (setTarget (pf p 0 2) (owe p s)))) ∧
  (freqOk (pf p 0 2) = false ∨ pf p 2 2 ≠ 0 → exec (.freqSet p) s = .next (completeWith p 0x0711 stBADPARAM 0x0D01 (owe p s))) ∧
  (freqOk (pf p 0 2) = true → pf p 2 2 = 0 → (inGroup (owe p s) && !s.grp.manager) = true →
    exec (.freqSet p) s = .next (completeOpen p 0x0711 stROLE (owe p s)))

/-- POWER_CAP_SET: 2,000 W to 4,400 W take effect at once, also in a power section that waits for its boundary; else 0x0D02 (R348). -/
def powerCapSet : Prop := ∀ p s, Accepted 0x0710 (chkPowerCap p) p s →
  (2000 ≤ pf p 0 2 → pf p 0 2 ≤ 4400 → exec (.powerCapSet p) s = .next (completeOk p 0x0710 { owe p s with
    pow := { s.pow with capW := pf p 0 2 }, conf := { s.conf with live := s.conf.live.map (recapLive (pf p 0 2)) } })) ∧
  (pf p 0 2 < 2000 ∨ 4400 < pf p 0 2 → exec (.powerCapSet p) s = .next (completeWith p 0x0710 stBADPARAM 0x0D02 (owe p s)))

/-- A sample at J1: 2 µs of `mw` milliwatts add 2 × `mw` nJ to the energy, no energy is lost to rounding until the counter is full, and the bubbles follow the mean (R344,
R345, R351). -/
def powerSample : Prop := ∀ mw mv ma s, s.board.aux = true → s.pow.energyUj < 2 ^ 64 → s.pow.energyRem < 1000 →
  ∃ t, exec (.powerSample mw mv ma) s = .next (sensorEvents s t) ∧ t.board.j1mv = mv ∧ t.board.j1ma = ma ∧
    t.pow.samples = (mw :: s.pow.samples).take 500 ∧ t.pow.energyRem = (s.pow.energyRem + 2 * mw) % 1000 ∧
    t.pow.energyUj = min (2 ^ 64 - 1) ((1000 * s.pow.energyUj + s.pow.energyRem + 2 * mw) / 1000) ∧
    t.pow.bubbles = bubbleCount (secField s 0x10 2 1 128) s.pow.capW (meanPower t.pow.samples / 1000) ∧ t.pow.bubbles ≤ 48 ∧ t.mem = s.mem

/-- A rail moves by 2.5 mV, and stays within 650 mV to 950 mV; no other die's rail moves (R342). -/
def avsAdjust : Prop := ∀ die up s, die < 16 → diesRun s = true → s.pow.dies.length = 16 →
  ∃ t, exec (.avsAdjust die up) s = .next t ∧
    (diePower t die).volt = (if up then min 1900 ((diePower s die).volt + 5) else max 1300 ((diePower s die).volt - 5)) ∧
    (∀ k, k ≠ die → diePower t k = diePower s k) ∧ { t with pow := { t.pow with dies := s.pow.dies } } = s

/-- A droop stretches the die's clock and is counted (R343). -/
def droop : Prop := ∀ die s, die < 16 → diesRun s = true → (diePower s die).stretching = false → s.pow.dies.length = 16 →
  ∃ t, exec (.droopStretch die) s = .next t ∧ diePower t die = { diePower s die with stretching := true, droop := sat32 (diePower s die).droop 1 } ∧
    (∀ k, k ≠ die → diePower t k = diePower s k)

/-- The stretch ends after at most 16 lengthened periods, which are counted (R343). -/
def droopEnds : Prop := ∀ die n s, die < 16 → (diePower s die).stretching = true → 1 ≤ n → n ≤ 16 → s.pow.dies.length = 16 →
  ∃ t, exec (.droopStretchEnd die n) s = .next t ∧
    diePower t die = { diePower s die with stretching := false, stretch := sat32 (diePower s die).stretch n } ∧
    (∀ k, k ≠ die → diePower t k = diePower s k)

/-- Readings that shut nothing down are taken, THERMAL_REQ follows them, and the sensors' changes are reported (R352, R383). -/
def thermalReading : Prop := ∀ temps inlet flow s, s.board.aux = true → temps.all (fun r => sensorUnit r.unit) = true →
  (temps.map TempRead.unit).Nodup →
  (mustShutDown (throttle (takeReadings temps inlet flow s)) = false →
    exec (.thermalReading temps inlet flow) s = .next (sensorEvents s (throttle (takeReadings temps inlet flow s)))) ∧
  (mustShutDown (throttle (takeReadings temps inlet flow s)) = true →
    exec (.thermalReading temps inlet flow) s = .next (sensorEvents s (protectiveShutdown (throttle (takeReadings temps inlet flow s)))))

/-- Thermal bubbles fall by 4 on every die whose sensors have cooled, and rise nowhere (R352). -/
def thermalDecay : Prop := ∀ s, s.board.aux = true → s.pow.dies.length = 16 → ∃ t, exec .thermalReefDecay s = .next t ∧
  (∀ k, k < 16 → (diePower t k).tb = (if dieCool s k then (diePower s k).tb - 4 else (diePower s k).tb)) ∧
  { t with pow := { t.pow with dies := s.pow.dies } } = s

/-- A low coolant flow counts as the warning stage, below half the rated minimum as the limit stage (R352, R385). -/
def coolantLow : Prop := ∀ flow s, s.board.aux = true → flow < 400 → exec (.coolantFlowLow flow) s =
  .next (sensorEvents s { s with pow := { s.pow with flow := flow, flowStage := if flow < 200 then 2 else 1 } })

/-- HEARTBEAT counts while CK_AON runs, and does nothing else (R265). -/
def heartbeat : Prop := ∀ s, s.board.aux = true →
  exec .heartbeat s = .next { s with regs := { s.regs with heartbeat := s.regs.heartbeat + 1 } }

/-- ANCHOR_ENTER in READY with nothing under way begins the entry; otherwise 0x0D10; in a group 0x0D11 (R354, R355). -/
def anchorEnter : Prop := ∀ p s, Accepted 0x0720 (chkAnchor p) p s →
  (s.dev.st = .ready → s.ctxs.any (fun e => keepsAwake e.2) = false → inGroup s = false →
    exec (.anchorEnter p) s = .next { owe p s with dev := { s.dev with anchoring := some p } }) ∧
  (s.dev.st ≠ .ready ∨ s.ctxs.any (fun e => keepsAwake e.2) = true →
    exec (.anchorEnter p) s = .next (completeWith p 0x0720 stBUSY 0x0D10 (owe p s))) ∧
  (s.dev.st = .ready → s.ctxs.any (fun e => keepsAwake e.2) = false → inGroup s = true →
    exec (.anchorEnter p) s = .next (completeWith p 0x0720 stBUSY 0x0D11 (owe p s)))

/-- ANCHOR_ENTER takes no parameters: with any it is refused with ST_BAD_PARAM and does not enter (R354). -/
def anchorNoParams : Prop := ∀ p s, s.dev.st = .ready → s.dev.anchoring = none → behindHeld (owe p s) p = false → mustWait (owe p s) 0x0720 p = false →
  p.crc = packetCrc 0x0720 p → p.src = .host 0 → p.paramLen ≠ 0 →
  ∃ d, exec (.anchorEnter p) s = .next (complete p 0x0720 stBADPARAM d none 0xFFFF [] (owe p s))

/-- A module that has entered ANCHORED is not admitted to a group: a join answered with ST_OK changes nothing there (R354). -/
def anchoredNotAdmitted : Prop := ∀ m v s, s.dev.st = .anchored → exec (.ilzanReplyReceive m 0x0510 0 v) s = .next s

/-- The entry ends: the command completes, translation caches, stack caches and cluster stores are empty and the ports silent (R355, R356). -/
def anchorEntered : Prop := ∀ p s, s.dev.anchoring = some p → s.dev.st = .ready → s.mem.unacked = [] →
  ∃ t, exec .anchorEnterComplete s = .next (enterState .anchored 0 (completeOk p 0x0720 t)) ∧ t.mem.tlb = [] ∧ t.mem.cache = [] ∧
    (∀ e, e ∈ t.ctxs → e.2.store = [] ∧ e.2.astk.held = []) ∧ t.dev.anchoring = none ∧ (∀ k, (portOf t k).up = false) ∧ t.mem.hbm = s.mem.hbm

/-- ANCHOR_EXIT outside ANCHORED completes with no effect; in ANCHORED it starts the exit (R356). -/
def anchorExit : Prop := ∀ p s, Accepted 0x0721 (chkAnchor p) p s →
  (admitState (owe p s) ≠ .anchored → exec (.anchorExit p) s = .next (completeOk p 0x0721 (owe p s))) ∧
  (admitState (owe p s) = .anchored →
    exec (.anchorExit p) s = .next { owe p s with dev := { s.dev with leaving := s.dev.leaving ++ [p] } })

/-- The exit ends in READY with every command that asked for it completed and held descriptors released in waves (R349, R356). -/
def anchorExited : Prop := ∀ s, s.dev.st = .anchored → s.dev.leaving ≠ [] →
  ∃ t u, exec .anchorExitComplete s = .next (enterState .ready 0 { u with bnd := { u.bnd with waves := List.range 16 } }) ∧
    u = s.dev.leaving.foldl (fun v p => completeOk p 0x0721 v) t ∧ t.dev.leaving = [] ∧ t.mem = s.mem

/-- BIST_RUN starts a BIST in HOLD, or in READY with no context loaded; else 0x0E60 (R372). -/
def bistRun : Prop := ∀ p s, Accepted 0x0800 (chkBistRun p (owe p s)) p s →
  exec (.bistRun p) s = .next (withSlot p (16 + 8 * 4314) (owe p s) (fun idx t =>
    if t.dev.st = .ready ∧ ¬ t.ctxs.isEmpty then refuse8 p 0x0800 stBUSY (some 0x0E60) idx t
    else complete p 0x0800 stPENDING none none idx [] { t with test := { t.test with bist := some (idx, pf p 0 1) } }))

/-- A BIST without failures ends in HOLD with detail 0x0E11; its slot is ready, device memory reads as never written, a commit is required (R372). -/
def bistComplete : Prop := ∀ tested idx cl s, s.test.bist = some (idx, cl) → s.dev.st = .hold ∨ s.dev.st = .ready →
  ∃ t, exec (.bistComplete tested []) s = .next (enterState .hold 0x0E11 t) ∧ t.conf.mustCommit = true ∧ t.mem.hbm = [] ∧ t.mem.poison = [] ∧
    t.test.bist = none

/-- The state in which a CLUSTER_TEST has started tests on every die of its mask that has a cluster to test (R370). -/
def testsStarted (p : Packet) (idx : Nat) (t : State) : State := startTests { t with test := { t.test with
  clusterMask := pf p 0 2, clusterRepeat := pf p 2 1 == 1, clusterSlot := some idx, clusterDone := [], results := [] } }

/-- CLUSTER_TEST with mask 0 ends the tests; otherwise it starts testing on the dies of its mask and stays pending, but where a pass finds
nothing to test it is finished at once (R256, R370). -/
def clusterTest : Prop := ∀ p s, Accepted 0x0801 (chkClusterTest p (owe p s)) p s →
  exec (.clusterTest p) s = .next (withSlot p (208 * maskCount (pf p 0 2)) (owe p s) (fun idx t =>
    if pf p 0 2 = 0 then finishSlot p 0x0801 idx 0 [] (endTesting t)
    else if testsDone (testsStarted p idx t) then
      finishSlot p 0x0801 idx 0 (testPayload (testsStarted p idx t)) (clearTesting (testsStarted p idx t))
    else complete p 0x0801 stPENDING none none idx [] (testsStarted p idx t)))

/-- A tested cluster becomes SPARE when it passes, QUARANTINED when it fails (R21, R370). -/
def clusterTestResult : Prop := ∀ phys pass s, phys < 832 → unitState s (uCluster phys) = .testing →
  unitState (foreseen s) (uCluster phys) = .testing → diesRun s = true →
  exec (.clusterTestResult phys pass) s = .next (endTest phys pass
    (decideChange { units := [(uCluster phys, if pass then .spare else .quarantined)] } s))

/-- MARGIN_SCAN starts a scan of the ports of its mask (R371). -/
def marginScan : Prop := ∀ p s, Accepted 0x0802 (chkMarginScan p (owe p s)) p s →
  exec (.marginScan p) s = .next (withSlot p 3072 (owe p s) (fun idx t =>
    complete p 0x0802 stPENDING none none idx [] { t with test := { t.test with margin := some (idx, pf p 0 1) } }))

/-- The scan ends with a measurement for each of the 48 lanes (R371). -/
def marginScanComplete : Prop := ∀ eyes idx mask s, s.test.margin = some (idx, mask) → eyes.length = 48 →
  eyes.all (fun e => e.horiz.length == 7 && e.vert.length == 7) = true →
  ∃ b t, exec (.marginScanComplete eyes) s = .next (finishPending idx 0 0 b { t with test := { t.test with margin := none } }) ∧
    (b, t) = eyesBytes mask eyes s

/-- HBM_RECAL of no stack completes at once; else the stacks are queued, held until the next boundary in RUN and FIXING (R371). -/
def hbmRecal : Prop := ∀ p s, Accepted 0x0803 (chkHbmRecal p (owe p s)) p s →
  ((List.range 24).filter (bitAt (pf p 0 4)) = [] → exec (.hbmRecal p) s = .next (completeOk p 0x0803 (owe p s))) ∧
  ((List.range 24).filter (bitAt (pf p 0 4)) ≠ [] → ∃ t, exec (.hbmRecal p) s = .next t ∧
    t.mem.recalQueue = (List.range 24).filter (bitAt (pf p 0 4)) ∧ t.test.recal = some p ∧
    t.test.recalHeld = (s.dev.st == .run || s.dev.st == .fixing))

/-- A recalibrated stack leaves the queue; with the last one the command completes (R371). -/
def hbmRecalStack : Prop := ∀ st p s, s.test.recal = some p → s.test.recalHeld = false →
  s.mem.recalQueue.find? (fun n => n / 6 == st / 6) = some st → s.grp.retune = false → s.dev.st ≠ .failed →
  ∃ t, t.mem.recalQueue = s.mem.recalQueue.filter (fun n => n != st) ∧ t.ctxs = s.ctxs ∧
    (t.mem.recalQueue = [] → t.test.recal = none ∧ exec (.hbmRecalStackComplete st) s = .next (completeOk p 0x0803 t)) ∧
    (t.mem.recalQueue ≠ [] → t.test.recal = some p ∧ exec (.hbmRecalStackComplete st) s = .next t)

end Sys2Proof.Claims
end

