-- ==== Sys2Proof/Certificates/Slice0/ClaimsRules.lean ====
section
/-! DEFINITION. Claims about the whole machine: the queue of commands, reset, the checks every packet passes, epochs and unit states,
formats, memory and armour, and the invariants that every step keeps. -/
namespace Sys2Proof.Claims
open Sys2Proof.Machine

/-! ### Steps -/

/-- A step runs the command at the front of the queue on the state with the queue's rest. -/
def stepRunsFront : Prop := ∀ c r s, s.pending = c :: r → step s = exec c { s with pending := r }

/-- A step of a state a command was put in front of is that command on the state. -/
def stepRunsPushed : Prop := ∀ c s, step (s.push c) = exec c s

/-- On an empty queue the block idles (log 62). -/
def stepIdles : Prop := ∀ s, s.pending = [] → step s = .next s

/-- No word spells a command: the table gives no row any bits. -/
def noWordSpells : Prop := ∀ nbits w, decodeTableWord nbits w = none ∧ ∀ s, State.withFetchWord s nbits w = s

/-! ### Reset -/

/-- Right after reset the module is in BOOT, no command waits, no queue, slot, context, sync cell value, fault or memory byte stands, and
counters and registers hold the values that R265 gives. -/
def resetState : Prop := State.reset.pending = [] ∧ State.reset.dev.st = .boot ∧ State.reset.queues.q = [] ∧ State.reset.slots.s = [] ∧
  State.reset.ctxs = [] ∧ State.reset.sync.cells = [] ∧ State.reset.mem.hbm = [] ∧ State.reset.mem.poison = [] ∧
  State.reset.regs.eventCause = 0 ∧ State.reset.regs.eventMask = 0xFFFFFFFF ∧ State.reset.regs.queueErrCode = 0 ∧
  State.reset.regs.adminEnable = false ∧ State.reset.regs.adminReady = false ∧ State.reset.regs.adminDepthM1 = 0xFF ∧
  State.reset.regs.heartbeat = 0 ∧ State.reset.pow.energyUj = 0

/-- At reset logical cluster L occupies physical cluster 52 × (L / 50) + (L mod 50), and it stays on its own die (R14). -/
def resetMap : Prop := ∀ l, l < 800 →
  carrier State.reset l = 52 * (l / 50) + l % 50 ∧ carrier State.reset l / 52 = l / 50 ∧ carrier State.reset l < 832 ∧
  identities State.reset (carrier State.reset l) = [l]

/-- The positions 50 and 51 of every die are SPARE at reset, every other cluster is HEALTHY, and BB is the standby (R14, R20). -/
def resetUnits : Prop := ∀ p, p < 832 →
  unitState State.reset (uCluster p) = (if p % 52 ≥ 50 then .spare else .healthy) ∧ unitState State.reset 0x8000 = .healthy ∧
  unitState State.reset 0x8001 = .spare

/-- The state after reset is sound. -/
def resetSound : Prop := Sound State.reset

/-! ### The checks of a packet (R247) -/

/-- The commands whose row is one Ilzan packet: opcode, packet and what the command's own layout says of it. -/
def packetRow : Instr → Option (Nat × Packet × (State → Checks))
  | .nop p => some (0x0000, p, fun _ => chkNop p)
  | .identify p => some (0x0001, p, fun _ => chkIdentify p)
  | .queueCreate p => some (0x0002, p, fun _ => chkQueueCreate p)
  | .queueDelete p => some (0x0003, p, fun _ => chkQueueDelete p)
  | .resultRead p => some (0x0010, p, fun _ => chkResultRead p)
  | .resultRelease p => some (0x0011, p, fun _ => chkResultRelease p)
  | .chartGet p => some (0x0020, p, fun _ => chkChartGet p)
  | .skewLogGet p => some (0x0021, p, fun _ => chkSkewLogGet p)
  | .statusGet p => some (0x0030, p, fun _ => chkStatusGet p)
  | .regRead p => some (0x0031, p, fun _ => chkRegRead p)
  | .configBegin p => some (0x0100, p, fun s => chkConfigBegin p s)
  | .configWrite p => some (0x0101, p, fun s => chkConfigWrite p s)
  | .configCommit p => some (0x0102, p, fun s => chkConfigCommit p s)
  | .configAbort p => some (0x0103, p, fun s => chkConfigAbort p s)
  | .configRead p => some (0x0104, p, fun _ => chkConfigRead p)
  | .liveSet p => some (0x0108, p, fun _ => chkLiveSet p)
  | .contextSet p => some (0x0110, p, fun s => chkContextSet p s)
  | .contextGet p => some (0x0111, p, fun _ => chkContextGet p)
  | .contextClear p => some (0x0112, p, fun _ => chkContextClear p)
  | .scaleGet p => some (0x0121, p, fun _ => chkScaleGet p)
  | .groupSet p => some (0x0132, p, fun s => chkGroupSet p s)
  | .astkSet p => some (0x0134, p, fun s => chkAstkSet p s)
  | .jobStart p => some (0x0140, p, fun _ => chkJobStart p)
  | .jobStop p => some (0x0141, p, fun _ => chkJobStop p)
  | .ptRootSet p => some (0x0200, p, fun _ => chkPtRootSet p)
  | .tlbInvalidate p => some (0x0201, p, fun _ => chkTlbInvalidate p)
  | .dmaSubmit p => some (0x0210, p, fun _ => chkDmaSubmit p)
  | .syncAlloc p => some (0x0220, p, fun _ => chkSyncAlloc p)
  | .syncFree p => some (0x0221, p, fun _ => chkSyncFree p)
  | .syncOp p => some (0x0222, p, fun _ => chkSyncOp p)
  | .kernelDispatch p => some (0x0300, p, fun s => chkKernel p s)
  | .stripeSet p => some (0x0310, p, fun s => chkStripeSet p s)
  | .stripeGet p => some (0x0311, p, fun _ => chkStripeGet p)
  | .ingestSchedule p => some (0x0400, p, fun s => chkIngestSchedule p s)
  | .ingestStart p => some (0x0401, p, fun _ => chkIngestStart p)
  | .ingestStop p => some (0x0402, p, fun _ => chkIngestStop p)
  | .tokenTableLoad p => some (0x0410, p, fun s => chkTokenTableLoad p s)
  | .manifestGet p => some (0x0420, p, fun s => chkManifestGet p s)
  | .portStatusGet p => some (0x0500, p, fun _ => chkPortStatus p)
  | .groupJoin p => some (0x0510, p, fun _ => chkGroupJoin p)
  | .groupChartGet p => some (0x0511, p, fun _ => chkGroupChart p)
  | .collectiveSubmit p => some (0x0520, p, fun _ => chkColl p)
  | .epochAbort p => some (0x0521, p, fun _ => chkEpochAbort p)
  | .deadlineSet p => some (0x0530, p, fun _ => chkDeadline p)
  | .faultGet p => some (0x0600, p, fun _ => chkFaultGet p)
  | .faultResolve p => some (0x0601, p, fun _ => chkFaultResolve p)
  | .unitStateSet p => some (0x0602, p, fun _ => chkUnitState p)
  | .fixRequest p => some (0x0610, p, fun _ => chkFixRequest p)
  | .fixStatusGet p => some (0x0611, p, fun _ => chkFixStatus p)
  | .fixExport p => some (0x0612, p, fun s => chkFixExport p s)
  | .fixRestore p => some (0x0613, p, fun _ => chkFixRestore p)
  | .roleSet p => some (0x0620, p, fun _ => chkRoleSet p)
  | .standbyAssume p => some (0x0621, p, fun _ => chkAssume p)
  | .feedOverride p => some (0x0622, p, fun _ => chkFeedOverride p)
  | .stepManifestGet p => some (0x0630, p, fun _ => chkManifest p)
  | .telemetryGet p => some (0x0700, p, fun s => chkTelemetry p s)
  | .stepReportGet p => some (0x0701, p, fun _ => chkStepReport p)
  | .powerCapSet p => some (0x0710, p, fun _ => chkPowerCap p)
  | .freqSet p => some (0x0711, p, fun _ => chkFreqSet p)
  | .anchorEnter p => some (0x0720, p, fun _ => chkAnchor p)
  | .anchorExit p => some (0x0721, p, fun _ => chkAnchor p)
  | .bistRun p => some (0x0800, p, fun s => chkBistRun p s)
  | .clusterTest p => some (0x0801, p, fun s => chkClusterTest p s)
  | .marginScan p => some (0x0802, p, fun s => chkMarginScan p s)
  | .hbmRecal p => some (0x0803, p, fun s => chkHbmRecal p s)
  | _ => none

/-- While the module has power, a packet's row always answers a next state. -/
def packetsAnswer : Prop := ∀ i op p c s, packetRow i = some (op, p, c) → s.dev.st ≠ .off → ∃ t, exec i s = .next t

/-- Without power it does not run. -/
def packetsNeedPower : Prop := ∀ i op p c s, packetRow i = some (op, p, c) → s.dev.st = .off → exec i s = .refused (.notEnabled "no power")

/-- A packet refused at one of the checks 1 to 7 has no effect apart from its completion, which carries the status of the first check that
fails, and allocates no slot (R247). -/
def packetsRefused : Prop := ∀ i op p c s st d, packetRow i = some (op, p, c) → s.dev.st ≠ .off →
  behindHeld (owe p s) p = false → mustWait (owe p s) op p = false → acceptance (owe p s) op (c (owe p s)) p = some (st, d) →
  exec i s = .next (complete p op st d none 0xFFFF [] (owe p s))

/-- A packet that must wait is held in its queue, in the order of fetching, with its completion owed (R259, R230). -/
def packetsWait : Prop := ∀ i op p c s, packetRow i = some (op, p, c) → s.dev.st ≠ .off →
  (behindHeld (owe p s) p || mustWait (owe p s) op p) = true → exec i s = .next (holdCommand op p (owe p s))

/-- Ten commands accepted in FIXING do not act during the Fix stop: each starts when the stop ends, behind those accepted before it (R248). -/
def packetsStartLater : Prop := (∀ i op p c s, packetRow i = some (op, p, c) → Passes op (c (owe p s)) p s → waitsForStop op = true → s.dev.st = .fixing →
    exec i s = .next { owe p s with dev := { s.dev with starts := s.dev.starts ++ [(op, p)] } }) ∧
  (∀ p s, Passes 0x0120 (chkScaleSet p) p s → s.dev.st = .fixing → ∀ i, i = (if pf p 0 1 = 1 then Instr.scaleSetDelete p else .scaleSetCreateReplace p) →
    exec i s = .next { owe p s with dev := { s.dev with starts := s.dev.starts ++ [(0x0120, p)] } })

/-- The order of checks 1 to 7: the first that fails decides (R247). -/
def checkOrder : Prop := ∀ s op c p,
  (p.crc ≠ packetCrc op p → acceptance s op c p = some (stBADCRC, none)) ∧
  (p.crc = packetCrc op p → opRow op = none → acceptance s op c p = some (stBADOPCODE, none)) ∧
  (∀ row, p.crc = packetCrc op p → opRow op = some row →
    (row.permits p.src = false → acceptance s op c p = some (stNOTPERMITTED, none)) ∧
    (∀ r, sourceRefusal s row op p = none → stateRefusal s op p.src = some r → acceptance s op c p = some r) ∧
    (sourceRefusal s row op p = none → stateRefusal s op p.src = none → c.lenOk = false →
      ∃ d, acceptance s op c p = some (stBADPARAM, d)) ∧
    (sourceRefusal s row op p = none → stateRefusal s op p.src = none → paramRefusal row c p = none → p.epoch = 0 → op / 256 ∉ [0, 7, 8] →
      acceptance s op c p = some (stCHARTSTALE, none)) ∧
    (∀ n, sourceRefusal s row op p = none → stateRefusal s op p.src = none → paramRefusal row c p = none → epochRefusal s op c p = none →
      c.charge = some n → slotFree n s = false → ∃ d, acceptance s op c p = some (stBUSY, d)) ∧
    (sourceRefusal s row op p = none → stateRefusal s op p.src = none → paramRefusal row c p = none → epochRefusal s op c p = none →
      busyRefusal s c p = none → acceptance s op c p = none))

/-- A completion changes queues, replies and the counter of free values, and nothing else. -/
def completionFrame : Prop := ∀ p op st d v slot data s,
  let t := complete p op st d v slot data s
  t.host = s.host ∧ t.regs = s.regs ∧ t.dev = s.dev ∧ t.chart = s.chart ∧ t.slots = s.slots ∧ t.conf = s.conf ∧ t.mem = s.mem ∧
  t.sync = s.sync ∧ t.ctxs = s.ctxs ∧ t.arrays = s.arrays ∧ t.tokens = s.tokens ∧ t.grp = s.grp ∧ t.colls = s.colls ∧ t.fix = s.fix ∧
  t.pow = s.pow ∧ t.board = s.board ∧ t.flash = s.flash ∧ t.test = s.test ∧ t.bnd = s.bnd ∧ t.pending = s.pending ∧ t.nextId = s.nextId

/-- A completion over a host queue stands in that queue's list, with tag, opcode, status and slot. -/
def completionPosted : Prop := ∀ p op st (d : Nat) v slot s q x, p.src = .host q → tget s.queues.q q = some x →
  tget (complete p op st (some d) (some v) slot [] s).queues.q q =
    some { x with ready := x.ready ++ [{ hostTag := p.hostTag, opcode := op, status := st, slot := slot, detail := d, value := v }] }

/-- Reading back a header the host built by R244 gives every field. -/
def headerParses : Prop := ∀ op p, op < 2 ^ 16 → p.flags < 2 ^ 16 → p.ctx < 2 ^ 8 → p.resv5 < 2 ^ 24 → p.paramLen < 2 ^ 32 → p.resv20 < 2 ^ 32 →
  p.paramAddr < 2 ^ 64 → p.resv32 < 2 ^ 224 →
  parsePacket p.src (headerBytes op p ++ leBytes 4 p.crc.toNat) p.params = p ∧
  fieldAt (headerBytes op p ++ leBytes 4 p.crc.toNat) 0 2 = op

/-! ### Epochs, unit states, publication -/

/-- The epoch continues at 1 after 0xFFFFFFFF and is never 0; the next epoch is newer, and no epoch is older than itself (R22). -/
def epochs : Prop := (∀ e, epochNext e ≠ 0) ∧ (∀ e, e ≠ 0xFFFFFFFF → epochNext e = e + 1) ∧ epochNext 0xFFFFFFFF = 1 ∧
  (∀ e, epochOlder e (epochNext e) = true) ∧ (∀ e, epochOlder e e = false) ∧
  (∀ x y, epochOlder x y = true ↔ 1 ≤ (y - x).toNat ∧ (y - x).toNat ≤ 2 ^ 31 - 1) ∧
  (∀ x y, epochOlder x y = true → epochOlder y x = false)

/-- A published change has its epoch, gives each unit it names its state, the array groups of a cluster it makes TESTING that state, and leaves every
other unit's state; a unit it restates keeps its own. It takes off the fence list the units that are HEALTHY by it and no other (R20, R25, R29, R32). -/
def publication : Prop := ∀ c e s, ((fullUnits s c).map Prod.fst).Nodup →
  (publishChange c e s).chart.epoch = e ∧ (publishChange c e s).chart.pub = none ∧
  (∀ u st, (u, st) ∈ fullUnits s c → unitState (publishChange c e s) u = st) ∧
  (∀ u st, (u, st) ∈ c.units → (u, st) ∈ fullUnits s c) ∧
  (∀ u, u ∈ c.restate → u ∉ c.units.map Prod.fst → (u, unitState s u) ∈ fullUnits s c) ∧
  (∀ p a, p < 832 → a < 4 → (uCluster p, .testing) ∈ c.units → (0x2000 + 4 * p + a, .testing) ∈ fullUnits s c) ∧
  (∀ u, u ∉ (fullUnits s c).map Prod.fst → unitState (publishChange c e s) u = unitState s u) ∧
  (∀ u, u ∈ (publishChange c e s).chart.fence ↔ u ∈ s.chart.fence ∧ (u, .healthy) ∉ fullUnits s c)

/-- A unit's change epoch becomes the change's when the change alters its state or its logical identity, and stays otherwise, restated units' too
(R24, R32). -/
def changeEpochs : Prop := ∀ c e s u, ((fullUnits s c).map Prod.fst).Nodup →
  (((∃ st, (u, st) ∈ fullUnits s c ∧ st ≠ unitState s u) ∨ (∃ p, p ∈ movedPhys s c ∧ u = uCluster p)) →
    changeEpoch (publishChange c e s) u = e) ∧
  ((∀ st, (u, st) ∈ fullUnits s c → st = unitState s u) → (∀ p, p ∈ movedPhys s c → u ≠ uCluster p) →
    changeEpoch (publishChange c e s) u = changeEpoch s u)

/-- A carrier that takes an identity starts with an empty activation-stack window, and the windows of the other identities stay (R138). -/
def windowsEmpty : Prop := ∀ c e s l, (∀ x, x ∈ (publishChange c e s).ctxs → l ∈ c.moves.map Prod.fst → tget x.2.astk.held l = none) ∧
  (∀ i x y, ctxOf s i = some x → ctxOf (publishChange c e s) i = some y → l ∉ c.moves.map Prod.fst → tget y.astk.held l = tget x.astk.held l)

/-- What is left of a change when its turn comes: every transition of it is one of R21's, or none (R21; what falls away is the model's choice, log 148). -/
def changesLawful : Prop := ∀ c s u st, (u, st) ∈ (lawful s c).units ↔
  (u, st) ∈ c.units ∧ (st = unitState s u ∨ transitionOk (u / 4096) (unitState s u) st = true)

/-- Nothing leaves ABSENT, FAILED is reached from every other state and left by nothing but power, no unit goes from QUARANTINED to service without a
test, and only clusters, array groups, media and lanes are tested (R20, R21). -/
def transitions : Prop := ∀ k st, transitionOk k .absent st = false ∧ transitionOk k .failed .healthy = false ∧
  transitionOk k .failed .spare = false ∧ transitionOk k .failed .testing = false ∧ transitionOk k .quarantined .healthy = false ∧
  transitionOk k .quarantined .spare = false ∧ (transitionOk k .quarantined .testing = true ↔ k ∈ [1, 2, 5, 7]) ∧
  (transitionOk k st .testing = true → k ∈ [1, 2, 5, 7]) ∧
  (st ≠ .failed → st ≠ .absent → transitionOk k st .failed = true) ∧ transitionOk 1 .healthy .spare = true

/-! ### Formats, scales, gradients -/

/-- What the boundary makes of a gradient record: the history shifts on a step that wrote a counted element, its new bit says whether the step
qualified, and the format follows; every record of a context goes through it, and no record without GRAD changes (R103). -/
def gradientFormat : Prop :=
  (∀ w, qualifies w = true ↔ 0 < w.elements ∧ w.saturated * 65536 < w.elements ∧ w.nonfinite = 0) ∧
  (∀ r, r.grad = true → (gradDecision r).gfmt = (if r.pin then 3 else if (gradDecision r).gradHist = 0xFF then 1 else 2)) ∧
  (∀ r, r.grad = true → r.shadow.maxk = none → (gradDecision r).gradHist = r.gradHist) ∧
  (∀ r, r.grad = true → r.shadow.maxk ≠ none →
    (gradDecision r).gradHist = (2 * r.gradHist + (if qualifies r.shadow then 1 else 0)) % 256) ∧
  (∀ r, r.grad = false → gradDecision r = r) ∧
  (∀ x, (advanceRecs x).scales = x.scales.map (fun e => (e.1, (placeScale (gradDecision e.2)).1)) ∧
    (advanceRecs x).dead = x.dead.map (fun r => (placeScale (gradDecision r)).1)) ∧
  (∀ b, (scaleRecord b none).gradHist = 0)

/-- The records that a gradient tensor's record goes through over boundaries with these latched counts. -/
def gradientRun (r : ScaleRec) : List WatchLive → ScaleRec
  | [] => r
  | w :: rest => gradientRun (gradDecision { r with shadow := w }) rest

/-- From GRAD_HIST 0 a gradient record is in KL8B after boundaries of written steps only when the last eight of them qualified (R103). -/
def gradientNeedsEight : Prop := ∀ r ws, r.grad = true → r.pin = false → r.gradHist = 0 → ws ≠ [] → (∀ w ∈ ws, w.maxk ≠ none) →
  ((gradientRun r ws).gfmt = 1 ↔ 8 ≤ ws.length ∧ ∀ w ∈ ws.reverse.take 8, qualifies w = true)

/-- TS after a boundary lies in its range, and it is MAXK + 1 + MARGIN − Ftop of the entry that DELAY names unless that was clamped (R97). -/
def scalePlacement : Prop := ∀ r k, ¬ (r.fmt = 3 ∧ r.grad = false) → (((r.shadow.maxk :: r.hist).take 4)[r.delay - 1]?).join = some k →
  -8192 ≤ (placeScale r).1.ts ∧ (placeScale r).1.ts ≤ 8191 ∧
  ((placeScale r).2 = 0 ↔ (placeScale r).1.ts = k + 1 + r.margin - recordTop r) ∧
  (placeScale r).1.hist = (r.shadow.maxk :: r.hist).take 4

/-- Every finite non-zero Kyonex code is its own rounding: its value, rounded into the same format at the same scale, gives the code back
with neither saturation nor flush, whatever the rounding rule and the draw (R34, R38, R44). -/
def kyonexRoundTrip : Prop := ∀ (k : Kl) (r : Round) (level u : Nat) (scale : Int) (g : Bool) (e : Nat), 1 ≤ e → e ≤ k.emax level →
  k.decode level (k.signBit g + e) = .num g e ∧
  (∃ m x, k.value level scale (k.signBit g + e) = .fin g m x ∧ 0 < m ∧ k.round level r u scale g m x = ⟨k.signBit g + e, false, false⟩)

/-- Rounding toward a Kyonex format never writes a code past the largest finite one nor the NaN code (R44). -/
def kyonexInRange : Prop := ∀ (k : Kl) (r : Round) (level u : Nat) (scale : Int) (s : Bool) (m : Nat) (x : Int), 0 < m →
  (k.round level r u scale s m x).code % 2 ^ (k.width - 1) ≤ k.emax level

/-! ### Stripes -/

/-- A stripe set is legal: as many boundaries as clusters, the first 0, ascending by at least MIN_ROWS up to HEIGHT (R121). -/
abbrev LegalSet (t : StripeSet) : Prop :=
  1 ≤ t.clusters.length ∧ t.bound.length = t.clusters.length ∧ t.bound.headD 1 = 0 ∧ boundsAscend t.minRows (t.bound ++ [t.height]) = true

/-- Balancing keeps a stripe set legal (R121, R127). -/
def balanceLegal : Prop := ∀ t, LegalSet t → LegalSet { t with bound := balance t }

/-- A balanced boundary moves by at most MAX_MOVE before it is pushed up for MIN_ROWS, and a set without BALANCE keeps its boundaries (R127). -/
def balanceOff : Prop := ∀ t, bitAt t.flags 0 = false → balance t = t.bound

/-! ### Energy -/

/-- What the energy counter holds over samples in mW, in nanojoules with the remainder carried (R351). -/
def energyNj (p : PowerSys) : Nat := 1000 * p.energyUj + p.energyRem

/-- Every sample's energy enters the counter exactly, with the remainder below 1 µJ carried forward, until 2^64 µJ (R351). -/
def energyExact : Prop := ∀ (ws : List Nat) (p : PowerSys), p.energyRem < 1000 → energyNj p + 2 * ws.sum < 1000 * 2 ^ 64 →
  energyNj (ws.foldl (fun t w => addEnergy w t) p) = energyNj p + 2 * ws.sum ∧ (ws.foldl (fun t w => addEnergy w t) p).energyRem < 1000

/-! ### Sync cells -/

/-- After an operation on a cell no wait of that cell whose condition holds is left, waits of other cells stay, and those released carry
the value just after (R217). -/
def waitsReleased : Prop := ∀ cell v s,
  (∀ w ∈ (cellWrite cell v s).sync.waits, w.cell = cell → w.holds v = false) ∧
  (∀ w ∈ s.sync.waits, w.cell ≠ cell → w ∈ (cellWrite cell v s).sync.waits) ∧
  (∀ w ∈ s.sync.waits, w.cell = cell → w.holds v = true →
    (⟨waveOf w.who, w.who, v, s.sync.opSeq⟩ : Release) ∈ (cellWrite cell v s).sync.releases) ∧
  cellValue (cellWrite cell v s) cell = v

/-! ### Memory and armour -/

/-- Every byte of the quadrant's plain view has a place of its own, and lies inside its stack (R191). -/
def plainPlaces : Prop := ∀ s d d', (∀ q, q < 4 → 5 * secField s 3 q 1 0 ≤ 40) →
  ∀ st off st' off', locate s d = .plain st off → locate s d' = .plain st' off' →
    st < 24 ∧ off < plainGib s (st / 6) * gib ∧ (hbmKey st off = hbmKey st' off' → d / 2 ^ 39 = d' / 2 ^ 39 → d = d')

/-- What is written to the plain view reads back, and every other byte of the plain view reads as before (R190, R191, R205). -/
def plainWrite : Prop := ∀ s dpa v st off, Memory.wf s.mem.hbm = true → (∀ q, q < 4 → 5 * secField s 3 q 1 0 ≤ 40) →
  locate s dpa = .plain st off → st ∉ s.mem.lost → hbmKey st off / 64 ∉ s.mem.poison →
  devByte (devSet dpa v s) dpa = .ok v ∧
  ∀ d st' off', locate s d = .plain st' off' → hbmKey st' off' ≠ hbmKey st off → devByte (devSet dpa v s) d = devByte s d

/-- The exclusive-or of the six granules of a stripe at a byte. -/
def stripeXor (s : State) (q stripe b : Nat) : Byte :=
  (List.range 6).foldl (fun x j => x ^^^ Memory.get s.mem.hbm (poolKey s q stripe j b)) 0

/-- Every parity granule of a quadrant's pool holds the exclusive-or of the five data granules (R207). -/
def ParityHolds (s : State) (q : Nat) : Prop := ∀ stripe b, stripe < poolStripes s q → b < 4096 → stripeXor s q stripe b = 0

/-- A write to the armoured view of an INTACT quadrant keeps its parity and reads back (R207, R208). -/
def armourWrite : Prop := ∀ s q stripe g b v, Memory.wf s.mem.hbm = true → q < 4 → 5 * secField s 3 q 1 0 ≤ 40 → s.mem.armour.length = 4 →
  (armourOf s q).st = 1 → stripe < poolStripes s q → g < 5 → b < 4096 → ParityHolds s q →
  ParityHolds (armourSet q stripe g b v s) q ∧
  (poolKey s q stripe (dataJ stripe g) b / 64 ∉ s.mem.poison → armourByte (armourSet q stripe g b v s) q stripe g b = some v)

/-- The loss of one stack of an INTACT quadrant with no poison in its pool loses no armoured byte: each reads as before (R207, R209, R210). -/
def armourSurvives : Prop := ∀ s q j, q < 4 → j < 6 → Memory.wf s.mem.hbm = true → 5 * secField s 3 q 1 0 ≤ 40 → s.mem.armour.length = 4 →
  (armourOf s q).st = 1 → ParityHolds s q →
  (∀ stripe i b, stripe < poolStripes s q → i < 6 → b < 4096 → poolKey s q stripe i b / 64 ∉ s.mem.poison) →
  6 * q + j ∉ s.mem.lost → unitState s (uStack (6 * q + j)) = .healthy → s.dev.st ≠ .off →
  ∃ t, exec (.stackLoss (6 * q + j)) s = .next t ∧ (armourOf t q).st = 2 ∧ (armourOf t q).lostJ = j ∧
    ∀ stripe g b, stripe < poolStripes s q → g < 5 → b < 4096 → armourByte t q stripe g b = armourByte s q stripe g b

/-! ### Invariants of every step -/

/-- Every step keeps the three memories in canonical form. -/
def memoryStaysCanonical : Prop := ∀ s t, step s = .next t →
  Memory.wf s.mem.hbm = true ∧ Memory.wf s.host.mem = true ∧ Memory.wf s.host.cxlMem = true →
  Memory.wf t.mem.hbm = true ∧ Memory.wf t.host.mem = true ∧ Memory.wf t.host.cxlMem = true

/-- The numbers of ports, quadrants, compute dies and stored port modes, and the bound of the skew log. -/
abbrev Sized (s : State) : Prop :=
  s.fab.ports.length = 6 ∧ s.flash.modes.length = 6 ∧ s.mem.armour.length = 4 ∧ s.pow.dies.length = 16 ∧ s.chart.skews.length ≤ 256

/-- Every step keeps them. -/
def sizesStay : Prop := ∀ s t, step s = .next t → Sized s → Sized t

end Sys2Proof.Claims
end

