-- ==== Sys2Proof/Certificates/Slice0/ClaimsSetup.lean ====
section
/-! DEFINITION. Claims about the configuration commands, contexts, scale records, jobs, page tables and translation caches. -/
namespace Sys2Proof.Claims
open Sys2Proof.Machine

/-- CONFIG_BEGIN opens an empty buffer of LENGTH bytes; from READY the module enters HOLD with detail 0x0E12, its transmitters idle. -/
def configBegin : Prop := ∀ p s, Accepted 0x0100 (chkConfigBegin p (owe p s)) p s → within 32 (pf p 0 4) 1048576 = true →
  exec (.configBegin p) s = .next (completeOk p 0x0100 (
    if s.dev.st = .ready then enterHold 0x0E12 { owe p s with conf := { s.conf with staging := some { length := pf p 0 4 } } }
    else { owe p s with conf := { s.conf with staging := some { length := pf p 0 4 } } }))

/-- CONFIG_BEGIN's refusals: a LENGTH outside 32 to 1 MiB; in READY, a loaded context or the membership of a group. The recorded image stays
whenever the command runs (R363). -/
def configBeginRefused : Prop := (∀ p s, Accepted 0x0100 (chkConfigBegin p (owe p s)) p s → (pf p 0 4 < 32 ∨ 1048576 < pf p 0 4) →
    exec (.configBegin p) s = .next (completeWith p 0x0100 0x0021 0x0E41 (owe p s))) ∧
  (∀ p s, Accepted 0x0100 { lenOk := p.paramLen == 4 } p s → s.test.bist = none → s.dev.st = .ready → s.ctxs ≠ [] →
    exec (.configBegin p) s = .next (complete p 0x0100 0x0010 (some 0x0E45) none 0xFFFF [] (owe p s))) ∧
  (∀ p s, Accepted 0x0100 { lenOk := p.paramLen == 4 } p s → s.test.bist = none → s.dev.st = .ready → s.ctxs = [] → inGroup s = true →
    exec (.configBegin p) s = .next (complete p 0x0100 0x0010 (some 0x0E46) none 0xFFFF [] (owe p s))) ∧
  (∀ p s t, exec (.configBegin p) s = .next t → t.conf.recorded = s.conf.recorded)

/-- The bytes of a write, and no others, are what the buffer holds after it: a later write prevails (R364). -/
def laterWritePrevails : Prop := ∀ (t : Table Byte) k l i, tget (stageBytes t k l) i = if k ≤ i ∧ i < k + l.length then l[i - k]? else tget t i

/-- CONFIG_COMMIT with no open buffer is refused with 0x0E43 and frees its slot (R364). -/
def commitNoBuffer : Prop := ∀ p s, Accepted 0x0102 (chkConfigCommit p (owe p s)) p s → s.conf.staging = none →
  exec (.configCommit p) s = .next (withSlot p 16 (owe p s) (fun idx t => refuse8 p 0x0102 0x0021 (some 0x0E43) idx t))

/-- CONFIG_READ with no image committed since power-up is refused with 0x0E44 (R367). -/
def configReadRefused : Prop := ∀ p s, Accepted 0x0104 (chkConfigRead p) p s → s.conf.recorded = none →
  exec (.configRead p) s = .next (withSlot p 1048576 (owe p s) (fun idx t => refuse8 p 0x0104 0x0021 (some 0x0E44) idx t))

/-- CONFIG_WRITE stages its bytes at OFFSET; out of range it is refused with 0x0E42, with no buffer open with 0x0E43. -/
def configWrite : Prop := ∀ p s, Accepted 0x0101 (chkConfigWrite p (owe p s)) p s →
  (∀ g, s.conf.staging = some g → pf p 0 4 + ((p.params.take p.paramLen).drop 4).length ≤ g.length →
    exec (.configWrite p) s = .next (completeOk p 0x0101 { owe p s with conf := { s.conf with
      staging := some { g with bytes := stageBytes g.bytes (pf p 0 4) ((p.params.take p.paramLen).drop 4) } } })) ∧
  (∀ g, s.conf.staging = some g → g.length < pf p 0 4 + ((p.params.take p.paramLen).drop 4).length →
    exec (.configWrite p) s = .next (completeWith p 0x0101 stBADPARAM 0x0E42 (owe p s))) ∧
  (s.conf.staging = none → exec (.configWrite p) s = .next (completeWith p 0x0101 stBADPARAM 0x0E43 (owe p s)))

/-- CONFIG_COMMIT of an image that passes every check is answered ST_PENDING with its slot; its application is under way. -/
def configCommit : Prop := ∀ p s g c, Accepted 0x0102 (chkConfigCommit p (owe p s)) p s → s.conf.staging = some g → commitCheck s g = .ok c →
  ∃ idx u, exec (.configCommit p) s = .next (complete p 0x0102 stPENDING none none idx [] u) ∧ (idx, { u with conf := s.conf }) = allocSlot p 16 (owe p s) ∧
    u.conf.applying = some (idx, p, 0) ∧ u.conf.staging = s.conf.staging

/-- CONFIG_COMMIT of an image that fails: the status, hold code and payload of the first failing check; in HOLD the module stays there with
that code. -/
def configCommitFails : Prop := ∀ p s g f, Accepted 0x0102 (chkConfigCommit p (owe p s)) p s → s.conf.staging = some g →
  commitCheck (withSlot p 16 (owe p s) (fun _ t => t)) g = .error f →
  exec (.configCommit p) s = .next (withSlot p 16 (owe p s) (fun idx t => complete p 0x0102 f.status (some f.code) none idx []
    (slotReady idx f.status f.code (commitPayload f) (if s.dev.st = .hold then enterState .hold f.code t else t))))

/-- CONFIG_COMMIT_APPLIED in HOLD: the image is recorded, the level in force is its own, FULL where it leaves it at 0, the buffer closes, the module is READY. -/
def configCommitApplied : Prop := ∀ s idx p n g img l, s.conf.applying = some (idx, p, n) → s.conf.staging = some g → s.dev.st = .hold →
  commitCheck s g = .ok (img, l) →
  ∃ t, exec .configCommitApplied s = .next t ∧ t.dev.st = .ready ∧ t.conf.recorded = some img ∧ t.conf.staging = none ∧ t.conf.applying = none ∧
    t.dev.level = (if fieldAt ((bodyOf l 1).getD []) 0 1 = 0 then 3 else fieldAt ((bodyOf l 1).getD []) 0 1) ∧
    t.pow.capW = fieldAt ((bodyOf l 0x10).getD []) 0 2 ∧ t.ctxs = s.ctxs ∧ t.chart = s.chart

/-- CONFIG_ABORT closes the buffer. In HOLD it returns to READY when an image is recorded, the trained ports resuming, and else stays in HOLD
with detail 0. -/
def configAbort : Prop := ∀ p s, Accepted 0x0103 (chkConfigAbort p (owe p s)) p s → exec (.configAbort p) s = .next (completeOk p 0x0103 (
  let t : State := { owe p s with conf := { s.conf with staging := none } }
  if s.dev.st ≠ .hold then t
  else if s.conf.recorded.isSome then enterState .ready 0 (resumePorts t) else enterState .hold 0 t))

/-- CONFIG_READ copies the recorded image into a slot. -/
def configRead : Prop := ∀ p s img, Accepted 0x0104 (chkConfigRead p) p s → s.conf.recorded = some img →
  exec (.configRead p) s = .next (withSlot p 1048576 (owe p s) (fun idx t => finishSlot p 0x0104 idx 0 img t))

/-- LIVE_SET of a section of values in their ranges, its reserved bytes checked before: with a bound context it waits for the next boundary, else
it is applied. -/
def liveSet : Prop := ∀ p s, Accepted 0x0108 (chkLiveSet p) p s → pf p 0 2 ∈ [0x10, 0x11, 0x12] →
  (pf p 0 2 = 0x10 → powerOk ((p.params.drop 8).take (pf p 4 4)) = true ∧ freqOk (fieldAt ((p.params.drop 8).take (pf p 4 4)) 6 2) = true) →
  (anyBound s = true → exec (.liveSet p) s = .next (completeOk p 0x0108 { owe p s with
    conf := { s.conf with live := s.conf.live ++ [⟨s.nextId, pf p 0 2, (p.params.drop 8).take (pf p 4 4)⟩] }, nextId := s.nextId + 1 })) ∧
  (anyBound s = false → exec (.liveSet p) s = .next (completeOk p 0x0108 (
    applyLive ⟨s.nextId, pf p 0 2, (p.params.drop 8).take (pf p 4 4)⟩ (owe p s))))

/-- CONTEXT_SET, no commit being due after a full self-test, loads a context that is not loaded, whose demand fits alone and whose save area lies apart; no translation of an earlier
context of that ID is cached. -/
def contextSet : Prop := ∀ p s, Accepted 0x0110 (chkContextSet p (owe p s)) p s → s.conf.mustCommit = false → fits [{ params := p.params.take 24 }] = true →
  saveOverlap s p = false → ctxOf s p.ctx = none →
  exec (.contextSet p) s = .next (completeOk p 0x0110 { owe p s with
    ctxs := tset s.ctxs p.ctx { params := p.params.take 24 }, mem := { s.mem with tlb := s.mem.tlb.filter (fun t => t.ctx != p.ctx) } })

/-- CONTEXT_SET of a loaded context is refused with 0x0903. -/
def contextSetLoaded : Prop := ∀ p s, Accepted 0x0110 (chkContextSet p (owe p s)) p s → s.conf.mustCommit = false → fits [{ params := p.params.take 24 }] = true →
  saveOverlap s p = false → (ctxOf s p.ctx).isSome = true → exec (.contextSet p) s = .next (completeWith p 0x0110 stBADPARAM 0x0903 (owe p s))

/-- CONTEXT_GET copies a context's parameters and status into a slot of 32 bytes. -/
def contextGet : Prop := ∀ p s x, Accepted 0x0111 (chkContextGet p) p s → ctxOf s p.ctx = some x →
  exec (.contextGet p) s = .next (withSlot p 32 (owe p s) (fun idx t => finishSlot p 0x0111 idx 0 (contextPayload t p.ctx x) t))

/-- CONTEXT_CLEAR of a context with no work, records or queues unloads it. -/
def contextClear : Prop := ∀ p s x, Accepted 0x0112 (chkContextClear p) p s → ctxOf s p.ctx = some x → x.works = [] → x.faults = [] → x.lateFaults = [] →
  queueBits s p.ctx = 0 → exec (.contextClear p) s = .next (completeOk p 0x0112 (settleIngest { owe p s with ctxs := tdel s.ctxs p.ctx }))

/-- CONTEXT_CLEAR of a context with work or fault records is refused with ST_BUSY. -/
def contextClearBusy : Prop := ∀ p s x, Accepted 0x0112 (chkContextClear p) p s → ctxOf s p.ctx = some x → (x.works ≠ [] ∨ x.faults ≠ []) →
  exec (.contextClear p) s = .next (completeOpen p 0x0112 stBUSY (owe p s))

/-- SCALE_SET that replaces a record in a context with no bound job, block table in place: the new record stands under its tensor ID. -/
def scaleSetCreateReplace : Prop := ∀ p s x, Accepted 0x0120 (chkScaleSet p) p s → pf p 0 1 = 0 → ctxOf s p.ctx = some x → x.bound = false →
  ∀ o, tget x.scales (fieldAt (scaleBytes p) 0 4) = some o → sameBlocks o (scaleRecord (scaleBytes p) (some o)) = true →
  (scaleRecord (scaleBytes p) (some o)).ovfVa % 64 = 0 → tget s.conf.sections 6 = none →
  exec (.scaleSetCreateReplace p) s = .next (completeOk p 0x0120 (ctxMod p.ctx (fun y => { y with
    scales := tset y.scales (fieldAt (scaleBytes p) 0 4) (scaleRecord (scaleBytes p) (some o)) }) (owe p s)))

/-- SCALE_SET that creates a record initialises its block table; when every write lands it completes with ST_OK. -/
def scaleSetCreates : Prop := ∀ p s x t, Accepted 0x0120 (chkScaleSet p) p s → pf p 0 1 = 0 → ctxOf s p.ctx = some x →
  tget x.scales (fieldAt (scaleBytes p) 0 4) = none → x.scales.length < 16384 →
  (scaleRecord (scaleBytes p) none).ovfVa % 64 = 0 → tget s.conf.sections 6 = none →
  initBlocks p.ctx (scaleRecord (scaleBytes p) none) (ctxMod p.ctx (fun y => { y with
    scales := tset y.scales (fieldAt (scaleBytes p) 0 4) (scaleRecord (scaleBytes p) none) }) (owe p s)) = .ok t →
  exec (.scaleSetCreateReplace p) s = .next (completeOk p 0x0120 t)

/-- SCALE_SET's delete takes the record out of the table; it is kept for the descriptors accepted before. -/
def scaleSetDelete : Prop := ∀ p s x r, Accepted 0x0120 (chkScaleSet p) p s → pf p 0 1 = 1 → ctxOf s p.ctx = some x →
  tget x.scales (fieldAt (scaleBytes p) 0 4) = some r →
  exec (.scaleSetDelete p) s = .next (completeOk p 0x0120 (ctxMod p.ctx (fun y => { y with
    scales := tdel y.scales (fieldAt (scaleBytes p) 0 4)
    dead := y.dead ++ [{ r with deletedAt := s.nextId }]
    scaleEdits := y.scaleEdits.filter (fun b => fieldAt b 0 4 != fieldAt (scaleBytes p) 0 4) }) (owe p s)))

/-- SCALE_RECORD_REMOVE drops a deleted record that no earlier descriptor uses and whose watch slot is written, and keeps its counts in the step's totals. -/
def scaleRecordRemove : Prop := ∀ c tensor s x r, ctxOf s c = some x → x.dead.find? (fun d => d.id == tensor) = some r →
  (∀ w ∈ x.works, w.id < r.deletedAt → w.touches tensor = false) → (x.watchDue = true → r.slotDue = false) →
  exec (.scaleRecordRemove c tensor) s = .next { s with ctxs := tmod s.ctxs c (fun y => { y with
    dead := y.dead.filter (fun d => !(d.id == tensor && d.deletedAt == r.deletedAt))
    orphanSat := sat32 y.orphanSat r.live.saturated
    orphanNonfinite := sat32 y.orphanNonfinite r.live.nonfinite
    orphanFlush := sat32 y.orphanFlush r.live.flushed
    orphanOvf := sat32 y.orphanOvf r.live.ovfBlocks.length }) }

/-- SCALE_GET copies a record's 64 bytes into a slot; of no record it is refused with 0x0406. -/
def scaleGet : Prop := ∀ p s x, Accepted 0x0121 (chkScaleGet p) p s → ctxOf s p.ctx = some x →
  (∀ r, tget x.scales (pf p 0 4) = some r →
    exec (.scaleGet p) s = .next (withSlot p 64 (owe p s) (fun idx t => finishSlot p 0x0121 idx 0 (recordBytes r) t))) ∧
  (tget x.scales (pf p 0 4) = none →
    exec (.scaleGet p) s = .next (withSlot p 64 (owe p s) (fun idx t => refuse8 p 0x0121 stBADPARAM (some 0x0406) idx t)))

/-- GROUP_SET puts its edit among those that wait for their boundary. -/
def groupSet : Prop := ∀ p s x, Accepted 0x0132 (chkGroupSet p (owe p s)) p s → ctxOf s p.ctx = some x →
  exec (.groupSet p) s = .next (completeOk p 0x0132 (ctxMod p.ctx (fun y => { y with
    edits := y.edits ++ [⟨s.nextId, pf p 0 8, pf p 8 8, pf p 16 2, (p.params.drop 24).take 64⟩] }) { owe p s with nextId := s.nextId + 1 }))

/-- ASTK_SET sets the region and the window, 256 for 0xFFFF, and empties the segments. -/
def astkSet : Prop := ∀ p s x, Accepted 0x0134 (chkAstkSet p (owe p s)) p s → ctxOf s p.ctx = some x →
  exec (.astkSet p) s = .next (completeOk p 0x0134 (ctxMod p.ctx (fun y => { y with astk := { y.astk with
    base := pf p 0 8, size := pf p 8 8, window := if pf p 16 2 = 0xFFFF then 256 else pf p 16 2, segs := [] } }) (owe p s)))

/-- JOB_START on a module of no group binds every context with the job flag, sets the step and enters RUN. -/
def jobStart : Prop := ∀ p s, Accepted 0x0140 (chkJobStart p) p s → inGroup s = false → s.grp.manager = false → s.dev.st = .ready →
  s.ctxs.any (fun e => e.2.job) = true →
  ∃ u, exec (.jobStart p) s = .next (completeOk p 0x0140 u) ∧ u.dev.st = .run ∧ u.dev.step = pf p 0 8 ∧ u.dev.jobRunning = true ∧
    u.chart = s.chart ∧ u.regs.heartbeat = s.regs.heartbeat ∧ u.slots = s.slots

/-- JOB_START outside READY is refused with ST_BUSY (log 21), and with no job context with 0x0613. -/
def jobStartRefused : Prop := ∀ p s, Accepted 0x0140 (chkJobStart p) p s → roleBars s p = false →
  (s.dev.st ≠ .ready → exec (.jobStart p) s = .next (completeOpen p 0x0140 stBUSY (owe p s))) ∧
  (s.dev.st = .ready → s.ctxs.any (fun e => e.2.job) = false → exec (.jobStart p) s = .next (completeWith p 0x0140 stBADPARAM 0x0613 (owe p s)))

/-- JOB_STOP while a job runs asks for the stop that the next boundary makes. -/
def jobStop : Prop := ∀ p s, Accepted 0x0141 (chkJobStop p) p s → roleBars s p = false → (s.dev.st = .run ∨ s.dev.st = .fixing) →
  exec (.jobStop p) s = .next (completeOk p 0x0141 { owe p s with dev := { s.dev with stopAsked := true } })

/-- PT_ROOT_SET sets the root of a context's page table, aligned to 64 KiB; with a descriptor of the context open it is refused with ST_BUSY. -/
def ptRootSet : Prop := ∀ p s x, Accepted 0x0200 (chkPtRootSet p) p s → ctxOf s p.ctx = some x →
  (x.works ≠ [] → exec (.ptRootSet p) s = .next (completeOpen p 0x0200 stBUSY (owe p s))) ∧
  (x.works = [] → pf p 0 8 % 65536 = 0 → exec (.ptRootSet p) s = .next (completeOk p 0x0200 (ctxMod p.ctx (fun y => { y with root := some (pf p 0 8) }) (owe p s)))) ∧
  (x.works = [] → pf p 0 8 % 65536 ≠ 0 → exec (.ptRootSet p) s = .next (completeWith p 0x0200 stBADPARAM 0x0802 (owe p s)))

/-- TLB_INVALIDATE is under way behind those that began before. -/
def tlbInvalidate : Prop := ∀ p s x, Accepted 0x0201 (chkTlbInvalidate p) p s → ctxOf s p.ctx = some x →
  exec (.tlbInvalidate p) s = .next { owe p s with mem := { s.mem with invalidates := s.mem.invalidates ++ [⟨p.ctx, pf p 0 8, pf p 8 8, p⟩] } }

/-- TLB_INVALIDATE_COMPLETE: no entry of the range is left in a cache, and the command completes. -/
def tlbInvalidateComplete : Prop := ∀ s i r, s.mem.invalidates = i :: r → granuleInFlight s i.ctx = false →
  exec .tlbInvalidateComplete s = .next (completeOk i.packet 0x0201 { s with mem := { s.mem with
    invalidates := r, tlb := s.mem.tlb.filter (fun t => !(t.ctx == i.ctx && (i.length == 0 || overlaps i.va i.length t.va t.size))) } })

end Sys2Proof.Claims
end

