-- ==== Sys2Proof/Certificates/Slice0/ClaimsSync.lean ====
section
/-! DEFINITION. Claims about sync cells, the sync-cell operations, and the DMA engines. -/
namespace Sys2Proof.Claims
open Sys2Proof.Machine

/-- SYNC_ALLOC gives a free range to the context and sets its cells to 0. -/
def syncAlloc : Prop := ∀ p s x, Accepted 0x0220 (chkSyncAlloc p) p s → ctxOf s p.ctx = some x → pf p 0 2 + pf p 2 2 ≤ 65536 →
  touchesReserved (pf p 0 2) (pf p 2 2) = false → s.sync.ranges.any (fun r => overlaps r.first r.count (pf p 0 2) (pf p 2 2)) = false →
  ∃ u, exec (.syncAlloc p) s = .next (completeOk p 0x0220 u) ∧ u.sync.ranges = s.sync.ranges ++ [⟨pf p 0 2, pf p 2 2, p.ctx, bitAt (pf p 4 1) 0⟩] ∧
    (∀ c, pf p 0 2 ≤ c → c < pf p 0 2 + pf p 2 2 → cellValue u c = 0) ∧
    (∀ c, (c < pf p 0 2 ∨ pf p 0 2 + pf p 2 2 ≤ c) → cellValue u c = cellValue s c) ∧ u.ctxs = s.ctxs ∧ u.mem = s.mem

/-- SYNC_ALLOC of a range that is not free is refused with 0x0820. -/
def syncAllocRefused : Prop := ∀ p s x, Accepted 0x0220 (chkSyncAlloc p) p s → ctxOf s p.ctx = some x →
  (65536 < pf p 0 2 + pf p 2 2 ∨ touchesReserved (pf p 0 2) (pf p 2 2) = true ∨
    s.sync.ranges.any (fun r => overlaps r.first r.count (pf p 0 2) (pf p 2 2)) = true) →
  exec (.syncAlloc p) s = .next (completeWith p 0x0220 stBADPARAM 0x0820 (owe p s))

/-- SYNC_FREE takes back a range that the context owns and nothing waits on; a pending wait refuses it with 0x0822. -/
def syncFree : Prop := ∀ p s x, Accepted 0x0221 (chkSyncFree p) p s → ctxOf s p.ctx = some x → 0 < pf p 2 2 →
  ownsRange s p.ctx (pf p 0 2) (pf p 2 2) = true →
  (waitIn s (pf p 0 2) (pf p 2 2) = false → exec (.syncFree p) s = .next (completeOk p 0x0221 { owe p s with sync := { s.sync with
    ranges := s.sync.ranges.flatMap (cutRange (pf p 0 2) (pf p 2 2)) } })) ∧
  (waitIn s (pf p 0 2) (pf p 2 2) = true → exec (.syncFree p) s = .next (completeWith p 0x0221 stBUSY 0x0822 (owe p s)))

/-- The work item of a SYNC_OP. -/
def syncWork (p : Packet) (s : State) : Work :=
  { id := s.nextId, queue := queueOf p, hostTag := p.hostTag, opcode := 0x0222
    epoch := p.epoch, raw := p.params.take 16, step := s.dev.step, st := .issued }

/-- SYNC_OP on a cell of the context's own becomes a descriptor and performs its operation for the active Binnacle. -/
def syncOp : Prop := ∀ p s x, Accepted 0x0222 (chkSyncOp p) p s → ctxOf s p.ctx = some x → pf p 12 2 = 0xFFFF → ownsCell s p.ctx (pf p 2 2) = true →
  exec (.syncOp p) s = .next (syncApply { unit := binnacleUnit s, ctx := some p.ctx, work := some s.nextId } (pf p 2 2)
    (actOf (pf p 0 1) (BitVec.ofNat 32 (pf p 4 4)) (BitVec.ofNat 32 (pf p 8 4)))
    (reschedule (ctxMod p.ctx (fun y => { y with works := y.works ++ [syncWork p s] }) { owe p s with nextId := s.nextId + 1 })))

/-- SYNC_OP on a cell of another module is sent to it. -/
def syncOpRemote : Prop := ∀ p s x, Accepted 0x0222 (chkSyncOp p) p s → ctxOf s p.ctx = some x → pf p 12 2 ≠ 0xFFFF →
  ∃ t, exec (.syncOp p) s = .next t ∧ t.sync.remoteSeq = s.sync.remoteSeq + 1 ∧ t.sync.cells = s.sync.cells ∧
    t.sync.remoteOut = s.sync.remoteOut ++ [(s.sync.remoteSeq, pf p 12 2, pf p 2 2,
      actOf (pf p 0 1) (BitVec.ofNat 32 (pf p 4 4)) (BitVec.ofNat 32 (pf p 8 4)), { unit := binnacleUnit s, ctx := some p.ctx, work := some s.nextId })]

/-- READ delivers the value and changes no cell. -/
def read : Prop := ∀ r cell s, mayOperate r cell s = true → exec (.read r cell) s = .next (deliver r (cellValue s cell) s)

/-- WRITE sets the cell, releases the waits that now hold and delivers the old value. -/
def write : Prop := ∀ r cell v s, mayChange r cell s = true →
  exec (.write r cell v) s = .next (deliver r (cellValue s cell) (releaseWaits cell (setCell cell v s)))

/-- ADD adds modulo 2^32, releases the waits that now hold and delivers the old value. -/
def add : Prop := ∀ r cell v s, mayChange r cell s = true →
  exec (.add r cell v) s = .next (deliver r (cellValue s cell) (releaseWaits cell (setCell cell (cellValue s cell + v) s)))

/-- CAS sets the cell only where it holds c, and delivers the old value either way. -/
def cas : Prop := ∀ r cell c v s, mayChange r cell s = true →
  (cellValue s cell = c → exec (.cas r cell c v) s = .next (deliver r c (releaseWaits cell (setCell cell v s)))) ∧
  (cellValue s cell ≠ c → exec (.cas r cell c v) s = .next (deliver r (cellValue s cell) (releaseWaits cell s)))

/-- An earlier wait of the requester is held back for want of an entry (R218). -/
abbrev Behind (s : State) (r : Requester) : Bool := s.sync.held.any (fun h => sourceOf h.who == sourceOf r)

/-- A wait of a requester with none held: where its condition holds it goes on at once with the cell's value; else it takes an entry of the wait list,
and is held at its requester where none is free. Behind a held wait of its requester it is held too (R217, R218). -/
def Waits (i : Instr) (w : Wait) (s : State) : Prop :=
  (Behind s w.who = false →
    (w.holds (cellValue s w.cell) = true → exec i s = .next (deliver w.who (cellValue s w.cell) s)) ∧
    (w.holds (cellValue s w.cell) = false → ∀ sh, waitEntry s w = some sh →
      exec i s = .next { s with sync := { s.sync with waits := s.sync.waits ++ [{ w with shared := sh }] } }) ∧
    (w.holds (cellValue s w.cell) = false → waitEntry s w = none → exec i s = .next { s with sync := { s.sync with held := s.sync.held ++ [w] } })) ∧
  (Behind s w.who = true → exec i s = .next { s with sync := { s.sync with held := s.sync.held ++ [w] } })

/-- The conditions of waits: equal to v, and at least v in wrapping order (R216). -/
def waitHolds : Prop := ∀ cell (v x : Word) r sh,
  (Wait.holds ⟨cell, false, v, r, sh⟩ x = true ↔ x = v) ∧ (Wait.holds ⟨cell, true, v, r, sh⟩ x = true ↔ (x - v).toNat < 2 ^ 31)

/-- WAIT_EQ waits until the cell equals v, WAIT_GE until it is at least v. -/
def waitEq : Prop := ∀ r cell v s, mayOperate r cell s = true → Waits (.waitEq r cell v) ⟨cell, false, v, r, false⟩ s
def waitGe : Prop := ∀ r cell v s, mayOperate r cell s = true → Waits (.waitGe r cell v) ⟨cell, true, v, r, false⟩ s

/-- ARRIVE adds, then waits for t. -/
def arrive : Prop := ∀ r cell v t s, mayChange r cell s = true →
  exec (.arrive r cell v t) s = .next (presentWait ⟨cell, true, t, r, false⟩ (releaseWaits cell (setCell cell (cellValue s cell + v) s)))

/-- WAIT_RELEASE_WAVE delivers the releases of one operation in its wave, in order and no other, when none of an earlier wave of that operation
is left (R349). -/
def waitReleaseWave : Prop := ∀ wave s x, s.sync.releases.find? (fun r => r.wave == wave && waveDue s r) = some x →
  exec (.waitReleaseWave wave) s = .next (deliverAll (s.sync.releases.filter (fun r => r.wave == wave && r.op == x.op))
    { s with sync := { s.sync with releases := s.sync.releases.filter (fun r => !(r.wave == wave && r.op == x.op)) } }) ∧
  (∀ r ∈ s.sync.releases, r.op = x.op → wave ≤ r.wave)

/-- WAIT_ENTRY_FREE presents the first held wait of the die that can take an entry, or holds by now, and no earlier wait of whose requester is held. -/
def waitEntryFree : Prop := ∀ die s w t,
  s.sync.held.find? (fun w => w.cell / 8192 == die && firstHeld s w && ((waitEntry s w).isSome || w.holds (cellValue s w.cell))) = some w →
  t = { s with sync := { s.sync with held := dropWait w s.sync.held } } →
  (w.holds (cellValue s w.cell) = true → exec (.waitEntryFree die) s = .next (deliver w.who (cellValue s w.cell) t)) ∧
  (w.holds (cellValue s w.cell) = false → ∀ sh, waitEntry s w = some sh →
    exec (.waitEntryFree die) s = .next { t with sync := { t.sync with waits := t.sync.waits ++ [{ w with shared := sh }] } })

/-- REMOTE_SYNC_REPLY gives the value to the operation that waits for it. -/
def remoteSyncReply : Prop := ∀ seq v s a b c r, s.sync.remoteOut.find? (fun e => e.1 == seq) = some (seq, a, b, c, r) →
  exec (.remoteSyncReply seq v) s = .next (deliver r v { s with sync := { s.sync with remoteOut := s.sync.remoteOut.filter (fun e => e.1 != seq) } })

/-- The work item of a DMA_SUBMIT. -/
def dmaWork (p : Packet) (s : State) : Work :=
  { id := s.nextId, queue := queueOf p, hostTag := p.hostTag, opcode := 0x0210
    epoch := p.epoch, raw := p.params.take p.paramLen, step := s.dev.step
    dma := (List.range (dmaCount p)).map (fun k => { epoch := BitVec.ofNat 32 (fieldAt (dmaBytes p.params k) 4 4) }) }

/-- DMA_SUBMIT whose descriptors all pass becomes one work item with a run for each. -/
def dmaSubmit : Prop := ∀ p s x, Accepted 0x0210 (chkDmaSubmit p) p s → ctxOf s p.ctx = some x →
  dmaFirstFail (owe p s) p.ctx p.params (dmaCount p) 0 = none →
  exec (.dmaSubmit p) s = .next (reschedule (ctxMod p.ctx (fun y => { y with works := y.works ++ [dmaWork p s] })
    { owe p s with nextId := s.nextId + 1 }))

/-- DMA_SUBMIT with a descriptor that fails is refused whole: its status and detail, its index in VALUE bits 15:0; no work item is made. -/
def dmaSubmitRefused : Prop := ∀ p s x k st d, Accepted 0x0210 (chkDmaSubmit p) p s → ctxOf s p.ctx = some x →
  dmaFirstFail (owe p s) p.ctx p.params (dmaCount p) 0 = some (k, st, d) →
  ∃ v u, exec (.dmaSubmit p) s = .next (complete p 0x0210 st (some d) (some v) 0xFFFF [] u) ∧ v.toNat % 65536 = k % 65536 ∧ u.ctxs = s.ctxs ∧ u.mem = s.mem

/-- A DMA descriptor of kind `op` may start or go on with its next granule, `count` at most in this row; issued work of a parked context goes on. -/
abbrev DmaReady (op c id index count : Nat) (s : State) (x : Ctx) (w : Work) (g : Granule) : Prop :=
  ctxOf s c = some x ∧ x.work id = some w ∧ w.opcode = 0x0210 ∧ index < w.dma.length ∧ dmaOp (dmaBytes w.raw index) = op ∧
  (mayIssue s x = true ∨ (w.st = .issued ∧ mayRun s x = true)) ∧ w.st ≠ .faulted ∧ 1 ≤ count ∧ nextGranule w index = some g ∧
  granuleWaits s c g = false ∧ dmaDies s ≠ [] ∧ (dmaOrdered (dmaBytes w.raw index) = true → earlierDone x w index = true)

/-- A DMA descriptor whose next granules can all be read and written: they move in order, each read whole and then written whole,
and its lowest unwritten granule is past the last; a granule whose armoured stripe another write holds, and those after it, are left to a later row. -/
def DmaMoves (c index count : Nat) (i : Instr) (s : State) (w : Work) : Prop :=
  ∀ t n, moveGranules c (dmaBytes w.raw index) (((dmaGranules (dmaBytes w.raw index)).drop (((w.dma[index]?).map DmaRun.written).getD 0)).take count)
      (atUnit (engineDie s).1 (engineDie s).2) = (t, n, none) →
    exec i s = .next (atRest (workMod c w.id (fun y => { y with
      started := true, st := .issued
      dma := lmod y.dma index (fun r => { r with started := true, written := ((w.dma[index]?).map DmaRun.written).getD 0 + n }) }) t))

/-- COPY, FILL and COPY_2D move their granules. -/
def copy : Prop := ∀ c id index count s x w g, DmaReady 0 c id index count s x w g → DmaMoves c index count (.copy c id ⟨index, count⟩) s w
def fill : Prop := ∀ c id index count s x w g, DmaReady 1 c id index count s x w g → DmaMoves c index count (.fill c id ⟨index, count⟩) s w
def copy2d : Prop := ∀ c id index count s x w g, DmaReady 2 c id index count s x w g → DmaMoves c index count (.copy2d c id ⟨index, count⟩) s w

/-- A written granule of a DMA descriptor can be acknowledged: not yet acknowledged, and the owner of an armoured one has acknowledged it (R208). -/
abbrev AckDue (c id index granule : Nat) (s : State) (x : Ctx) (w : Work) (r : DmaRun) : Prop :=
  ctxOf s c = some x ∧ x.work id = some w ∧ w.dma[index]? = some r ∧ granule < r.written ∧ granule ∉ r.acked ∧
    ackWaits s c (dmaBytes w.raw index) granule = false

/-- DMA_GRANULE_WRITE_ACK notes a written granule; the last one of a descriptor ends it. -/
def dmaGranuleWriteAck : Prop := ∀ c id index granule s x w r, AckDue c id index granule s x w r →
  r.acked.length + 1 ≠ (dmaGranules (dmaBytes w.raw index)).length →
  exec (.dmaGranuleWriteAck c id index granule) s = .next (workMod c id (fun y => { y with
    dma := lmod y.dma index (fun q => { q with acked := granule :: q.acked }) }) s)

/-- The last acknowledgement of the only descriptor of a DMA_SUBMIT adds to the SIGNAL cell and completes the command. -/
def dmaLastAck : Prop := ∀ c id granule s x w r, AckDue c id 0 granule s x w r → w.dma = [r] →
  r.acked.length + 1 = (dmaGranules (dmaBytes w.raw 0)).length → dmaSignal (dmaBytes w.raw 0) = true →
  ∃ u, exec (.dmaGranuleWriteAck c id 0 granule) s = .next (reschedule (finishWork c w 0 none none u)) ∧
    cellValue u (dmaCell (dmaBytes w.raw 0)) = cellValue s (dmaCell (dmaBytes w.raw 0)) + BitVec.ofNat 32 (fieldAt (dmaBytes w.raw 0) 60 4) ∧
    (∀ k, k ≠ dmaCell (dmaBytes w.raw 0) → cellValue u k = cellValue s k) ∧ u.mem = s.mem

end Sys2Proof.Claims
end

