-- ==== Sys2Proof/Certificates/Slice0/Obligations.lean ====
section
/-! DEFINITION. The statements for the provers. Each joins the clauses of one group of commands or one rule of the whole machine. -/
open Sys2Proof

/-- A step runs the command at the front of the queue on the rest; an empty queue idles (log 62). -/
def Obligations.StepRunsFront : Prop :=
  Claims.stepRunsFront ∧ Claims.stepRunsPushed ∧ Claims.stepIdles ∧ Claims.noWordSpells

/-- What reset leaves: the state, the map of identities, the units, a sound state (zero registers: logs 2 to 8). -/
def Obligations.ResetState : Prop :=
  Claims.resetState ∧ Claims.resetMap ∧ Claims.resetUnits ∧ Claims.resetSound

/-- Every packet answers; the first failing check of 1 to 7 decides and has no other effect; a packet that must wait is held. -/
def Obligations.PacketChecks : Prop :=
  Claims.packetsAnswer ∧ Claims.packetsNeedPower ∧ Claims.packetsRefused ∧ Claims.packetsWait ∧ Claims.packetsStartLater ∧
  Claims.checkOrder ∧ Claims.completionFrame ∧ Claims.completionPosted

/-- Packet headers and flits built as the spec lays them out read back with every field. -/
def Obligations.HeaderParses : Prop :=
  Claims.headerParses ∧ Claims.flitCoding

/-- NOP, IDENTIFY, STATUS_GET, REG_READ, CHART_GET and SKEW_LOG_GET complete with what they report. -/
def Obligations.Queries : Prop :=
  Claims.nop ∧ Claims.identify ∧ Claims.statusGet ∧ Claims.regRead ∧ Claims.chartGet ∧ Claims.skewLogGet

/-- RESULT_READ and RESULT_RELEASE over each kind of source, and their refusals. -/
def Obligations.ResultSlots : Prop :=
  Claims.resultReadHost ∧ Claims.resultReadReply ∧ Claims.resultReadRefused ∧ Claims.resultRelease

/-- QUEUE_CREATE, QUEUE_DELETE and their refusals. -/
def Obligations.QueueCommands : Prop :=
  Claims.queueCreate ∧ Claims.queueCreateRefused ∧ Claims.queueDelete

/-- Doorbells, the fetch of a submission slot, a held command taken up, the posting of a completion. -/
def Obligations.DoorbellsAndFetch : Prop :=
  Claims.sqTail ∧ Claims.sqTailError ∧ Claims.cqHead ∧ Claims.sqFetch ∧ Claims.sqFetchHeld ∧ Claims.completionPost

/-- Writes of the event registers, of FP_FLAGS, of the admin queue and of other offsets; PERST_N and the host link. -/
def Obligations.RegisterWrites : Prop :=
  Claims.eventCause ∧ Claims.eventMask ∧ Claims.queueErr ∧ Claims.fpFlags ∧ Claims.registerWriteIgnored ∧
  Claims.registerWriteBase ∧ Claims.adminEnable ∧ Claims.adminEnableBad ∧ Claims.adminDisable ∧ Claims.perstN ∧
  Claims.perstNEnds ∧ Claims.hostLink

/-- CXL.mem accesses inside and outside the open window. -/
def Obligations.CxlWindow : Prop :=
  Claims.cxlMemAccess ∧ Claims.cxlMemOutside

/-- CONFIG_BEGIN opens an empty buffer, enters HOLD from READY, keeps the recorded image, and is refused as R363 says. -/
def Obligations.ConfigBegin : Prop :=
  Claims.configBegin ∧ Claims.configBeginRefused

/-- CONFIG_WRITE stages bytes, later writes prevail, and it and CONFIG_COMMIT are refused as R364 says. -/
def Obligations.ConfigWrite : Prop :=
  Claims.configWrite ∧ Claims.laterWritePrevails ∧ Claims.commitNoBuffer

/-- CONFIG_READ copies the recorded image into a slot; with none committed it is refused with 0x0E44. -/
def Obligations.ConfigRead : Prop :=
  Claims.configRead ∧ Claims.configReadRefused

/-- CONFIG_COMMIT that passes or fails, its application, CONFIG_ABORT and LIVE_SET. -/
def Obligations.ConfigCommit : Prop :=
  Claims.configCommit ∧ Claims.configCommitFails ∧ Claims.configCommitApplied ∧ Claims.configAbort ∧ Claims.liveSet

/-- CONTEXT_SET, CONTEXT_GET and CONTEXT_CLEAR with their refusals. -/
def Obligations.Contexts : Prop :=
  Claims.contextSet ∧ Claims.contextSetLoaded ∧ Claims.contextGet ∧ Claims.contextClear ∧ Claims.contextClearBusy

/-- SCALE_SET that replaces, creates and deletes, the removal of a deleted record, SCALE_GET. -/
def Obligations.ScaleRecords : Prop :=
  Claims.scaleSetCreateReplace ∧ Claims.scaleSetCreates ∧ Claims.scaleSetDelete ∧ Claims.scaleRecordRemove ∧ Claims.scaleGet

/-- GROUP_SET, ASTK_SET, JOB_START and JOB_STOP, PT_ROOT_SET, TLB_INVALIDATE and its end (JOB_START outside READY: log 21). -/
def Obligations.JobsAndTables : Prop :=
  Claims.groupSet ∧ Claims.astkSet ∧ Claims.jobStart ∧ Claims.jobStartRefused ∧ Claims.jobStop ∧ Claims.ptRootSet ∧
  Claims.tlbInvalidate ∧ Claims.tlbInvalidateComplete

/-- SYNC_ALLOC, SYNC_FREE and SYNC_OP on own and remote cells. -/
def Obligations.SyncRanges : Prop :=
  Claims.syncAlloc ∧ Claims.syncAllocRefused ∧ Claims.syncFree ∧ Claims.syncOp ∧ Claims.syncOpRemote

/-- READ, WRITE, ADD, CAS, WAIT_EQ, WAIT_GE and ARRIVE of a sync cell, and which waits they release. -/
def Obligations.SyncOperations : Prop :=
  Claims.read ∧ Claims.write ∧ Claims.add ∧ Claims.cas ∧ Claims.waitEq ∧ Claims.waitGe ∧ Claims.arrive ∧
  Claims.waitsReleased ∧ Claims.waitHolds

/-- Release waves, an entry that frees for a held wait, replies to remote operations. -/
def Obligations.SyncReleases : Prop :=
  Claims.waitReleaseWave ∧ Claims.waitEntryFree ∧ Claims.remoteSyncReply

/-- DMA_SUBMIT, the moves of COPY, FILL and COPY_2D, granule acknowledgements and the end of a descriptor. -/
def Obligations.DmaTransfers : Prop :=
  Claims.dmaSubmit ∧ Claims.dmaSubmitRefused ∧ Claims.copy ∧ Claims.fill ∧ Claims.copy2d ∧ Claims.dmaGranuleWriteAck ∧
  Claims.dmaLastAck

/-- KERNEL_DISPATCH, the issue of a descriptor, stale and deferred ones, the completion of a kernel. -/
def Obligations.Dispatch : Prop :=
  Claims.kernelDispatch ∧ Claims.kernelDispatchRefused ∧ Claims.descriptorIssue ∧ Claims.descriptorStale ∧
  Claims.deferredIdleIssue ∧ Claims.kernelComplete

/-- MATMUL, CONV, CONV_T, the pools, ARGMAX_C, GATHER_SUM, UPDATE and PROGRAM start and run. -/
def Obligations.Kernels : Prop :=
  Claims.matmul ∧ Claims.conv ∧ Claims.convT ∧ Claims.poolMax ∧ Claims.poolAvg ∧ Claims.argmaxC ∧ Claims.gatherSum ∧
  Claims.gatherSumRefused ∧ Claims.update ∧ Claims.program

/-- Chains on the gangs, drains, vector granules, halo stamps, STRIPE_SET and STRIPE_GET (an unbound context: log 31). -/
def Obligations.ArraysAndStripes : Prop :=
  Claims.chainStart ∧ Claims.shadowLoadComplete ∧ Claims.swapToken ∧ Claims.chainComplete ∧ Claims.drainComplete ∧
  Claims.vectorGranuleComplete ∧ Claims.haloStamp ∧ Claims.stripeSet ∧ Claims.stripeGet

/-- INGEST_SCHEDULE, INGEST_START, INGEST_STOP, TOKEN_TABLE_LOAD and MANIFEST_GET. -/
def Obligations.IngestCommands : Prop :=
  Claims.ingestSchedule ∧ Claims.ingestScheduleRefused ∧ Claims.ingestStart ∧ Claims.ingestStop ∧ Claims.tokenTableLoad ∧
  Claims.tokenTableBad ∧ Claims.manifestGet

/-- Frames parsed, samples decoded, slow or timed out, batches begun. -/
def Obligations.IngestWork : Prop :=
  Claims.xrsFrameParse ∧ Claims.parsedSample ∧ Claims.sampleDecodeComplete ∧ Claims.assemblyStart ∧ Claims.sampleSlow ∧
  Claims.decodeTimeout

/-- Port status and training, lane and port failures, flits, RoCE packets and send rates. -/
def Obligations.Ports : Prop :=
  Claims.portStatusGet ∧ Claims.portTraining ∧ Claims.portTrainingComplete ∧ Claims.trained ∧ Claims.narrows ∧
  Claims.laneFailure ∧ Claims.laneDownReceive ∧ Claims.portDown ∧ Claims.flitReceive ∧ Claims.flitAccepted ∧
  Claims.flitReplay ∧ Claims.rocePacketReceive ∧ Claims.cnpReceive ∧ Claims.sendRateRise

/-- COLLECTIVE_SUBMIT and the start of the five collectives. -/
def Obligations.Collectives : Prop :=
  Claims.collectiveSubmit ∧ Claims.collectiveRefused ∧ Claims.reduce ∧ Claims.allReduce ∧ Claims.allGather ∧
  Claims.reduceScatter ∧ Claims.broadcast

/-- Signatures, chunks, results and acknowledgements of collectives, EPOCH_ABORT, DEADLINE_SET. -/
def Obligations.CollectiveTraffic : Prop :=
  Claims.collectiveSignature ∧ Claims.collectiveChunkReceive ∧ Claims.collectiveResultReceive ∧ Claims.collectiveChunkAck ∧
  Claims.epochAbort ∧ Claims.deadlineSet

/-- PCIe completion errors, and translations that fill a bounded cache or fault. -/
def Obligations.PcieAndTranslation : Prop :=
  Claims.pcieTimeoutSlot ∧ Claims.pcieTimeoutParams ∧ Claims.pcieTimeoutGranule ∧ Claims.pcieTimeoutKernel ∧
  Claims.pcieTimeoutShard ∧ Claims.translationFills ∧ Claims.tlbBound ∧ Claims.translationStopsKernel

/-- What reads and scrubs do on each finding of the ECC. -/
def Obligations.ErrorCorrection : Prop :=
  Claims.eccClean ∧ Claims.eccCorrectable ∧ Claims.eccPlain ∧ Claims.eccReconstructs ∧ Claims.eccLineDouble

/-- Armoured writes and their acknowledgements, stack loss, the rebuild. -/
def Obligations.Armour : Prop :=
  Claims.armouredWrite ∧ Claims.armouredWriteAck ∧ Claims.stackLoss ∧ Claims.armourAfterLoss ∧ Claims.linesAfterLoss ∧
  Claims.rebuildParity ∧ Claims.rebuildData

/-- FAULT_GET, FAULT_RESOLVE and its three actions, slices, saves and restores of contexts (save layout: log 55). -/
def Obligations.ContextFaults : Prop :=
  Claims.faultGet ∧ Claims.faultResolve ∧ Claims.faultResolveRefused ∧ Claims.retry ∧ Claims.abortDescriptor ∧
  Claims.abortContext ∧ Claims.sliceExpiry ∧ Claims.contextSave ∧ Claims.saveLayout ∧ Claims.contextRestore ∧
  Claims.contextRestoreDamaged

/-- Faults of clusters and media engines in service, spare or in test: spared or MODULE_LOSS. -/
def Obligations.HardwareFaults : Prop :=
  Claims.clusterFault ∧ Claims.clusterFaultLoss ∧ Claims.clusterFaultIdle ∧ Claims.clusterWatchdog ∧ Claims.engineFault ∧
  Claims.engineFaultTesting

/-- Planned moves, UNIT_STATE_SET and rolling tests. -/
def Obligations.UnitOrders : Prop :=
  Claims.plannedMove ∧ Claims.unitStateSet ∧ Claims.unitStateSetKind ∧ Claims.unitStateSetSpare ∧
  Claims.unitStateSetCluster ∧ Claims.rollingTest ∧ Claims.rollingTestIdle

/-- Missed supervisor heartbeats, restarts, takeover of the standby Binnacle. -/
def Obligations.SupervisorsAndBinnacles : Prop :=
  Claims.supervisorMiss ∧ Claims.supervisorMissAgain ∧ Claims.supervisorRestart ∧ Claims.takeover ∧ Claims.takeoverEnd

/-- The steps of a chart publication, and skews and reports that differ from the chart (reporters: log 57). -/
def Obligations.Publication : Prop :=
  Claims.chartDecision ∧ Claims.fenceAck ∧ Claims.applyAck ∧ Claims.mirrorAck ∧ Claims.fencedOutput ∧ Claims.stateMismatch ∧
  Claims.staleReport

/-- A unit's change epoch is that of the last change that altered its state or its identity. -/
def Obligations.ChangeEpochs : Prop :=
  Claims.changeEpochs

/-- Epochs, what a published change leaves, how activation-stack windows start, and the transitions a unit never makes (log 148). -/
def Obligations.Epochs : Prop :=
  Claims.epochs ∧ Claims.publication ∧ Claims.transitions ∧ Claims.windowsEmpty ∧ Claims.changesLawful

/-- FIX_REQUEST, FIX_STATUS_GET, FIX_EXPORT and its end, FIX_RESTORE (level: log 100). -/
def Obligations.FixCommands : Prop :=
  Claims.fixRequest ∧ Claims.fixRequestRole ∧ Claims.fixStatusGet ∧ Claims.fixExport ∧ Claims.fixExportComplete ∧
  Claims.fixRestore ∧ Claims.fixRestoreRefused

/-- The stages of a Fix stop and of its stream to the consort. -/
def Obligations.FixStop : Prop :=
  Claims.fixQuiesce ∧ Claims.fixCopy ∧ Claims.fixCopyPoison ∧ Claims.fixHeaderAck ∧ Claims.fixChunkReceive ∧
  Claims.fixChunkAck ∧ Claims.sealAck ∧ Claims.fixSealReport ∧ Claims.fixPull

/-- The ends of restores and pulls, STANDBY_ASSUME, step manifests (logs 101, 106). -/
def Obligations.RestoresAndManifests : Prop :=
  Claims.fixRestoreComplete ∧ Claims.fixRestoreDisagrees ∧ Claims.standbyAssume ∧ Claims.standbyTakes ∧ Claims.standbyPull ∧
  Claims.stepManifestGet ∧ Claims.manifestFinalise ∧ Claims.manifestReceive ∧ Claims.manifestAck

/-- A manager admits a module only at the group's behaviour level. -/
def Obligations.GroupLevel : Prop :=
  Claims.groupLevel

/-- FEED_OVERRIDE, ROLE_SET, GROUP_JOIN and its answer, the answer to JOB_START, the group chart and its publication. -/
def Obligations.GroupMembership : Prop :=
  Claims.feedOverride ∧ Claims.roleSet ∧ Claims.groupJoin ∧ Claims.groupJoinRefused ∧ Claims.groupChartGet ∧
  Claims.groupChartChange ∧ Claims.groupChartPublication ∧ Claims.ilzanReplyJoin ∧ Claims.jobStartReply

/-- Heartbeats, probes, FAILED notices, the muster limit and what a loss does (log 107). -/
def Obligations.GroupLosses : Prop :=
  Claims.heartbeatSend ∧ Claims.heartbeatReceive ∧ Claims.heartbeatTimeout ∧ Claims.probeTimeout ∧ Claims.probeReceive ∧
  Claims.failedNotice ∧ Claims.musterLimit ∧ Claims.lossMarked

/-- Remote sync operations, HANDOVER, the deadline and DECISION. -/
def Obligations.GroupSteps : Prop :=
  Claims.remoteSync ∧ Claims.musterArrive ∧ Claims.handover ∧ Claims.deadlineExpiry ∧ Claims.decisionUnlisted ∧
  Claims.decisionDeferred

/-- CLOSE, watch slots, retunes, release waves, STEP_REPORT_GET and TELEMETRY_GET. -/
def Obligations.StepBoundary : Prop :=
  Claims.close ∧ Claims.watchSlotWrite ∧ Claims.retuneComplete ∧ Claims.releaseWave ∧ Claims.stepReportGet ∧
  Claims.telemetryGet

/-- Frequency and cap, power samples, rails, droops, thermal readings and coolant, HEARTBEAT (log 59). -/
def Obligations.PowerAndThermal : Prop :=
  Claims.freqSet ∧ Claims.powerCapSet ∧ Claims.powerSample ∧ Claims.avsAdjust ∧ Claims.droop ∧ Claims.droopEnds ∧
  Claims.heartbeat ∧ Claims.thermalReading ∧ Claims.thermalDecay ∧ Claims.coolantLow

/-- ANCHOR_ENTER takes no parameters and is refused as R354 says; an ANCHORED module joins no group. -/
def Obligations.AnchorEnter : Prop :=
  Claims.anchorEnter ∧ Claims.anchorNoParams ∧ Claims.anchoredNotAdmitted

/-- The end of the entry to ANCHORED, the exit, BIST, CLUSTER_TEST, MARGIN_SCAN and HBM_RECAL (logs 60, 138, 139). -/
def Obligations.AnchorAndTests : Prop :=
  Claims.anchorEntered ∧ Claims.anchorExit ∧ Claims.anchorExited ∧ Claims.bistRun ∧ Claims.bistComplete ∧
  Claims.clusterTest ∧ Claims.clusterTestResult ∧ Claims.marginScan ∧ Claims.marginScanComplete ∧ Claims.hbmRecal ∧
  Claims.hbmRecalStack

/-- Straps, PWR_EN, input power, AUX_3V3 and the leak loop (log 134). -/
def Obligations.BoardPower : Prop :=
  Claims.strapRead ∧ Claims.strapLevels ∧ Claims.pwrEnRise ∧ Claims.pwrEnWaits ∧ Claims.pwrEnFall ∧ Claims.inputPowerLoss ∧
  Claims.auxLoss ∧ Claims.auxRise ∧ Claims.leakSample ∧ Claims.leakTimeout

/-- Firmware selection and its failure, the boot, MCTP and PLDM commands, packets that arrive as bytes (logs 9, 61, 136). -/
def Obligations.BootAndManagement : Prop :=
  Claims.firmwareSelect ∧ Claims.firmwareSelectBB ∧ Claims.firmwareNone ∧ Claims.bootComplete ∧ Claims.bootEpoch ∧
  Claims.setEndpointId ∧ Claims.mctpControl ∧ Claims.mctpVersion ∧ Claims.pldmData ∧ Claims.sensorReading ∧
  Claims.stateReadings ∧ Claims.eventReceiver ∧ Claims.firmwareUpdate ∧ Claims.firmwareUpdateEnds ∧ Claims.activateFirmware ∧
  Claims.packetsArrive ∧ Claims.undefinedOpcode

/-- What the commands of each family leave unchanged whenever they run, bytes of memory included. -/
def Obligations.CommandFrames : Prop :=
  Claims.queriesFrame ∧ Claims.configFrame ∧ Claims.contextFrame ∧ Claims.syncFrame ∧ Claims.submitFrame

/-- What arrays, chart changes, power, management, ports, group, tests and registers leave unchanged whenever they run. -/
def Obligations.MachineFrames : Prop :=
  Claims.arrayFrame ∧ Claims.chartFrame ∧ Claims.powerFrame ∧ Claims.managementFrame ∧ Claims.portFrame ∧ Claims.groupFrame ∧
  Claims.manifestFrame ∧ Claims.testFrame ∧ Claims.registerFrame

/-- A gradient tensor reaches KL8B exactly after eight qualifying written steps. -/
def Obligations.GradientFormat : Prop :=
  Claims.gradientFormat ∧ Claims.gradientNeedsEight

/-- Kyonex codes round to themselves and stay in range; scales are placed in range. -/
def Obligations.KyonexAndScales : Prop :=
  Claims.kyonexRoundTrip ∧ Claims.kyonexInRange ∧ Claims.scalePlacement

/-- Balancing keeps a stripe set legal; the energy counter loses nothing to rounding. -/
def Obligations.BalanceAndEnergy : Prop :=
  Claims.balanceLegal ∧ Claims.balanceOff ∧ Claims.energyExact

/-- Plain bytes have places of their own and read back; armoured writes keep parity and read back. -/
def Obligations.PlainAndArmourWrites : Prop :=
  Claims.plainPlaces ∧ Claims.plainWrite ∧ Claims.armourWrite

/-- The loss of one stack of an INTACT quadrant changes no armoured byte. -/
def Obligations.ArmourSurvives : Prop :=
  Claims.armourSurvives

/-- Every step keeps the memories canonical and the fixed sizes, from every state that has them. -/
def Obligations.StepInvariants : Prop :=
  Claims.memoryStaysCanonical ∧ Claims.sizesStay
end

