-- ==== Sys2Proof/Laws/State.lean ====
section
/-! SUPPORT. What each shared operation leaves unchanged: one lemma for each field of the state it does not touch. -/
namespace Sys2Proof.Machine

/-- A fold whose function leaves a part unchanged leaves it unchanged. -/
theorem foldl_keeps {α β γ : Type} (f : β → α → β) (g : β → γ) (h : ∀ b a, g (f b a) = g b) (l : List α) (b : β) : g (l.foldl f b) = g b := by
  induction l generalizing b with
  | nil => rfl
  | cons a r ih => exact (ih (f b a)).trans (h b a)

@[simp] theorem sendMsix_pending (n : Nat) (s : State) : (sendMsix n s).pending = s.pending := by unfold sendMsix; split <;> rfl
@[simp] theorem sendMsix_free (n : Nat) (s : State) : (sendMsix n s).free = s.free := by unfold sendMsix; split <;> rfl
@[simp] theorem sendMsix_nextId (n : Nat) (s : State) : (sendMsix n s).nextId = s.nextId := by unfold sendMsix; split <;> rfl
@[simp] theorem sendMsix_regs (n : Nat) (s : State) : (sendMsix n s).regs = s.regs := by unfold sendMsix; split <;> rfl
@[simp] theorem sendMsix_dev (n : Nat) (s : State) : (sendMsix n s).dev = s.dev := by unfold sendMsix; split <;> rfl
@[simp] theorem sendMsix_chart (n : Nat) (s : State) : (sendMsix n s).chart = s.chart := by unfold sendMsix; split <;> rfl
@[simp] theorem sendMsix_queues (n : Nat) (s : State) : (sendMsix n s).queues = s.queues := by unfold sendMsix; split <;> rfl
@[simp] theorem sendMsix_slots (n : Nat) (s : State) : (sendMsix n s).slots = s.slots := by unfold sendMsix; split <;> rfl
@[simp] theorem sendMsix_conf (n : Nat) (s : State) : (sendMsix n s).conf = s.conf := by unfold sendMsix; split <;> rfl
@[simp] theorem sendMsix_mem (n : Nat) (s : State) : (sendMsix n s).mem = s.mem := by unfold sendMsix; split <;> rfl
@[simp] theorem sendMsix_sync (n : Nat) (s : State) : (sendMsix n s).sync = s.sync := by unfold sendMsix; split <;> rfl
@[simp] theorem sendMsix_ctxs (n : Nat) (s : State) : (sendMsix n s).ctxs = s.ctxs := by unfold sendMsix; split <;> rfl
@[simp] theorem sendMsix_arrays (n : Nat) (s : State) : (sendMsix n s).arrays = s.arrays := by unfold sendMsix; split <;> rfl
@[simp] theorem sendMsix_tokens (n : Nat) (s : State) : (sendMsix n s).tokens = s.tokens := by unfold sendMsix; split <;> rfl
@[simp] theorem sendMsix_fab (n : Nat) (s : State) : (sendMsix n s).fab = s.fab := by unfold sendMsix; split <;> rfl
@[simp] theorem sendMsix_grp (n : Nat) (s : State) : (sendMsix n s).grp = s.grp := by unfold sendMsix; split <;> rfl
@[simp] theorem sendMsix_colls (n : Nat) (s : State) : (sendMsix n s).colls = s.colls := by unfold sendMsix; split <;> rfl
@[simp] theorem sendMsix_fix (n : Nat) (s : State) : (sendMsix n s).fix = s.fix := by unfold sendMsix; split <;> rfl
@[simp] theorem sendMsix_pow (n : Nat) (s : State) : (sendMsix n s).pow = s.pow := by unfold sendMsix; split <;> rfl
@[simp] theorem sendMsix_board (n : Nat) (s : State) : (sendMsix n s).board = s.board := by unfold sendMsix; split <;> rfl
@[simp] theorem sendMsix_mgmt (n : Nat) (s : State) : (sendMsix n s).mgmt = s.mgmt := by unfold sendMsix; split <;> rfl
@[simp] theorem sendMsix_flash (n : Nat) (s : State) : (sendMsix n s).flash = s.flash := by unfold sendMsix; split <;> rfl
@[simp] theorem sendMsix_test (n : Nat) (s : State) : (sendMsix n s).test = s.test := by unfold sendMsix; split <;> rfl
@[simp] theorem sendMsix_bnd (n : Nat) (s : State) : (sendMsix n s).bnd = s.bnd := by unfold sendMsix; split <;> rfl

@[simp] theorem raiseEvent_pending (b : Nat) (s : State) : (raiseEvent b s).pending = s.pending := by unfold raiseEvent; dsimp only; split <;> simp
@[simp] theorem raiseEvent_free (b : Nat) (s : State) : (raiseEvent b s).free = s.free := by unfold raiseEvent; dsimp only; split <;> simp
@[simp] theorem raiseEvent_nextId (b : Nat) (s : State) : (raiseEvent b s).nextId = s.nextId := by unfold raiseEvent; dsimp only; split <;> simp
@[simp] theorem raiseEvent_dev (b : Nat) (s : State) : (raiseEvent b s).dev = s.dev := by unfold raiseEvent; dsimp only; split <;> simp
@[simp] theorem raiseEvent_chart (b : Nat) (s : State) : (raiseEvent b s).chart = s.chart := by unfold raiseEvent; dsimp only; split <;> simp
@[simp] theorem raiseEvent_queues (b : Nat) (s : State) : (raiseEvent b s).queues = s.queues := by unfold raiseEvent; dsimp only; split <;> simp
@[simp] theorem raiseEvent_slots (b : Nat) (s : State) : (raiseEvent b s).slots = s.slots := by unfold raiseEvent; dsimp only; split <;> simp
@[simp] theorem raiseEvent_conf (b : Nat) (s : State) : (raiseEvent b s).conf = s.conf := by unfold raiseEvent; dsimp only; split <;> simp
@[simp] theorem raiseEvent_mem (b : Nat) (s : State) : (raiseEvent b s).mem = s.mem := by unfold raiseEvent; dsimp only; split <;> simp
@[simp] theorem raiseEvent_sync (b : Nat) (s : State) : (raiseEvent b s).sync = s.sync := by unfold raiseEvent; dsimp only; split <;> simp
@[simp] theorem raiseEvent_ctxs (b : Nat) (s : State) : (raiseEvent b s).ctxs = s.ctxs := by unfold raiseEvent; dsimp only; split <;> simp
@[simp] theorem raiseEvent_arrays (b : Nat) (s : State) : (raiseEvent b s).arrays = s.arrays := by unfold raiseEvent; dsimp only; split <;> simp
@[simp] theorem raiseEvent_tokens (b : Nat) (s : State) : (raiseEvent b s).tokens = s.tokens := by unfold raiseEvent; dsimp only; split <;> simp
@[simp] theorem raiseEvent_fab (b : Nat) (s : State) : (raiseEvent b s).fab = s.fab := by unfold raiseEvent; dsimp only; split <;> simp
@[simp] theorem raiseEvent_grp (b : Nat) (s : State) : (raiseEvent b s).grp = s.grp := by unfold raiseEvent; dsimp only; split <;> simp
@[simp] theorem raiseEvent_colls (b : Nat) (s : State) : (raiseEvent b s).colls = s.colls := by unfold raiseEvent; dsimp only; split <;> simp
@[simp] theorem raiseEvent_fix (b : Nat) (s : State) : (raiseEvent b s).fix = s.fix := by unfold raiseEvent; dsimp only; split <;> simp
@[simp] theorem raiseEvent_pow (b : Nat) (s : State) : (raiseEvent b s).pow = s.pow := by unfold raiseEvent; dsimp only; split <;> simp
@[simp] theorem raiseEvent_board (b : Nat) (s : State) : (raiseEvent b s).board = s.board := by unfold raiseEvent; dsimp only; split <;> simp
@[simp] theorem raiseEvent_mgmt (b : Nat) (s : State) : (raiseEvent b s).mgmt = s.mgmt := by unfold raiseEvent; dsimp only; split <;> simp
@[simp] theorem raiseEvent_flash (b : Nat) (s : State) : (raiseEvent b s).flash = s.flash := by unfold raiseEvent; dsimp only; split <;> simp
@[simp] theorem raiseEvent_test (b : Nat) (s : State) : (raiseEvent b s).test = s.test := by unfold raiseEvent; dsimp only; split <;> simp
@[simp] theorem raiseEvent_bnd (b : Nat) (s : State) : (raiseEvent b s).bnd = s.bnd := by unfold raiseEvent; dsimp only; split <;> simp

@[simp] theorem sensorEvent_pending (n a b : Nat) (s : State) : (sensorEvent n a b s).pending = s.pending := by unfold sensorEvent; split <;> rfl
@[simp] theorem sensorEvent_free (n a b : Nat) (s : State) : (sensorEvent n a b s).free = s.free := by unfold sensorEvent; split <;> rfl
@[simp] theorem sensorEvent_nextId (n a b : Nat) (s : State) : (sensorEvent n a b s).nextId = s.nextId := by unfold sensorEvent; split <;> rfl
@[simp] theorem sensorEvent_host (n a b : Nat) (s : State) : (sensorEvent n a b s).host = s.host := by unfold sensorEvent; split <;> rfl
@[simp] theorem sensorEvent_regs (n a b : Nat) (s : State) : (sensorEvent n a b s).regs = s.regs := by unfold sensorEvent; split <;> rfl
@[simp] theorem sensorEvent_dev (n a b : Nat) (s : State) : (sensorEvent n a b s).dev = s.dev := by unfold sensorEvent; split <;> rfl
@[simp] theorem sensorEvent_chart (n a b : Nat) (s : State) : (sensorEvent n a b s).chart = s.chart := by unfold sensorEvent; split <;> rfl
@[simp] theorem sensorEvent_queues (n a b : Nat) (s : State) : (sensorEvent n a b s).queues = s.queues := by unfold sensorEvent; split <;> rfl
@[simp] theorem sensorEvent_slots (n a b : Nat) (s : State) : (sensorEvent n a b s).slots = s.slots := by unfold sensorEvent; split <;> rfl
@[simp] theorem sensorEvent_conf (n a b : Nat) (s : State) : (sensorEvent n a b s).conf = s.conf := by unfold sensorEvent; split <;> rfl
@[simp] theorem sensorEvent_mem (n a b : Nat) (s : State) : (sensorEvent n a b s).mem = s.mem := by unfold sensorEvent; split <;> rfl
@[simp] theorem sensorEvent_sync (n a b : Nat) (s : State) : (sensorEvent n a b s).sync = s.sync := by unfold sensorEvent; split <;> rfl
@[simp] theorem sensorEvent_ctxs (n a b : Nat) (s : State) : (sensorEvent n a b s).ctxs = s.ctxs := by unfold sensorEvent; split <;> rfl
@[simp] theorem sensorEvent_arrays (n a b : Nat) (s : State) : (sensorEvent n a b s).arrays = s.arrays := by unfold sensorEvent; split <;> rfl
@[simp] theorem sensorEvent_tokens (n a b : Nat) (s : State) : (sensorEvent n a b s).tokens = s.tokens := by unfold sensorEvent; split <;> rfl
@[simp] theorem sensorEvent_fab (n a b : Nat) (s : State) : (sensorEvent n a b s).fab = s.fab := by unfold sensorEvent; split <;> rfl
@[simp] theorem sensorEvent_grp (n a b : Nat) (s : State) : (sensorEvent n a b s).grp = s.grp := by unfold sensorEvent; split <;> rfl
@[simp] theorem sensorEvent_colls (n a b : Nat) (s : State) : (sensorEvent n a b s).colls = s.colls := by unfold sensorEvent; split <;> rfl
@[simp] theorem sensorEvent_fix (n a b : Nat) (s : State) : (sensorEvent n a b s).fix = s.fix := by unfold sensorEvent; split <;> rfl
@[simp] theorem sensorEvent_pow (n a b : Nat) (s : State) : (sensorEvent n a b s).pow = s.pow := by unfold sensorEvent; split <;> rfl
@[simp] theorem sensorEvent_board (n a b : Nat) (s : State) : (sensorEvent n a b s).board = s.board := by unfold sensorEvent; split <;> rfl
@[simp] theorem sensorEvent_flash (n a b : Nat) (s : State) : (sensorEvent n a b s).flash = s.flash := by unfold sensorEvent; split <;> rfl
@[simp] theorem sensorEvent_test (n a b : Nat) (s : State) : (sensorEvent n a b s).test = s.test := by unfold sensorEvent; split <;> rfl
@[simp] theorem sensorEvent_bnd (n a b : Nat) (s : State) : (sensorEvent n a b s).bnd = s.bnd := by unfold sensorEvent; split <;> rfl

@[simp] theorem enterState_pending (d : DevState) (n : Nat) (s : State) : (enterState d n s).pending = s.pending := by unfold enterState; split <;> simp
@[simp] theorem enterState_free (d : DevState) (n : Nat) (s : State) : (enterState d n s).free = s.free := by unfold enterState; split <;> simp
@[simp] theorem enterState_nextId (d : DevState) (n : Nat) (s : State) : (enterState d n s).nextId = s.nextId := by unfold enterState; split <;> simp
@[simp] theorem enterState_chart (d : DevState) (n : Nat) (s : State) : (enterState d n s).chart = s.chart := by unfold enterState; split <;> simp
@[simp] theorem enterState_queues (d : DevState) (n : Nat) (s : State) : (enterState d n s).queues = s.queues := by unfold enterState; split <;> simp
@[simp] theorem enterState_slots (d : DevState) (n : Nat) (s : State) : (enterState d n s).slots = s.slots := by unfold enterState; split <;> simp
@[simp] theorem enterState_conf (d : DevState) (n : Nat) (s : State) : (enterState d n s).conf = s.conf := by unfold enterState; split <;> simp
@[simp] theorem enterState_mem (d : DevState) (n : Nat) (s : State) : (enterState d n s).mem = s.mem := by unfold enterState; split <;> simp
@[simp] theorem enterState_sync (d : DevState) (n : Nat) (s : State) : (enterState d n s).sync = s.sync := by unfold enterState; split <;> simp
@[simp] theorem enterState_ctxs (d : DevState) (n : Nat) (s : State) : (enterState d n s).ctxs = s.ctxs := by unfold enterState; split <;> simp
@[simp] theorem enterState_arrays (d : DevState) (n : Nat) (s : State) : (enterState d n s).arrays = s.arrays := by unfold enterState; split <;> simp
@[simp] theorem enterState_tokens (d : DevState) (n : Nat) (s : State) : (enterState d n s).tokens = s.tokens := by unfold enterState; split <;> simp
@[simp] theorem enterState_fab (d : DevState) (n : Nat) (s : State) : (enterState d n s).fab = s.fab := by unfold enterState; split <;> simp
@[simp] theorem enterState_grp (d : DevState) (n : Nat) (s : State) : (enterState d n s).grp = s.grp := by unfold enterState; split <;> simp
@[simp] theorem enterState_colls (d : DevState) (n : Nat) (s : State) : (enterState d n s).colls = s.colls := by unfold enterState; split <;> simp
@[simp] theorem enterState_fix (d : DevState) (n : Nat) (s : State) : (enterState d n s).fix = s.fix := by unfold enterState; split <;> simp
@[simp] theorem enterState_pow (d : DevState) (n : Nat) (s : State) : (enterState d n s).pow = s.pow := by unfold enterState; split <;> simp
@[simp] theorem enterState_board (d : DevState) (n : Nat) (s : State) : (enterState d n s).board = s.board := by unfold enterState; split <;> simp
@[simp] theorem enterState_flash (d : DevState) (n : Nat) (s : State) : (enterState d n s).flash = s.flash := by unfold enterState; split <;> simp
@[simp] theorem enterState_test (d : DevState) (n : Nat) (s : State) : (enterState d n s).test = s.test := by unfold enterState; split <;> simp
@[simp] theorem enterState_bnd (d : DevState) (n : Nat) (s : State) : (enterState d n s).bnd = s.bnd := by unfold enterState; split <;> simp

@[simp] theorem noteSoft_pending (s : State) : (noteSoft s).pending = s.pending := rfl
@[simp] theorem noteSoft_free (s : State) : (noteSoft s).free = s.free := rfl
@[simp] theorem noteSoft_nextId (s : State) : (noteSoft s).nextId = s.nextId := rfl
@[simp] theorem noteSoft_host (s : State) : (noteSoft s).host = s.host := rfl
@[simp] theorem noteSoft_regs (s : State) : (noteSoft s).regs = s.regs := rfl
@[simp] theorem noteSoft_dev (s : State) : (noteSoft s).dev = s.dev := rfl
@[simp] theorem noteSoft_chart (s : State) : (noteSoft s).chart = s.chart := rfl
@[simp] theorem noteSoft_queues (s : State) : (noteSoft s).queues = s.queues := rfl
@[simp] theorem noteSoft_slots (s : State) : (noteSoft s).slots = s.slots := rfl
@[simp] theorem noteSoft_conf (s : State) : (noteSoft s).conf = s.conf := rfl
@[simp] theorem noteSoft_mem (s : State) : (noteSoft s).mem = s.mem := rfl
@[simp] theorem noteSoft_sync (s : State) : (noteSoft s).sync = s.sync := rfl
@[simp] theorem noteSoft_ctxs (s : State) : (noteSoft s).ctxs = s.ctxs := rfl
@[simp] theorem noteSoft_arrays (s : State) : (noteSoft s).arrays = s.arrays := rfl
@[simp] theorem noteSoft_tokens (s : State) : (noteSoft s).tokens = s.tokens := rfl
@[simp] theorem noteSoft_fab (s : State) : (noteSoft s).fab = s.fab := rfl
@[simp] theorem noteSoft_grp (s : State) : (noteSoft s).grp = s.grp := rfl
@[simp] theorem noteSoft_colls (s : State) : (noteSoft s).colls = s.colls := rfl
@[simp] theorem noteSoft_pow (s : State) : (noteSoft s).pow = s.pow := rfl
@[simp] theorem noteSoft_board (s : State) : (noteSoft s).board = s.board := rfl
@[simp] theorem noteSoft_mgmt (s : State) : (noteSoft s).mgmt = s.mgmt := rfl
@[simp] theorem noteSoft_flash (s : State) : (noteSoft s).flash = s.flash := rfl
@[simp] theorem noteSoft_test (s : State) : (noteSoft s).test = s.test := rfl
@[simp] theorem noteSoft_bnd (s : State) : (noteSoft s).bnd = s.bnd := rfl

@[simp] theorem sendMsg_pending (c d : Nat) (n : String) (a : List Nat) (s : State) : (sendMsg c d n a s).pending = s.pending := rfl
@[simp] theorem sendMsg_free (c d : Nat) (n : String) (a : List Nat) (s : State) : (sendMsg c d n a s).free = s.free := rfl
@[simp] theorem sendMsg_nextId (c d : Nat) (n : String) (a : List Nat) (s : State) : (sendMsg c d n a s).nextId = s.nextId := rfl
@[simp] theorem sendMsg_host (c d : Nat) (n : String) (a : List Nat) (s : State) : (sendMsg c d n a s).host = s.host := rfl
@[simp] theorem sendMsg_regs (c d : Nat) (n : String) (a : List Nat) (s : State) : (sendMsg c d n a s).regs = s.regs := rfl
@[simp] theorem sendMsg_dev (c d : Nat) (n : String) (a : List Nat) (s : State) : (sendMsg c d n a s).dev = s.dev := rfl
@[simp] theorem sendMsg_chart (c d : Nat) (n : String) (a : List Nat) (s : State) : (sendMsg c d n a s).chart = s.chart := rfl
@[simp] theorem sendMsg_queues (c d : Nat) (n : String) (a : List Nat) (s : State) : (sendMsg c d n a s).queues = s.queues := rfl
@[simp] theorem sendMsg_slots (c d : Nat) (n : String) (a : List Nat) (s : State) : (sendMsg c d n a s).slots = s.slots := rfl
@[simp] theorem sendMsg_conf (c d : Nat) (n : String) (a : List Nat) (s : State) : (sendMsg c d n a s).conf = s.conf := rfl
@[simp] theorem sendMsg_mem (c d : Nat) (n : String) (a : List Nat) (s : State) : (sendMsg c d n a s).mem = s.mem := rfl
@[simp] theorem sendMsg_sync (c d : Nat) (n : String) (a : List Nat) (s : State) : (sendMsg c d n a s).sync = s.sync := rfl
@[simp] theorem sendMsg_ctxs (c d : Nat) (n : String) (a : List Nat) (s : State) : (sendMsg c d n a s).ctxs = s.ctxs := rfl
@[simp] theorem sendMsg_arrays (c d : Nat) (n : String) (a : List Nat) (s : State) : (sendMsg c d n a s).arrays = s.arrays := rfl
@[simp] theorem sendMsg_tokens (c d : Nat) (n : String) (a : List Nat) (s : State) : (sendMsg c d n a s).tokens = s.tokens := rfl
@[simp] theorem sendMsg_grp (c d : Nat) (n : String) (a : List Nat) (s : State) : (sendMsg c d n a s).grp = s.grp := rfl
@[simp] theorem sendMsg_colls (c d : Nat) (n : String) (a : List Nat) (s : State) : (sendMsg c d n a s).colls = s.colls := rfl
@[simp] theorem sendMsg_fix (c d : Nat) (n : String) (a : List Nat) (s : State) : (sendMsg c d n a s).fix = s.fix := rfl
@[simp] theorem sendMsg_pow (c d : Nat) (n : String) (a : List Nat) (s : State) : (sendMsg c d n a s).pow = s.pow := rfl
@[simp] theorem sendMsg_board (c d : Nat) (n : String) (a : List Nat) (s : State) : (sendMsg c d n a s).board = s.board := rfl
@[simp] theorem sendMsg_mgmt (c d : Nat) (n : String) (a : List Nat) (s : State) : (sendMsg c d n a s).mgmt = s.mgmt := rfl
@[simp] theorem sendMsg_flash (c d : Nat) (n : String) (a : List Nat) (s : State) : (sendMsg c d n a s).flash = s.flash := rfl
@[simp] theorem sendMsg_test (c d : Nat) (n : String) (a : List Nat) (s : State) : (sendMsg c d n a s).test = s.test := rfl
@[simp] theorem sendMsg_bnd (c d : Nat) (n : String) (a : List Nat) (s : State) : (sendMsg c d n a s).bnd = s.bnd := rfl

@[simp] theorem decideChange_pending (c : Change) (s : State) : (decideChange c s).pending = s.pending := by unfold decideChange; split <;> rfl
@[simp] theorem decideChange_free (c : Change) (s : State) : (decideChange c s).free = s.free := by unfold decideChange; split <;> rfl
@[simp] theorem decideChange_nextId (c : Change) (s : State) : (decideChange c s).nextId = s.nextId := by unfold decideChange; split <;> rfl
@[simp] theorem decideChange_host (c : Change) (s : State) : (decideChange c s).host = s.host := by unfold decideChange; split <;> rfl
@[simp] theorem decideChange_regs (c : Change) (s : State) : (decideChange c s).regs = s.regs := by unfold decideChange; split <;> rfl
@[simp] theorem decideChange_dev (c : Change) (s : State) : (decideChange c s).dev = s.dev := by unfold decideChange; split <;> rfl
@[simp] theorem decideChange_queues (c : Change) (s : State) : (decideChange c s).queues = s.queues := by unfold decideChange; split <;> rfl
@[simp] theorem decideChange_slots (c : Change) (s : State) : (decideChange c s).slots = s.slots := by unfold decideChange; split <;> rfl
@[simp] theorem decideChange_conf (c : Change) (s : State) : (decideChange c s).conf = s.conf := by unfold decideChange; split <;> rfl
@[simp] theorem decideChange_mem (c : Change) (s : State) : (decideChange c s).mem = s.mem := by unfold decideChange; split <;> rfl
@[simp] theorem decideChange_sync (c : Change) (s : State) : (decideChange c s).sync = s.sync := by unfold decideChange; split <;> rfl
@[simp] theorem decideChange_ctxs (c : Change) (s : State) : (decideChange c s).ctxs = s.ctxs := by unfold decideChange; split <;> rfl
@[simp] theorem decideChange_arrays (c : Change) (s : State) : (decideChange c s).arrays = s.arrays := by unfold decideChange; split <;> rfl
@[simp] theorem decideChange_tokens (c : Change) (s : State) : (decideChange c s).tokens = s.tokens := by unfold decideChange; split <;> rfl
@[simp] theorem decideChange_fab (c : Change) (s : State) : (decideChange c s).fab = s.fab := by unfold decideChange; split <;> rfl
@[simp] theorem decideChange_grp (c : Change) (s : State) : (decideChange c s).grp = s.grp := by unfold decideChange; split <;> rfl
@[simp] theorem decideChange_colls (c : Change) (s : State) : (decideChange c s).colls = s.colls := by unfold decideChange; split <;> rfl
@[simp] theorem decideChange_fix (c : Change) (s : State) : (decideChange c s).fix = s.fix := by unfold decideChange; split <;> rfl
@[simp] theorem decideChange_pow (c : Change) (s : State) : (decideChange c s).pow = s.pow := by unfold decideChange; split <;> rfl
@[simp] theorem decideChange_board (c : Change) (s : State) : (decideChange c s).board = s.board := by unfold decideChange; split <;> rfl
@[simp] theorem decideChange_mgmt (c : Change) (s : State) : (decideChange c s).mgmt = s.mgmt := by unfold decideChange; split <;> rfl
@[simp] theorem decideChange_flash (c : Change) (s : State) : (decideChange c s).flash = s.flash := by unfold decideChange; split <;> rfl
@[simp] theorem decideChange_test (c : Change) (s : State) : (decideChange c s).test = s.test := by unfold decideChange; split <;> rfl
@[simp] theorem decideChange_bnd (c : Change) (s : State) : (decideChange c s).bnd = s.bnd := by unfold decideChange; split <;> rfl

@[simp] theorem publishChange_pending (c : Change) (e : Word) (s : State) : (publishChange c e s).pending = s.pending := rfl
@[simp] theorem publishChange_free (c : Change) (e : Word) (s : State) : (publishChange c e s).free = s.free := rfl
@[simp] theorem publishChange_nextId (c : Change) (e : Word) (s : State) : (publishChange c e s).nextId = s.nextId := rfl
@[simp] theorem publishChange_host (c : Change) (e : Word) (s : State) : (publishChange c e s).host = s.host := rfl
@[simp] theorem publishChange_regs (c : Change) (e : Word) (s : State) : (publishChange c e s).regs = s.regs := rfl
@[simp] theorem publishChange_dev (c : Change) (e : Word) (s : State) : (publishChange c e s).dev = s.dev := rfl
@[simp] theorem publishChange_queues (c : Change) (e : Word) (s : State) : (publishChange c e s).queues = s.queues := rfl
@[simp] theorem publishChange_slots (c : Change) (e : Word) (s : State) : (publishChange c e s).slots = s.slots := rfl
@[simp] theorem publishChange_conf (c : Change) (e : Word) (s : State) : (publishChange c e s).conf = s.conf := rfl
@[simp] theorem publishChange_mem (c : Change) (e : Word) (s : State) : (publishChange c e s).mem = s.mem := rfl
@[simp] theorem publishChange_sync (c : Change) (e : Word) (s : State) : (publishChange c e s).sync = s.sync := rfl
@[simp] theorem publishChange_arrays (c : Change) (e : Word) (s : State) : (publishChange c e s).arrays = s.arrays := rfl
@[simp] theorem publishChange_tokens (c : Change) (e : Word) (s : State) : (publishChange c e s).tokens = s.tokens := rfl
@[simp] theorem publishChange_fab (c : Change) (e : Word) (s : State) : (publishChange c e s).fab = s.fab := rfl
@[simp] theorem publishChange_grp (c : Change) (e : Word) (s : State) : (publishChange c e s).grp = s.grp := rfl
@[simp] theorem publishChange_colls (c : Change) (e : Word) (s : State) : (publishChange c e s).colls = s.colls := rfl
@[simp] theorem publishChange_fix (c : Change) (e : Word) (s : State) : (publishChange c e s).fix = s.fix := rfl
@[simp] theorem publishChange_pow (c : Change) (e : Word) (s : State) : (publishChange c e s).pow = s.pow := rfl
@[simp] theorem publishChange_board (c : Change) (e : Word) (s : State) : (publishChange c e s).board = s.board := rfl
@[simp] theorem publishChange_mgmt (c : Change) (e : Word) (s : State) : (publishChange c e s).mgmt = s.mgmt := rfl
@[simp] theorem publishChange_flash (c : Change) (e : Word) (s : State) : (publishChange c e s).flash = s.flash := rfl
@[simp] theorem publishChange_test (c : Change) (e : Word) (s : State) : (publishChange c e s).test = s.test := rfl
@[simp] theorem publishChange_bnd (c : Change) (e : Word) (s : State) : (publishChange c e s).bnd = s.bnd := rfl

@[simp] theorem fenceUnits_pending (c : Change) (s : State) : (fenceUnits c s).pending = s.pending := rfl
@[simp] theorem fenceUnits_free (c : Change) (s : State) : (fenceUnits c s).free = s.free := rfl
@[simp] theorem fenceUnits_nextId (c : Change) (s : State) : (fenceUnits c s).nextId = s.nextId := rfl
@[simp] theorem fenceUnits_host (c : Change) (s : State) : (fenceUnits c s).host = s.host := rfl
@[simp] theorem fenceUnits_regs (c : Change) (s : State) : (fenceUnits c s).regs = s.regs := rfl
@[simp] theorem fenceUnits_dev (c : Change) (s : State) : (fenceUnits c s).dev = s.dev := rfl
@[simp] theorem fenceUnits_queues (c : Change) (s : State) : (fenceUnits c s).queues = s.queues := rfl
@[simp] theorem fenceUnits_slots (c : Change) (s : State) : (fenceUnits c s).slots = s.slots := rfl
@[simp] theorem fenceUnits_conf (c : Change) (s : State) : (fenceUnits c s).conf = s.conf := rfl
@[simp] theorem fenceUnits_mem (c : Change) (s : State) : (fenceUnits c s).mem = s.mem := rfl
@[simp] theorem fenceUnits_sync (c : Change) (s : State) : (fenceUnits c s).sync = s.sync := rfl
@[simp] theorem fenceUnits_ctxs (c : Change) (s : State) : (fenceUnits c s).ctxs = s.ctxs := rfl
@[simp] theorem fenceUnits_arrays (c : Change) (s : State) : (fenceUnits c s).arrays = s.arrays := rfl
@[simp] theorem fenceUnits_tokens (c : Change) (s : State) : (fenceUnits c s).tokens = s.tokens := rfl
@[simp] theorem fenceUnits_fab (c : Change) (s : State) : (fenceUnits c s).fab = s.fab := rfl
@[simp] theorem fenceUnits_grp (c : Change) (s : State) : (fenceUnits c s).grp = s.grp := rfl
@[simp] theorem fenceUnits_colls (c : Change) (s : State) : (fenceUnits c s).colls = s.colls := rfl
@[simp] theorem fenceUnits_fix (c : Change) (s : State) : (fenceUnits c s).fix = s.fix := rfl
@[simp] theorem fenceUnits_pow (c : Change) (s : State) : (fenceUnits c s).pow = s.pow := rfl
@[simp] theorem fenceUnits_board (c : Change) (s : State) : (fenceUnits c s).board = s.board := rfl
@[simp] theorem fenceUnits_mgmt (c : Change) (s : State) : (fenceUnits c s).mgmt = s.mgmt := rfl
@[simp] theorem fenceUnits_flash (c : Change) (s : State) : (fenceUnits c s).flash = s.flash := rfl
@[simp] theorem fenceUnits_test (c : Change) (s : State) : (fenceUnits c s).test = s.test := rfl
@[simp] theorem fenceUnits_bnd (c : Change) (s : State) : (fenceUnits c s).bnd = s.bnd := rfl

@[simp] theorem logSkew_pending (u c r : Nat) (e : Word) (s : State) : (logSkew u c r e s).pending = s.pending := by simp [logSkew]
@[simp] theorem logSkew_free (u c r : Nat) (e : Word) (s : State) : (logSkew u c r e s).free = s.free := by simp [logSkew]
@[simp] theorem logSkew_nextId (u c r : Nat) (e : Word) (s : State) : (logSkew u c r e s).nextId = s.nextId := by simp [logSkew]
@[simp] theorem logSkew_dev (u c r : Nat) (e : Word) (s : State) : (logSkew u c r e s).dev = s.dev := by simp [logSkew]
@[simp] theorem logSkew_queues (u c r : Nat) (e : Word) (s : State) : (logSkew u c r e s).queues = s.queues := by simp [logSkew]
@[simp] theorem logSkew_slots (u c r : Nat) (e : Word) (s : State) : (logSkew u c r e s).slots = s.slots := by simp [logSkew]
@[simp] theorem logSkew_conf (u c r : Nat) (e : Word) (s : State) : (logSkew u c r e s).conf = s.conf := by simp [logSkew]
@[simp] theorem logSkew_mem (u c r : Nat) (e : Word) (s : State) : (logSkew u c r e s).mem = s.mem := by simp [logSkew]
@[simp] theorem logSkew_sync (u c r : Nat) (e : Word) (s : State) : (logSkew u c r e s).sync = s.sync := by simp [logSkew]
@[simp] theorem logSkew_ctxs (u c r : Nat) (e : Word) (s : State) : (logSkew u c r e s).ctxs = s.ctxs := by simp [logSkew]
@[simp] theorem logSkew_arrays (u c r : Nat) (e : Word) (s : State) : (logSkew u c r e s).arrays = s.arrays := by simp [logSkew]
@[simp] theorem logSkew_tokens (u c r : Nat) (e : Word) (s : State) : (logSkew u c r e s).tokens = s.tokens := by simp [logSkew]
@[simp] theorem logSkew_fab (u c r : Nat) (e : Word) (s : State) : (logSkew u c r e s).fab = s.fab := by simp [logSkew]
@[simp] theorem logSkew_grp (u c r : Nat) (e : Word) (s : State) : (logSkew u c r e s).grp = s.grp := by simp [logSkew]
@[simp] theorem logSkew_colls (u c r : Nat) (e : Word) (s : State) : (logSkew u c r e s).colls = s.colls := by simp [logSkew]
@[simp] theorem logSkew_fix (u c r : Nat) (e : Word) (s : State) : (logSkew u c r e s).fix = s.fix := by simp [logSkew]
@[simp] theorem logSkew_pow (u c r : Nat) (e : Word) (s : State) : (logSkew u c r e s).pow = s.pow := by simp [logSkew]
@[simp] theorem logSkew_board (u c r : Nat) (e : Word) (s : State) : (logSkew u c r e s).board = s.board := by simp [logSkew]
@[simp] theorem logSkew_mgmt (u c r : Nat) (e : Word) (s : State) : (logSkew u c r e s).mgmt = s.mgmt := by simp [logSkew]
@[simp] theorem logSkew_flash (u c r : Nat) (e : Word) (s : State) : (logSkew u c r e s).flash = s.flash := by simp [logSkew]
@[simp] theorem logSkew_test (u c r : Nat) (e : Word) (s : State) : (logSkew u c r e s).test = s.test := by simp [logSkew]

@[simp] theorem setArmour_pending (q : Nat) (a : Armour) (s : State) : (setArmour q a s).pending = s.pending := by unfold setArmour; split <;> simp
@[simp] theorem setArmour_free (q : Nat) (a : Armour) (s : State) : (setArmour q a s).free = s.free := by unfold setArmour; split <;> simp
@[simp] theorem setArmour_nextId (q : Nat) (a : Armour) (s : State) : (setArmour q a s).nextId = s.nextId := by unfold setArmour; split <;> simp
@[simp] theorem setArmour_dev (q : Nat) (a : Armour) (s : State) : (setArmour q a s).dev = s.dev := by unfold setArmour; split <;> simp
@[simp] theorem setArmour_chart (q : Nat) (a : Armour) (s : State) : (setArmour q a s).chart = s.chart := by unfold setArmour; split <;> simp
@[simp] theorem setArmour_queues (q : Nat) (a : Armour) (s : State) : (setArmour q a s).queues = s.queues := by unfold setArmour; split <;> simp
@[simp] theorem setArmour_slots (q : Nat) (a : Armour) (s : State) : (setArmour q a s).slots = s.slots := by unfold setArmour; split <;> simp
@[simp] theorem setArmour_conf (q : Nat) (a : Armour) (s : State) : (setArmour q a s).conf = s.conf := by unfold setArmour; split <;> simp
@[simp] theorem setArmour_sync (q : Nat) (a : Armour) (s : State) : (setArmour q a s).sync = s.sync := by unfold setArmour; split <;> simp
@[simp] theorem setArmour_ctxs (q : Nat) (a : Armour) (s : State) : (setArmour q a s).ctxs = s.ctxs := by unfold setArmour; split <;> simp
@[simp] theorem setArmour_arrays (q : Nat) (a : Armour) (s : State) : (setArmour q a s).arrays = s.arrays := by unfold setArmour; split <;> simp
@[simp] theorem setArmour_tokens (q : Nat) (a : Armour) (s : State) : (setArmour q a s).tokens = s.tokens := by unfold setArmour; split <;> simp
@[simp] theorem setArmour_fab (q : Nat) (a : Armour) (s : State) : (setArmour q a s).fab = s.fab := by unfold setArmour; split <;> simp
@[simp] theorem setArmour_grp (q : Nat) (a : Armour) (s : State) : (setArmour q a s).grp = s.grp := by unfold setArmour; split <;> simp
@[simp] theorem setArmour_colls (q : Nat) (a : Armour) (s : State) : (setArmour q a s).colls = s.colls := by unfold setArmour; split <;> simp
@[simp] theorem setArmour_fix (q : Nat) (a : Armour) (s : State) : (setArmour q a s).fix = s.fix := by unfold setArmour; split <;> simp
@[simp] theorem setArmour_pow (q : Nat) (a : Armour) (s : State) : (setArmour q a s).pow = s.pow := by unfold setArmour; split <;> simp
@[simp] theorem setArmour_board (q : Nat) (a : Armour) (s : State) : (setArmour q a s).board = s.board := by unfold setArmour; split <;> simp
@[simp] theorem setArmour_mgmt (q : Nat) (a : Armour) (s : State) : (setArmour q a s).mgmt = s.mgmt := by unfold setArmour; split <;> simp
@[simp] theorem setArmour_flash (q : Nat) (a : Armour) (s : State) : (setArmour q a s).flash = s.flash := by unfold setArmour; split <;> simp
@[simp] theorem setArmour_test (q : Nat) (a : Armour) (s : State) : (setArmour q a s).test = s.test := by unfold setArmour; split <;> simp
@[simp] theorem setArmour_bnd (q : Nat) (a : Armour) (s : State) : (setArmour q a s).bnd = s.bnd := by unfold setArmour; split <;> simp

@[simp] theorem rawSet_pending (k : Nat) (v : Byte) (s : State) : (rawSet k v s).pending = s.pending := rfl
@[simp] theorem rawSet_free (k : Nat) (v : Byte) (s : State) : (rawSet k v s).free = s.free := rfl
@[simp] theorem rawSet_nextId (k : Nat) (v : Byte) (s : State) : (rawSet k v s).nextId = s.nextId := rfl
@[simp] theorem rawSet_host (k : Nat) (v : Byte) (s : State) : (rawSet k v s).host = s.host := rfl
@[simp] theorem rawSet_regs (k : Nat) (v : Byte) (s : State) : (rawSet k v s).regs = s.regs := rfl
@[simp] theorem rawSet_dev (k : Nat) (v : Byte) (s : State) : (rawSet k v s).dev = s.dev := rfl
@[simp] theorem rawSet_chart (k : Nat) (v : Byte) (s : State) : (rawSet k v s).chart = s.chart := rfl
@[simp] theorem rawSet_queues (k : Nat) (v : Byte) (s : State) : (rawSet k v s).queues = s.queues := rfl
@[simp] theorem rawSet_slots (k : Nat) (v : Byte) (s : State) : (rawSet k v s).slots = s.slots := rfl
@[simp] theorem rawSet_conf (k : Nat) (v : Byte) (s : State) : (rawSet k v s).conf = s.conf := rfl
@[simp] theorem rawSet_sync (k : Nat) (v : Byte) (s : State) : (rawSet k v s).sync = s.sync := rfl
@[simp] theorem rawSet_ctxs (k : Nat) (v : Byte) (s : State) : (rawSet k v s).ctxs = s.ctxs := rfl
@[simp] theorem rawSet_arrays (k : Nat) (v : Byte) (s : State) : (rawSet k v s).arrays = s.arrays := rfl
@[simp] theorem rawSet_tokens (k : Nat) (v : Byte) (s : State) : (rawSet k v s).tokens = s.tokens := rfl
@[simp] theorem rawSet_fab (k : Nat) (v : Byte) (s : State) : (rawSet k v s).fab = s.fab := rfl
@[simp] theorem rawSet_grp (k : Nat) (v : Byte) (s : State) : (rawSet k v s).grp = s.grp := rfl
@[simp] theorem rawSet_colls (k : Nat) (v : Byte) (s : State) : (rawSet k v s).colls = s.colls := rfl
@[simp] theorem rawSet_fix (k : Nat) (v : Byte) (s : State) : (rawSet k v s).fix = s.fix := rfl
@[simp] theorem rawSet_pow (k : Nat) (v : Byte) (s : State) : (rawSet k v s).pow = s.pow := rfl
@[simp] theorem rawSet_board (k : Nat) (v : Byte) (s : State) : (rawSet k v s).board = s.board := rfl
@[simp] theorem rawSet_mgmt (k : Nat) (v : Byte) (s : State) : (rawSet k v s).mgmt = s.mgmt := rfl
@[simp] theorem rawSet_flash (k : Nat) (v : Byte) (s : State) : (rawSet k v s).flash = s.flash := rfl
@[simp] theorem rawSet_test (k : Nat) (v : Byte) (s : State) : (rawSet k v s).test = s.test := rfl
@[simp] theorem rawSet_bnd (k : Nat) (v : Byte) (s : State) : (rawSet k v s).bnd = s.bnd := rfl

@[simp] theorem armourSet_pending (q r g b : Nat) (v : Byte) (s : State) : (armourSet q r g b v s).pending = s.pending := by unfold armourSet; dsimp only; (repeat' split) <;> simp
@[simp] theorem armourSet_free (q r g b : Nat) (v : Byte) (s : State) : (armourSet q r g b v s).free = s.free := by unfold armourSet; dsimp only; (repeat' split) <;> simp
@[simp] theorem armourSet_nextId (q r g b : Nat) (v : Byte) (s : State) : (armourSet q r g b v s).nextId = s.nextId := by unfold armourSet; dsimp only; (repeat' split) <;> simp
@[simp] theorem armourSet_host (q r g b : Nat) (v : Byte) (s : State) : (armourSet q r g b v s).host = s.host := by unfold armourSet; dsimp only; (repeat' split) <;> simp
@[simp] theorem armourSet_regs (q r g b : Nat) (v : Byte) (s : State) : (armourSet q r g b v s).regs = s.regs := by unfold armourSet; dsimp only; (repeat' split) <;> simp
@[simp] theorem armourSet_dev (q r g b : Nat) (v : Byte) (s : State) : (armourSet q r g b v s).dev = s.dev := by unfold armourSet; dsimp only; (repeat' split) <;> simp
@[simp] theorem armourSet_chart (q r g b : Nat) (v : Byte) (s : State) : (armourSet q r g b v s).chart = s.chart := by unfold armourSet; dsimp only; (repeat' split) <;> simp
@[simp] theorem armourSet_queues (q r g b : Nat) (v : Byte) (s : State) : (armourSet q r g b v s).queues = s.queues := by unfold armourSet; dsimp only; (repeat' split) <;> simp
@[simp] theorem armourSet_slots (q r g b : Nat) (v : Byte) (s : State) : (armourSet q r g b v s).slots = s.slots := by unfold armourSet; dsimp only; (repeat' split) <;> simp
@[simp] theorem armourSet_conf (q r g b : Nat) (v : Byte) (s : State) : (armourSet q r g b v s).conf = s.conf := by unfold armourSet; dsimp only; (repeat' split) <;> simp
@[simp] theorem armourSet_sync (q r g b : Nat) (v : Byte) (s : State) : (armourSet q r g b v s).sync = s.sync := by unfold armourSet; dsimp only; (repeat' split) <;> simp
@[simp] theorem armourSet_ctxs (q r g b : Nat) (v : Byte) (s : State) : (armourSet q r g b v s).ctxs = s.ctxs := by unfold armourSet; dsimp only; (repeat' split) <;> simp
@[simp] theorem armourSet_arrays (q r g b : Nat) (v : Byte) (s : State) : (armourSet q r g b v s).arrays = s.arrays := by unfold armourSet; dsimp only; (repeat' split) <;> simp
@[simp] theorem armourSet_tokens (q r g b : Nat) (v : Byte) (s : State) : (armourSet q r g b v s).tokens = s.tokens := by unfold armourSet; dsimp only; (repeat' split) <;> simp
@[simp] theorem armourSet_fab (q r g b : Nat) (v : Byte) (s : State) : (armourSet q r g b v s).fab = s.fab := by unfold armourSet; dsimp only; (repeat' split) <;> simp
@[simp] theorem armourSet_grp (q r g b : Nat) (v : Byte) (s : State) : (armourSet q r g b v s).grp = s.grp := by unfold armourSet; dsimp only; (repeat' split) <;> simp
@[simp] theorem armourSet_colls (q r g b : Nat) (v : Byte) (s : State) : (armourSet q r g b v s).colls = s.colls := by unfold armourSet; dsimp only; (repeat' split) <;> simp
@[simp] theorem armourSet_fix (q r g b : Nat) (v : Byte) (s : State) : (armourSet q r g b v s).fix = s.fix := by unfold armourSet; dsimp only; (repeat' split) <;> simp
@[simp] theorem armourSet_pow (q r g b : Nat) (v : Byte) (s : State) : (armourSet q r g b v s).pow = s.pow := by unfold armourSet; dsimp only; (repeat' split) <;> simp
@[simp] theorem armourSet_board (q r g b : Nat) (v : Byte) (s : State) : (armourSet q r g b v s).board = s.board := by unfold armourSet; dsimp only; (repeat' split) <;> simp
@[simp] theorem armourSet_mgmt (q r g b : Nat) (v : Byte) (s : State) : (armourSet q r g b v s).mgmt = s.mgmt := by unfold armourSet; dsimp only; (repeat' split) <;> simp
@[simp] theorem armourSet_flash (q r g b : Nat) (v : Byte) (s : State) : (armourSet q r g b v s).flash = s.flash := by unfold armourSet; dsimp only; (repeat' split) <;> simp
@[simp] theorem armourSet_test (q r g b : Nat) (v : Byte) (s : State) : (armourSet q r g b v s).test = s.test := by unfold armourSet; dsimp only; (repeat' split) <;> simp
@[simp] theorem armourSet_bnd (q r g b : Nat) (v : Byte) (s : State) : (armourSet q r g b v s).bnd = s.bnd := by unfold armourSet; dsimp only; (repeat' split) <;> simp

@[simp] theorem devSet_pending (d : Nat) (v : Byte) (s : State) : (devSet d v s).pending = s.pending := by unfold devSet; split <;> first | rfl | simp | (split <;> simp)
@[simp] theorem devSet_free (d : Nat) (v : Byte) (s : State) : (devSet d v s).free = s.free := by unfold devSet; split <;> first | rfl | simp | (split <;> simp)
@[simp] theorem devSet_nextId (d : Nat) (v : Byte) (s : State) : (devSet d v s).nextId = s.nextId := by unfold devSet; split <;> first | rfl | simp | (split <;> simp)
@[simp] theorem devSet_host (d : Nat) (v : Byte) (s : State) : (devSet d v s).host = s.host := by unfold devSet; split <;> first | rfl | simp | (split <;> simp)
@[simp] theorem devSet_regs (d : Nat) (v : Byte) (s : State) : (devSet d v s).regs = s.regs := by unfold devSet; split <;> first | rfl | simp | (split <;> simp)
@[simp] theorem devSet_dev (d : Nat) (v : Byte) (s : State) : (devSet d v s).dev = s.dev := by unfold devSet; split <;> first | rfl | simp | (split <;> simp)
@[simp] theorem devSet_chart (d : Nat) (v : Byte) (s : State) : (devSet d v s).chart = s.chart := by unfold devSet; split <;> first | rfl | simp | (split <;> simp)
@[simp] theorem devSet_queues (d : Nat) (v : Byte) (s : State) : (devSet d v s).queues = s.queues := by unfold devSet; split <;> first | rfl | simp | (split <;> simp)
@[simp] theorem devSet_slots (d : Nat) (v : Byte) (s : State) : (devSet d v s).slots = s.slots := by unfold devSet; split <;> first | rfl | simp | (split <;> simp)
@[simp] theorem devSet_conf (d : Nat) (v : Byte) (s : State) : (devSet d v s).conf = s.conf := by unfold devSet; split <;> first | rfl | simp | (split <;> simp)
@[simp] theorem devSet_sync (d : Nat) (v : Byte) (s : State) : (devSet d v s).sync = s.sync := by unfold devSet; split <;> first | rfl | simp | (split <;> simp)
@[simp] theorem devSet_ctxs (d : Nat) (v : Byte) (s : State) : (devSet d v s).ctxs = s.ctxs := by unfold devSet; split <;> first | rfl | simp | (split <;> simp)
@[simp] theorem devSet_arrays (d : Nat) (v : Byte) (s : State) : (devSet d v s).arrays = s.arrays := by unfold devSet; split <;> first | rfl | simp | (split <;> simp)
@[simp] theorem devSet_tokens (d : Nat) (v : Byte) (s : State) : (devSet d v s).tokens = s.tokens := by unfold devSet; split <;> first | rfl | simp | (split <;> simp)
@[simp] theorem devSet_fab (d : Nat) (v : Byte) (s : State) : (devSet d v s).fab = s.fab := by unfold devSet; split <;> first | rfl | simp | (split <;> simp)
@[simp] theorem devSet_grp (d : Nat) (v : Byte) (s : State) : (devSet d v s).grp = s.grp := by unfold devSet; split <;> first | rfl | simp | (split <;> simp)
@[simp] theorem devSet_colls (d : Nat) (v : Byte) (s : State) : (devSet d v s).colls = s.colls := by unfold devSet; split <;> first | rfl | simp | (split <;> simp)
@[simp] theorem devSet_fix (d : Nat) (v : Byte) (s : State) : (devSet d v s).fix = s.fix := by unfold devSet; split <;> first | rfl | simp | (split <;> simp)
@[simp] theorem devSet_pow (d : Nat) (v : Byte) (s : State) : (devSet d v s).pow = s.pow := by unfold devSet; split <;> first | rfl | simp | (split <;> simp)
@[simp] theorem devSet_board (d : Nat) (v : Byte) (s : State) : (devSet d v s).board = s.board := by unfold devSet; split <;> first | rfl | simp | (split <;> simp)
@[simp] theorem devSet_mgmt (d : Nat) (v : Byte) (s : State) : (devSet d v s).mgmt = s.mgmt := by unfold devSet; split <;> first | rfl | simp | (split <;> simp)
@[simp] theorem devSet_flash (d : Nat) (v : Byte) (s : State) : (devSet d v s).flash = s.flash := by unfold devSet; split <;> first | rfl | simp | (split <;> simp)
@[simp] theorem devSet_test (d : Nat) (v : Byte) (s : State) : (devSet d v s).test = s.test := by unfold devSet; split <;> first | rfl | simp | (split <;> simp)
@[simp] theorem devSet_bnd (d : Nat) (v : Byte) (s : State) : (devSet d v s).bnd = s.bnd := by unfold devSet; split <;> first | rfl | simp | (split <;> simp)

@[simp] theorem devSetN_pending (d : Nat) (l : List Byte) (s : State) : (devSetN d l s).pending = s.pending := by induction l generalizing d s with
  | nil => rfl
  | cons b r ih => simp [devSetN, ih]
@[simp] theorem devSetN_free (d : Nat) (l : List Byte) (s : State) : (devSetN d l s).free = s.free := by induction l generalizing d s with
  | nil => rfl
  | cons b r ih => simp [devSetN, ih]
@[simp] theorem devSetN_nextId (d : Nat) (l : List Byte) (s : State) : (devSetN d l s).nextId = s.nextId := by induction l generalizing d s with
  | nil => rfl
  | cons b r ih => simp [devSetN, ih]
@[simp] theorem devSetN_host (d : Nat) (l : List Byte) (s : State) : (devSetN d l s).host = s.host := by induction l generalizing d s with
  | nil => rfl
  | cons b r ih => simp [devSetN, ih]
@[simp] theorem devSetN_regs (d : Nat) (l : List Byte) (s : State) : (devSetN d l s).regs = s.regs := by induction l generalizing d s with
  | nil => rfl
  | cons b r ih => simp [devSetN, ih]
@[simp] theorem devSetN_dev (d : Nat) (l : List Byte) (s : State) : (devSetN d l s).dev = s.dev := by induction l generalizing d s with
  | nil => rfl
  | cons b r ih => simp [devSetN, ih]
@[simp] theorem devSetN_chart (d : Nat) (l : List Byte) (s : State) : (devSetN d l s).chart = s.chart := by induction l generalizing d s with
  | nil => rfl
  | cons b r ih => simp [devSetN, ih]
@[simp] theorem devSetN_queues (d : Nat) (l : List Byte) (s : State) : (devSetN d l s).queues = s.queues := by induction l generalizing d s with
  | nil => rfl
  | cons b r ih => simp [devSetN, ih]
@[simp] theorem devSetN_slots (d : Nat) (l : List Byte) (s : State) : (devSetN d l s).slots = s.slots := by induction l generalizing d s with
  | nil => rfl
  | cons b r ih => simp [devSetN, ih]
@[simp] theorem devSetN_conf (d : Nat) (l : List Byte) (s : State) : (devSetN d l s).conf = s.conf := by induction l generalizing d s with
  | nil => rfl
  | cons b r ih => simp [devSetN, ih]
@[simp] theorem devSetN_sync (d : Nat) (l : List Byte) (s : State) : (devSetN d l s).sync = s.sync := by induction l generalizing d s with
  | nil => rfl
  | cons b r ih => simp [devSetN, ih]
@[simp] theorem devSetN_ctxs (d : Nat) (l : List Byte) (s : State) : (devSetN d l s).ctxs = s.ctxs := by induction l generalizing d s with
  | nil => rfl
  | cons b r ih => simp [devSetN, ih]
@[simp] theorem devSetN_arrays (d : Nat) (l : List Byte) (s : State) : (devSetN d l s).arrays = s.arrays := by induction l generalizing d s with
  | nil => rfl
  | cons b r ih => simp [devSetN, ih]
@[simp] theorem devSetN_tokens (d : Nat) (l : List Byte) (s : State) : (devSetN d l s).tokens = s.tokens := by induction l generalizing d s with
  | nil => rfl
  | cons b r ih => simp [devSetN, ih]
@[simp] theorem devSetN_fab (d : Nat) (l : List Byte) (s : State) : (devSetN d l s).fab = s.fab := by induction l generalizing d s with
  | nil => rfl
  | cons b r ih => simp [devSetN, ih]
@[simp] theorem devSetN_grp (d : Nat) (l : List Byte) (s : State) : (devSetN d l s).grp = s.grp := by induction l generalizing d s with
  | nil => rfl
  | cons b r ih => simp [devSetN, ih]
@[simp] theorem devSetN_colls (d : Nat) (l : List Byte) (s : State) : (devSetN d l s).colls = s.colls := by induction l generalizing d s with
  | nil => rfl
  | cons b r ih => simp [devSetN, ih]
@[simp] theorem devSetN_fix (d : Nat) (l : List Byte) (s : State) : (devSetN d l s).fix = s.fix := by induction l generalizing d s with
  | nil => rfl
  | cons b r ih => simp [devSetN, ih]
@[simp] theorem devSetN_pow (d : Nat) (l : List Byte) (s : State) : (devSetN d l s).pow = s.pow := by induction l generalizing d s with
  | nil => rfl
  | cons b r ih => simp [devSetN, ih]
@[simp] theorem devSetN_board (d : Nat) (l : List Byte) (s : State) : (devSetN d l s).board = s.board := by induction l generalizing d s with
  | nil => rfl
  | cons b r ih => simp [devSetN, ih]
@[simp] theorem devSetN_mgmt (d : Nat) (l : List Byte) (s : State) : (devSetN d l s).mgmt = s.mgmt := by induction l generalizing d s with
  | nil => rfl
  | cons b r ih => simp [devSetN, ih]
@[simp] theorem devSetN_flash (d : Nat) (l : List Byte) (s : State) : (devSetN d l s).flash = s.flash := by induction l generalizing d s with
  | nil => rfl
  | cons b r ih => simp [devSetN, ih]
@[simp] theorem devSetN_test (d : Nat) (l : List Byte) (s : State) : (devSetN d l s).test = s.test := by induction l generalizing d s with
  | nil => rfl
  | cons b r ih => simp [devSetN, ih]
@[simp] theorem devSetN_bnd (d : Nat) (l : List Byte) (s : State) : (devSetN d l s).bnd = s.bnd := by induction l generalizing d s with
  | nil => rfl
  | cons b r ih => simp [devSetN, ih]

@[simp] theorem devWrite_pending (d : Nat) (l : List Byte) (s : State) : (devWrite d l s).pending = s.pending := by simp [devWrite]
@[simp] theorem devWrite_free (d : Nat) (l : List Byte) (s : State) : (devWrite d l s).free = s.free := by simp [devWrite]
@[simp] theorem devWrite_nextId (d : Nat) (l : List Byte) (s : State) : (devWrite d l s).nextId = s.nextId := by simp [devWrite]
@[simp] theorem devWrite_host (d : Nat) (l : List Byte) (s : State) : (devWrite d l s).host = s.host := by simp [devWrite]
@[simp] theorem devWrite_regs (d : Nat) (l : List Byte) (s : State) : (devWrite d l s).regs = s.regs := by simp [devWrite]
@[simp] theorem devWrite_dev (d : Nat) (l : List Byte) (s : State) : (devWrite d l s).dev = s.dev := by simp [devWrite]
@[simp] theorem devWrite_chart (d : Nat) (l : List Byte) (s : State) : (devWrite d l s).chart = s.chart := by simp [devWrite]
@[simp] theorem devWrite_queues (d : Nat) (l : List Byte) (s : State) : (devWrite d l s).queues = s.queues := by simp [devWrite]
@[simp] theorem devWrite_slots (d : Nat) (l : List Byte) (s : State) : (devWrite d l s).slots = s.slots := by simp [devWrite]
@[simp] theorem devWrite_conf (d : Nat) (l : List Byte) (s : State) : (devWrite d l s).conf = s.conf := by simp [devWrite]
@[simp] theorem devWrite_sync (d : Nat) (l : List Byte) (s : State) : (devWrite d l s).sync = s.sync := by simp [devWrite]
@[simp] theorem devWrite_ctxs (d : Nat) (l : List Byte) (s : State) : (devWrite d l s).ctxs = s.ctxs := by simp [devWrite]
@[simp] theorem devWrite_arrays (d : Nat) (l : List Byte) (s : State) : (devWrite d l s).arrays = s.arrays := by simp [devWrite]
@[simp] theorem devWrite_tokens (d : Nat) (l : List Byte) (s : State) : (devWrite d l s).tokens = s.tokens := by simp [devWrite]
@[simp] theorem devWrite_fab (d : Nat) (l : List Byte) (s : State) : (devWrite d l s).fab = s.fab := by simp [devWrite]
@[simp] theorem devWrite_grp (d : Nat) (l : List Byte) (s : State) : (devWrite d l s).grp = s.grp := by simp [devWrite]
@[simp] theorem devWrite_colls (d : Nat) (l : List Byte) (s : State) : (devWrite d l s).colls = s.colls := by simp [devWrite]
@[simp] theorem devWrite_fix (d : Nat) (l : List Byte) (s : State) : (devWrite d l s).fix = s.fix := by simp [devWrite]
@[simp] theorem devWrite_pow (d : Nat) (l : List Byte) (s : State) : (devWrite d l s).pow = s.pow := by simp [devWrite]
@[simp] theorem devWrite_board (d : Nat) (l : List Byte) (s : State) : (devWrite d l s).board = s.board := by simp [devWrite]
@[simp] theorem devWrite_mgmt (d : Nat) (l : List Byte) (s : State) : (devWrite d l s).mgmt = s.mgmt := by simp [devWrite]
@[simp] theorem devWrite_flash (d : Nat) (l : List Byte) (s : State) : (devWrite d l s).flash = s.flash := by simp [devWrite]
@[simp] theorem devWrite_test (d : Nat) (l : List Byte) (s : State) : (devWrite d l s).test = s.test := by simp [devWrite]
@[simp] theorem devWrite_bnd (d : Nat) (l : List Byte) (s : State) : (devWrite d l s).bnd = s.bnd := by simp [devWrite]

@[simp] theorem countMem_pending (n : Nat) (f : MemCounts → MemCounts) (s : State) : (countMem n f s).pending = s.pending := rfl
@[simp] theorem countMem_free (n : Nat) (f : MemCounts → MemCounts) (s : State) : (countMem n f s).free = s.free := rfl
@[simp] theorem countMem_nextId (n : Nat) (f : MemCounts → MemCounts) (s : State) : (countMem n f s).nextId = s.nextId := rfl
@[simp] theorem countMem_host (n : Nat) (f : MemCounts → MemCounts) (s : State) : (countMem n f s).host = s.host := rfl
@[simp] theorem countMem_regs (n : Nat) (f : MemCounts → MemCounts) (s : State) : (countMem n f s).regs = s.regs := rfl
@[simp] theorem countMem_dev (n : Nat) (f : MemCounts → MemCounts) (s : State) : (countMem n f s).dev = s.dev := rfl
@[simp] theorem countMem_chart (n : Nat) (f : MemCounts → MemCounts) (s : State) : (countMem n f s).chart = s.chart := rfl
@[simp] theorem countMem_queues (n : Nat) (f : MemCounts → MemCounts) (s : State) : (countMem n f s).queues = s.queues := rfl
@[simp] theorem countMem_slots (n : Nat) (f : MemCounts → MemCounts) (s : State) : (countMem n f s).slots = s.slots := rfl
@[simp] theorem countMem_conf (n : Nat) (f : MemCounts → MemCounts) (s : State) : (countMem n f s).conf = s.conf := rfl
@[simp] theorem countMem_sync (n : Nat) (f : MemCounts → MemCounts) (s : State) : (countMem n f s).sync = s.sync := rfl
@[simp] theorem countMem_ctxs (n : Nat) (f : MemCounts → MemCounts) (s : State) : (countMem n f s).ctxs = s.ctxs := rfl
@[simp] theorem countMem_arrays (n : Nat) (f : MemCounts → MemCounts) (s : State) : (countMem n f s).arrays = s.arrays := rfl
@[simp] theorem countMem_tokens (n : Nat) (f : MemCounts → MemCounts) (s : State) : (countMem n f s).tokens = s.tokens := rfl
@[simp] theorem countMem_fab (n : Nat) (f : MemCounts → MemCounts) (s : State) : (countMem n f s).fab = s.fab := rfl
@[simp] theorem countMem_grp (n : Nat) (f : MemCounts → MemCounts) (s : State) : (countMem n f s).grp = s.grp := rfl
@[simp] theorem countMem_colls (n : Nat) (f : MemCounts → MemCounts) (s : State) : (countMem n f s).colls = s.colls := rfl
@[simp] theorem countMem_fix (n : Nat) (f : MemCounts → MemCounts) (s : State) : (countMem n f s).fix = s.fix := rfl
@[simp] theorem countMem_pow (n : Nat) (f : MemCounts → MemCounts) (s : State) : (countMem n f s).pow = s.pow := rfl
@[simp] theorem countMem_board (n : Nat) (f : MemCounts → MemCounts) (s : State) : (countMem n f s).board = s.board := rfl
@[simp] theorem countMem_mgmt (n : Nat) (f : MemCounts → MemCounts) (s : State) : (countMem n f s).mgmt = s.mgmt := rfl
@[simp] theorem countMem_flash (n : Nat) (f : MemCounts → MemCounts) (s : State) : (countMem n f s).flash = s.flash := rfl
@[simp] theorem countMem_test (n : Nat) (f : MemCounts → MemCounts) (s : State) : (countMem n f s).test = s.test := rfl
@[simp] theorem countMem_bnd (n : Nat) (f : MemCounts → MemCounts) (s : State) : (countMem n f s).bnd = s.bnd := rfl

@[simp] theorem poisonBlock_pending (b : Nat) (s : State) : (poisonBlock b s).pending = s.pending := rfl
@[simp] theorem poisonBlock_free (b : Nat) (s : State) : (poisonBlock b s).free = s.free := rfl
@[simp] theorem poisonBlock_nextId (b : Nat) (s : State) : (poisonBlock b s).nextId = s.nextId := rfl
@[simp] theorem poisonBlock_host (b : Nat) (s : State) : (poisonBlock b s).host = s.host := rfl
@[simp] theorem poisonBlock_regs (b : Nat) (s : State) : (poisonBlock b s).regs = s.regs := rfl
@[simp] theorem poisonBlock_dev (b : Nat) (s : State) : (poisonBlock b s).dev = s.dev := rfl
@[simp] theorem poisonBlock_chart (b : Nat) (s : State) : (poisonBlock b s).chart = s.chart := rfl
@[simp] theorem poisonBlock_queues (b : Nat) (s : State) : (poisonBlock b s).queues = s.queues := rfl
@[simp] theorem poisonBlock_slots (b : Nat) (s : State) : (poisonBlock b s).slots = s.slots := rfl
@[simp] theorem poisonBlock_conf (b : Nat) (s : State) : (poisonBlock b s).conf = s.conf := rfl
@[simp] theorem poisonBlock_sync (b : Nat) (s : State) : (poisonBlock b s).sync = s.sync := rfl
@[simp] theorem poisonBlock_ctxs (b : Nat) (s : State) : (poisonBlock b s).ctxs = s.ctxs := rfl
@[simp] theorem poisonBlock_arrays (b : Nat) (s : State) : (poisonBlock b s).arrays = s.arrays := rfl
@[simp] theorem poisonBlock_tokens (b : Nat) (s : State) : (poisonBlock b s).tokens = s.tokens := rfl
@[simp] theorem poisonBlock_fab (b : Nat) (s : State) : (poisonBlock b s).fab = s.fab := rfl
@[simp] theorem poisonBlock_grp (b : Nat) (s : State) : (poisonBlock b s).grp = s.grp := rfl
@[simp] theorem poisonBlock_colls (b : Nat) (s : State) : (poisonBlock b s).colls = s.colls := rfl
@[simp] theorem poisonBlock_fix (b : Nat) (s : State) : (poisonBlock b s).fix = s.fix := rfl
@[simp] theorem poisonBlock_pow (b : Nat) (s : State) : (poisonBlock b s).pow = s.pow := rfl
@[simp] theorem poisonBlock_board (b : Nat) (s : State) : (poisonBlock b s).board = s.board := rfl
@[simp] theorem poisonBlock_mgmt (b : Nat) (s : State) : (poisonBlock b s).mgmt = s.mgmt := rfl
@[simp] theorem poisonBlock_flash (b : Nat) (s : State) : (poisonBlock b s).flash = s.flash := rfl
@[simp] theorem poisonBlock_test (b : Nat) (s : State) : (poisonBlock b s).test = s.test := rfl
@[simp] theorem poisonBlock_bnd (b : Nat) (s : State) : (poisonBlock b s).bnd = s.bnd := rfl

@[simp] theorem placeLine_pending (k : Nat) (d : Bool) (s : State) : (placeLine k d s).pending = s.pending := by unfold placeLine freshValue; dsimp only; split <;> rfl
@[simp] theorem placeLine_nextId (k : Nat) (d : Bool) (s : State) : (placeLine k d s).nextId = s.nextId := by unfold placeLine freshValue; dsimp only; split <;> rfl
@[simp] theorem placeLine_host (k : Nat) (d : Bool) (s : State) : (placeLine k d s).host = s.host := by unfold placeLine freshValue; dsimp only; split <;> rfl
@[simp] theorem placeLine_regs (k : Nat) (d : Bool) (s : State) : (placeLine k d s).regs = s.regs := by unfold placeLine freshValue; dsimp only; split <;> rfl
@[simp] theorem placeLine_dev (k : Nat) (d : Bool) (s : State) : (placeLine k d s).dev = s.dev := by unfold placeLine freshValue; dsimp only; split <;> rfl
@[simp] theorem placeLine_chart (k : Nat) (d : Bool) (s : State) : (placeLine k d s).chart = s.chart := by unfold placeLine freshValue; dsimp only; split <;> rfl
@[simp] theorem placeLine_queues (k : Nat) (d : Bool) (s : State) : (placeLine k d s).queues = s.queues := by unfold placeLine freshValue; dsimp only; split <;> rfl
@[simp] theorem placeLine_slots (k : Nat) (d : Bool) (s : State) : (placeLine k d s).slots = s.slots := by unfold placeLine freshValue; dsimp only; split <;> rfl
@[simp] theorem placeLine_conf (k : Nat) (d : Bool) (s : State) : (placeLine k d s).conf = s.conf := by unfold placeLine freshValue; dsimp only; split <;> rfl
@[simp] theorem placeLine_sync (k : Nat) (d : Bool) (s : State) : (placeLine k d s).sync = s.sync := by unfold placeLine freshValue; dsimp only; split <;> rfl
@[simp] theorem placeLine_ctxs (k : Nat) (d : Bool) (s : State) : (placeLine k d s).ctxs = s.ctxs := by unfold placeLine freshValue; dsimp only; split <;> rfl
@[simp] theorem placeLine_arrays (k : Nat) (d : Bool) (s : State) : (placeLine k d s).arrays = s.arrays := by unfold placeLine freshValue; dsimp only; split <;> rfl
@[simp] theorem placeLine_tokens (k : Nat) (d : Bool) (s : State) : (placeLine k d s).tokens = s.tokens := by unfold placeLine freshValue; dsimp only; split <;> rfl
@[simp] theorem placeLine_fab (k : Nat) (d : Bool) (s : State) : (placeLine k d s).fab = s.fab := by unfold placeLine freshValue; dsimp only; split <;> rfl
@[simp] theorem placeLine_grp (k : Nat) (d : Bool) (s : State) : (placeLine k d s).grp = s.grp := by unfold placeLine freshValue; dsimp only; split <;> rfl
@[simp] theorem placeLine_colls (k : Nat) (d : Bool) (s : State) : (placeLine k d s).colls = s.colls := by unfold placeLine freshValue; dsimp only; split <;> rfl
@[simp] theorem placeLine_fix (k : Nat) (d : Bool) (s : State) : (placeLine k d s).fix = s.fix := by unfold placeLine freshValue; dsimp only; split <;> rfl
@[simp] theorem placeLine_pow (k : Nat) (d : Bool) (s : State) : (placeLine k d s).pow = s.pow := by unfold placeLine freshValue; dsimp only; split <;> rfl
@[simp] theorem placeLine_board (k : Nat) (d : Bool) (s : State) : (placeLine k d s).board = s.board := by unfold placeLine freshValue; dsimp only; split <;> rfl
@[simp] theorem placeLine_mgmt (k : Nat) (d : Bool) (s : State) : (placeLine k d s).mgmt = s.mgmt := by unfold placeLine freshValue; dsimp only; split <;> rfl
@[simp] theorem placeLine_flash (k : Nat) (d : Bool) (s : State) : (placeLine k d s).flash = s.flash := by unfold placeLine freshValue; dsimp only; split <;> rfl
@[simp] theorem placeLine_test (k : Nat) (d : Bool) (s : State) : (placeLine k d s).test = s.test := by unfold placeLine freshValue; dsimp only; split <;> rfl
@[simp] theorem placeLine_bnd (k : Nat) (d : Bool) (s : State) : (placeLine k d s).bnd = s.bnd := by unfold placeLine freshValue; dsimp only; split <;> rfl

@[simp] theorem touchLine_pending (a w : Bool) (k : Nat) (s : State) : (touchLine a w k s).pending = s.pending := by unfold touchLine; (repeat' split) <;> simp
@[simp] theorem touchLine_nextId (a w : Bool) (k : Nat) (s : State) : (touchLine a w k s).nextId = s.nextId := by unfold touchLine; (repeat' split) <;> simp
@[simp] theorem touchLine_host (a w : Bool) (k : Nat) (s : State) : (touchLine a w k s).host = s.host := by unfold touchLine; (repeat' split) <;> simp
@[simp] theorem touchLine_regs (a w : Bool) (k : Nat) (s : State) : (touchLine a w k s).regs = s.regs := by unfold touchLine; (repeat' split) <;> simp
@[simp] theorem touchLine_dev (a w : Bool) (k : Nat) (s : State) : (touchLine a w k s).dev = s.dev := by unfold touchLine; (repeat' split) <;> simp
@[simp] theorem touchLine_chart (a w : Bool) (k : Nat) (s : State) : (touchLine a w k s).chart = s.chart := by unfold touchLine; (repeat' split) <;> simp
@[simp] theorem touchLine_queues (a w : Bool) (k : Nat) (s : State) : (touchLine a w k s).queues = s.queues := by unfold touchLine; (repeat' split) <;> simp
@[simp] theorem touchLine_slots (a w : Bool) (k : Nat) (s : State) : (touchLine a w k s).slots = s.slots := by unfold touchLine; (repeat' split) <;> simp
@[simp] theorem touchLine_conf (a w : Bool) (k : Nat) (s : State) : (touchLine a w k s).conf = s.conf := by unfold touchLine; (repeat' split) <;> simp
@[simp] theorem touchLine_sync (a w : Bool) (k : Nat) (s : State) : (touchLine a w k s).sync = s.sync := by unfold touchLine; (repeat' split) <;> simp
@[simp] theorem touchLine_ctxs (a w : Bool) (k : Nat) (s : State) : (touchLine a w k s).ctxs = s.ctxs := by unfold touchLine; (repeat' split) <;> simp
@[simp] theorem touchLine_arrays (a w : Bool) (k : Nat) (s : State) : (touchLine a w k s).arrays = s.arrays := by unfold touchLine; (repeat' split) <;> simp
@[simp] theorem touchLine_tokens (a w : Bool) (k : Nat) (s : State) : (touchLine a w k s).tokens = s.tokens := by unfold touchLine; (repeat' split) <;> simp
@[simp] theorem touchLine_fab (a w : Bool) (k : Nat) (s : State) : (touchLine a w k s).fab = s.fab := by unfold touchLine; (repeat' split) <;> simp
@[simp] theorem touchLine_grp (a w : Bool) (k : Nat) (s : State) : (touchLine a w k s).grp = s.grp := by unfold touchLine; (repeat' split) <;> simp
@[simp] theorem touchLine_colls (a w : Bool) (k : Nat) (s : State) : (touchLine a w k s).colls = s.colls := by unfold touchLine; (repeat' split) <;> simp
@[simp] theorem touchLine_fix (a w : Bool) (k : Nat) (s : State) : (touchLine a w k s).fix = s.fix := by unfold touchLine; (repeat' split) <;> simp
@[simp] theorem touchLine_pow (a w : Bool) (k : Nat) (s : State) : (touchLine a w k s).pow = s.pow := by unfold touchLine; (repeat' split) <;> simp
@[simp] theorem touchLine_board (a w : Bool) (k : Nat) (s : State) : (touchLine a w k s).board = s.board := by unfold touchLine; (repeat' split) <;> simp
@[simp] theorem touchLine_mgmt (a w : Bool) (k : Nat) (s : State) : (touchLine a w k s).mgmt = s.mgmt := by unfold touchLine; (repeat' split) <;> simp
@[simp] theorem touchLine_flash (a w : Bool) (k : Nat) (s : State) : (touchLine a w k s).flash = s.flash := by unfold touchLine; (repeat' split) <;> simp
@[simp] theorem touchLine_test (a w : Bool) (k : Nat) (s : State) : (touchLine a w k s).test = s.test := by unfold touchLine; (repeat' split) <;> simp
@[simp] theorem touchLine_bnd (a w : Bool) (k : Nat) (s : State) : (touchLine a w k s).bnd = s.bnd := by unfold touchLine; (repeat' split) <;> simp

@[simp] theorem touchLines_pending (a w : Bool) (d n : Nat) (s : State) : (touchLines a w d n s).pending = s.pending := by
  unfold touchLines; split
  · exact foldl_keeps _ (fun t : State => t.pending) (by simp) _ _
  · rfl
@[simp] theorem touchLines_nextId (a w : Bool) (d n : Nat) (s : State) : (touchLines a w d n s).nextId = s.nextId := by
  unfold touchLines; split
  · exact foldl_keeps _ (fun t : State => t.nextId) (by simp) _ _
  · rfl
@[simp] theorem touchLines_host (a w : Bool) (d n : Nat) (s : State) : (touchLines a w d n s).host = s.host := by
  unfold touchLines; split
  · exact foldl_keeps _ (fun t : State => t.host) (by simp) _ _
  · rfl
@[simp] theorem touchLines_regs (a w : Bool) (d n : Nat) (s : State) : (touchLines a w d n s).regs = s.regs := by
  unfold touchLines; split
  · exact foldl_keeps _ (fun t : State => t.regs) (by simp) _ _
  · rfl
@[simp] theorem touchLines_dev (a w : Bool) (d n : Nat) (s : State) : (touchLines a w d n s).dev = s.dev := by
  unfold touchLines; split
  · exact foldl_keeps _ (fun t : State => t.dev) (by simp) _ _
  · rfl
@[simp] theorem touchLines_chart (a w : Bool) (d n : Nat) (s : State) : (touchLines a w d n s).chart = s.chart := by
  unfold touchLines; split
  · exact foldl_keeps _ (fun t : State => t.chart) (by simp) _ _
  · rfl
@[simp] theorem touchLines_queues (a w : Bool) (d n : Nat) (s : State) : (touchLines a w d n s).queues = s.queues := by
  unfold touchLines; split
  · exact foldl_keeps _ (fun t : State => t.queues) (by simp) _ _
  · rfl
@[simp] theorem touchLines_slots (a w : Bool) (d n : Nat) (s : State) : (touchLines a w d n s).slots = s.slots := by
  unfold touchLines; split
  · exact foldl_keeps _ (fun t : State => t.slots) (by simp) _ _
  · rfl
@[simp] theorem touchLines_conf (a w : Bool) (d n : Nat) (s : State) : (touchLines a w d n s).conf = s.conf := by
  unfold touchLines; split
  · exact foldl_keeps _ (fun t : State => t.conf) (by simp) _ _
  · rfl
@[simp] theorem touchLines_sync (a w : Bool) (d n : Nat) (s : State) : (touchLines a w d n s).sync = s.sync := by
  unfold touchLines; split
  · exact foldl_keeps _ (fun t : State => t.sync) (by simp) _ _
  · rfl
@[simp] theorem touchLines_ctxs (a w : Bool) (d n : Nat) (s : State) : (touchLines a w d n s).ctxs = s.ctxs := by
  unfold touchLines; split
  · exact foldl_keeps _ (fun t : State => t.ctxs) (by simp) _ _
  · rfl
@[simp] theorem touchLines_arrays (a w : Bool) (d n : Nat) (s : State) : (touchLines a w d n s).arrays = s.arrays := by
  unfold touchLines; split
  · exact foldl_keeps _ (fun t : State => t.arrays) (by simp) _ _
  · rfl
@[simp] theorem touchLines_tokens (a w : Bool) (d n : Nat) (s : State) : (touchLines a w d n s).tokens = s.tokens := by
  unfold touchLines; split
  · exact foldl_keeps _ (fun t : State => t.tokens) (by simp) _ _
  · rfl
@[simp] theorem touchLines_fab (a w : Bool) (d n : Nat) (s : State) : (touchLines a w d n s).fab = s.fab := by
  unfold touchLines; split
  · exact foldl_keeps _ (fun t : State => t.fab) (by simp) _ _
  · rfl
@[simp] theorem touchLines_grp (a w : Bool) (d n : Nat) (s : State) : (touchLines a w d n s).grp = s.grp := by
  unfold touchLines; split
  · exact foldl_keeps _ (fun t : State => t.grp) (by simp) _ _
  · rfl
@[simp] theorem touchLines_colls (a w : Bool) (d n : Nat) (s : State) : (touchLines a w d n s).colls = s.colls := by
  unfold touchLines; split
  · exact foldl_keeps _ (fun t : State => t.colls) (by simp) _ _
  · rfl
@[simp] theorem touchLines_fix (a w : Bool) (d n : Nat) (s : State) : (touchLines a w d n s).fix = s.fix := by
  unfold touchLines; split
  · exact foldl_keeps _ (fun t : State => t.fix) (by simp) _ _
  · rfl
@[simp] theorem touchLines_pow (a w : Bool) (d n : Nat) (s : State) : (touchLines a w d n s).pow = s.pow := by
  unfold touchLines; split
  · exact foldl_keeps _ (fun t : State => t.pow) (by simp) _ _
  · rfl
@[simp] theorem touchLines_board (a w : Bool) (d n : Nat) (s : State) : (touchLines a w d n s).board = s.board := by
  unfold touchLines; split
  · exact foldl_keeps _ (fun t : State => t.board) (by simp) _ _
  · rfl
@[simp] theorem touchLines_mgmt (a w : Bool) (d n : Nat) (s : State) : (touchLines a w d n s).mgmt = s.mgmt := by
  unfold touchLines; split
  · exact foldl_keeps _ (fun t : State => t.mgmt) (by simp) _ _
  · rfl
@[simp] theorem touchLines_flash (a w : Bool) (d n : Nat) (s : State) : (touchLines a w d n s).flash = s.flash := by
  unfold touchLines; split
  · exact foldl_keeps _ (fun t : State => t.flash) (by simp) _ _
  · rfl
@[simp] theorem touchLines_test (a w : Bool) (d n : Nat) (s : State) : (touchLines a w d n s).test = s.test := by
  unfold touchLines; split
  · exact foldl_keeps _ (fun t : State => t.test) (by simp) _ _
  · rfl
@[simp] theorem touchLines_bnd (a w : Bool) (d n : Nat) (s : State) : (touchLines a w d n s).bnd = s.bnd := by
  unfold touchLines; split
  · exact foldl_keeps _ (fun t : State => t.bnd) (by simp) _ _
  · rfl

@[simp] theorem holdStripe_pending (d n : Nat) (s : State) : (holdStripe d n s).pending = s.pending := rfl
@[simp] theorem holdStripe_free (d n : Nat) (s : State) : (holdStripe d n s).free = s.free := rfl
@[simp] theorem holdStripe_nextId (d n : Nat) (s : State) : (holdStripe d n s).nextId = s.nextId := rfl
@[simp] theorem holdStripe_host (d n : Nat) (s : State) : (holdStripe d n s).host = s.host := rfl
@[simp] theorem holdStripe_regs (d n : Nat) (s : State) : (holdStripe d n s).regs = s.regs := rfl
@[simp] theorem holdStripe_dev (d n : Nat) (s : State) : (holdStripe d n s).dev = s.dev := rfl
@[simp] theorem holdStripe_chart (d n : Nat) (s : State) : (holdStripe d n s).chart = s.chart := rfl
@[simp] theorem holdStripe_queues (d n : Nat) (s : State) : (holdStripe d n s).queues = s.queues := rfl
@[simp] theorem holdStripe_slots (d n : Nat) (s : State) : (holdStripe d n s).slots = s.slots := rfl
@[simp] theorem holdStripe_conf (d n : Nat) (s : State) : (holdStripe d n s).conf = s.conf := rfl
@[simp] theorem holdStripe_sync (d n : Nat) (s : State) : (holdStripe d n s).sync = s.sync := rfl
@[simp] theorem holdStripe_ctxs (d n : Nat) (s : State) : (holdStripe d n s).ctxs = s.ctxs := rfl
@[simp] theorem holdStripe_arrays (d n : Nat) (s : State) : (holdStripe d n s).arrays = s.arrays := rfl
@[simp] theorem holdStripe_tokens (d n : Nat) (s : State) : (holdStripe d n s).tokens = s.tokens := rfl
@[simp] theorem holdStripe_fab (d n : Nat) (s : State) : (holdStripe d n s).fab = s.fab := rfl
@[simp] theorem holdStripe_grp (d n : Nat) (s : State) : (holdStripe d n s).grp = s.grp := rfl
@[simp] theorem holdStripe_colls (d n : Nat) (s : State) : (holdStripe d n s).colls = s.colls := rfl
@[simp] theorem holdStripe_fix (d n : Nat) (s : State) : (holdStripe d n s).fix = s.fix := rfl
@[simp] theorem holdStripe_pow (d n : Nat) (s : State) : (holdStripe d n s).pow = s.pow := rfl
@[simp] theorem holdStripe_board (d n : Nat) (s : State) : (holdStripe d n s).board = s.board := rfl
@[simp] theorem holdStripe_mgmt (d n : Nat) (s : State) : (holdStripe d n s).mgmt = s.mgmt := rfl
@[simp] theorem holdStripe_flash (d n : Nat) (s : State) : (holdStripe d n s).flash = s.flash := rfl
@[simp] theorem holdStripe_test (d n : Nat) (s : State) : (holdStripe d n s).test = s.test := rfl
@[simp] theorem holdStripe_bnd (d n : Nat) (s : State) : (holdStripe d n s).bnd = s.bnd := rfl

@[simp] theorem devPut_pending (a : Bool) (d : Nat) (l : List Byte) (s : State) : (devPut a d l s).pending = s.pending := by simp [devPut]
@[simp] theorem devPut_nextId (a : Bool) (d : Nat) (l : List Byte) (s : State) : (devPut a d l s).nextId = s.nextId := by simp [devPut]
@[simp] theorem devPut_host (a : Bool) (d : Nat) (l : List Byte) (s : State) : (devPut a d l s).host = s.host := by simp [devPut]
@[simp] theorem devPut_regs (a : Bool) (d : Nat) (l : List Byte) (s : State) : (devPut a d l s).regs = s.regs := by simp [devPut]
@[simp] theorem devPut_dev (a : Bool) (d : Nat) (l : List Byte) (s : State) : (devPut a d l s).dev = s.dev := by simp [devPut]
@[simp] theorem devPut_chart (a : Bool) (d : Nat) (l : List Byte) (s : State) : (devPut a d l s).chart = s.chart := by simp [devPut]
@[simp] theorem devPut_queues (a : Bool) (d : Nat) (l : List Byte) (s : State) : (devPut a d l s).queues = s.queues := by simp [devPut]
@[simp] theorem devPut_slots (a : Bool) (d : Nat) (l : List Byte) (s : State) : (devPut a d l s).slots = s.slots := by simp [devPut]
@[simp] theorem devPut_conf (a : Bool) (d : Nat) (l : List Byte) (s : State) : (devPut a d l s).conf = s.conf := by simp [devPut]
@[simp] theorem devPut_sync (a : Bool) (d : Nat) (l : List Byte) (s : State) : (devPut a d l s).sync = s.sync := by simp [devPut]
@[simp] theorem devPut_ctxs (a : Bool) (d : Nat) (l : List Byte) (s : State) : (devPut a d l s).ctxs = s.ctxs := by simp [devPut]
@[simp] theorem devPut_arrays (a : Bool) (d : Nat) (l : List Byte) (s : State) : (devPut a d l s).arrays = s.arrays := by simp [devPut]
@[simp] theorem devPut_tokens (a : Bool) (d : Nat) (l : List Byte) (s : State) : (devPut a d l s).tokens = s.tokens := by simp [devPut]
@[simp] theorem devPut_fab (a : Bool) (d : Nat) (l : List Byte) (s : State) : (devPut a d l s).fab = s.fab := by simp [devPut]
@[simp] theorem devPut_grp (a : Bool) (d : Nat) (l : List Byte) (s : State) : (devPut a d l s).grp = s.grp := by simp [devPut]
@[simp] theorem devPut_colls (a : Bool) (d : Nat) (l : List Byte) (s : State) : (devPut a d l s).colls = s.colls := by simp [devPut]
@[simp] theorem devPut_fix (a : Bool) (d : Nat) (l : List Byte) (s : State) : (devPut a d l s).fix = s.fix := by simp [devPut]
@[simp] theorem devPut_pow (a : Bool) (d : Nat) (l : List Byte) (s : State) : (devPut a d l s).pow = s.pow := by simp [devPut]
@[simp] theorem devPut_board (a : Bool) (d : Nat) (l : List Byte) (s : State) : (devPut a d l s).board = s.board := by simp [devPut]
@[simp] theorem devPut_mgmt (a : Bool) (d : Nat) (l : List Byte) (s : State) : (devPut a d l s).mgmt = s.mgmt := by simp [devPut]
@[simp] theorem devPut_flash (a : Bool) (d : Nat) (l : List Byte) (s : State) : (devPut a d l s).flash = s.flash := by simp [devPut]
@[simp] theorem devPut_test (a : Bool) (d : Nat) (l : List Byte) (s : State) : (devPut a d l s).test = s.test := by simp [devPut]
@[simp] theorem devPut_bnd (a : Bool) (d : Nat) (l : List Byte) (s : State) : (devPut a d l s).bnd = s.bnd := by simp [devPut]

@[simp] theorem devStore_pending (d : Nat) (l : List Byte) (s : State) : (devStore d l s).pending = s.pending := by simp [devStore]
@[simp] theorem devStore_nextId (d : Nat) (l : List Byte) (s : State) : (devStore d l s).nextId = s.nextId := by simp [devStore]
@[simp] theorem devStore_host (d : Nat) (l : List Byte) (s : State) : (devStore d l s).host = s.host := by simp [devStore]
@[simp] theorem devStore_regs (d : Nat) (l : List Byte) (s : State) : (devStore d l s).regs = s.regs := by simp [devStore]
@[simp] theorem devStore_dev (d : Nat) (l : List Byte) (s : State) : (devStore d l s).dev = s.dev := by simp [devStore]
@[simp] theorem devStore_chart (d : Nat) (l : List Byte) (s : State) : (devStore d l s).chart = s.chart := by simp [devStore]
@[simp] theorem devStore_queues (d : Nat) (l : List Byte) (s : State) : (devStore d l s).queues = s.queues := by simp [devStore]
@[simp] theorem devStore_slots (d : Nat) (l : List Byte) (s : State) : (devStore d l s).slots = s.slots := by simp [devStore]
@[simp] theorem devStore_conf (d : Nat) (l : List Byte) (s : State) : (devStore d l s).conf = s.conf := by simp [devStore]
@[simp] theorem devStore_sync (d : Nat) (l : List Byte) (s : State) : (devStore d l s).sync = s.sync := by simp [devStore]
@[simp] theorem devStore_ctxs (d : Nat) (l : List Byte) (s : State) : (devStore d l s).ctxs = s.ctxs := by simp [devStore]
@[simp] theorem devStore_arrays (d : Nat) (l : List Byte) (s : State) : (devStore d l s).arrays = s.arrays := by simp [devStore]
@[simp] theorem devStore_tokens (d : Nat) (l : List Byte) (s : State) : (devStore d l s).tokens = s.tokens := by simp [devStore]
@[simp] theorem devStore_fab (d : Nat) (l : List Byte) (s : State) : (devStore d l s).fab = s.fab := by simp [devStore]
@[simp] theorem devStore_grp (d : Nat) (l : List Byte) (s : State) : (devStore d l s).grp = s.grp := by simp [devStore]
@[simp] theorem devStore_colls (d : Nat) (l : List Byte) (s : State) : (devStore d l s).colls = s.colls := by simp [devStore]
@[simp] theorem devStore_fix (d : Nat) (l : List Byte) (s : State) : (devStore d l s).fix = s.fix := by simp [devStore]
@[simp] theorem devStore_pow (d : Nat) (l : List Byte) (s : State) : (devStore d l s).pow = s.pow := by simp [devStore]
@[simp] theorem devStore_board (d : Nat) (l : List Byte) (s : State) : (devStore d l s).board = s.board := by simp [devStore]
@[simp] theorem devStore_mgmt (d : Nat) (l : List Byte) (s : State) : (devStore d l s).mgmt = s.mgmt := by simp [devStore]
@[simp] theorem devStore_flash (d : Nat) (l : List Byte) (s : State) : (devStore d l s).flash = s.flash := by simp [devStore]
@[simp] theorem devStore_test (d : Nat) (l : List Byte) (s : State) : (devStore d l s).test = s.test := by simp [devStore]
@[simp] theorem devStore_bnd (d : Nat) (l : List Byte) (s : State) : (devStore d l s).bnd = s.bnd := by simp [devStore]


@[simp] theorem hostWrite_pending (a : Nat) (l : List Byte) (s : State) : (hostWrite a l s).pending = s.pending := rfl
@[simp] theorem hostWrite_free (a : Nat) (l : List Byte) (s : State) : (hostWrite a l s).free = s.free := rfl
@[simp] theorem hostWrite_nextId (a : Nat) (l : List Byte) (s : State) : (hostWrite a l s).nextId = s.nextId := rfl
@[simp] theorem hostWrite_regs (a : Nat) (l : List Byte) (s : State) : (hostWrite a l s).regs = s.regs := rfl
@[simp] theorem hostWrite_dev (a : Nat) (l : List Byte) (s : State) : (hostWrite a l s).dev = s.dev := rfl
@[simp] theorem hostWrite_chart (a : Nat) (l : List Byte) (s : State) : (hostWrite a l s).chart = s.chart := rfl
@[simp] theorem hostWrite_queues (a : Nat) (l : List Byte) (s : State) : (hostWrite a l s).queues = s.queues := rfl
@[simp] theorem hostWrite_slots (a : Nat) (l : List Byte) (s : State) : (hostWrite a l s).slots = s.slots := rfl
@[simp] theorem hostWrite_conf (a : Nat) (l : List Byte) (s : State) : (hostWrite a l s).conf = s.conf := rfl
@[simp] theorem hostWrite_mem (a : Nat) (l : List Byte) (s : State) : (hostWrite a l s).mem = s.mem := rfl
@[simp] theorem hostWrite_sync (a : Nat) (l : List Byte) (s : State) : (hostWrite a l s).sync = s.sync := rfl
@[simp] theorem hostWrite_ctxs (a : Nat) (l : List Byte) (s : State) : (hostWrite a l s).ctxs = s.ctxs := rfl
@[simp] theorem hostWrite_arrays (a : Nat) (l : List Byte) (s : State) : (hostWrite a l s).arrays = s.arrays := rfl
@[simp] theorem hostWrite_tokens (a : Nat) (l : List Byte) (s : State) : (hostWrite a l s).tokens = s.tokens := rfl
@[simp] theorem hostWrite_fab (a : Nat) (l : List Byte) (s : State) : (hostWrite a l s).fab = s.fab := rfl
@[simp] theorem hostWrite_grp (a : Nat) (l : List Byte) (s : State) : (hostWrite a l s).grp = s.grp := rfl
@[simp] theorem hostWrite_colls (a : Nat) (l : List Byte) (s : State) : (hostWrite a l s).colls = s.colls := rfl
@[simp] theorem hostWrite_fix (a : Nat) (l : List Byte) (s : State) : (hostWrite a l s).fix = s.fix := rfl
@[simp] theorem hostWrite_pow (a : Nat) (l : List Byte) (s : State) : (hostWrite a l s).pow = s.pow := rfl
@[simp] theorem hostWrite_board (a : Nat) (l : List Byte) (s : State) : (hostWrite a l s).board = s.board := rfl
@[simp] theorem hostWrite_mgmt (a : Nat) (l : List Byte) (s : State) : (hostWrite a l s).mgmt = s.mgmt := rfl
@[simp] theorem hostWrite_flash (a : Nat) (l : List Byte) (s : State) : (hostWrite a l s).flash = s.flash := rfl
@[simp] theorem hostWrite_test (a : Nat) (l : List Byte) (s : State) : (hostWrite a l s).test = s.test := rfl
@[simp] theorem hostWrite_bnd (a : Nat) (l : List Byte) (s : State) : (hostWrite a l s).bnd = s.bnd := rfl

@[simp] theorem postTo_pending (r : Source) (c : Completion) (d : List Byte) (s : State) : (postTo r c d s).pending = s.pending := by unfold postTo replyBytes freshValue; split <;> rfl
@[simp] theorem postTo_nextId (r : Source) (c : Completion) (d : List Byte) (s : State) : (postTo r c d s).nextId = s.nextId := by unfold postTo replyBytes freshValue; split <;> rfl
@[simp] theorem postTo_host (r : Source) (c : Completion) (d : List Byte) (s : State) : (postTo r c d s).host = s.host := by unfold postTo replyBytes freshValue; split <;> rfl
@[simp] theorem postTo_regs (r : Source) (c : Completion) (d : List Byte) (s : State) : (postTo r c d s).regs = s.regs := by unfold postTo replyBytes freshValue; split <;> rfl
@[simp] theorem postTo_dev (r : Source) (c : Completion) (d : List Byte) (s : State) : (postTo r c d s).dev = s.dev := by unfold postTo replyBytes freshValue; split <;> rfl
@[simp] theorem postTo_chart (r : Source) (c : Completion) (d : List Byte) (s : State) : (postTo r c d s).chart = s.chart := by unfold postTo replyBytes freshValue; split <;> rfl
@[simp] theorem postTo_slots (r : Source) (c : Completion) (d : List Byte) (s : State) : (postTo r c d s).slots = s.slots := by unfold postTo replyBytes freshValue; split <;> rfl
@[simp] theorem postTo_conf (r : Source) (c : Completion) (d : List Byte) (s : State) : (postTo r c d s).conf = s.conf := by unfold postTo replyBytes freshValue; split <;> rfl
@[simp] theorem postTo_mem (r : Source) (c : Completion) (d : List Byte) (s : State) : (postTo r c d s).mem = s.mem := by unfold postTo replyBytes freshValue; split <;> rfl
@[simp] theorem postTo_sync (r : Source) (c : Completion) (d : List Byte) (s : State) : (postTo r c d s).sync = s.sync := by unfold postTo replyBytes freshValue; split <;> rfl
@[simp] theorem postTo_ctxs (r : Source) (c : Completion) (d : List Byte) (s : State) : (postTo r c d s).ctxs = s.ctxs := by unfold postTo replyBytes freshValue; split <;> rfl
@[simp] theorem postTo_arrays (r : Source) (c : Completion) (d : List Byte) (s : State) : (postTo r c d s).arrays = s.arrays := by unfold postTo replyBytes freshValue; split <;> rfl
@[simp] theorem postTo_tokens (r : Source) (c : Completion) (d : List Byte) (s : State) : (postTo r c d s).tokens = s.tokens := by unfold postTo replyBytes freshValue; split <;> rfl
@[simp] theorem postTo_grp (r : Source) (c : Completion) (d : List Byte) (s : State) : (postTo r c d s).grp = s.grp := by unfold postTo replyBytes freshValue; split <;> rfl
@[simp] theorem postTo_colls (r : Source) (c : Completion) (d : List Byte) (s : State) : (postTo r c d s).colls = s.colls := by unfold postTo replyBytes freshValue; split <;> rfl
@[simp] theorem postTo_fix (r : Source) (c : Completion) (d : List Byte) (s : State) : (postTo r c d s).fix = s.fix := by unfold postTo replyBytes freshValue; split <;> rfl
@[simp] theorem postTo_pow (r : Source) (c : Completion) (d : List Byte) (s : State) : (postTo r c d s).pow = s.pow := by unfold postTo replyBytes freshValue; split <;> rfl
@[simp] theorem postTo_board (r : Source) (c : Completion) (d : List Byte) (s : State) : (postTo r c d s).board = s.board := by unfold postTo replyBytes freshValue; split <;> rfl
@[simp] theorem postTo_flash (r : Source) (c : Completion) (d : List Byte) (s : State) : (postTo r c d s).flash = s.flash := by unfold postTo replyBytes freshValue; split <;> rfl
@[simp] theorem postTo_test (r : Source) (c : Completion) (d : List Byte) (s : State) : (postTo r c d s).test = s.test := by unfold postTo replyBytes freshValue; split <;> rfl
@[simp] theorem postTo_bnd (r : Source) (c : Completion) (d : List Byte) (s : State) : (postTo r c d s).bnd = s.bnd := by unfold postTo replyBytes freshValue; split <;> rfl

@[simp] theorem owe_pending (p : Packet) (s : State) : (owe p s).pending = s.pending := by unfold owe; split <;> rfl
@[simp] theorem owe_free (p : Packet) (s : State) : (owe p s).free = s.free := by unfold owe; split <;> rfl
@[simp] theorem owe_nextId (p : Packet) (s : State) : (owe p s).nextId = s.nextId := by unfold owe; split <;> rfl
@[simp] theorem owe_host (p : Packet) (s : State) : (owe p s).host = s.host := by unfold owe; split <;> rfl
@[simp] theorem owe_regs (p : Packet) (s : State) : (owe p s).regs = s.regs := by unfold owe; split <;> rfl
@[simp] theorem owe_dev (p : Packet) (s : State) : (owe p s).dev = s.dev := by unfold owe; split <;> rfl
@[simp] theorem owe_chart (p : Packet) (s : State) : (owe p s).chart = s.chart := by unfold owe; split <;> rfl
@[simp] theorem owe_slots (p : Packet) (s : State) : (owe p s).slots = s.slots := by unfold owe; split <;> rfl
@[simp] theorem owe_conf (p : Packet) (s : State) : (owe p s).conf = s.conf := by unfold owe; split <;> rfl
@[simp] theorem owe_mem (p : Packet) (s : State) : (owe p s).mem = s.mem := by unfold owe; split <;> rfl
@[simp] theorem owe_sync (p : Packet) (s : State) : (owe p s).sync = s.sync := by unfold owe; split <;> rfl
@[simp] theorem owe_ctxs (p : Packet) (s : State) : (owe p s).ctxs = s.ctxs := by unfold owe; split <;> rfl
@[simp] theorem owe_arrays (p : Packet) (s : State) : (owe p s).arrays = s.arrays := by unfold owe; split <;> rfl
@[simp] theorem owe_tokens (p : Packet) (s : State) : (owe p s).tokens = s.tokens := by unfold owe; split <;> rfl
@[simp] theorem owe_fab (p : Packet) (s : State) : (owe p s).fab = s.fab := by unfold owe; split <;> rfl
@[simp] theorem owe_grp (p : Packet) (s : State) : (owe p s).grp = s.grp := by unfold owe; split <;> rfl
@[simp] theorem owe_colls (p : Packet) (s : State) : (owe p s).colls = s.colls := by unfold owe; split <;> rfl
@[simp] theorem owe_fix (p : Packet) (s : State) : (owe p s).fix = s.fix := by unfold owe; split <;> rfl
@[simp] theorem owe_pow (p : Packet) (s : State) : (owe p s).pow = s.pow := by unfold owe; split <;> rfl
@[simp] theorem owe_board (p : Packet) (s : State) : (owe p s).board = s.board := by unfold owe; split <;> rfl
@[simp] theorem owe_flash (p : Packet) (s : State) : (owe p s).flash = s.flash := by unfold owe; split <;> rfl
@[simp] theorem owe_test (p : Packet) (s : State) : (owe p s).test = s.test := by unfold owe; split <;> rfl
@[simp] theorem owe_bnd (p : Packet) (s : State) : (owe p s).bnd = s.bnd := by unfold owe; split <;> rfl

@[simp] theorem complete_pending (p : Packet) (o st : Nat) (d : Option Nat) (v : Option (BitVec 64)) (n : Nat) (l : List Byte) (s : State) : (complete p o st d v n l s).pending = s.pending := by unfold complete orFree valueOrFree freshValue; cases d <;> cases v <;> simp
@[simp] theorem complete_nextId (p : Packet) (o st : Nat) (d : Option Nat) (v : Option (BitVec 64)) (n : Nat) (l : List Byte) (s : State) : (complete p o st d v n l s).nextId = s.nextId := by unfold complete orFree valueOrFree freshValue; cases d <;> cases v <;> simp
@[simp] theorem complete_host (p : Packet) (o st : Nat) (d : Option Nat) (v : Option (BitVec 64)) (n : Nat) (l : List Byte) (s : State) : (complete p o st d v n l s).host = s.host := by unfold complete orFree valueOrFree freshValue; cases d <;> cases v <;> simp
@[simp] theorem complete_regs (p : Packet) (o st : Nat) (d : Option Nat) (v : Option (BitVec 64)) (n : Nat) (l : List Byte) (s : State) : (complete p o st d v n l s).regs = s.regs := by unfold complete orFree valueOrFree freshValue; cases d <;> cases v <;> simp
@[simp] theorem complete_dev (p : Packet) (o st : Nat) (d : Option Nat) (v : Option (BitVec 64)) (n : Nat) (l : List Byte) (s : State) : (complete p o st d v n l s).dev = s.dev := by unfold complete orFree valueOrFree freshValue; cases d <;> cases v <;> simp
@[simp] theorem complete_chart (p : Packet) (o st : Nat) (d : Option Nat) (v : Option (BitVec 64)) (n : Nat) (l : List Byte) (s : State) : (complete p o st d v n l s).chart = s.chart := by unfold complete orFree valueOrFree freshValue; cases d <;> cases v <;> simp
@[simp] theorem complete_slots (p : Packet) (o st : Nat) (d : Option Nat) (v : Option (BitVec 64)) (n : Nat) (l : List Byte) (s : State) : (complete p o st d v n l s).slots = s.slots := by unfold complete orFree valueOrFree freshValue; cases d <;> cases v <;> simp
@[simp] theorem complete_conf (p : Packet) (o st : Nat) (d : Option Nat) (v : Option (BitVec 64)) (n : Nat) (l : List Byte) (s : State) : (complete p o st d v n l s).conf = s.conf := by unfold complete orFree valueOrFree freshValue; cases d <;> cases v <;> simp
@[simp] theorem complete_mem (p : Packet) (o st : Nat) (d : Option Nat) (v : Option (BitVec 64)) (n : Nat) (l : List Byte) (s : State) : (complete p o st d v n l s).mem = s.mem := by unfold complete orFree valueOrFree freshValue; cases d <;> cases v <;> simp
@[simp] theorem complete_sync (p : Packet) (o st : Nat) (d : Option Nat) (v : Option (BitVec 64)) (n : Nat) (l : List Byte) (s : State) : (complete p o st d v n l s).sync = s.sync := by unfold complete orFree valueOrFree freshValue; cases d <;> cases v <;> simp
@[simp] theorem complete_ctxs (p : Packet) (o st : Nat) (d : Option Nat) (v : Option (BitVec 64)) (n : Nat) (l : List Byte) (s : State) : (complete p o st d v n l s).ctxs = s.ctxs := by unfold complete orFree valueOrFree freshValue; cases d <;> cases v <;> simp
@[simp] theorem complete_arrays (p : Packet) (o st : Nat) (d : Option Nat) (v : Option (BitVec 64)) (n : Nat) (l : List Byte) (s : State) : (complete p o st d v n l s).arrays = s.arrays := by unfold complete orFree valueOrFree freshValue; cases d <;> cases v <;> simp
@[simp] theorem complete_tokens (p : Packet) (o st : Nat) (d : Option Nat) (v : Option (BitVec 64)) (n : Nat) (l : List Byte) (s : State) : (complete p o st d v n l s).tokens = s.tokens := by unfold complete orFree valueOrFree freshValue; cases d <;> cases v <;> simp
@[simp] theorem complete_grp (p : Packet) (o st : Nat) (d : Option Nat) (v : Option (BitVec 64)) (n : Nat) (l : List Byte) (s : State) : (complete p o st d v n l s).grp = s.grp := by unfold complete orFree valueOrFree freshValue; cases d <;> cases v <;> simp
@[simp] theorem complete_colls (p : Packet) (o st : Nat) (d : Option Nat) (v : Option (BitVec 64)) (n : Nat) (l : List Byte) (s : State) : (complete p o st d v n l s).colls = s.colls := by unfold complete orFree valueOrFree freshValue; cases d <;> cases v <;> simp
@[simp] theorem complete_fix (p : Packet) (o st : Nat) (d : Option Nat) (v : Option (BitVec 64)) (n : Nat) (l : List Byte) (s : State) : (complete p o st d v n l s).fix = s.fix := by unfold complete orFree valueOrFree freshValue; cases d <;> cases v <;> simp
@[simp] theorem complete_pow (p : Packet) (o st : Nat) (d : Option Nat) (v : Option (BitVec 64)) (n : Nat) (l : List Byte) (s : State) : (complete p o st d v n l s).pow = s.pow := by unfold complete orFree valueOrFree freshValue; cases d <;> cases v <;> simp
@[simp] theorem complete_board (p : Packet) (o st : Nat) (d : Option Nat) (v : Option (BitVec 64)) (n : Nat) (l : List Byte) (s : State) : (complete p o st d v n l s).board = s.board := by unfold complete orFree valueOrFree freshValue; cases d <;> cases v <;> simp
@[simp] theorem complete_flash (p : Packet) (o st : Nat) (d : Option Nat) (v : Option (BitVec 64)) (n : Nat) (l : List Byte) (s : State) : (complete p o st d v n l s).flash = s.flash := by unfold complete orFree valueOrFree freshValue; cases d <;> cases v <;> simp
@[simp] theorem complete_test (p : Packet) (o st : Nat) (d : Option Nat) (v : Option (BitVec 64)) (n : Nat) (l : List Byte) (s : State) : (complete p o st d v n l s).test = s.test := by unfold complete orFree valueOrFree freshValue; cases d <;> cases v <;> simp
@[simp] theorem complete_bnd (p : Packet) (o st : Nat) (d : Option Nat) (v : Option (BitVec 64)) (n : Nat) (l : List Byte) (s : State) : (complete p o st d v n l s).bnd = s.bnd := by unfold complete orFree valueOrFree freshValue; cases d <;> cases v <;> simp

@[simp] theorem completeWith_pending (p : Packet) (o st d : Nat) (s : State) : (completeWith p o st d s).pending = s.pending := by simp [completeWith]
@[simp] theorem completeWith_nextId (p : Packet) (o st d : Nat) (s : State) : (completeWith p o st d s).nextId = s.nextId := by simp [completeWith]
@[simp] theorem completeWith_host (p : Packet) (o st d : Nat) (s : State) : (completeWith p o st d s).host = s.host := by simp [completeWith]
@[simp] theorem completeWith_regs (p : Packet) (o st d : Nat) (s : State) : (completeWith p o st d s).regs = s.regs := by simp [completeWith]
@[simp] theorem completeWith_dev (p : Packet) (o st d : Nat) (s : State) : (completeWith p o st d s).dev = s.dev := by simp [completeWith]
@[simp] theorem completeWith_chart (p : Packet) (o st d : Nat) (s : State) : (completeWith p o st d s).chart = s.chart := by simp [completeWith]
@[simp] theorem completeWith_slots (p : Packet) (o st d : Nat) (s : State) : (completeWith p o st d s).slots = s.slots := by simp [completeWith]
@[simp] theorem completeWith_conf (p : Packet) (o st d : Nat) (s : State) : (completeWith p o st d s).conf = s.conf := by simp [completeWith]
@[simp] theorem completeWith_mem (p : Packet) (o st d : Nat) (s : State) : (completeWith p o st d s).mem = s.mem := by simp [completeWith]
@[simp] theorem completeWith_sync (p : Packet) (o st d : Nat) (s : State) : (completeWith p o st d s).sync = s.sync := by simp [completeWith]
@[simp] theorem completeWith_ctxs (p : Packet) (o st d : Nat) (s : State) : (completeWith p o st d s).ctxs = s.ctxs := by simp [completeWith]
@[simp] theorem completeWith_arrays (p : Packet) (o st d : Nat) (s : State) : (completeWith p o st d s).arrays = s.arrays := by simp [completeWith]
@[simp] theorem completeWith_tokens (p : Packet) (o st d : Nat) (s : State) : (completeWith p o st d s).tokens = s.tokens := by simp [completeWith]
@[simp] theorem completeWith_grp (p : Packet) (o st d : Nat) (s : State) : (completeWith p o st d s).grp = s.grp := by simp [completeWith]
@[simp] theorem completeWith_colls (p : Packet) (o st d : Nat) (s : State) : (completeWith p o st d s).colls = s.colls := by simp [completeWith]
@[simp] theorem completeWith_fix (p : Packet) (o st d : Nat) (s : State) : (completeWith p o st d s).fix = s.fix := by simp [completeWith]
@[simp] theorem completeWith_pow (p : Packet) (o st d : Nat) (s : State) : (completeWith p o st d s).pow = s.pow := by simp [completeWith]
@[simp] theorem completeWith_board (p : Packet) (o st d : Nat) (s : State) : (completeWith p o st d s).board = s.board := by simp [completeWith]
@[simp] theorem completeWith_flash (p : Packet) (o st d : Nat) (s : State) : (completeWith p o st d s).flash = s.flash := by simp [completeWith]
@[simp] theorem completeWith_test (p : Packet) (o st d : Nat) (s : State) : (completeWith p o st d s).test = s.test := by simp [completeWith]
@[simp] theorem completeWith_bnd (p : Packet) (o st d : Nat) (s : State) : (completeWith p o st d s).bnd = s.bnd := by simp [completeWith]

@[simp] theorem completeOpen_pending (p : Packet) (o st : Nat) (s : State) : (completeOpen p o st s).pending = s.pending := by simp [completeOpen]
@[simp] theorem completeOpen_nextId (p : Packet) (o st : Nat) (s : State) : (completeOpen p o st s).nextId = s.nextId := by simp [completeOpen]
@[simp] theorem completeOpen_host (p : Packet) (o st : Nat) (s : State) : (completeOpen p o st s).host = s.host := by simp [completeOpen]
@[simp] theorem completeOpen_regs (p : Packet) (o st : Nat) (s : State) : (completeOpen p o st s).regs = s.regs := by simp [completeOpen]
@[simp] theorem completeOpen_dev (p : Packet) (o st : Nat) (s : State) : (completeOpen p o st s).dev = s.dev := by simp [completeOpen]
@[simp] theorem completeOpen_chart (p : Packet) (o st : Nat) (s : State) : (completeOpen p o st s).chart = s.chart := by simp [completeOpen]
@[simp] theorem completeOpen_slots (p : Packet) (o st : Nat) (s : State) : (completeOpen p o st s).slots = s.slots := by simp [completeOpen]
@[simp] theorem completeOpen_conf (p : Packet) (o st : Nat) (s : State) : (completeOpen p o st s).conf = s.conf := by simp [completeOpen]
@[simp] theorem completeOpen_mem (p : Packet) (o st : Nat) (s : State) : (completeOpen p o st s).mem = s.mem := by simp [completeOpen]
@[simp] theorem completeOpen_sync (p : Packet) (o st : Nat) (s : State) : (completeOpen p o st s).sync = s.sync := by simp [completeOpen]
@[simp] theorem completeOpen_ctxs (p : Packet) (o st : Nat) (s : State) : (completeOpen p o st s).ctxs = s.ctxs := by simp [completeOpen]
@[simp] theorem completeOpen_arrays (p : Packet) (o st : Nat) (s : State) : (completeOpen p o st s).arrays = s.arrays := by simp [completeOpen]
@[simp] theorem completeOpen_tokens (p : Packet) (o st : Nat) (s : State) : (completeOpen p o st s).tokens = s.tokens := by simp [completeOpen]
@[simp] theorem completeOpen_grp (p : Packet) (o st : Nat) (s : State) : (completeOpen p o st s).grp = s.grp := by simp [completeOpen]
@[simp] theorem completeOpen_colls (p : Packet) (o st : Nat) (s : State) : (completeOpen p o st s).colls = s.colls := by simp [completeOpen]
@[simp] theorem completeOpen_fix (p : Packet) (o st : Nat) (s : State) : (completeOpen p o st s).fix = s.fix := by simp [completeOpen]
@[simp] theorem completeOpen_pow (p : Packet) (o st : Nat) (s : State) : (completeOpen p o st s).pow = s.pow := by simp [completeOpen]
@[simp] theorem completeOpen_board (p : Packet) (o st : Nat) (s : State) : (completeOpen p o st s).board = s.board := by simp [completeOpen]
@[simp] theorem completeOpen_flash (p : Packet) (o st : Nat) (s : State) : (completeOpen p o st s).flash = s.flash := by simp [completeOpen]
@[simp] theorem completeOpen_test (p : Packet) (o st : Nat) (s : State) : (completeOpen p o st s).test = s.test := by simp [completeOpen]
@[simp] theorem completeOpen_bnd (p : Packet) (o st : Nat) (s : State) : (completeOpen p o st s).bnd = s.bnd := by simp [completeOpen]

@[simp] theorem completeOk_pending (p : Packet) (o : Nat) (s : State) : (completeOk p o s).pending = s.pending := by simp [completeOk]
@[simp] theorem completeOk_nextId (p : Packet) (o : Nat) (s : State) : (completeOk p o s).nextId = s.nextId := by simp [completeOk]
@[simp] theorem completeOk_host (p : Packet) (o : Nat) (s : State) : (completeOk p o s).host = s.host := by simp [completeOk]
@[simp] theorem completeOk_regs (p : Packet) (o : Nat) (s : State) : (completeOk p o s).regs = s.regs := by simp [completeOk]
@[simp] theorem completeOk_dev (p : Packet) (o : Nat) (s : State) : (completeOk p o s).dev = s.dev := by simp [completeOk]
@[simp] theorem completeOk_chart (p : Packet) (o : Nat) (s : State) : (completeOk p o s).chart = s.chart := by simp [completeOk]
@[simp] theorem completeOk_slots (p : Packet) (o : Nat) (s : State) : (completeOk p o s).slots = s.slots := by simp [completeOk]
@[simp] theorem completeOk_conf (p : Packet) (o : Nat) (s : State) : (completeOk p o s).conf = s.conf := by simp [completeOk]
@[simp] theorem completeOk_mem (p : Packet) (o : Nat) (s : State) : (completeOk p o s).mem = s.mem := by simp [completeOk]
@[simp] theorem completeOk_sync (p : Packet) (o : Nat) (s : State) : (completeOk p o s).sync = s.sync := by simp [completeOk]
@[simp] theorem completeOk_ctxs (p : Packet) (o : Nat) (s : State) : (completeOk p o s).ctxs = s.ctxs := by simp [completeOk]
@[simp] theorem completeOk_arrays (p : Packet) (o : Nat) (s : State) : (completeOk p o s).arrays = s.arrays := by simp [completeOk]
@[simp] theorem completeOk_tokens (p : Packet) (o : Nat) (s : State) : (completeOk p o s).tokens = s.tokens := by simp [completeOk]
@[simp] theorem completeOk_grp (p : Packet) (o : Nat) (s : State) : (completeOk p o s).grp = s.grp := by simp [completeOk]
@[simp] theorem completeOk_colls (p : Packet) (o : Nat) (s : State) : (completeOk p o s).colls = s.colls := by simp [completeOk]
@[simp] theorem completeOk_fix (p : Packet) (o : Nat) (s : State) : (completeOk p o s).fix = s.fix := by simp [completeOk]
@[simp] theorem completeOk_pow (p : Packet) (o : Nat) (s : State) : (completeOk p o s).pow = s.pow := by simp [completeOk]
@[simp] theorem completeOk_board (p : Packet) (o : Nat) (s : State) : (completeOk p o s).board = s.board := by simp [completeOk]
@[simp] theorem completeOk_flash (p : Packet) (o : Nat) (s : State) : (completeOk p o s).flash = s.flash := by simp [completeOk]
@[simp] theorem completeOk_test (p : Packet) (o : Nat) (s : State) : (completeOk p o s).test = s.test := by simp [completeOk]
@[simp] theorem completeOk_bnd (p : Packet) (o : Nat) (s : State) : (completeOk p o s).bnd = s.bnd := by simp [completeOk]

@[simp] theorem queueError_pending (q c : Nat) (s : State) : (queueError q c s).pending = s.pending := by simp [queueError]
@[simp] theorem queueError_free (q c : Nat) (s : State) : (queueError q c s).free = s.free := by simp [queueError]
@[simp] theorem queueError_nextId (q c : Nat) (s : State) : (queueError q c s).nextId = s.nextId := by simp [queueError]
@[simp] theorem queueError_dev (q c : Nat) (s : State) : (queueError q c s).dev = s.dev := by simp [queueError]
@[simp] theorem queueError_chart (q c : Nat) (s : State) : (queueError q c s).chart = s.chart := by simp [queueError]
@[simp] theorem queueError_slots (q c : Nat) (s : State) : (queueError q c s).slots = s.slots := by simp [queueError]
@[simp] theorem queueError_conf (q c : Nat) (s : State) : (queueError q c s).conf = s.conf := by simp [queueError]
@[simp] theorem queueError_mem (q c : Nat) (s : State) : (queueError q c s).mem = s.mem := by simp [queueError]
@[simp] theorem queueError_sync (q c : Nat) (s : State) : (queueError q c s).sync = s.sync := by simp [queueError]
@[simp] theorem queueError_ctxs (q c : Nat) (s : State) : (queueError q c s).ctxs = s.ctxs := by simp [queueError]
@[simp] theorem queueError_arrays (q c : Nat) (s : State) : (queueError q c s).arrays = s.arrays := by simp [queueError]
@[simp] theorem queueError_tokens (q c : Nat) (s : State) : (queueError q c s).tokens = s.tokens := by simp [queueError]
@[simp] theorem queueError_fab (q c : Nat) (s : State) : (queueError q c s).fab = s.fab := by simp [queueError]
@[simp] theorem queueError_grp (q c : Nat) (s : State) : (queueError q c s).grp = s.grp := by simp [queueError]
@[simp] theorem queueError_colls (q c : Nat) (s : State) : (queueError q c s).colls = s.colls := by simp [queueError]
@[simp] theorem queueError_fix (q c : Nat) (s : State) : (queueError q c s).fix = s.fix := by simp [queueError]
@[simp] theorem queueError_pow (q c : Nat) (s : State) : (queueError q c s).pow = s.pow := by simp [queueError]
@[simp] theorem queueError_board (q c : Nat) (s : State) : (queueError q c s).board = s.board := by simp [queueError]
@[simp] theorem queueError_mgmt (q c : Nat) (s : State) : (queueError q c s).mgmt = s.mgmt := by simp [queueError]
@[simp] theorem queueError_flash (q c : Nat) (s : State) : (queueError q c s).flash = s.flash := by simp [queueError]
@[simp] theorem queueError_test (q c : Nat) (s : State) : (queueError q c s).test = s.test := by simp [queueError]
@[simp] theorem queueError_bnd (q c : Nat) (s : State) : (queueError q c s).bnd = s.bnd := by simp [queueError]

@[simp] theorem slotReady_pending (i st d : Nat) (l : List Byte) (s : State) : (slotReady i st d l s).pending = s.pending := by unfold slotReady; (repeat' split) <;> rfl
@[simp] theorem slotReady_free (i st d : Nat) (l : List Byte) (s : State) : (slotReady i st d l s).free = s.free := by unfold slotReady; (repeat' split) <;> rfl
@[simp] theorem slotReady_nextId (i st d : Nat) (l : List Byte) (s : State) : (slotReady i st d l s).nextId = s.nextId := by unfold slotReady; (repeat' split) <;> rfl
@[simp] theorem slotReady_host (i st d : Nat) (l : List Byte) (s : State) : (slotReady i st d l s).host = s.host := by unfold slotReady; (repeat' split) <;> rfl
@[simp] theorem slotReady_regs (i st d : Nat) (l : List Byte) (s : State) : (slotReady i st d l s).regs = s.regs := by unfold slotReady; (repeat' split) <;> rfl
@[simp] theorem slotReady_dev (i st d : Nat) (l : List Byte) (s : State) : (slotReady i st d l s).dev = s.dev := by unfold slotReady; (repeat' split) <;> rfl
@[simp] theorem slotReady_chart (i st d : Nat) (l : List Byte) (s : State) : (slotReady i st d l s).chart = s.chart := by unfold slotReady; (repeat' split) <;> rfl
@[simp] theorem slotReady_queues (i st d : Nat) (l : List Byte) (s : State) : (slotReady i st d l s).queues = s.queues := by unfold slotReady; (repeat' split) <;> rfl
@[simp] theorem slotReady_conf (i st d : Nat) (l : List Byte) (s : State) : (slotReady i st d l s).conf = s.conf := by unfold slotReady; (repeat' split) <;> rfl
@[simp] theorem slotReady_mem (i st d : Nat) (l : List Byte) (s : State) : (slotReady i st d l s).mem = s.mem := by unfold slotReady; (repeat' split) <;> rfl
@[simp] theorem slotReady_sync (i st d : Nat) (l : List Byte) (s : State) : (slotReady i st d l s).sync = s.sync := by unfold slotReady; (repeat' split) <;> rfl
@[simp] theorem slotReady_ctxs (i st d : Nat) (l : List Byte) (s : State) : (slotReady i st d l s).ctxs = s.ctxs := by unfold slotReady; (repeat' split) <;> rfl
@[simp] theorem slotReady_arrays (i st d : Nat) (l : List Byte) (s : State) : (slotReady i st d l s).arrays = s.arrays := by unfold slotReady; (repeat' split) <;> rfl
@[simp] theorem slotReady_tokens (i st d : Nat) (l : List Byte) (s : State) : (slotReady i st d l s).tokens = s.tokens := by unfold slotReady; (repeat' split) <;> rfl
@[simp] theorem slotReady_fab (i st d : Nat) (l : List Byte) (s : State) : (slotReady i st d l s).fab = s.fab := by unfold slotReady; (repeat' split) <;> rfl
@[simp] theorem slotReady_grp (i st d : Nat) (l : List Byte) (s : State) : (slotReady i st d l s).grp = s.grp := by unfold slotReady; (repeat' split) <;> rfl
@[simp] theorem slotReady_colls (i st d : Nat) (l : List Byte) (s : State) : (slotReady i st d l s).colls = s.colls := by unfold slotReady; (repeat' split) <;> rfl
@[simp] theorem slotReady_fix (i st d : Nat) (l : List Byte) (s : State) : (slotReady i st d l s).fix = s.fix := by unfold slotReady; (repeat' split) <;> rfl
@[simp] theorem slotReady_pow (i st d : Nat) (l : List Byte) (s : State) : (slotReady i st d l s).pow = s.pow := by unfold slotReady; (repeat' split) <;> rfl
@[simp] theorem slotReady_board (i st d : Nat) (l : List Byte) (s : State) : (slotReady i st d l s).board = s.board := by unfold slotReady; (repeat' split) <;> rfl
@[simp] theorem slotReady_mgmt (i st d : Nat) (l : List Byte) (s : State) : (slotReady i st d l s).mgmt = s.mgmt := by unfold slotReady; (repeat' split) <;> rfl
@[simp] theorem slotReady_flash (i st d : Nat) (l : List Byte) (s : State) : (slotReady i st d l s).flash = s.flash := by unfold slotReady; (repeat' split) <;> rfl
@[simp] theorem slotReady_test (i st d : Nat) (l : List Byte) (s : State) : (slotReady i st d l s).test = s.test := by unfold slotReady; (repeat' split) <;> rfl
@[simp] theorem slotReady_bnd (i st d : Nat) (l : List Byte) (s : State) : (slotReady i st d l s).bnd = s.bnd := by unfold slotReady; (repeat' split) <;> rfl

@[simp] theorem slotDrop_pending (i : Nat) (s : State) : (slotDrop i s).pending = s.pending := rfl
@[simp] theorem slotDrop_free (i : Nat) (s : State) : (slotDrop i s).free = s.free := rfl
@[simp] theorem slotDrop_nextId (i : Nat) (s : State) : (slotDrop i s).nextId = s.nextId := rfl
@[simp] theorem slotDrop_host (i : Nat) (s : State) : (slotDrop i s).host = s.host := rfl
@[simp] theorem slotDrop_regs (i : Nat) (s : State) : (slotDrop i s).regs = s.regs := rfl
@[simp] theorem slotDrop_dev (i : Nat) (s : State) : (slotDrop i s).dev = s.dev := rfl
@[simp] theorem slotDrop_chart (i : Nat) (s : State) : (slotDrop i s).chart = s.chart := rfl
@[simp] theorem slotDrop_queues (i : Nat) (s : State) : (slotDrop i s).queues = s.queues := rfl
@[simp] theorem slotDrop_conf (i : Nat) (s : State) : (slotDrop i s).conf = s.conf := rfl
@[simp] theorem slotDrop_mem (i : Nat) (s : State) : (slotDrop i s).mem = s.mem := rfl
@[simp] theorem slotDrop_sync (i : Nat) (s : State) : (slotDrop i s).sync = s.sync := rfl
@[simp] theorem slotDrop_ctxs (i : Nat) (s : State) : (slotDrop i s).ctxs = s.ctxs := rfl
@[simp] theorem slotDrop_arrays (i : Nat) (s : State) : (slotDrop i s).arrays = s.arrays := rfl
@[simp] theorem slotDrop_tokens (i : Nat) (s : State) : (slotDrop i s).tokens = s.tokens := rfl
@[simp] theorem slotDrop_fab (i : Nat) (s : State) : (slotDrop i s).fab = s.fab := rfl
@[simp] theorem slotDrop_grp (i : Nat) (s : State) : (slotDrop i s).grp = s.grp := rfl
@[simp] theorem slotDrop_colls (i : Nat) (s : State) : (slotDrop i s).colls = s.colls := rfl
@[simp] theorem slotDrop_fix (i : Nat) (s : State) : (slotDrop i s).fix = s.fix := rfl
@[simp] theorem slotDrop_pow (i : Nat) (s : State) : (slotDrop i s).pow = s.pow := rfl
@[simp] theorem slotDrop_board (i : Nat) (s : State) : (slotDrop i s).board = s.board := rfl
@[simp] theorem slotDrop_mgmt (i : Nat) (s : State) : (slotDrop i s).mgmt = s.mgmt := rfl
@[simp] theorem slotDrop_flash (i : Nat) (s : State) : (slotDrop i s).flash = s.flash := rfl
@[simp] theorem slotDrop_test (i : Nat) (s : State) : (slotDrop i s).test = s.test := rfl
@[simp] theorem slotDrop_bnd (i : Nat) (s : State) : (slotDrop i s).bnd = s.bnd := rfl

@[simp] theorem allocSlot_pending (p : Packet) (n : Nat) (s : State) : ((allocSlot p n s).2).pending = s.pending := by unfold allocSlot; split <;> rfl
@[simp] theorem allocSlot_free (p : Packet) (n : Nat) (s : State) : ((allocSlot p n s).2).free = s.free := by unfold allocSlot; split <;> rfl
@[simp] theorem allocSlot_nextId (p : Packet) (n : Nat) (s : State) : ((allocSlot p n s).2).nextId = s.nextId := by unfold allocSlot; split <;> rfl
@[simp] theorem allocSlot_host (p : Packet) (n : Nat) (s : State) : ((allocSlot p n s).2).host = s.host := by unfold allocSlot; split <;> rfl
@[simp] theorem allocSlot_regs (p : Packet) (n : Nat) (s : State) : ((allocSlot p n s).2).regs = s.regs := by unfold allocSlot; split <;> rfl
@[simp] theorem allocSlot_dev (p : Packet) (n : Nat) (s : State) : ((allocSlot p n s).2).dev = s.dev := by unfold allocSlot; split <;> rfl
@[simp] theorem allocSlot_chart (p : Packet) (n : Nat) (s : State) : ((allocSlot p n s).2).chart = s.chart := by unfold allocSlot; split <;> rfl
@[simp] theorem allocSlot_queues (p : Packet) (n : Nat) (s : State) : ((allocSlot p n s).2).queues = s.queues := by unfold allocSlot; split <;> rfl
@[simp] theorem allocSlot_conf (p : Packet) (n : Nat) (s : State) : ((allocSlot p n s).2).conf = s.conf := by unfold allocSlot; split <;> rfl
@[simp] theorem allocSlot_mem (p : Packet) (n : Nat) (s : State) : ((allocSlot p n s).2).mem = s.mem := by unfold allocSlot; split <;> rfl
@[simp] theorem allocSlot_sync (p : Packet) (n : Nat) (s : State) : ((allocSlot p n s).2).sync = s.sync := by unfold allocSlot; split <;> rfl
@[simp] theorem allocSlot_ctxs (p : Packet) (n : Nat) (s : State) : ((allocSlot p n s).2).ctxs = s.ctxs := by unfold allocSlot; split <;> rfl
@[simp] theorem allocSlot_arrays (p : Packet) (n : Nat) (s : State) : ((allocSlot p n s).2).arrays = s.arrays := by unfold allocSlot; split <;> rfl
@[simp] theorem allocSlot_tokens (p : Packet) (n : Nat) (s : State) : ((allocSlot p n s).2).tokens = s.tokens := by unfold allocSlot; split <;> rfl
@[simp] theorem allocSlot_fab (p : Packet) (n : Nat) (s : State) : ((allocSlot p n s).2).fab = s.fab := by unfold allocSlot; split <;> rfl
@[simp] theorem allocSlot_grp (p : Packet) (n : Nat) (s : State) : ((allocSlot p n s).2).grp = s.grp := by unfold allocSlot; split <;> rfl
@[simp] theorem allocSlot_colls (p : Packet) (n : Nat) (s : State) : ((allocSlot p n s).2).colls = s.colls := by unfold allocSlot; split <;> rfl
@[simp] theorem allocSlot_fix (p : Packet) (n : Nat) (s : State) : ((allocSlot p n s).2).fix = s.fix := by unfold allocSlot; split <;> rfl
@[simp] theorem allocSlot_pow (p : Packet) (n : Nat) (s : State) : ((allocSlot p n s).2).pow = s.pow := by unfold allocSlot; split <;> rfl
@[simp] theorem allocSlot_board (p : Packet) (n : Nat) (s : State) : ((allocSlot p n s).2).board = s.board := by unfold allocSlot; split <;> rfl
@[simp] theorem allocSlot_mgmt (p : Packet) (n : Nat) (s : State) : ((allocSlot p n s).2).mgmt = s.mgmt := by unfold allocSlot; split <;> rfl
@[simp] theorem allocSlot_flash (p : Packet) (n : Nat) (s : State) : ((allocSlot p n s).2).flash = s.flash := by unfold allocSlot; split <;> rfl
@[simp] theorem allocSlot_test (p : Packet) (n : Nat) (s : State) : ((allocSlot p n s).2).test = s.test := by unfold allocSlot; split <;> rfl
@[simp] theorem allocSlot_bnd (p : Packet) (n : Nat) (s : State) : ((allocSlot p n s).2).bnd = s.bnd := by unfold allocSlot; split <;> rfl

@[simp] theorem finishSlot_pending (p : Packet) (o i st : Nat) (l : List Byte) (s : State) : (finishSlot p o i st l s).pending = s.pending := by unfold finishSlot orFree freshValue; simp
@[simp] theorem finishSlot_nextId (p : Packet) (o i st : Nat) (l : List Byte) (s : State) : (finishSlot p o i st l s).nextId = s.nextId := by unfold finishSlot orFree freshValue; simp
@[simp] theorem finishSlot_host (p : Packet) (o i st : Nat) (l : List Byte) (s : State) : (finishSlot p o i st l s).host = s.host := by unfold finishSlot orFree freshValue; simp
@[simp] theorem finishSlot_regs (p : Packet) (o i st : Nat) (l : List Byte) (s : State) : (finishSlot p o i st l s).regs = s.regs := by unfold finishSlot orFree freshValue; simp
@[simp] theorem finishSlot_dev (p : Packet) (o i st : Nat) (l : List Byte) (s : State) : (finishSlot p o i st l s).dev = s.dev := by unfold finishSlot orFree freshValue; simp
@[simp] theorem finishSlot_chart (p : Packet) (o i st : Nat) (l : List Byte) (s : State) : (finishSlot p o i st l s).chart = s.chart := by unfold finishSlot orFree freshValue; simp
@[simp] theorem finishSlot_conf (p : Packet) (o i st : Nat) (l : List Byte) (s : State) : (finishSlot p o i st l s).conf = s.conf := by unfold finishSlot orFree freshValue; simp
@[simp] theorem finishSlot_mem (p : Packet) (o i st : Nat) (l : List Byte) (s : State) : (finishSlot p o i st l s).mem = s.mem := by unfold finishSlot orFree freshValue; simp
@[simp] theorem finishSlot_sync (p : Packet) (o i st : Nat) (l : List Byte) (s : State) : (finishSlot p o i st l s).sync = s.sync := by unfold finishSlot orFree freshValue; simp
@[simp] theorem finishSlot_ctxs (p : Packet) (o i st : Nat) (l : List Byte) (s : State) : (finishSlot p o i st l s).ctxs = s.ctxs := by unfold finishSlot orFree freshValue; simp
@[simp] theorem finishSlot_arrays (p : Packet) (o i st : Nat) (l : List Byte) (s : State) : (finishSlot p o i st l s).arrays = s.arrays := by unfold finishSlot orFree freshValue; simp
@[simp] theorem finishSlot_tokens (p : Packet) (o i st : Nat) (l : List Byte) (s : State) : (finishSlot p o i st l s).tokens = s.tokens := by unfold finishSlot orFree freshValue; simp
@[simp] theorem finishSlot_grp (p : Packet) (o i st : Nat) (l : List Byte) (s : State) : (finishSlot p o i st l s).grp = s.grp := by unfold finishSlot orFree freshValue; simp
@[simp] theorem finishSlot_colls (p : Packet) (o i st : Nat) (l : List Byte) (s : State) : (finishSlot p o i st l s).colls = s.colls := by unfold finishSlot orFree freshValue; simp
@[simp] theorem finishSlot_fix (p : Packet) (o i st : Nat) (l : List Byte) (s : State) : (finishSlot p o i st l s).fix = s.fix := by unfold finishSlot orFree freshValue; simp
@[simp] theorem finishSlot_pow (p : Packet) (o i st : Nat) (l : List Byte) (s : State) : (finishSlot p o i st l s).pow = s.pow := by unfold finishSlot orFree freshValue; simp
@[simp] theorem finishSlot_board (p : Packet) (o i st : Nat) (l : List Byte) (s : State) : (finishSlot p o i st l s).board = s.board := by unfold finishSlot orFree freshValue; simp
@[simp] theorem finishSlot_flash (p : Packet) (o i st : Nat) (l : List Byte) (s : State) : (finishSlot p o i st l s).flash = s.flash := by unfold finishSlot orFree freshValue; simp
@[simp] theorem finishSlot_test (p : Packet) (o i st : Nat) (l : List Byte) (s : State) : (finishSlot p o i st l s).test = s.test := by unfold finishSlot orFree freshValue; simp
@[simp] theorem finishSlot_bnd (p : Packet) (o i st : Nat) (l : List Byte) (s : State) : (finishSlot p o i st l s).bnd = s.bnd := by unfold finishSlot orFree freshValue; simp

@[simp] theorem finishPending_pending (i st d : Nat) (l : List Byte) (s : State) : (finishPending i st d l s).pending = s.pending := by simp [finishPending]
@[simp] theorem finishPending_free (i st d : Nat) (l : List Byte) (s : State) : (finishPending i st d l s).free = s.free := by simp [finishPending]
@[simp] theorem finishPending_nextId (i st d : Nat) (l : List Byte) (s : State) : (finishPending i st d l s).nextId = s.nextId := by simp [finishPending]
@[simp] theorem finishPending_dev (i st d : Nat) (l : List Byte) (s : State) : (finishPending i st d l s).dev = s.dev := by simp [finishPending]
@[simp] theorem finishPending_chart (i st d : Nat) (l : List Byte) (s : State) : (finishPending i st d l s).chart = s.chart := by simp [finishPending]
@[simp] theorem finishPending_queues (i st d : Nat) (l : List Byte) (s : State) : (finishPending i st d l s).queues = s.queues := by simp [finishPending]
@[simp] theorem finishPending_conf (i st d : Nat) (l : List Byte) (s : State) : (finishPending i st d l s).conf = s.conf := by simp [finishPending]
@[simp] theorem finishPending_mem (i st d : Nat) (l : List Byte) (s : State) : (finishPending i st d l s).mem = s.mem := by simp [finishPending]
@[simp] theorem finishPending_sync (i st d : Nat) (l : List Byte) (s : State) : (finishPending i st d l s).sync = s.sync := by simp [finishPending]
@[simp] theorem finishPending_ctxs (i st d : Nat) (l : List Byte) (s : State) : (finishPending i st d l s).ctxs = s.ctxs := by simp [finishPending]
@[simp] theorem finishPending_arrays (i st d : Nat) (l : List Byte) (s : State) : (finishPending i st d l s).arrays = s.arrays := by simp [finishPending]
@[simp] theorem finishPending_tokens (i st d : Nat) (l : List Byte) (s : State) : (finishPending i st d l s).tokens = s.tokens := by simp [finishPending]
@[simp] theorem finishPending_fab (i st d : Nat) (l : List Byte) (s : State) : (finishPending i st d l s).fab = s.fab := by simp [finishPending]
@[simp] theorem finishPending_grp (i st d : Nat) (l : List Byte) (s : State) : (finishPending i st d l s).grp = s.grp := by simp [finishPending]
@[simp] theorem finishPending_colls (i st d : Nat) (l : List Byte) (s : State) : (finishPending i st d l s).colls = s.colls := by simp [finishPending]
@[simp] theorem finishPending_fix (i st d : Nat) (l : List Byte) (s : State) : (finishPending i st d l s).fix = s.fix := by simp [finishPending]
@[simp] theorem finishPending_pow (i st d : Nat) (l : List Byte) (s : State) : (finishPending i st d l s).pow = s.pow := by simp [finishPending]
@[simp] theorem finishPending_board (i st d : Nat) (l : List Byte) (s : State) : (finishPending i st d l s).board = s.board := by simp [finishPending]
@[simp] theorem finishPending_mgmt (i st d : Nat) (l : List Byte) (s : State) : (finishPending i st d l s).mgmt = s.mgmt := by simp [finishPending]
@[simp] theorem finishPending_flash (i st d : Nat) (l : List Byte) (s : State) : (finishPending i st d l s).flash = s.flash := by simp [finishPending]
@[simp] theorem finishPending_test (i st d : Nat) (l : List Byte) (s : State) : (finishPending i st d l s).test = s.test := by simp [finishPending]
@[simp] theorem finishPending_bnd (i st d : Nat) (l : List Byte) (s : State) : (finishPending i st d l s).bnd = s.bnd := by simp [finishPending]

@[simp] theorem ctxMod_pending (c : Nat) (f : Ctx → Ctx) (s : State) : (ctxMod c f s).pending = s.pending := rfl
@[simp] theorem ctxMod_free (c : Nat) (f : Ctx → Ctx) (s : State) : (ctxMod c f s).free = s.free := rfl
@[simp] theorem ctxMod_nextId (c : Nat) (f : Ctx → Ctx) (s : State) : (ctxMod c f s).nextId = s.nextId := rfl
@[simp] theorem ctxMod_host (c : Nat) (f : Ctx → Ctx) (s : State) : (ctxMod c f s).host = s.host := rfl
@[simp] theorem ctxMod_regs (c : Nat) (f : Ctx → Ctx) (s : State) : (ctxMod c f s).regs = s.regs := rfl
@[simp] theorem ctxMod_dev (c : Nat) (f : Ctx → Ctx) (s : State) : (ctxMod c f s).dev = s.dev := rfl
@[simp] theorem ctxMod_chart (c : Nat) (f : Ctx → Ctx) (s : State) : (ctxMod c f s).chart = s.chart := rfl
@[simp] theorem ctxMod_queues (c : Nat) (f : Ctx → Ctx) (s : State) : (ctxMod c f s).queues = s.queues := rfl
@[simp] theorem ctxMod_slots (c : Nat) (f : Ctx → Ctx) (s : State) : (ctxMod c f s).slots = s.slots := rfl
@[simp] theorem ctxMod_conf (c : Nat) (f : Ctx → Ctx) (s : State) : (ctxMod c f s).conf = s.conf := rfl
@[simp] theorem ctxMod_mem (c : Nat) (f : Ctx → Ctx) (s : State) : (ctxMod c f s).mem = s.mem := rfl
@[simp] theorem ctxMod_sync (c : Nat) (f : Ctx → Ctx) (s : State) : (ctxMod c f s).sync = s.sync := rfl
@[simp] theorem ctxMod_arrays (c : Nat) (f : Ctx → Ctx) (s : State) : (ctxMod c f s).arrays = s.arrays := rfl
@[simp] theorem ctxMod_tokens (c : Nat) (f : Ctx → Ctx) (s : State) : (ctxMod c f s).tokens = s.tokens := rfl
@[simp] theorem ctxMod_fab (c : Nat) (f : Ctx → Ctx) (s : State) : (ctxMod c f s).fab = s.fab := rfl
@[simp] theorem ctxMod_grp (c : Nat) (f : Ctx → Ctx) (s : State) : (ctxMod c f s).grp = s.grp := rfl
@[simp] theorem ctxMod_colls (c : Nat) (f : Ctx → Ctx) (s : State) : (ctxMod c f s).colls = s.colls := rfl
@[simp] theorem ctxMod_fix (c : Nat) (f : Ctx → Ctx) (s : State) : (ctxMod c f s).fix = s.fix := rfl
@[simp] theorem ctxMod_pow (c : Nat) (f : Ctx → Ctx) (s : State) : (ctxMod c f s).pow = s.pow := rfl
@[simp] theorem ctxMod_board (c : Nat) (f : Ctx → Ctx) (s : State) : (ctxMod c f s).board = s.board := rfl
@[simp] theorem ctxMod_mgmt (c : Nat) (f : Ctx → Ctx) (s : State) : (ctxMod c f s).mgmt = s.mgmt := rfl
@[simp] theorem ctxMod_flash (c : Nat) (f : Ctx → Ctx) (s : State) : (ctxMod c f s).flash = s.flash := rfl
@[simp] theorem ctxMod_test (c : Nat) (f : Ctx → Ctx) (s : State) : (ctxMod c f s).test = s.test := rfl
@[simp] theorem ctxMod_bnd (c : Nat) (f : Ctx → Ctx) (s : State) : (ctxMod c f s).bnd = s.bnd := rfl

@[simp] theorem workMod_pending (c i : Nat) (f : Work → Work) (s : State) : (workMod c i f s).pending = s.pending := rfl
@[simp] theorem workMod_free (c i : Nat) (f : Work → Work) (s : State) : (workMod c i f s).free = s.free := rfl
@[simp] theorem workMod_nextId (c i : Nat) (f : Work → Work) (s : State) : (workMod c i f s).nextId = s.nextId := rfl
@[simp] theorem workMod_host (c i : Nat) (f : Work → Work) (s : State) : (workMod c i f s).host = s.host := rfl
@[simp] theorem workMod_regs (c i : Nat) (f : Work → Work) (s : State) : (workMod c i f s).regs = s.regs := rfl
@[simp] theorem workMod_dev (c i : Nat) (f : Work → Work) (s : State) : (workMod c i f s).dev = s.dev := rfl
@[simp] theorem workMod_chart (c i : Nat) (f : Work → Work) (s : State) : (workMod c i f s).chart = s.chart := rfl
@[simp] theorem workMod_queues (c i : Nat) (f : Work → Work) (s : State) : (workMod c i f s).queues = s.queues := rfl
@[simp] theorem workMod_slots (c i : Nat) (f : Work → Work) (s : State) : (workMod c i f s).slots = s.slots := rfl
@[simp] theorem workMod_conf (c i : Nat) (f : Work → Work) (s : State) : (workMod c i f s).conf = s.conf := rfl
@[simp] theorem workMod_mem (c i : Nat) (f : Work → Work) (s : State) : (workMod c i f s).mem = s.mem := rfl
@[simp] theorem workMod_sync (c i : Nat) (f : Work → Work) (s : State) : (workMod c i f s).sync = s.sync := rfl
@[simp] theorem workMod_arrays (c i : Nat) (f : Work → Work) (s : State) : (workMod c i f s).arrays = s.arrays := rfl
@[simp] theorem workMod_tokens (c i : Nat) (f : Work → Work) (s : State) : (workMod c i f s).tokens = s.tokens := rfl
@[simp] theorem workMod_fab (c i : Nat) (f : Work → Work) (s : State) : (workMod c i f s).fab = s.fab := rfl
@[simp] theorem workMod_grp (c i : Nat) (f : Work → Work) (s : State) : (workMod c i f s).grp = s.grp := rfl
@[simp] theorem workMod_colls (c i : Nat) (f : Work → Work) (s : State) : (workMod c i f s).colls = s.colls := rfl
@[simp] theorem workMod_fix (c i : Nat) (f : Work → Work) (s : State) : (workMod c i f s).fix = s.fix := rfl
@[simp] theorem workMod_pow (c i : Nat) (f : Work → Work) (s : State) : (workMod c i f s).pow = s.pow := rfl
@[simp] theorem workMod_board (c i : Nat) (f : Work → Work) (s : State) : (workMod c i f s).board = s.board := rfl
@[simp] theorem workMod_mgmt (c i : Nat) (f : Work → Work) (s : State) : (workMod c i f s).mgmt = s.mgmt := rfl
@[simp] theorem workMod_flash (c i : Nat) (f : Work → Work) (s : State) : (workMod c i f s).flash = s.flash := rfl
@[simp] theorem workMod_test (c i : Nat) (f : Work → Work) (s : State) : (workMod c i f s).test = s.test := rfl
@[simp] theorem workMod_bnd (c i : Nat) (f : Work → Work) (s : State) : (workMod c i f s).bnd = s.bnd := rfl

@[simp] theorem workDrop_pending (c i : Nat) (s : State) : (workDrop c i s).pending = s.pending := rfl
@[simp] theorem workDrop_free (c i : Nat) (s : State) : (workDrop c i s).free = s.free := rfl
@[simp] theorem workDrop_nextId (c i : Nat) (s : State) : (workDrop c i s).nextId = s.nextId := rfl
@[simp] theorem workDrop_host (c i : Nat) (s : State) : (workDrop c i s).host = s.host := rfl
@[simp] theorem workDrop_regs (c i : Nat) (s : State) : (workDrop c i s).regs = s.regs := rfl
@[simp] theorem workDrop_dev (c i : Nat) (s : State) : (workDrop c i s).dev = s.dev := rfl
@[simp] theorem workDrop_chart (c i : Nat) (s : State) : (workDrop c i s).chart = s.chart := rfl
@[simp] theorem workDrop_queues (c i : Nat) (s : State) : (workDrop c i s).queues = s.queues := rfl
@[simp] theorem workDrop_slots (c i : Nat) (s : State) : (workDrop c i s).slots = s.slots := rfl
@[simp] theorem workDrop_conf (c i : Nat) (s : State) : (workDrop c i s).conf = s.conf := rfl
@[simp] theorem workDrop_mem (c i : Nat) (s : State) : (workDrop c i s).mem = s.mem := rfl
@[simp] theorem workDrop_sync (c i : Nat) (s : State) : (workDrop c i s).sync = s.sync := rfl
@[simp] theorem workDrop_arrays (c i : Nat) (s : State) : (workDrop c i s).arrays = s.arrays := rfl
@[simp] theorem workDrop_tokens (c i : Nat) (s : State) : (workDrop c i s).tokens = s.tokens := rfl
@[simp] theorem workDrop_fab (c i : Nat) (s : State) : (workDrop c i s).fab = s.fab := rfl
@[simp] theorem workDrop_grp (c i : Nat) (s : State) : (workDrop c i s).grp = s.grp := rfl
@[simp] theorem workDrop_colls (c i : Nat) (s : State) : (workDrop c i s).colls = s.colls := rfl
@[simp] theorem workDrop_fix (c i : Nat) (s : State) : (workDrop c i s).fix = s.fix := rfl
@[simp] theorem workDrop_pow (c i : Nat) (s : State) : (workDrop c i s).pow = s.pow := rfl
@[simp] theorem workDrop_board (c i : Nat) (s : State) : (workDrop c i s).board = s.board := rfl
@[simp] theorem workDrop_mgmt (c i : Nat) (s : State) : (workDrop c i s).mgmt = s.mgmt := rfl
@[simp] theorem workDrop_flash (c i : Nat) (s : State) : (workDrop c i s).flash = s.flash := rfl
@[simp] theorem workDrop_test (c i : Nat) (s : State) : (workDrop c i s).test = s.test := rfl
@[simp] theorem workDrop_bnd (c i : Nat) (s : State) : (workDrop c i s).bnd = s.bnd := rfl

@[simp] theorem noteUpdate_pending (c : Nat) (w : Work) (s : State) : (noteUpdate c w s).pending = s.pending := by unfold noteUpdate; split <;> rfl
@[simp] theorem noteUpdate_free (c : Nat) (w : Work) (s : State) : (noteUpdate c w s).free = s.free := by unfold noteUpdate; split <;> rfl
@[simp] theorem noteUpdate_nextId (c : Nat) (w : Work) (s : State) : (noteUpdate c w s).nextId = s.nextId := by unfold noteUpdate; split <;> rfl
@[simp] theorem noteUpdate_host (c : Nat) (w : Work) (s : State) : (noteUpdate c w s).host = s.host := by unfold noteUpdate; split <;> rfl
@[simp] theorem noteUpdate_regs (c : Nat) (w : Work) (s : State) : (noteUpdate c w s).regs = s.regs := by unfold noteUpdate; split <;> rfl
@[simp] theorem noteUpdate_dev (c : Nat) (w : Work) (s : State) : (noteUpdate c w s).dev = s.dev := by unfold noteUpdate; split <;> rfl
@[simp] theorem noteUpdate_chart (c : Nat) (w : Work) (s : State) : (noteUpdate c w s).chart = s.chart := by unfold noteUpdate; split <;> rfl
@[simp] theorem noteUpdate_queues (c : Nat) (w : Work) (s : State) : (noteUpdate c w s).queues = s.queues := by unfold noteUpdate; split <;> rfl
@[simp] theorem noteUpdate_slots (c : Nat) (w : Work) (s : State) : (noteUpdate c w s).slots = s.slots := by unfold noteUpdate; split <;> rfl
@[simp] theorem noteUpdate_conf (c : Nat) (w : Work) (s : State) : (noteUpdate c w s).conf = s.conf := by unfold noteUpdate; split <;> rfl
@[simp] theorem noteUpdate_mem (c : Nat) (w : Work) (s : State) : (noteUpdate c w s).mem = s.mem := by unfold noteUpdate; split <;> rfl
@[simp] theorem noteUpdate_sync (c : Nat) (w : Work) (s : State) : (noteUpdate c w s).sync = s.sync := by unfold noteUpdate; split <;> rfl
@[simp] theorem noteUpdate_ctxs (c : Nat) (w : Work) (s : State) : (noteUpdate c w s).ctxs = s.ctxs := by unfold noteUpdate; split <;> rfl
@[simp] theorem noteUpdate_arrays (c : Nat) (w : Work) (s : State) : (noteUpdate c w s).arrays = s.arrays := by unfold noteUpdate; split <;> rfl
@[simp] theorem noteUpdate_tokens (c : Nat) (w : Work) (s : State) : (noteUpdate c w s).tokens = s.tokens := by unfold noteUpdate; split <;> rfl
@[simp] theorem noteUpdate_fab (c : Nat) (w : Work) (s : State) : (noteUpdate c w s).fab = s.fab := by unfold noteUpdate; split <;> rfl
@[simp] theorem noteUpdate_grp (c : Nat) (w : Work) (s : State) : (noteUpdate c w s).grp = s.grp := by unfold noteUpdate; split <;> rfl
@[simp] theorem noteUpdate_colls (c : Nat) (w : Work) (s : State) : (noteUpdate c w s).colls = s.colls := by unfold noteUpdate; split <;> rfl
@[simp] theorem noteUpdate_fix (c : Nat) (w : Work) (s : State) : (noteUpdate c w s).fix = s.fix := by unfold noteUpdate; split <;> rfl
@[simp] theorem noteUpdate_pow (c : Nat) (w : Work) (s : State) : (noteUpdate c w s).pow = s.pow := by unfold noteUpdate; split <;> rfl
@[simp] theorem noteUpdate_board (c : Nat) (w : Work) (s : State) : (noteUpdate c w s).board = s.board := by unfold noteUpdate; split <;> rfl
@[simp] theorem noteUpdate_mgmt (c : Nat) (w : Work) (s : State) : (noteUpdate c w s).mgmt = s.mgmt := by unfold noteUpdate; split <;> rfl
@[simp] theorem noteUpdate_flash (c : Nat) (w : Work) (s : State) : (noteUpdate c w s).flash = s.flash := by unfold noteUpdate; split <;> rfl
@[simp] theorem noteUpdate_test (c : Nat) (w : Work) (s : State) : (noteUpdate c w s).test = s.test := by unfold noteUpdate; split <;> rfl

@[simp] theorem doomAll_pending (c : Nat) (w : Work) (s : State) : (doomAll c w s).pending = s.pending := by unfold doomAll; split <;> simp
@[simp] theorem doomAll_free (c : Nat) (w : Work) (s : State) : (doomAll c w s).free = s.free := by unfold doomAll; split <;> simp
@[simp] theorem doomAll_nextId (c : Nat) (w : Work) (s : State) : (doomAll c w s).nextId = s.nextId := by unfold doomAll; split <;> simp
@[simp] theorem doomAll_host (c : Nat) (w : Work) (s : State) : (doomAll c w s).host = s.host := by unfold doomAll; split <;> simp
@[simp] theorem doomAll_regs (c : Nat) (w : Work) (s : State) : (doomAll c w s).regs = s.regs := by unfold doomAll; split <;> simp
@[simp] theorem doomAll_dev (c : Nat) (w : Work) (s : State) : (doomAll c w s).dev = s.dev := by unfold doomAll; split <;> simp
@[simp] theorem doomAll_chart (c : Nat) (w : Work) (s : State) : (doomAll c w s).chart = s.chart := by unfold doomAll; split <;> simp
@[simp] theorem doomAll_queues (c : Nat) (w : Work) (s : State) : (doomAll c w s).queues = s.queues := by unfold doomAll; split <;> simp
@[simp] theorem doomAll_slots (c : Nat) (w : Work) (s : State) : (doomAll c w s).slots = s.slots := by unfold doomAll; split <;> simp
@[simp] theorem doomAll_conf (c : Nat) (w : Work) (s : State) : (doomAll c w s).conf = s.conf := by unfold doomAll; split <;> simp
@[simp] theorem doomAll_mem (c : Nat) (w : Work) (s : State) : (doomAll c w s).mem = s.mem := by unfold doomAll; split <;> simp
@[simp] theorem doomAll_sync (c : Nat) (w : Work) (s : State) : (doomAll c w s).sync = s.sync := by unfold doomAll; split <;> simp
@[simp] theorem doomAll_arrays (c : Nat) (w : Work) (s : State) : (doomAll c w s).arrays = s.arrays := by unfold doomAll; split <;> simp
@[simp] theorem doomAll_tokens (c : Nat) (w : Work) (s : State) : (doomAll c w s).tokens = s.tokens := by unfold doomAll; split <;> simp
@[simp] theorem doomAll_fab (c : Nat) (w : Work) (s : State) : (doomAll c w s).fab = s.fab := by unfold doomAll; split <;> simp
@[simp] theorem doomAll_grp (c : Nat) (w : Work) (s : State) : (doomAll c w s).grp = s.grp := by unfold doomAll; split <;> simp
@[simp] theorem doomAll_colls (c : Nat) (w : Work) (s : State) : (doomAll c w s).colls = s.colls := by unfold doomAll; split <;> simp
@[simp] theorem doomAll_fix (c : Nat) (w : Work) (s : State) : (doomAll c w s).fix = s.fix := by unfold doomAll; split <;> simp
@[simp] theorem doomAll_pow (c : Nat) (w : Work) (s : State) : (doomAll c w s).pow = s.pow := by unfold doomAll; split <;> simp
@[simp] theorem doomAll_board (c : Nat) (w : Work) (s : State) : (doomAll c w s).board = s.board := by unfold doomAll; split <;> simp
@[simp] theorem doomAll_mgmt (c : Nat) (w : Work) (s : State) : (doomAll c w s).mgmt = s.mgmt := by unfold doomAll; split <;> simp
@[simp] theorem doomAll_flash (c : Nat) (w : Work) (s : State) : (doomAll c w s).flash = s.flash := by unfold doomAll; split <;> simp
@[simp] theorem doomAll_test (c : Nat) (w : Work) (s : State) : (doomAll c w s).test = s.test := by unfold doomAll; split <;> simp
@[simp] theorem doomAll_bnd (c : Nat) (w : Work) (s : State) : (doomAll c w s).bnd = s.bnd := by unfold doomAll; split <;> simp

@[simp] theorem finishWork_pending (c : Nat) (w : Work) (st : Nat) (d : Option Nat) (v : Option (BitVec 64)) (s : State) : (finishWork c w st d v s).pending = s.pending := by unfold finishWork orFree valueOrFree freshValue; cases d <;> cases v <;> dsimp only <;> split <;> simp
@[simp] theorem finishWork_nextId (c : Nat) (w : Work) (st : Nat) (d : Option Nat) (v : Option (BitVec 64)) (s : State) : (finishWork c w st d v s).nextId = s.nextId := by unfold finishWork orFree valueOrFree freshValue; cases d <;> cases v <;> dsimp only <;> split <;> simp
@[simp] theorem finishWork_host (c : Nat) (w : Work) (st : Nat) (d : Option Nat) (v : Option (BitVec 64)) (s : State) : (finishWork c w st d v s).host = s.host := by unfold finishWork orFree valueOrFree freshValue; cases d <;> cases v <;> dsimp only <;> split <;> simp
@[simp] theorem finishWork_regs (c : Nat) (w : Work) (st : Nat) (d : Option Nat) (v : Option (BitVec 64)) (s : State) : (finishWork c w st d v s).regs = s.regs := by unfold finishWork orFree valueOrFree freshValue; cases d <;> cases v <;> dsimp only <;> split <;> simp
@[simp] theorem finishWork_dev (c : Nat) (w : Work) (st : Nat) (d : Option Nat) (v : Option (BitVec 64)) (s : State) : (finishWork c w st d v s).dev = s.dev := by unfold finishWork orFree valueOrFree freshValue; cases d <;> cases v <;> dsimp only <;> split <;> simp
@[simp] theorem finishWork_chart (c : Nat) (w : Work) (st : Nat) (d : Option Nat) (v : Option (BitVec 64)) (s : State) : (finishWork c w st d v s).chart = s.chart := by unfold finishWork orFree valueOrFree freshValue; cases d <;> cases v <;> dsimp only <;> split <;> simp
@[simp] theorem finishWork_slots (c : Nat) (w : Work) (st : Nat) (d : Option Nat) (v : Option (BitVec 64)) (s : State) : (finishWork c w st d v s).slots = s.slots := by unfold finishWork orFree valueOrFree freshValue; cases d <;> cases v <;> dsimp only <;> split <;> simp
@[simp] theorem finishWork_conf (c : Nat) (w : Work) (st : Nat) (d : Option Nat) (v : Option (BitVec 64)) (s : State) : (finishWork c w st d v s).conf = s.conf := by unfold finishWork orFree valueOrFree freshValue; cases d <;> cases v <;> dsimp only <;> split <;> simp
@[simp] theorem finishWork_mem (c : Nat) (w : Work) (st : Nat) (d : Option Nat) (v : Option (BitVec 64)) (s : State) : (finishWork c w st d v s).mem = s.mem := by unfold finishWork orFree valueOrFree freshValue; cases d <;> cases v <;> dsimp only <;> split <;> simp
@[simp] theorem finishWork_sync (c : Nat) (w : Work) (st : Nat) (d : Option Nat) (v : Option (BitVec 64)) (s : State) : (finishWork c w st d v s).sync = s.sync := by unfold finishWork orFree valueOrFree freshValue; cases d <;> cases v <;> dsimp only <;> split <;> simp
@[simp] theorem finishWork_arrays (c : Nat) (w : Work) (st : Nat) (d : Option Nat) (v : Option (BitVec 64)) (s : State) : (finishWork c w st d v s).arrays = s.arrays := by unfold finishWork orFree valueOrFree freshValue; cases d <;> cases v <;> dsimp only <;> split <;> simp
@[simp] theorem finishWork_tokens (c : Nat) (w : Work) (st : Nat) (d : Option Nat) (v : Option (BitVec 64)) (s : State) : (finishWork c w st d v s).tokens = s.tokens := by unfold finishWork orFree valueOrFree freshValue; cases d <;> cases v <;> dsimp only <;> split <;> simp
@[simp] theorem finishWork_grp (c : Nat) (w : Work) (st : Nat) (d : Option Nat) (v : Option (BitVec 64)) (s : State) : (finishWork c w st d v s).grp = s.grp := by unfold finishWork orFree valueOrFree freshValue; cases d <;> cases v <;> dsimp only <;> split <;> simp
@[simp] theorem finishWork_colls (c : Nat) (w : Work) (st : Nat) (d : Option Nat) (v : Option (BitVec 64)) (s : State) : (finishWork c w st d v s).colls = s.colls := by unfold finishWork orFree valueOrFree freshValue; cases d <;> cases v <;> dsimp only <;> split <;> simp
@[simp] theorem finishWork_fix (c : Nat) (w : Work) (st : Nat) (d : Option Nat) (v : Option (BitVec 64)) (s : State) : (finishWork c w st d v s).fix = s.fix := by unfold finishWork orFree valueOrFree freshValue; cases d <;> cases v <;> dsimp only <;> split <;> simp
@[simp] theorem finishWork_pow (c : Nat) (w : Work) (st : Nat) (d : Option Nat) (v : Option (BitVec 64)) (s : State) : (finishWork c w st d v s).pow = s.pow := by unfold finishWork orFree valueOrFree freshValue; cases d <;> cases v <;> dsimp only <;> split <;> simp
@[simp] theorem finishWork_board (c : Nat) (w : Work) (st : Nat) (d : Option Nat) (v : Option (BitVec 64)) (s : State) : (finishWork c w st d v s).board = s.board := by unfold finishWork orFree valueOrFree freshValue; cases d <;> cases v <;> dsimp only <;> split <;> simp
@[simp] theorem finishWork_flash (c : Nat) (w : Work) (st : Nat) (d : Option Nat) (v : Option (BitVec 64)) (s : State) : (finishWork c w st d v s).flash = s.flash := by unfold finishWork orFree valueOrFree freshValue; cases d <;> cases v <;> dsimp only <;> split <;> simp
@[simp] theorem finishWork_test (c : Nat) (w : Work) (st : Nat) (d : Option Nat) (v : Option (BitVec 64)) (s : State) : (finishWork c w st d v s).test = s.test := by unfold finishWork orFree valueOrFree freshValue; cases d <;> cases v <;> dsimp only <;> split <;> simp

@[simp] theorem reschedule_pending (s : State) : (reschedule s).pending = s.pending := rfl
@[simp] theorem reschedule_free (s : State) : (reschedule s).free = s.free := rfl
@[simp] theorem reschedule_host (s : State) : (reschedule s).host = s.host := rfl
@[simp] theorem reschedule_regs (s : State) : (reschedule s).regs = s.regs := rfl
@[simp] theorem reschedule_dev (s : State) : (reschedule s).dev = s.dev := rfl
@[simp] theorem reschedule_chart (s : State) : (reschedule s).chart = s.chart := rfl
@[simp] theorem reschedule_queues (s : State) : (reschedule s).queues = s.queues := rfl
@[simp] theorem reschedule_slots (s : State) : (reschedule s).slots = s.slots := rfl
@[simp] theorem reschedule_conf (s : State) : (reschedule s).conf = s.conf := rfl
@[simp] theorem reschedule_mem (s : State) : (reschedule s).mem = s.mem := rfl
@[simp] theorem reschedule_arrays (s : State) : (reschedule s).arrays = s.arrays := rfl
@[simp] theorem reschedule_tokens (s : State) : (reschedule s).tokens = s.tokens := rfl
@[simp] theorem reschedule_fab (s : State) : (reschedule s).fab = s.fab := rfl
@[simp] theorem reschedule_grp (s : State) : (reschedule s).grp = s.grp := rfl
@[simp] theorem reschedule_colls (s : State) : (reschedule s).colls = s.colls := rfl
@[simp] theorem reschedule_fix (s : State) : (reschedule s).fix = s.fix := rfl
@[simp] theorem reschedule_pow (s : State) : (reschedule s).pow = s.pow := rfl
@[simp] theorem reschedule_board (s : State) : (reschedule s).board = s.board := rfl
@[simp] theorem reschedule_mgmt (s : State) : (reschedule s).mgmt = s.mgmt := rfl
@[simp] theorem reschedule_flash (s : State) : (reschedule s).flash = s.flash := rfl
@[simp] theorem reschedule_test (s : State) : (reschedule s).test = s.test := rfl
@[simp] theorem reschedule_bnd (s : State) : (reschedule s).bnd = s.bnd := rfl

@[simp] theorem admitRings_pending (n : Nat) (s : State) : (admitRings n s).pending = s.pending := by induction n generalizing s with
  | zero => rfl
  | succ n ih => unfold admitRings; split <;> simp [ih]
@[simp] theorem admitRings_free (n : Nat) (s : State) : (admitRings n s).free = s.free := by induction n generalizing s with
  | zero => rfl
  | succ n ih => unfold admitRings; split <;> simp [ih]
@[simp] theorem admitRings_nextId (n : Nat) (s : State) : (admitRings n s).nextId = s.nextId := by induction n generalizing s with
  | zero => rfl
  | succ n ih => unfold admitRings; split <;> simp [ih]
@[simp] theorem admitRings_host (n : Nat) (s : State) : (admitRings n s).host = s.host := by induction n generalizing s with
  | zero => rfl
  | succ n ih => unfold admitRings; split <;> simp [ih]
@[simp] theorem admitRings_regs (n : Nat) (s : State) : (admitRings n s).regs = s.regs := by induction n generalizing s with
  | zero => rfl
  | succ n ih => unfold admitRings; split <;> simp [ih]
@[simp] theorem admitRings_dev (n : Nat) (s : State) : (admitRings n s).dev = s.dev := by induction n generalizing s with
  | zero => rfl
  | succ n ih => unfold admitRings; split <;> simp [ih]
@[simp] theorem admitRings_chart (n : Nat) (s : State) : (admitRings n s).chart = s.chart := by induction n generalizing s with
  | zero => rfl
  | succ n ih => unfold admitRings; split <;> simp [ih]
@[simp] theorem admitRings_queues (n : Nat) (s : State) : (admitRings n s).queues = s.queues := by induction n generalizing s with
  | zero => rfl
  | succ n ih => unfold admitRings; split <;> simp [ih]
@[simp] theorem admitRings_slots (n : Nat) (s : State) : (admitRings n s).slots = s.slots := by induction n generalizing s with
  | zero => rfl
  | succ n ih => unfold admitRings; split <;> simp [ih]
@[simp] theorem admitRings_conf (n : Nat) (s : State) : (admitRings n s).conf = s.conf := by induction n generalizing s with
  | zero => rfl
  | succ n ih => unfold admitRings; split <;> simp [ih]
@[simp] theorem admitRings_mem (n : Nat) (s : State) : (admitRings n s).mem = s.mem := by induction n generalizing s with
  | zero => rfl
  | succ n ih => unfold admitRings; split <;> simp [ih]
@[simp] theorem admitRings_sync (n : Nat) (s : State) : (admitRings n s).sync = s.sync := by induction n generalizing s with
  | zero => rfl
  | succ n ih => unfold admitRings; split <;> simp [ih]
@[simp] theorem admitRings_arrays (n : Nat) (s : State) : (admitRings n s).arrays = s.arrays := by induction n generalizing s with
  | zero => rfl
  | succ n ih => unfold admitRings; split <;> simp [ih]
@[simp] theorem admitRings_tokens (n : Nat) (s : State) : (admitRings n s).tokens = s.tokens := by induction n generalizing s with
  | zero => rfl
  | succ n ih => unfold admitRings; split <;> simp [ih]
@[simp] theorem admitRings_fab (n : Nat) (s : State) : (admitRings n s).fab = s.fab := by induction n generalizing s with
  | zero => rfl
  | succ n ih => unfold admitRings; split <;> simp [ih]
@[simp] theorem admitRings_grp (n : Nat) (s : State) : (admitRings n s).grp = s.grp := by induction n generalizing s with
  | zero => rfl
  | succ n ih => unfold admitRings; split <;> simp [ih]
@[simp] theorem admitRings_colls (n : Nat) (s : State) : (admitRings n s).colls = s.colls := by induction n generalizing s with
  | zero => rfl
  | succ n ih => unfold admitRings; split <;> simp [ih]
@[simp] theorem admitRings_fix (n : Nat) (s : State) : (admitRings n s).fix = s.fix := by induction n generalizing s with
  | zero => rfl
  | succ n ih => unfold admitRings; split <;> simp [ih]
@[simp] theorem admitRings_pow (n : Nat) (s : State) : (admitRings n s).pow = s.pow := by induction n generalizing s with
  | zero => rfl
  | succ n ih => unfold admitRings; split <;> simp [ih]
@[simp] theorem admitRings_board (n : Nat) (s : State) : (admitRings n s).board = s.board := by induction n generalizing s with
  | zero => rfl
  | succ n ih => unfold admitRings; split <;> simp [ih]
@[simp] theorem admitRings_mgmt (n : Nat) (s : State) : (admitRings n s).mgmt = s.mgmt := by induction n generalizing s with
  | zero => rfl
  | succ n ih => unfold admitRings; split <;> simp [ih]
@[simp] theorem admitRings_flash (n : Nat) (s : State) : (admitRings n s).flash = s.flash := by induction n generalizing s with
  | zero => rfl
  | succ n ih => unfold admitRings; split <;> simp [ih]
@[simp] theorem admitRings_test (n : Nat) (s : State) : (admitRings n s).test = s.test := by induction n generalizing s with
  | zero => rfl
  | succ n ih => unfold admitRings; split <;> simp [ih]
@[simp] theorem admitRings_bnd (n : Nat) (s : State) : (admitRings n s).bnd = s.bnd := by induction n generalizing s with
  | zero => rfl
  | succ n ih => unfold admitRings; split <;> simp [ih]

@[simp] theorem settleIngest_pending (s : State) : (settleIngest s).pending = s.pending := by simp [settleIngest]
@[simp] theorem settleIngest_free (s : State) : (settleIngest s).free = s.free := by simp [settleIngest]
@[simp] theorem settleIngest_host (s : State) : (settleIngest s).host = s.host := by simp [settleIngest]
@[simp] theorem settleIngest_regs (s : State) : (settleIngest s).regs = s.regs := by simp [settleIngest]
@[simp] theorem settleIngest_dev (s : State) : (settleIngest s).dev = s.dev := by simp [settleIngest]
@[simp] theorem settleIngest_chart (s : State) : (settleIngest s).chart = s.chart := by simp [settleIngest]
@[simp] theorem settleIngest_queues (s : State) : (settleIngest s).queues = s.queues := by simp [settleIngest]
@[simp] theorem settleIngest_slots (s : State) : (settleIngest s).slots = s.slots := by simp [settleIngest]
@[simp] theorem settleIngest_conf (s : State) : (settleIngest s).conf = s.conf := by simp [settleIngest]
@[simp] theorem settleIngest_mem (s : State) : (settleIngest s).mem = s.mem := by simp [settleIngest]
@[simp] theorem settleIngest_arrays (s : State) : (settleIngest s).arrays = s.arrays := by simp [settleIngest]
@[simp] theorem settleIngest_tokens (s : State) : (settleIngest s).tokens = s.tokens := by simp [settleIngest]
@[simp] theorem settleIngest_fab (s : State) : (settleIngest s).fab = s.fab := by simp [settleIngest]
@[simp] theorem settleIngest_grp (s : State) : (settleIngest s).grp = s.grp := by simp [settleIngest]
@[simp] theorem settleIngest_colls (s : State) : (settleIngest s).colls = s.colls := by simp [settleIngest]
@[simp] theorem settleIngest_fix (s : State) : (settleIngest s).fix = s.fix := by simp [settleIngest]
@[simp] theorem settleIngest_pow (s : State) : (settleIngest s).pow = s.pow := by simp [settleIngest]
@[simp] theorem settleIngest_board (s : State) : (settleIngest s).board = s.board := by simp [settleIngest]
@[simp] theorem settleIngest_mgmt (s : State) : (settleIngest s).mgmt = s.mgmt := by simp [settleIngest]
@[simp] theorem settleIngest_flash (s : State) : (settleIngest s).flash = s.flash := by simp [settleIngest]
@[simp] theorem settleIngest_test (s : State) : (settleIngest s).test = s.test := by simp [settleIngest]
@[simp] theorem settleIngest_bnd (s : State) : (settleIngest s).bnd = s.bnd := by simp [settleIngest]

@[simp] theorem addFault_pending (c : Nat) (f : FaultRec) (b : Bool) (s : State) : (addFault c f b s).pending = s.pending := by unfold addFault; dsimp only; (repeat' split) <;> simp
@[simp] theorem addFault_nextId (c : Nat) (f : FaultRec) (b : Bool) (s : State) : (addFault c f b s).nextId = s.nextId := by unfold addFault; dsimp only; (repeat' split) <;> simp
@[simp] theorem addFault_dev (c : Nat) (f : FaultRec) (b : Bool) (s : State) : (addFault c f b s).dev = s.dev := by unfold addFault; dsimp only; (repeat' split) <;> simp
@[simp] theorem addFault_chart (c : Nat) (f : FaultRec) (b : Bool) (s : State) : (addFault c f b s).chart = s.chart := by unfold addFault; dsimp only; (repeat' split) <;> simp
@[simp] theorem addFault_slots (c : Nat) (f : FaultRec) (b : Bool) (s : State) : (addFault c f b s).slots = s.slots := by unfold addFault; dsimp only; (repeat' split) <;> simp
@[simp] theorem addFault_conf (c : Nat) (f : FaultRec) (b : Bool) (s : State) : (addFault c f b s).conf = s.conf := by unfold addFault; dsimp only; (repeat' split) <;> simp
@[simp] theorem addFault_mem (c : Nat) (f : FaultRec) (b : Bool) (s : State) : (addFault c f b s).mem = s.mem := by unfold addFault; dsimp only; (repeat' split) <;> simp
@[simp] theorem addFault_sync (c : Nat) (f : FaultRec) (b : Bool) (s : State) : (addFault c f b s).sync = s.sync := by unfold addFault; dsimp only; (repeat' split) <;> simp
@[simp] theorem addFault_arrays (c : Nat) (f : FaultRec) (b : Bool) (s : State) : (addFault c f b s).arrays = s.arrays := by unfold addFault; dsimp only; (repeat' split) <;> simp
@[simp] theorem addFault_tokens (c : Nat) (f : FaultRec) (b : Bool) (s : State) : (addFault c f b s).tokens = s.tokens := by unfold addFault; dsimp only; (repeat' split) <;> simp
@[simp] theorem addFault_grp (c : Nat) (f : FaultRec) (b : Bool) (s : State) : (addFault c f b s).grp = s.grp := by unfold addFault; dsimp only; (repeat' split) <;> simp
@[simp] theorem addFault_colls (c : Nat) (f : FaultRec) (b : Bool) (s : State) : (addFault c f b s).colls = s.colls := by unfold addFault; dsimp only; (repeat' split) <;> simp
@[simp] theorem addFault_pow (c : Nat) (f : FaultRec) (b : Bool) (s : State) : (addFault c f b s).pow = s.pow := by unfold addFault; dsimp only; (repeat' split) <;> simp
@[simp] theorem addFault_board (c : Nat) (f : FaultRec) (b : Bool) (s : State) : (addFault c f b s).board = s.board := by unfold addFault; dsimp only; (repeat' split) <;> simp
@[simp] theorem addFault_flash (c : Nat) (f : FaultRec) (b : Bool) (s : State) : (addFault c f b s).flash = s.flash := by unfold addFault; dsimp only; (repeat' split) <;> simp
@[simp] theorem addFault_test (c : Nat) (f : FaultRec) (b : Bool) (s : State) : (addFault c f b s).test = s.test := by unfold addFault; dsimp only; (repeat' split) <;> simp
@[simp] theorem addFault_bnd (c : Nat) (f : FaultRec) (b : Bool) (s : State) : (addFault c f b s).bnd = s.bnd := by unfold addFault; dsimp only; (repeat' split) <;> simp

@[simp] theorem faultWork_pending (c : Nat) (w : Work) (d : FaultDetail) (r : Nat) (s : State) : (faultWork c w d r s).pending = s.pending := by simp [faultWork]
@[simp] theorem faultWork_dev (c : Nat) (w : Work) (d : FaultDetail) (r : Nat) (s : State) : (faultWork c w d r s).dev = s.dev := by simp [faultWork]
@[simp] theorem faultWork_chart (c : Nat) (w : Work) (d : FaultDetail) (r : Nat) (s : State) : (faultWork c w d r s).chart = s.chart := by simp [faultWork]
@[simp] theorem faultWork_slots (c : Nat) (w : Work) (d : FaultDetail) (r : Nat) (s : State) : (faultWork c w d r s).slots = s.slots := by simp [faultWork]
@[simp] theorem faultWork_conf (c : Nat) (w : Work) (d : FaultDetail) (r : Nat) (s : State) : (faultWork c w d r s).conf = s.conf := by simp [faultWork]
@[simp] theorem faultWork_mem (c : Nat) (w : Work) (d : FaultDetail) (r : Nat) (s : State) : (faultWork c w d r s).mem = s.mem := by simp [faultWork]
@[simp] theorem faultWork_arrays (c : Nat) (w : Work) (d : FaultDetail) (r : Nat) (s : State) : (faultWork c w d r s).arrays = s.arrays := by simp [faultWork]
@[simp] theorem faultWork_tokens (c : Nat) (w : Work) (d : FaultDetail) (r : Nat) (s : State) : (faultWork c w d r s).tokens = s.tokens := by simp [faultWork]
@[simp] theorem faultWork_grp (c : Nat) (w : Work) (d : FaultDetail) (r : Nat) (s : State) : (faultWork c w d r s).grp = s.grp := by simp [faultWork]
@[simp] theorem faultWork_colls (c : Nat) (w : Work) (d : FaultDetail) (r : Nat) (s : State) : (faultWork c w d r s).colls = s.colls := by simp [faultWork]
@[simp] theorem faultWork_pow (c : Nat) (w : Work) (d : FaultDetail) (r : Nat) (s : State) : (faultWork c w d r s).pow = s.pow := by simp [faultWork]
@[simp] theorem faultWork_board (c : Nat) (w : Work) (d : FaultDetail) (r : Nat) (s : State) : (faultWork c w d r s).board = s.board := by simp [faultWork]
@[simp] theorem faultWork_flash (c : Nat) (w : Work) (d : FaultDetail) (r : Nat) (s : State) : (faultWork c w d r s).flash = s.flash := by simp [faultWork]
@[simp] theorem faultWork_test (c : Nat) (w : Work) (d : FaultDetail) (r : Nat) (s : State) : (faultWork c w d r s).test = s.test := by simp [faultWork]
@[simp] theorem faultWork_bnd (c : Nat) (w : Work) (d : FaultDetail) (r : Nat) (s : State) : (faultWork c w d r s).bnd = s.bnd := by simp [faultWork]

@[simp] theorem setCell_pending (c : Nat) (v : Word) (s : State) : (setCell c v s).pending = s.pending := rfl
@[simp] theorem setCell_free (c : Nat) (v : Word) (s : State) : (setCell c v s).free = s.free := rfl
@[simp] theorem setCell_nextId (c : Nat) (v : Word) (s : State) : (setCell c v s).nextId = s.nextId := rfl
@[simp] theorem setCell_host (c : Nat) (v : Word) (s : State) : (setCell c v s).host = s.host := rfl
@[simp] theorem setCell_regs (c : Nat) (v : Word) (s : State) : (setCell c v s).regs = s.regs := rfl
@[simp] theorem setCell_dev (c : Nat) (v : Word) (s : State) : (setCell c v s).dev = s.dev := rfl
@[simp] theorem setCell_chart (c : Nat) (v : Word) (s : State) : (setCell c v s).chart = s.chart := rfl
@[simp] theorem setCell_queues (c : Nat) (v : Word) (s : State) : (setCell c v s).queues = s.queues := rfl
@[simp] theorem setCell_slots (c : Nat) (v : Word) (s : State) : (setCell c v s).slots = s.slots := rfl
@[simp] theorem setCell_conf (c : Nat) (v : Word) (s : State) : (setCell c v s).conf = s.conf := rfl
@[simp] theorem setCell_mem (c : Nat) (v : Word) (s : State) : (setCell c v s).mem = s.mem := rfl
@[simp] theorem setCell_arrays (c : Nat) (v : Word) (s : State) : (setCell c v s).arrays = s.arrays := rfl
@[simp] theorem setCell_tokens (c : Nat) (v : Word) (s : State) : (setCell c v s).tokens = s.tokens := rfl
@[simp] theorem setCell_fab (c : Nat) (v : Word) (s : State) : (setCell c v s).fab = s.fab := rfl
@[simp] theorem setCell_grp (c : Nat) (v : Word) (s : State) : (setCell c v s).grp = s.grp := rfl
@[simp] theorem setCell_colls (c : Nat) (v : Word) (s : State) : (setCell c v s).colls = s.colls := rfl
@[simp] theorem setCell_fix (c : Nat) (v : Word) (s : State) : (setCell c v s).fix = s.fix := rfl
@[simp] theorem setCell_pow (c : Nat) (v : Word) (s : State) : (setCell c v s).pow = s.pow := rfl
@[simp] theorem setCell_board (c : Nat) (v : Word) (s : State) : (setCell c v s).board = s.board := rfl
@[simp] theorem setCell_mgmt (c : Nat) (v : Word) (s : State) : (setCell c v s).mgmt = s.mgmt := rfl
@[simp] theorem setCell_flash (c : Nat) (v : Word) (s : State) : (setCell c v s).flash = s.flash := rfl
@[simp] theorem setCell_test (c : Nat) (v : Word) (s : State) : (setCell c v s).test = s.test := rfl
@[simp] theorem setCell_bnd (c : Nat) (v : Word) (s : State) : (setCell c v s).bnd = s.bnd := rfl

@[simp] theorem deliver_pending (r : Requester) (v : Word) (s : State) : (deliver r v s).pending = s.pending := by unfold deliver; dsimp only; (repeat' split) <;> simp
@[simp] theorem deliver_host (r : Requester) (v : Word) (s : State) : (deliver r v s).host = s.host := by unfold deliver; dsimp only; (repeat' split) <;> simp
@[simp] theorem deliver_regs (r : Requester) (v : Word) (s : State) : (deliver r v s).regs = s.regs := by unfold deliver; dsimp only; (repeat' split) <;> simp
@[simp] theorem deliver_dev (r : Requester) (v : Word) (s : State) : (deliver r v s).dev = s.dev := by unfold deliver; dsimp only; (repeat' split) <;> simp
@[simp] theorem deliver_chart (r : Requester) (v : Word) (s : State) : (deliver r v s).chart = s.chart := by unfold deliver; dsimp only; (repeat' split) <;> simp
@[simp] theorem deliver_slots (r : Requester) (v : Word) (s : State) : (deliver r v s).slots = s.slots := by unfold deliver; dsimp only; (repeat' split) <;> simp
@[simp] theorem deliver_conf (r : Requester) (v : Word) (s : State) : (deliver r v s).conf = s.conf := by unfold deliver; dsimp only; (repeat' split) <;> simp
@[simp] theorem deliver_mem (r : Requester) (v : Word) (s : State) : (deliver r v s).mem = s.mem := by unfold deliver; dsimp only; (repeat' split) <;> simp
@[simp] theorem deliver_arrays (r : Requester) (v : Word) (s : State) : (deliver r v s).arrays = s.arrays := by unfold deliver; dsimp only; (repeat' split) <;> simp
@[simp] theorem deliver_tokens (r : Requester) (v : Word) (s : State) : (deliver r v s).tokens = s.tokens := by unfold deliver; dsimp only; (repeat' split) <;> simp
@[simp] theorem deliver_grp (r : Requester) (v : Word) (s : State) : (deliver r v s).grp = s.grp := by unfold deliver; dsimp only; (repeat' split) <;> simp
@[simp] theorem deliver_colls (r : Requester) (v : Word) (s : State) : (deliver r v s).colls = s.colls := by unfold deliver; dsimp only; (repeat' split) <;> simp
@[simp] theorem deliver_fix (r : Requester) (v : Word) (s : State) : (deliver r v s).fix = s.fix := by unfold deliver; dsimp only; (repeat' split) <;> simp
@[simp] theorem deliver_pow (r : Requester) (v : Word) (s : State) : (deliver r v s).pow = s.pow := by unfold deliver; dsimp only; (repeat' split) <;> simp
@[simp] theorem deliver_board (r : Requester) (v : Word) (s : State) : (deliver r v s).board = s.board := by unfold deliver; dsimp only; (repeat' split) <;> simp
@[simp] theorem deliver_flash (r : Requester) (v : Word) (s : State) : (deliver r v s).flash = s.flash := by unfold deliver; dsimp only; (repeat' split) <;> simp
@[simp] theorem deliver_test (r : Requester) (v : Word) (s : State) : (deliver r v s).test = s.test := by unfold deliver; dsimp only; (repeat' split) <;> simp

@[simp] theorem releaseWaits_pending (c : Nat) (s : State) : (releaseWaits c s).pending = s.pending := rfl
@[simp] theorem releaseWaits_free (c : Nat) (s : State) : (releaseWaits c s).free = s.free := rfl
@[simp] theorem releaseWaits_nextId (c : Nat) (s : State) : (releaseWaits c s).nextId = s.nextId := rfl
@[simp] theorem releaseWaits_host (c : Nat) (s : State) : (releaseWaits c s).host = s.host := rfl
@[simp] theorem releaseWaits_regs (c : Nat) (s : State) : (releaseWaits c s).regs = s.regs := rfl
@[simp] theorem releaseWaits_dev (c : Nat) (s : State) : (releaseWaits c s).dev = s.dev := rfl
@[simp] theorem releaseWaits_chart (c : Nat) (s : State) : (releaseWaits c s).chart = s.chart := rfl
@[simp] theorem releaseWaits_queues (c : Nat) (s : State) : (releaseWaits c s).queues = s.queues := rfl
@[simp] theorem releaseWaits_slots (c : Nat) (s : State) : (releaseWaits c s).slots = s.slots := rfl
@[simp] theorem releaseWaits_conf (c : Nat) (s : State) : (releaseWaits c s).conf = s.conf := rfl
@[simp] theorem releaseWaits_mem (c : Nat) (s : State) : (releaseWaits c s).mem = s.mem := rfl
@[simp] theorem releaseWaits_ctxs (c : Nat) (s : State) : (releaseWaits c s).ctxs = s.ctxs := rfl
@[simp] theorem releaseWaits_arrays (c : Nat) (s : State) : (releaseWaits c s).arrays = s.arrays := rfl
@[simp] theorem releaseWaits_tokens (c : Nat) (s : State) : (releaseWaits c s).tokens = s.tokens := rfl
@[simp] theorem releaseWaits_fab (c : Nat) (s : State) : (releaseWaits c s).fab = s.fab := rfl
@[simp] theorem releaseWaits_grp (c : Nat) (s : State) : (releaseWaits c s).grp = s.grp := rfl
@[simp] theorem releaseWaits_colls (c : Nat) (s : State) : (releaseWaits c s).colls = s.colls := rfl
@[simp] theorem releaseWaits_fix (c : Nat) (s : State) : (releaseWaits c s).fix = s.fix := rfl
@[simp] theorem releaseWaits_pow (c : Nat) (s : State) : (releaseWaits c s).pow = s.pow := rfl
@[simp] theorem releaseWaits_board (c : Nat) (s : State) : (releaseWaits c s).board = s.board := rfl
@[simp] theorem releaseWaits_mgmt (c : Nat) (s : State) : (releaseWaits c s).mgmt = s.mgmt := rfl
@[simp] theorem releaseWaits_flash (c : Nat) (s : State) : (releaseWaits c s).flash = s.flash := rfl
@[simp] theorem releaseWaits_test (c : Nat) (s : State) : (releaseWaits c s).test = s.test := rfl
@[simp] theorem releaseWaits_bnd (c : Nat) (s : State) : (releaseWaits c s).bnd = s.bnd := rfl

@[simp] theorem cellWrite_pending (c : Nat) (v : Word) (s : State) : (cellWrite c v s).pending = s.pending := rfl
@[simp] theorem cellWrite_free (c : Nat) (v : Word) (s : State) : (cellWrite c v s).free = s.free := rfl
@[simp] theorem cellWrite_nextId (c : Nat) (v : Word) (s : State) : (cellWrite c v s).nextId = s.nextId := rfl
@[simp] theorem cellWrite_host (c : Nat) (v : Word) (s : State) : (cellWrite c v s).host = s.host := rfl
@[simp] theorem cellWrite_regs (c : Nat) (v : Word) (s : State) : (cellWrite c v s).regs = s.regs := rfl
@[simp] theorem cellWrite_dev (c : Nat) (v : Word) (s : State) : (cellWrite c v s).dev = s.dev := rfl
@[simp] theorem cellWrite_chart (c : Nat) (v : Word) (s : State) : (cellWrite c v s).chart = s.chart := rfl
@[simp] theorem cellWrite_queues (c : Nat) (v : Word) (s : State) : (cellWrite c v s).queues = s.queues := rfl
@[simp] theorem cellWrite_slots (c : Nat) (v : Word) (s : State) : (cellWrite c v s).slots = s.slots := rfl
@[simp] theorem cellWrite_conf (c : Nat) (v : Word) (s : State) : (cellWrite c v s).conf = s.conf := rfl
@[simp] theorem cellWrite_mem (c : Nat) (v : Word) (s : State) : (cellWrite c v s).mem = s.mem := rfl
@[simp] theorem cellWrite_arrays (c : Nat) (v : Word) (s : State) : (cellWrite c v s).arrays = s.arrays := rfl
@[simp] theorem cellWrite_tokens (c : Nat) (v : Word) (s : State) : (cellWrite c v s).tokens = s.tokens := rfl
@[simp] theorem cellWrite_fab (c : Nat) (v : Word) (s : State) : (cellWrite c v s).fab = s.fab := rfl
@[simp] theorem cellWrite_grp (c : Nat) (v : Word) (s : State) : (cellWrite c v s).grp = s.grp := rfl
@[simp] theorem cellWrite_colls (c : Nat) (v : Word) (s : State) : (cellWrite c v s).colls = s.colls := rfl
@[simp] theorem cellWrite_fix (c : Nat) (v : Word) (s : State) : (cellWrite c v s).fix = s.fix := rfl
@[simp] theorem cellWrite_pow (c : Nat) (v : Word) (s : State) : (cellWrite c v s).pow = s.pow := rfl
@[simp] theorem cellWrite_board (c : Nat) (v : Word) (s : State) : (cellWrite c v s).board = s.board := rfl
@[simp] theorem cellWrite_mgmt (c : Nat) (v : Word) (s : State) : (cellWrite c v s).mgmt = s.mgmt := rfl
@[simp] theorem cellWrite_flash (c : Nat) (v : Word) (s : State) : (cellWrite c v s).flash = s.flash := rfl
@[simp] theorem cellWrite_test (c : Nat) (v : Word) (s : State) : (cellWrite c v s).test = s.test := rfl
@[simp] theorem cellWrite_bnd (c : Nat) (v : Word) (s : State) : (cellWrite c v s).bnd = s.bnd := rfl

@[simp] theorem presentWait_pending (w : Wait) (s : State) : (presentWait w s).pending = s.pending := by unfold presentWait; dsimp only; (repeat' split) <;> simp
@[simp] theorem presentWait_host (w : Wait) (s : State) : (presentWait w s).host = s.host := by unfold presentWait; dsimp only; (repeat' split) <;> simp
@[simp] theorem presentWait_regs (w : Wait) (s : State) : (presentWait w s).regs = s.regs := by unfold presentWait; dsimp only; (repeat' split) <;> simp
@[simp] theorem presentWait_dev (w : Wait) (s : State) : (presentWait w s).dev = s.dev := by unfold presentWait; dsimp only; (repeat' split) <;> simp
@[simp] theorem presentWait_chart (w : Wait) (s : State) : (presentWait w s).chart = s.chart := by unfold presentWait; dsimp only; (repeat' split) <;> simp
@[simp] theorem presentWait_slots (w : Wait) (s : State) : (presentWait w s).slots = s.slots := by unfold presentWait; dsimp only; (repeat' split) <;> simp
@[simp] theorem presentWait_conf (w : Wait) (s : State) : (presentWait w s).conf = s.conf := by unfold presentWait; dsimp only; (repeat' split) <;> simp
@[simp] theorem presentWait_mem (w : Wait) (s : State) : (presentWait w s).mem = s.mem := by unfold presentWait; dsimp only; (repeat' split) <;> simp
@[simp] theorem presentWait_arrays (w : Wait) (s : State) : (presentWait w s).arrays = s.arrays := by unfold presentWait; dsimp only; (repeat' split) <;> simp
@[simp] theorem presentWait_tokens (w : Wait) (s : State) : (presentWait w s).tokens = s.tokens := by unfold presentWait; dsimp only; (repeat' split) <;> simp
@[simp] theorem presentWait_grp (w : Wait) (s : State) : (presentWait w s).grp = s.grp := by unfold presentWait; dsimp only; (repeat' split) <;> simp
@[simp] theorem presentWait_colls (w : Wait) (s : State) : (presentWait w s).colls = s.colls := by unfold presentWait; dsimp only; (repeat' split) <;> simp
@[simp] theorem presentWait_fix (w : Wait) (s : State) : (presentWait w s).fix = s.fix := by unfold presentWait; dsimp only; (repeat' split) <;> simp
@[simp] theorem presentWait_pow (w : Wait) (s : State) : (presentWait w s).pow = s.pow := by unfold presentWait; dsimp only; (repeat' split) <;> simp
@[simp] theorem presentWait_board (w : Wait) (s : State) : (presentWait w s).board = s.board := by unfold presentWait; dsimp only; (repeat' split) <;> simp
@[simp] theorem presentWait_flash (w : Wait) (s : State) : (presentWait w s).flash = s.flash := by unfold presentWait; dsimp only; (repeat' split) <;> simp
@[simp] theorem presentWait_test (w : Wait) (s : State) : (presentWait w s).test = s.test := by unfold presentWait; dsimp only; (repeat' split) <;> simp

@[simp] theorem syncApply_pending (r : Requester) (c : Nat) (a : SyncAct) (s : State) : (syncApply r c a s).pending = s.pending := by unfold syncApply; dsimp only; (repeat' split) <;> simp
@[simp] theorem syncApply_host (r : Requester) (c : Nat) (a : SyncAct) (s : State) : (syncApply r c a s).host = s.host := by unfold syncApply; dsimp only; (repeat' split) <;> simp
@[simp] theorem syncApply_regs (r : Requester) (c : Nat) (a : SyncAct) (s : State) : (syncApply r c a s).regs = s.regs := by unfold syncApply; dsimp only; (repeat' split) <;> simp
@[simp] theorem syncApply_dev (r : Requester) (c : Nat) (a : SyncAct) (s : State) : (syncApply r c a s).dev = s.dev := by unfold syncApply; dsimp only; (repeat' split) <;> simp
@[simp] theorem syncApply_chart (r : Requester) (c : Nat) (a : SyncAct) (s : State) : (syncApply r c a s).chart = s.chart := by unfold syncApply; dsimp only; (repeat' split) <;> simp
@[simp] theorem syncApply_slots (r : Requester) (c : Nat) (a : SyncAct) (s : State) : (syncApply r c a s).slots = s.slots := by unfold syncApply; dsimp only; (repeat' split) <;> simp
@[simp] theorem syncApply_conf (r : Requester) (c : Nat) (a : SyncAct) (s : State) : (syncApply r c a s).conf = s.conf := by unfold syncApply; dsimp only; (repeat' split) <;> simp
@[simp] theorem syncApply_mem (r : Requester) (c : Nat) (a : SyncAct) (s : State) : (syncApply r c a s).mem = s.mem := by unfold syncApply; dsimp only; (repeat' split) <;> simp
@[simp] theorem syncApply_arrays (r : Requester) (c : Nat) (a : SyncAct) (s : State) : (syncApply r c a s).arrays = s.arrays := by unfold syncApply; dsimp only; (repeat' split) <;> simp
@[simp] theorem syncApply_tokens (r : Requester) (c : Nat) (a : SyncAct) (s : State) : (syncApply r c a s).tokens = s.tokens := by unfold syncApply; dsimp only; (repeat' split) <;> simp
@[simp] theorem syncApply_grp (r : Requester) (c : Nat) (a : SyncAct) (s : State) : (syncApply r c a s).grp = s.grp := by unfold syncApply; dsimp only; (repeat' split) <;> simp
@[simp] theorem syncApply_colls (r : Requester) (c : Nat) (a : SyncAct) (s : State) : (syncApply r c a s).colls = s.colls := by unfold syncApply; dsimp only; (repeat' split) <;> simp
@[simp] theorem syncApply_fix (r : Requester) (c : Nat) (a : SyncAct) (s : State) : (syncApply r c a s).fix = s.fix := by unfold syncApply; dsimp only; (repeat' split) <;> simp
@[simp] theorem syncApply_pow (r : Requester) (c : Nat) (a : SyncAct) (s : State) : (syncApply r c a s).pow = s.pow := by unfold syncApply; dsimp only; (repeat' split) <;> simp
@[simp] theorem syncApply_board (r : Requester) (c : Nat) (a : SyncAct) (s : State) : (syncApply r c a s).board = s.board := by unfold syncApply; dsimp only; (repeat' split) <;> simp
@[simp] theorem syncApply_flash (r : Requester) (c : Nat) (a : SyncAct) (s : State) : (syncApply r c a s).flash = s.flash := by unfold syncApply; dsimp only; (repeat' split) <;> simp
@[simp] theorem syncApply_test (r : Requester) (c : Nat) (a : SyncAct) (s : State) : (syncApply r c a s).test = s.test := by unfold syncApply; dsimp only; (repeat' split) <;> simp

@[simp] theorem syncAdd_pending (c : Nat) (v : Word) (s : State) : (syncAdd c v s).pending = s.pending := rfl
@[simp] theorem syncAdd_free (c : Nat) (v : Word) (s : State) : (syncAdd c v s).free = s.free := rfl
@[simp] theorem syncAdd_nextId (c : Nat) (v : Word) (s : State) : (syncAdd c v s).nextId = s.nextId := rfl
@[simp] theorem syncAdd_host (c : Nat) (v : Word) (s : State) : (syncAdd c v s).host = s.host := rfl
@[simp] theorem syncAdd_regs (c : Nat) (v : Word) (s : State) : (syncAdd c v s).regs = s.regs := rfl
@[simp] theorem syncAdd_dev (c : Nat) (v : Word) (s : State) : (syncAdd c v s).dev = s.dev := rfl
@[simp] theorem syncAdd_chart (c : Nat) (v : Word) (s : State) : (syncAdd c v s).chart = s.chart := rfl
@[simp] theorem syncAdd_queues (c : Nat) (v : Word) (s : State) : (syncAdd c v s).queues = s.queues := rfl
@[simp] theorem syncAdd_slots (c : Nat) (v : Word) (s : State) : (syncAdd c v s).slots = s.slots := rfl
@[simp] theorem syncAdd_conf (c : Nat) (v : Word) (s : State) : (syncAdd c v s).conf = s.conf := rfl
@[simp] theorem syncAdd_mem (c : Nat) (v : Word) (s : State) : (syncAdd c v s).mem = s.mem := rfl
@[simp] theorem syncAdd_arrays (c : Nat) (v : Word) (s : State) : (syncAdd c v s).arrays = s.arrays := rfl
@[simp] theorem syncAdd_tokens (c : Nat) (v : Word) (s : State) : (syncAdd c v s).tokens = s.tokens := rfl
@[simp] theorem syncAdd_fab (c : Nat) (v : Word) (s : State) : (syncAdd c v s).fab = s.fab := rfl
@[simp] theorem syncAdd_grp (c : Nat) (v : Word) (s : State) : (syncAdd c v s).grp = s.grp := rfl
@[simp] theorem syncAdd_colls (c : Nat) (v : Word) (s : State) : (syncAdd c v s).colls = s.colls := rfl
@[simp] theorem syncAdd_fix (c : Nat) (v : Word) (s : State) : (syncAdd c v s).fix = s.fix := rfl
@[simp] theorem syncAdd_pow (c : Nat) (v : Word) (s : State) : (syncAdd c v s).pow = s.pow := rfl
@[simp] theorem syncAdd_board (c : Nat) (v : Word) (s : State) : (syncAdd c v s).board = s.board := rfl
@[simp] theorem syncAdd_mgmt (c : Nat) (v : Word) (s : State) : (syncAdd c v s).mgmt = s.mgmt := rfl
@[simp] theorem syncAdd_flash (c : Nat) (v : Word) (s : State) : (syncAdd c v s).flash = s.flash := rfl
@[simp] theorem syncAdd_test (c : Nat) (v : Word) (s : State) : (syncAdd c v s).test = s.test := rfl
@[simp] theorem syncAdd_bnd (c : Nat) (v : Word) (s : State) : (syncAdd c v s).bnd = s.bnd := rfl

end Sys2Proof.Machine
end

