-- ==== Sys2Proof/Laws/Accept.lean ====
section
/-! SUPPORT. What a packet's row does once its packet is accepted, and that a packet's row never stops while the module has power. -/
namespace Sys2Proof.Machine

/-- An accepted command without a result slot runs its body on the state that owes its completion. -/
theorem packetOut_plain {op : Nat} {c : Checks} {p : Packet} {s : State} {accept : Packet → State → State} {body : Nat → State → State}
    (h : Accepted op c p s) (ha : accept p (owe p s) = acceptPacket op c body p (owe p s)) (hc : c.charge = none) :
    packetOut op accept p s = .next (body 0xFFFF (owe p s)) := by
  obtain ⟨⟨h1, h2, h3, h4⟩, h5⟩ := h
  simp [packetOut, gate, runPacket, h1, h2, h3, ha, acceptPacket, h4, hc, -not_and]
  exact fun a b => absurd b (h5 a)

/-- An accepted command with a result slot runs its body with the slot's index. -/
theorem packetOut_slot {op n : Nat} {c : Checks} {p : Packet} {s : State} {accept : Packet → State → State} {body : Nat → State → State}
    (h : Accepted op c p s) (ha : accept p (owe p s) = acceptPacket op c body p (owe p s)) (hc : c.charge = some n) :
    packetOut op accept p s = .next (withSlot p n (owe p s) body) := by
  obtain ⟨⟨h1, h2, h3, h4⟩, h5⟩ := h
  simp [packetOut, gate, runPacket, h1, h2, h3, ha, acceptPacket, h4, hc, withSlot]
  exact fun a b => absurd b (h5 a)

/-- A command accepted in FIXING that starts when the Fix stop ends is put behind those accepted before it (R248). -/
theorem packetOut_later {op : Nat} {c : Checks} {p : Packet} {s : State} {accept : Packet → State → State} {body : Nat → State → State}
    (h : Passes op c p s) (ha : accept p (owe p s) = acceptPacket op c body p (owe p s)) (hw : waitsForStop op = true) (hf : s.dev.st = .fixing) :
    packetOut op accept p s = .next { owe p s with dev := { (owe p s).dev with starts := (owe p s).dev.starts ++ [(op, p)] } } := by
  obtain ⟨_, h2, h3, h4⟩ := h
  simp [packetOut, gate, runPacket, h2, h3, ha, acceptPacket, h4, hw, hf]

/-- While the module has power a packet's row answers a next state: it waits, is refused with a completion, or runs. -/
theorem packetOut_next {op : Nat} {p : Packet} {s : State} {accept : Packet → State → State} (h : s.dev.st ≠ .off) :
    packetOut op accept p s = .next (runPacket op accept p s) := by simp [packetOut, gate, h]

end Sys2Proof.Machine
end

