-- ==== Sys2Proof/Laws/Fix.lean ====
section
/-! SUPPORT. What copying a Fix into an own slot, writing its header and setting its flags leave unchanged: all but device memory and its caches. -/
namespace Sys2Proof.Machine

@[simp] theorem storeRegions_pending (n : Nat) (l : List (Nat × Nat × Nat × Mem)) (s : State) : (storeRegions n l s).pending = s.pending := by
  unfold storeRegions; split
  · rfl
  · exact foldl_keeps _ (fun t : State => t.pending) (by simp) _ _
@[simp] theorem storeRegions_nextId (n : Nat) (l : List (Nat × Nat × Nat × Mem)) (s : State) : (storeRegions n l s).nextId = s.nextId := by
  unfold storeRegions; split
  · rfl
  · exact foldl_keeps _ (fun t : State => t.nextId) (by simp) _ _
@[simp] theorem storeRegions_host (n : Nat) (l : List (Nat × Nat × Nat × Mem)) (s : State) : (storeRegions n l s).host = s.host := by
  unfold storeRegions; split
  · rfl
  · exact foldl_keeps _ (fun t : State => t.host) (by simp) _ _
@[simp] theorem storeRegions_regs (n : Nat) (l : List (Nat × Nat × Nat × Mem)) (s : State) : (storeRegions n l s).regs = s.regs := by
  unfold storeRegions; split
  · rfl
  · exact foldl_keeps _ (fun t : State => t.regs) (by simp) _ _
@[simp] theorem storeRegions_dev (n : Nat) (l : List (Nat × Nat × Nat × Mem)) (s : State) : (storeRegions n l s).dev = s.dev := by
  unfold storeRegions; split
  · rfl
  · exact foldl_keeps _ (fun t : State => t.dev) (by simp) _ _
@[simp] theorem storeRegions_chart (n : Nat) (l : List (Nat × Nat × Nat × Mem)) (s : State) : (storeRegions n l s).chart = s.chart := by
  unfold storeRegions; split
  · rfl
  · exact foldl_keeps _ (fun t : State => t.chart) (by simp) _ _
@[simp] theorem storeRegions_queues (n : Nat) (l : List (Nat × Nat × Nat × Mem)) (s : State) : (storeRegions n l s).queues = s.queues := by
  unfold storeRegions; split
  · rfl
  · exact foldl_keeps _ (fun t : State => t.queues) (by simp) _ _
@[simp] theorem storeRegions_slots (n : Nat) (l : List (Nat × Nat × Nat × Mem)) (s : State) : (storeRegions n l s).slots = s.slots := by
  unfold storeRegions; split
  · rfl
  · exact foldl_keeps _ (fun t : State => t.slots) (by simp) _ _
@[simp] theorem storeRegions_conf (n : Nat) (l : List (Nat × Nat × Nat × Mem)) (s : State) : (storeRegions n l s).conf = s.conf := by
  unfold storeRegions; split
  · rfl
  · exact foldl_keeps _ (fun t : State => t.conf) (by simp) _ _
@[simp] theorem storeRegions_sync (n : Nat) (l : List (Nat × Nat × Nat × Mem)) (s : State) : (storeRegions n l s).sync = s.sync := by
  unfold storeRegions; split
  · rfl
  · exact foldl_keeps _ (fun t : State => t.sync) (by simp) _ _
@[simp] theorem storeRegions_ctxs (n : Nat) (l : List (Nat × Nat × Nat × Mem)) (s : State) : (storeRegions n l s).ctxs = s.ctxs := by
  unfold storeRegions; split
  · rfl
  · exact foldl_keeps _ (fun t : State => t.ctxs) (by simp) _ _
@[simp] theorem storeRegions_arrays (n : Nat) (l : List (Nat × Nat × Nat × Mem)) (s : State) : (storeRegions n l s).arrays = s.arrays := by
  unfold storeRegions; split
  · rfl
  · exact foldl_keeps _ (fun t : State => t.arrays) (by simp) _ _
@[simp] theorem storeRegions_tokens (n : Nat) (l : List (Nat × Nat × Nat × Mem)) (s : State) : (storeRegions n l s).tokens = s.tokens := by
  unfold storeRegions; split
  · rfl
  · exact foldl_keeps _ (fun t : State => t.tokens) (by simp) _ _
@[simp] theorem storeRegions_fab (n : Nat) (l : List (Nat × Nat × Nat × Mem)) (s : State) : (storeRegions n l s).fab = s.fab := by
  unfold storeRegions; split
  · rfl
  · exact foldl_keeps _ (fun t : State => t.fab) (by simp) _ _
@[simp] theorem storeRegions_grp (n : Nat) (l : List (Nat × Nat × Nat × Mem)) (s : State) : (storeRegions n l s).grp = s.grp := by
  unfold storeRegions; split
  · rfl
  · exact foldl_keeps _ (fun t : State => t.grp) (by simp) _ _
@[simp] theorem storeRegions_colls (n : Nat) (l : List (Nat × Nat × Nat × Mem)) (s : State) : (storeRegions n l s).colls = s.colls := by
  unfold storeRegions; split
  · rfl
  · exact foldl_keeps _ (fun t : State => t.colls) (by simp) _ _
@[simp] theorem storeRegions_fix (n : Nat) (l : List (Nat × Nat × Nat × Mem)) (s : State) : (storeRegions n l s).fix = s.fix := by
  unfold storeRegions; split
  · rfl
  · exact foldl_keeps _ (fun t : State => t.fix) (by simp) _ _
@[simp] theorem storeRegions_pow (n : Nat) (l : List (Nat × Nat × Nat × Mem)) (s : State) : (storeRegions n l s).pow = s.pow := by
  unfold storeRegions; split
  · rfl
  · exact foldl_keeps _ (fun t : State => t.pow) (by simp) _ _
@[simp] theorem storeRegions_board (n : Nat) (l : List (Nat × Nat × Nat × Mem)) (s : State) : (storeRegions n l s).board = s.board := by
  unfold storeRegions; split
  · rfl
  · exact foldl_keeps _ (fun t : State => t.board) (by simp) _ _
@[simp] theorem storeRegions_mgmt (n : Nat) (l : List (Nat × Nat × Nat × Mem)) (s : State) : (storeRegions n l s).mgmt = s.mgmt := by
  unfold storeRegions; split
  · rfl
  · exact foldl_keeps _ (fun t : State => t.mgmt) (by simp) _ _
@[simp] theorem storeRegions_flash (n : Nat) (l : List (Nat × Nat × Nat × Mem)) (s : State) : (storeRegions n l s).flash = s.flash := by
  unfold storeRegions; split
  · rfl
  · exact foldl_keeps _ (fun t : State => t.flash) (by simp) _ _
@[simp] theorem storeRegions_test (n : Nat) (l : List (Nat × Nat × Nat × Mem)) (s : State) : (storeRegions n l s).test = s.test := by
  unfold storeRegions; split
  · rfl
  · exact foldl_keeps _ (fun t : State => t.test) (by simp) _ _
@[simp] theorem storeRegions_bnd (n : Nat) (l : List (Nat × Nat × Nat × Mem)) (s : State) : (storeRegions n l s).bnd = s.bnd := by
  unfold storeRegions; split
  · rfl
  · exact foldl_keeps _ (fun t : State => t.bnd) (by simp) _ _

@[simp] theorem storeHeader_pending (n : Nat) (s : State) : (storeHeader n s).pending = s.pending := by unfold storeHeader; split <;> simp
@[simp] theorem storeHeader_nextId (n : Nat) (s : State) : (storeHeader n s).nextId = s.nextId := by unfold storeHeader; split <;> simp
@[simp] theorem storeHeader_host (n : Nat) (s : State) : (storeHeader n s).host = s.host := by unfold storeHeader; split <;> simp
@[simp] theorem storeHeader_regs (n : Nat) (s : State) : (storeHeader n s).regs = s.regs := by unfold storeHeader; split <;> simp
@[simp] theorem storeHeader_dev (n : Nat) (s : State) : (storeHeader n s).dev = s.dev := by unfold storeHeader; split <;> simp
@[simp] theorem storeHeader_chart (n : Nat) (s : State) : (storeHeader n s).chart = s.chart := by unfold storeHeader; split <;> simp
@[simp] theorem storeHeader_queues (n : Nat) (s : State) : (storeHeader n s).queues = s.queues := by unfold storeHeader; split <;> simp
@[simp] theorem storeHeader_slots (n : Nat) (s : State) : (storeHeader n s).slots = s.slots := by unfold storeHeader; split <;> simp
@[simp] theorem storeHeader_conf (n : Nat) (s : State) : (storeHeader n s).conf = s.conf := by unfold storeHeader; split <;> simp
@[simp] theorem storeHeader_sync (n : Nat) (s : State) : (storeHeader n s).sync = s.sync := by unfold storeHeader; split <;> simp
@[simp] theorem storeHeader_ctxs (n : Nat) (s : State) : (storeHeader n s).ctxs = s.ctxs := by unfold storeHeader; split <;> simp
@[simp] theorem storeHeader_arrays (n : Nat) (s : State) : (storeHeader n s).arrays = s.arrays := by unfold storeHeader; split <;> simp
@[simp] theorem storeHeader_tokens (n : Nat) (s : State) : (storeHeader n s).tokens = s.tokens := by unfold storeHeader; split <;> simp
@[simp] theorem storeHeader_fab (n : Nat) (s : State) : (storeHeader n s).fab = s.fab := by unfold storeHeader; split <;> simp
@[simp] theorem storeHeader_grp (n : Nat) (s : State) : (storeHeader n s).grp = s.grp := by unfold storeHeader; split <;> simp
@[simp] theorem storeHeader_colls (n : Nat) (s : State) : (storeHeader n s).colls = s.colls := by unfold storeHeader; split <;> simp
@[simp] theorem storeHeader_fix (n : Nat) (s : State) : (storeHeader n s).fix = s.fix := by unfold storeHeader; split <;> simp
@[simp] theorem storeHeader_pow (n : Nat) (s : State) : (storeHeader n s).pow = s.pow := by unfold storeHeader; split <;> simp
@[simp] theorem storeHeader_board (n : Nat) (s : State) : (storeHeader n s).board = s.board := by unfold storeHeader; split <;> simp
@[simp] theorem storeHeader_mgmt (n : Nat) (s : State) : (storeHeader n s).mgmt = s.mgmt := by unfold storeHeader; split <;> simp
@[simp] theorem storeHeader_flash (n : Nat) (s : State) : (storeHeader n s).flash = s.flash := by unfold storeHeader; split <;> simp
@[simp] theorem storeHeader_test (n : Nat) (s : State) : (storeHeader n s).test = s.test := by unfold storeHeader; split <;> simp
@[simp] theorem storeHeader_bnd (n : Nat) (s : State) : (storeHeader n s).bnd = s.bnd := by unfold storeHeader; split <;> simp

@[simp] theorem storeFlags_pending (n : Nat) (s : State) : (storeFlags n s).pending = s.pending := by unfold storeFlags; split <;> simp
@[simp] theorem storeFlags_nextId (n : Nat) (s : State) : (storeFlags n s).nextId = s.nextId := by unfold storeFlags; split <;> simp
@[simp] theorem storeFlags_host (n : Nat) (s : State) : (storeFlags n s).host = s.host := by unfold storeFlags; split <;> simp
@[simp] theorem storeFlags_regs (n : Nat) (s : State) : (storeFlags n s).regs = s.regs := by unfold storeFlags; split <;> simp
@[simp] theorem storeFlags_dev (n : Nat) (s : State) : (storeFlags n s).dev = s.dev := by unfold storeFlags; split <;> simp
@[simp] theorem storeFlags_chart (n : Nat) (s : State) : (storeFlags n s).chart = s.chart := by unfold storeFlags; split <;> simp
@[simp] theorem storeFlags_queues (n : Nat) (s : State) : (storeFlags n s).queues = s.queues := by unfold storeFlags; split <;> simp
@[simp] theorem storeFlags_slots (n : Nat) (s : State) : (storeFlags n s).slots = s.slots := by unfold storeFlags; split <;> simp
@[simp] theorem storeFlags_conf (n : Nat) (s : State) : (storeFlags n s).conf = s.conf := by unfold storeFlags; split <;> simp
@[simp] theorem storeFlags_sync (n : Nat) (s : State) : (storeFlags n s).sync = s.sync := by unfold storeFlags; split <;> simp
@[simp] theorem storeFlags_ctxs (n : Nat) (s : State) : (storeFlags n s).ctxs = s.ctxs := by unfold storeFlags; split <;> simp
@[simp] theorem storeFlags_arrays (n : Nat) (s : State) : (storeFlags n s).arrays = s.arrays := by unfold storeFlags; split <;> simp
@[simp] theorem storeFlags_tokens (n : Nat) (s : State) : (storeFlags n s).tokens = s.tokens := by unfold storeFlags; split <;> simp
@[simp] theorem storeFlags_fab (n : Nat) (s : State) : (storeFlags n s).fab = s.fab := by unfold storeFlags; split <;> simp
@[simp] theorem storeFlags_grp (n : Nat) (s : State) : (storeFlags n s).grp = s.grp := by unfold storeFlags; split <;> simp
@[simp] theorem storeFlags_colls (n : Nat) (s : State) : (storeFlags n s).colls = s.colls := by unfold storeFlags; split <;> simp
@[simp] theorem storeFlags_fix (n : Nat) (s : State) : (storeFlags n s).fix = s.fix := by unfold storeFlags; split <;> simp
@[simp] theorem storeFlags_pow (n : Nat) (s : State) : (storeFlags n s).pow = s.pow := by unfold storeFlags; split <;> simp
@[simp] theorem storeFlags_board (n : Nat) (s : State) : (storeFlags n s).board = s.board := by unfold storeFlags; split <;> simp
@[simp] theorem storeFlags_mgmt (n : Nat) (s : State) : (storeFlags n s).mgmt = s.mgmt := by unfold storeFlags; split <;> simp
@[simp] theorem storeFlags_flash (n : Nat) (s : State) : (storeFlags n s).flash = s.flash := by unfold storeFlags; split <;> simp
@[simp] theorem storeFlags_test (n : Nat) (s : State) : (storeFlags n s).test = s.test := by unfold storeFlags; split <;> simp
@[simp] theorem storeFlags_bnd (n : Nat) (s : State) : (storeFlags n s).bnd = s.bnd := by unfold storeFlags; split <;> simp

end Sys2Proof.Machine
end

