-- ==== Sys2Proof/Laws/Memory.lean ====
section
/-! SUPPORT. Every memory operation keeps the canonical form; what a write reads back and what it leaves alone. -/
namespace Sys2Proof.Machine

/-- The bound below which a canonical list has no key may be lowered. -/
theorem Memory.wfFrom_weaken {m : Mem} {k a : Nat} (h : Memory.wfFrom (some k) m = true) (ha : a ≤ k) : Memory.wfFrom (some a) m = true := by
  cases m with
  | nil => rfl
  | cons e r => simp only [Memory.wfFrom, Bool.and_eq_true, decide_eq_true_eq] at *; exact ⟨⟨by omega, h.1.2⟩, h.2⟩

/-- A canonical list above a bound is canonical. -/
theorem Memory.wf_of_from {m : Mem} {k : Nat} (h : Memory.wfFrom (some k) m = true) : Memory.wfFrom none m = true := by
  cases m with
  | nil => rfl
  | cons e r => simp only [Memory.wfFrom, Bool.and_eq_true] at *; exact ⟨h.1.2, h.2⟩

/-- A byte written above the bound keeps a list canonical above it. -/
theorem Memory.wfFrom_set {m : Mem} {lo k : Nat} {v : Byte} (h : Memory.wfFrom (some lo) m = true) (hk : lo < k) :
    Memory.wfFrom (some lo) (Memory.set m k v) = true := by
  induction m generalizing lo with
  | nil => simp only [Memory.set]; split <;> simp_all [Memory.wfFrom]
  | cons e r ih =>
    obtain ⟨a, b⟩ := e
    simp only [Memory.wfFrom, Bool.and_eq_true, decide_eq_true_eq] at h
    obtain ⟨⟨h1, h2⟩, h3⟩ := h
    simp only [Memory.set]
    split
    · split
      · simp [Memory.wfFrom, *]
      · rename_i h4 h5; simp only [Memory.wfFrom, Bool.and_eq_true, decide_eq_true_eq]; exact ⟨⟨hk, by simpa using h5⟩, ⟨h4, h2⟩, h3⟩
    · split
      · rename_i h4 h5; subst h5
        split
        · exact Memory.wfFrom_weaken h3 (by omega)
        · rename_i h5; simp only [Memory.wfFrom, Bool.and_eq_true, decide_eq_true_eq]; exact ⟨⟨hk, by simpa using h5⟩, h3⟩
      · simp only [Memory.wfFrom, Bool.and_eq_true, decide_eq_true_eq]; exact ⟨⟨h1, h2⟩, ih h3 (by omega)⟩

/-- Writing a byte keeps the canonical form. -/
theorem Memory.wf_set {m : Mem} {k : Nat} {v : Byte} (h : Memory.wf m = true) : Memory.wf (Memory.set m k v) = true := by
  cases m with
  | nil => simp only [Memory.wf, Memory.set]; split <;> simp_all [Memory.wfFrom]
  | cons e r =>
    obtain ⟨a, b⟩ := e
    simp only [Memory.wf, Memory.wfFrom, Bool.and_eq_true] at h ⊢
    obtain ⟨h2, h3⟩ := h
    simp only [Memory.set]
    split
    · split
      · simp [Memory.wfFrom, *]
      · rename_i h4 h5; simp only [Memory.wfFrom, Bool.and_eq_true, decide_eq_true_eq]; exact ⟨by simpa using h5, ⟨h4, h2⟩, h3⟩
    · split
      · split
        · exact Memory.wf_of_from h3
        · rename_i h4 h6 h5; subst h6; simp only [Memory.wfFrom, Bool.and_eq_true]; exact ⟨by simpa using h5, h3⟩
      · simp only [Memory.wfFrom, Bool.and_eq_true]; exact ⟨h2, Memory.wfFrom_set h3 (by omega)⟩

/-- Writing bytes keeps the canonical form. -/
theorem Memory.wf_setN {m : Mem} {k : Nat} {l : List Byte} (h : Memory.wf m = true) : Memory.wf (Memory.setN m k l) = true := by
  induction l generalizing m k with
  | nil => exact h
  | cons b r ih => exact ih (Memory.wf_set h)

/-- Below the first key of a canonical list nothing is listed. -/
theorem Memory.get_below {m : Mem} {lo k : Nat} (h : Memory.wfFrom (some lo) m = true) (hk : k ≤ lo) : Memory.get m k = Memory.fill := by
  cases m with
  | nil => rfl
  | cons e r =>
    simp only [Memory.wfFrom, Bool.and_eq_true, decide_eq_true_eq] at h
    simp only [Memory.get]; split
    · omega
    · split
      · rfl
      · omega

/-- A byte written reads back, and every other byte reads as before. -/
theorem Memory.get_set_from {m : Mem} {lo : Option Nat} {k j : Nat} {v : Byte} (h : Memory.wfFrom lo m = true) :
    Memory.get (Memory.set m k v) j = if j = k then v else Memory.get m j := by
  induction m generalizing lo with
  | nil =>
    simp only [Memory.set]
    split
    · subst_vars; simp [Memory.get]
    · simp only [Memory.get]; grind
  | cons e r ih =>
    obtain ⟨a, b⟩ := e
    have h3 : Memory.wfFrom (some a) r = true := by
      cases lo <;> simp_all [Memory.wfFrom]
    have hb : ∀ i, i ≤ a → Memory.get r i = Memory.fill := fun i hi => Memory.get_below h3 hi
    simp only [Memory.set]
    split
    · split
      · simp only [Memory.get]; grind
      · simp only [Memory.get]; grind
    · split
      · split
        · simp only [Memory.get]; grind
        · simp only [Memory.get]; grind
      · simp only [Memory.get, ih h3]; grind

/-- A byte written to a canonical memory reads back, and every other byte reads as before. -/
theorem Memory.get_set {m : Mem} {k j : Nat} {v : Byte} (h : Memory.wf m = true) :
    Memory.get (Memory.set m k v) j = if j = k then v else Memory.get m j := Memory.get_set_from h

end Sys2Proof.Machine
end

