-- ==== Sys2Proof/Laws/Table.lean ====
section
/-! SUPPORT. Sparse tables, lists, bytes and the canonical memory list: reads after writes, and the canonical form is kept. -/
namespace Sys2Proof.Machine

variable {α : Type}

@[simp] theorem tget_nil (k : Nat) : tget ([] : Table α) k = none := rfl

theorem tget_cons (e : Nat × α) (t : Table α) (k : Nat) : tget (e :: t) k = if k = e.1 then some e.2 else tget t k := by
  obtain ⟨a, b⟩ := e
  by_cases h : k = a
  · subst h; simp [tget, List.lookup]
  · have h2 : (k == a) = false := by simp [h]
    simp [tget, List.lookup, h2, h]

/-- A read after a write of an entry. -/
theorem tget_tset (t : Table α) (k j : Nat) (v : α) : tget (tset t k v) j = if j = k then some v else tget t j := by
  induction t with
  | nil => simp [tset, tget_cons]
  | cons e r ih =>
    obtain ⟨a, w⟩ := e
    simp only [tset]
    split
    · simp [tget_cons]
    · split
      · rename_i h1 h2
        subst h2
        simp only [tget_cons]
        by_cases h3 : j = k <;> simp [h3]
      · simp only [tget_cons, ih]
        by_cases h1 : j = a <;> by_cases h2 : j = k <;> simp_all

@[simp] theorem tget_tset_same (t : Table α) (k : Nat) (v : α) : tget (tset t k v) k = some v := by simp [tget_tset]

theorem tget_tset_other (t : Table α) {k j : Nat} (v : α) (h : j ≠ k) : tget (tset t k v) j = tget t j := by simp [tget_tset, h]

/-- A read after an entry was dropped. -/
theorem tget_tdel (t : Table α) (k j : Nat) : tget (tdel t k) j = if j = k then none else tget t j := by
  induction t with
  | nil => simp [tdel]
  | cons e r ih =>
    obtain ⟨a, w⟩ := e
    simp only [tdel, List.filter_cons] at ih ⊢
    by_cases h : a = k
    · simp only [h, bne_self_eq_false, Bool.false_eq_true, if_false, ih, tget_cons]
      by_cases h2 : j = k <;> simp [h2]
    · have : (a != k) = true := by simp [h]
      simp only [this, if_true, tget_cons, ih]
      by_cases h1 : j = a <;> by_cases h2 : j = k <;> simp_all

/-- A read after an entry was changed. -/
theorem tget_tmod (t : Table α) (k j : Nat) (f : α → α) : tget (tmod t k f) j = if j = k then (tget t k).map f else tget t j := by
  induction t with
  | nil => simp [tmod]
  | cons e r ih =>
    obtain ⟨a, w⟩ := e
    simp only [tmod, List.map_cons] at ih ⊢
    by_cases h : a = k
    · subst h
      simp only [if_true, tget_cons, ih]
      by_cases h1 : j = a <;> simp [h1]
    · simp only [h, if_false, tget_cons, ih]
      by_cases h1 : j = a
      · subst h1; simp [h]
      · by_cases h2 : j = k
        · subst h2; simp [h1]
        · simp [h1, h2]

@[simp] theorem lset_length (l : List α) (i : Nat) (v : α) : (lset l i v).length = l.length := by simp [lset]

@[simp] theorem lmod_length (l : List α) (i : Nat) (f : α → α) : (lmod l i f).length = l.length := by
  unfold lmod; split <;> simp

@[simp] theorem leBytes_length (n v : Nat) : (leBytes n v).length = n := by
  induction n generalizing v with
  | zero => rfl
  | succ n ih => simp [leBytes, ih]

/-- The number a field's bytes spell. -/
theorem leNat_leBytes (n v : Nat) : leNat (leBytes n v) = v % 256 ^ n := by
  induction n generalizing v with
  | zero => simp [leBytes, leNat, Nat.mod_one]
  | succ n ih =>
    simp only [leBytes, leNat, ih, BitVec.toNat_ofNat]
    have h : (256 : Nat) ^ (n + 1) = 256 * 256 ^ n := by rw [Nat.pow_succ, Nat.mul_comm]
    rw [h, Nat.mod_mul]

theorem wfFrom_weaken {m : Mem} {a b : Nat} (h : b ≤ a) : Memory.wfFrom (some a) m = true → Memory.wfFrom (some b) m = true := by
  cases m with
  | nil => simp [Memory.wfFrom]
  | cons e r =>
    obtain ⟨c, d⟩ := e
    simp only [Memory.wfFrom, Bool.and_eq_true, decide_eq_true_eq]
    rintro ⟨⟨h1, h2⟩, h3⟩
    exact ⟨⟨by omega, h2⟩, h3⟩

theorem wfFrom_none {m : Mem} {a : Nat} : Memory.wfFrom (some a) m = true → Memory.wfFrom none m = true := by
  cases m with
  | nil => simp [Memory.wfFrom]
  | cons e r =>
    obtain ⟨c, d⟩ := e
    simp only [Memory.wfFrom, Bool.and_eq_true]
    rintro ⟨⟨_, h2⟩, h3⟩
    exact ⟨h2, h3⟩

theorem wfFrom_set {m : Mem} {lo k : Nat} (v : Byte) (h : Memory.wfFrom (some lo) m = true) (hk : lo < k) :
    Memory.wfFrom (some lo) (Memory.set m k v) = true := by
  induction m generalizing lo with
  | nil =>
    by_cases hv : v = Memory.fill <;> simp [Memory.set, Memory.wfFrom, hv, hk]
  | cons e r ih =>
    obtain ⟨a, b⟩ := e
    simp only [Memory.wfFrom, Bool.and_eq_true, decide_eq_true_eq] at h
    obtain ⟨⟨h1, h2⟩, h3⟩ := h
    simp only [Memory.set]
    split
    · split
      · simp [Memory.wfFrom, h1, h2, h3]
      · rename_i h4 h5
        simp [Memory.wfFrom, h5, hk, h4, h2, h3]
    · split
      · split
        · exact wfFrom_weaken (by omega) h3
        · rename_i h4 h5 h6
          subst h5
          simp [Memory.wfFrom, h6, hk, h3]
      · rename_i h4 h5
        simp only [Memory.wfFrom, Bool.and_eq_true, decide_eq_true_eq]
        exact ⟨⟨h1, h2⟩, ih h3 (by omega)⟩

/-- Writing a byte keeps the canonical form. -/
theorem wf_set {m : Mem} (k : Nat) (v : Byte) (h : Memory.wf m = true) : Memory.wf (Memory.set m k v) = true := by
  unfold Memory.wf at *
  cases m with
  | nil => by_cases hv : v = Memory.fill <;> simp [Memory.set, Memory.wfFrom, hv]
  | cons e r =>
    obtain ⟨a, b⟩ := e
    simp only [Memory.wfFrom, Bool.and_eq_true] at h
    obtain ⟨h2, h3⟩ := h
    simp only [Memory.set]
    split
    · split
      · simp [Memory.wfFrom, h2, h3]
      · rename_i h4 h5
        simp [Memory.wfFrom, h5, h4, h2, h3]
    · split
      · split
        · exact wfFrom_none h3
        · rename_i h4 h5 h6
          subst h5
          simp [Memory.wfFrom, h6, h3]
      · rename_i h4 h5
        simp only [Memory.wfFrom, Bool.and_eq_true]
        exact ⟨h2, wfFrom_set v h3 (by omega)⟩

/-- Writing bytes keeps the canonical form. -/
theorem wf_setN (l : List Byte) {m : Mem} (k : Nat) (h : Memory.wf m = true) : Memory.wf (Memory.setN m k l) = true := by
  induction l generalizing m k with
  | nil => exact h
  | cons b r ih => exact ih (k + 1) (wf_set k b h)

/-- An address below every entry reads as the fill. -/
theorem get_below {m : Mem} {lo k : Nat} (h : Memory.wfFrom (some lo) m = true) (hk : k ≤ lo) : Memory.get m k = Memory.fill := by
  cases m with
  | nil => rfl
  | cons e r =>
    obtain ⟨a, b⟩ := e
    simp only [Memory.wfFrom, Bool.and_eq_true, decide_eq_true_eq] at h
    have h1 : a ≠ k := by omega
    have h2 : k < a := by omega
    simp [Memory.get, h1, h2]

theorem get_set_from {m : Mem} {lo : Nat} (k j : Nat) (v : Byte) (h : Memory.wfFrom (some lo) m = true) :
    Memory.get (Memory.set m k v) j = if j = k then v else Memory.get m j := by
  induction m generalizing lo with
  | nil =>
    by_cases hv : v = Memory.fill <;> by_cases hj : j = k <;> simp [Memory.set, Memory.get, hv, hj]
    intro h; exact absurd h.symm hj
  | cons e r ih =>
    obtain ⟨a, b⟩ := e
    simp only [Memory.wfFrom, Bool.and_eq_true, decide_eq_true_eq] at h
    obtain ⟨⟨h1, h2⟩, h3⟩ := h
    simp only [Memory.set]
    split
    · rename_i h4
      split
      · rename_i h5
        by_cases hj : j = k
        · subst hj h5; simp [Memory.get, h4]; omega
        · simp [hj]
      · by_cases hj : j = k
        · subst hj; simp [Memory.get]
        · have : k ≠ j := fun e => hj e.symm
          simp only [Memory.get, this, if_false, hj]
          by_cases h6 : j < k
          · have h7 : a ≠ j := by omega
            have h8 : j < a := by omega
            simp [h6, h7, h8]
          · simp [h6]
    · split
      · rename_i h4 h5
        subst h5
        split
        · rename_i h6
          by_cases hj : j = k
          · subst hj; rw [get_below h3 (Nat.le_refl _)]; simp [h6]
          · have : k ≠ j := fun e => hj e.symm
            simp only [hj, if_false, Memory.get, this]
            by_cases h7 : j < k
            · simp [h7, get_below h3 (Nat.le_of_lt h7)]
            · simp [h7]
        · by_cases hj : j = k
          · subst hj; simp [Memory.get]
          · have : k ≠ j := fun e => hj e.symm
            simp [Memory.get, hj, this]
      · rename_i h4 h5
        simp only [Memory.get, ih h3]
        by_cases hj : j = k
        · subst hj
          have h6 : a ≠ j := fun e => h5 e.symm
          have h7 : ¬ j < a := h4
          simp [h6, h7]
        · simp [hj]

/-- A byte reads as it was written, and every other byte as before. -/
theorem get_set {m : Mem} (k j : Nat) (v : Byte) (h : Memory.wf m = true) :
    Memory.get (Memory.set m k v) j = if j = k then v else Memory.get m j := by
  cases m with
  | nil =>
    by_cases hv : v = Memory.fill <;> by_cases hj : j = k <;> simp [Memory.set, Memory.get, hv, hj]
    intro h; exact absurd h.symm hj
  | cons e r =>
    obtain ⟨a, b⟩ := e
    by_cases ha : a = 0
    · -- the least key is 0: no key lies below it
      subst ha
      simp only [Memory.wf, Memory.wfFrom, Bool.and_eq_true] at h
      obtain ⟨h2, h3⟩ := h
      simp only [Memory.set, Nat.not_lt_zero, if_false]
      split
      · rename_i h5
        subst h5
        split
        · rename_i h6
          by_cases hj : j = 0
          · subst hj; rw [get_below h3 (Nat.le_refl _)]; simp [h6]
          · have : ¬ 0 = j := fun e => hj e.symm
            simp [Memory.get, hj, this]
        · by_cases hj : j = 0
          · subst hj; simp [Memory.get]
          · have : ¬ 0 = j := fun e => hj e.symm
            simp [Memory.get, hj, this]
      · rename_i h5
        simp only [Memory.get, get_set_from k j v h3]
        by_cases hj : j = k
        · subst hj
          have h6 : ¬ 0 = j := fun e => h5 e.symm
          simp [h6]
        · simp [hj]
    · refine get_set_from (lo := a - 1) k j v ?_
      simp only [Memory.wf, Memory.wfFrom, Bool.and_eq_true] at h
      simp only [Memory.wfFrom, Bool.and_eq_true, decide_eq_true_eq]
      exact ⟨⟨by omega, h.1⟩, h.2⟩

end Sys2Proof.Machine
end

