-- ==== Sys2Proof/Tests/Slice0.lean ====
section
/-! SUPPORT. Tests: an ill-formed term for each check of WellFormed, worked examples of the spec, and for each obligation a state and operands
that meet the hypotheses of each of its clauses. -/
set_option Elab.async false
set_option maxRecDepth 100000
namespace Sys2Proof.Tests
open Sys2Proof.Machine

/-! ### Helpers -/

/-- A packet of a command with a right CRC, epoch 1 and its parameters in the slot. -/
def pk (src : Source) (ctx op : Nat) (params : List Byte) : Packet :=
  let p : Packet := { src := src, ctx := ctx, hostTag := 7, paramLen := params.length, epoch := 1, params := params }
  { p with crc := packetCrc op p }

/-- On the admin queue: a device command, and a context command of context 0. -/
def dev (op : Nat) (params : List Byte := []) : Packet := pk (.host 0) 0xFF op params
def adm (op : Nat) (params : List Byte := []) : Packet := pk (.host 0) 0 op params

/-- On queue 1, which belongs to context 0. -/
def cq (op : Nat) (params : List Byte := []) : Packet := pk (.host 1) 0 op params

/-- Parameters too long for the slot, read from PARAM_ADDR. -/
def far (src : Source) (ctx op : Nat) (params : List Byte) : Packet :=
  let p : Packet := { src := src, ctx := ctx, hostTag := 7, flags := 1, paramAddr := 0x4000, paramLen := params.length, epoch := 1, params := params }
  { p with crc := packetCrc op p }

/-- An empty queue pair. -/
def q0 : Queue := { depth := 256, sqBase := 0x10000, cqBase := 0x20000, irq := true }

/-- READY at level FULL with the chart of epoch 1, the host link up and the admin queue running. -/
def ready : State := { State.reset with
  dev := { st := .ready, level := 3 }, chart := { epoch := 1 }, host := { linkUp := true }, queues := { q := [(0, q0)] } }

/-- HOLD, otherwise the same. -/
def hold : State := { ready with dev := { st := .hold, level := 3 } }

/-- A context with no demand, and the state with it loaded as context 0 with queue 1. -/
def ctx0 : Ctx := { params := zeros 24, root := some 0x1000000 }
def with0 (x : Ctx) (s : State) : State := { s with ctxs := [(0, x)], queues := { q := [(0, q0), (1, q0)] } }
def loaded : State := with0 ctx0 ready

/-- The state with page tables at 0x1000000 that map the first GiB as this entry says (R194, R195): device memory from address 0, writable, and host
memory, writable. -/
def mapped (entry : Nat) (s : State) : State := devWrite 0x1010000 (leBytes 8 entry) (devWrite 0x1000000 (leBytes 8 0x1010001) s)
def paged (s : State) : State := mapped 0x13 s

/-- Whether a command runs. -/
def runs (i : Instr) (s : State) : Bool :=
  match exec i s with
  | .next _ => true
  | _ => false

/-- Whether an option holds a value with a property. -/
def has {α : Type} (o : Option α) (f : α → Bool) : Bool := o.any f

/-! ### Witnesses: the host's side -/

/-- A ready slot of the host, number 0, generation 1, and one that is pending. -/
def slot1 : Slot := { gen := 1, owner := .host, units := 1, ready := true, payload := [1, 2, 3] }
def slotted (x : Slot) : State := { ready with slots := { s := [(0, x)], gens := [(0, 1)] } }
/-- RESULT_READ of bytes 1 and 2 of that slot, to an address or none. -/
def readOf (src : Source) (dest : Nat) : Packet := pk src 0xFF 0x0010 (leBytes 4 0x200 ++ leBytes 4 1 ++ leBytes 4 2 ++ leBytes 8 dest)

theorem witness_Queries : Accepted 0x0000 (chkNop (dev 0x0000)) (dev 0x0000) ready ∧ Accepted 0x0001 (chkIdentify (dev 0x0001)) (dev 0x0001) ready ∧
    Accepted 0x0030 (chkStatusGet (dev 0x0030)) (dev 0x0030) ready ∧
    Accepted 0x0031 (chkRegRead (dev 0x0031 (leBytes 4 0x20))) (dev 0x0031 (leBytes 4 0x20)) ready ∧
    Accepted 0x0020 (chkChartGet (dev 0x0020)) (dev 0x0020) ready ∧ Accepted 0x0021 (chkSkewLogGet (dev 0x0021)) (dev 0x0021) ready := by
  repeat' apply And.intro
  all_goals decide +kernel

theorem witness_ResultSlots : (Accepted 0x0010 (chkResultRead (readOf (.host 0) 64)) (readOf (.host 0) 64) (slotted slot1) ∧
      slotNamed (slotted slot1) (pf (readOf (.host 0) 64) 0 2) .host = some slot1 ∧ slot1.ready = true ∧
      pf (readOf (.host 0) 64) 4 4 + pf (readOf (.host 0) 64) 8 4 ≤ slot1.payload.length) ∧
    (isHost (readOf (.mctp 9) 0).src = false ∧ pf (readOf (.mctp 9) 0) 12 8 = 0 ∧
      Accepted 0x0010 (chkResultRead (readOf (.mctp 9) 0)) (readOf (.mctp 9) 0) (slotted { slot1 with owner := .mctp }) ∧
      slotNamed (slotted { slot1 with owner := .mctp }) (pf (readOf (.mctp 9) 0) 0 2) (ownerOf (.mctp 9)) = some { slot1 with owner := .mctp }) ∧
    (Accepted 0x0010 (chkResultRead (readOf (.host 0) 64)) (readOf (.host 0) 64) ready ∧ slotNamed ready 0x200 .host = none) ∧
    (slotNamed (slotted { slot1 with ready := false }) (pf (readOf (.host 0) 64) 0 2) .host = some { slot1 with ready := false }) ∧
    (Accepted 0x0011 (chkResultRelease (dev 0x0011 (leBytes 4 0x200))) (dev 0x0011 (leBytes 4 0x200)) (slotted slot1) ∧
      slotNamed (slotted slot1) (pf (dev 0x0011 (leBytes 4 0x200)) 0 2) (ownerOf (.host 0)) = some slot1) := by
  repeat' apply And.intro
  all_goals decide +kernel

/-- QUEUE_CREATE of queue 1 with a depth, and QUEUE_DELETE of it. -/
def create (depth : Nat) : Packet := adm 0x0002 (leBytes 2 1 ++ [1, 0] ++ leBytes 4 depth ++ leBytes 8 0x30000 ++ leBytes 8 0x40000)
def delete1 : Packet := adm 0x0003 (leBytes 4 1)
def noQueue : State := { loaded with queues := { q := [(0, q0)] } }

theorem witness_QueueCommands : (Accepted 0x0002 (chkQueueCreate (create 256)) (create 256) noQueue ∧ ctxOfQueue (pf (create 256) 0 2) = 0 ∧
      (ctxOf noQueue 0).isSome = true ∧ tget noQueue.queues.q (pf (create 256) 0 2) = none ∧ depthOk (pf (create 256) 4 4) = true ∧
      pf (create 256) 8 8 % 4096 = 0 ∧ pf (create 256) 16 8 % 4096 = 0) ∧
    (Accepted 0x0002 (chkQueueCreate (create 256)) (create 256) ready ∧ ctxOf ready 0 = none) ∧
    (Accepted 0x0002 (chkQueueCreate (create 256)) (create 256) loaded ∧ (tget loaded.queues.q 1).isSome = true) ∧
    (Accepted 0x0002 (chkQueueCreate (create 1)) (create 1) noQueue ∧ depthOk (pf (create 1) 4 4) = false) ∧
    (Accepted 0x0003 (chkQueueDelete delete1) delete1 loaded ∧ ctxOfQueue (pf delete1 0 2) = delete1.ctx ∧ pf delete1 0 2 ≠ 0 ∧
      tget loaded.queues.q (pf delete1 0 2) = some q0 ∧ q0.owing = 0) := by
  repeat' apply And.intro
  all_goals decide +kernel

/-- The admin queue with one command to fetch, with one that waits no longer, with a completion to post. -/
def oneSlot : Queue := { q0 with sqTail := 1 }
def oneHeld : Queue := { q0 with owing := 1, held := [(1, 0, dev 0)] }
def oneDone : Queue := { q0 with ready := [{ hostTag := 7, opcode := 0, status := 0 }] }
def withQ (x : Queue) : State := { ready with queues := { q := [(0, x)] } }

theorem witness_DoorbellsAndFetch :
    (tget (withQ q0).queues.q 0 = some q0 ∧ q0.stopped = false ∧ (255 : Word).toNat < q0.depth ∧
      (q0.sqTail + q0.depth - q0.head) % q0.depth ≤ ((255 : Word).toNat + q0.depth - q0.head) % q0.depth) ∧
    (q0.depth ≤ (256 : Word).toNat) ∧
    ((0 : Word).toNat < q0.depth ∧ ((0 : Word).toNat + q0.depth - q0.cqHead) % q0.depth ≤ q0.cqUsed) ∧
    (tget (withQ oneSlot).queues.q 0 = some oneSlot ∧ oneSlot.held = [] ∧ fetches (withQ oneSlot) = true ∧ fetchable (0, oneSlot) = true ∧
      turnOf (withQ oneSlot) = some 0) ∧
    (tget (withQ oneHeld).queues.q 0 = some oneHeld ∧ releasable (withQ oneHeld) oneHeld = some (0, dev 0) ∧ (withQ oneHeld).dev.st ≠ .off ∧
      (withQ oneHeld).dev.takeover = false) ∧
    (tget (withQ oneDone).queues.q 0 = some oneDone ∧ oneDone.ready = { hostTag := 7, opcode := 0, status := 0 } :: [] ∧
      oneDone.cqUsed < oneDone.depth ∧ (withQ oneDone).dev.takeover = false ∧ (withQ oneDone).host.msixMasked = [] ∧
       (withQ oneDone).host.linkUp = true ∧ (withQ oneDone).host.perst = false) := by
  repeat' apply And.intro
  all_goals decide +kernel

theorem witness_RegisterWrites :
    ((0x800000FF : Word).getLsbD 31 = true ∧ State.reset.regs.adminEnable = false ∧ State.reset.regs.adminReady = false ∧
      depthOk ((0x800000FF : Word).toNat % 65536 + 1) = true ∧ State.reset.regs.adminSqBase.toNat % 4096 = 0 ∧
      State.reset.regs.adminCqBase.toNat % 4096 = 0) ∧
    ((0x80000005 : Word).getLsbD 31 = true ∧ State.reset.regs.adminEnable = false ∧ State.reset.regs.adminReady = false ∧
      depthOk ((0x80000005 : Word).toNat % 65536 + 1) = false) ∧
    ((0 : Word).getLsbD 31 = false ∧ ({ ready with regs := { adminEnable := true } } : State).regs.adminEnable = true ∧
      tget ready.queues.q 0 = some q0 ∧ q0.owing = 0 ∧ 0 < oneHeld.owing ∧ tget (withQ oneHeld).queues.q 0 = some oneHeld) ∧
    ((15 : Nat) < 16) ∧ ((0x21 : Nat) % 4 ≠ 0 ∧ (0x14 : Nat) ∈ [0x00, 0x04, 0x08, 0x0C, 0x10, 0x14, 0x20] ∧ 0x20000 ≤ (0x20000 : Nat)) ∧
    ((true = true → ready.host.perst = false ∧ ready.dev.st ≠ .off)) := by
  repeat' apply And.intro
  all_goals decide +kernel

/-- Memory with the CXL window open and one extent of 1 GiB. -/
def windowed : State := { ready with conf := { sections := [(3, zeros 5 ++ [1, 1, 0] ++ leBytes 8 0 ++ leBytes 4 1 ++ zeros 44)] } }

theorem witness_CxlWindow : windowed.host.linkUp = true ∧ windowed.host.perst = false ∧ windowOpen windowed = true ∧
    cxlDpas windowed (2 ^ 30 - 2) 2 = some [2 ^ 30 - 2, 2 ^ 30 - 1] ∧ cxlDpas windowed 0 [(1 : Byte)].length = some [0] ∧
    runsWait windowed [0] [(1 : Byte)] = false ∧ windowOpen ready = false := by
  repeat' apply And.intro
  all_goals decide +kernel
/-! ### Witnesses: configuration, contexts, scale records, jobs -/

/-- A section of an image. -/
def sect (type : Nat) (body : List Byte) : List Byte :=
  leBytes 2 type ++ zeros 2 ++ leBytes 4 body.length ++ body ++ zeros (pad8 body.length - body.length)

/-- An image with the sections every image must hold, at 1,600 MHz, with this GAIN in its power section. -/
def imageOf (gain : Nat) : List Byte :=
  let body := zeros 16 ++ sect 1 (zeros 16) ++ sect 2 (1 :: zeros 7) ++ sect 3 (zeros 4 ++ [1] ++ zeros 3) ++ sect 4 (zeros 160) ++
    sect 0x10 (leBytes 2 4200 ++ leBytes 1 gain ++ [1, 1, 1] ++ leBytes 2 1600 ++ zeros 8) ++ sect 0x11 [0, 1, 0, 0, 1, 0, 0, 0]
  leBytes 4 0x4746435A ++ leBytes 4 1 ++ leBytes 4 (16 + body.length) ++ leBytes 4 (crc32c body).toNat ++ body
def imageLen : Nat := 296

/-- A staging buffer with a good image, with GAIN out of range, and of 4 bytes. -/
def stagedGood : Staging := { length := imageLen, bytes := stageBytes [] 0 (imageOf 128) }
def stagedBad : Staging := { length := imageLen, bytes := stageBytes [] 0 (imageOf 0) }
def staged4 : Staging := { length := 4 }
def begin1 (n : Nat) : Packet := dev 0x0100 (leBytes 4 n)
def write1 (off : Nat) : Packet := dev 0x0101 (leBytes 4 off ++ [1, 2])
def holding (g : Option Staging) : State := { hold with conf := { staging := g } }

theorem witness_ConfigBegin : (Accepted 0x0100 (chkConfigBegin (begin1 1048576) (owe (begin1 1048576) ready)) (begin1 1048576) ready ∧
      within 32 (pf (begin1 1048576) 0 4) 1048576 = true) ∧
    (Accepted 0x0100 (chkConfigBegin (begin1 31) (owe (begin1 31) ready)) (begin1 31) ready ∧ pf (begin1 31) 0 4 < 32) ∧
    (Accepted 0x0100 { lenOk := (begin1 32).paramLen == 4 } (begin1 32) loaded ∧ loaded.test.bist = none ∧ loaded.dev.st = .ready ∧ loaded.ctxs ≠ []) ∧
    (Accepted 0x0100 { lenOk := (begin1 32).paramLen == 4 } (begin1 32) { ready with grp := { joined := true } } ∧
      inGroup { ready with grp := { joined := true } } = true) ∧
    runs (.configBegin (begin1 32)) ready = true := by
  repeat' apply And.intro
  all_goals decide +kernel

theorem witness_ConfigWrite : (Accepted 0x0101 (chkConfigWrite (write1 2) (owe (write1 2) (holding (some staged4)))) (write1 2) (holding (some staged4)) ∧
      (holding (some staged4)).conf.staging = some staged4 ∧
      pf (write1 2) 0 4 + (((write1 2).params.take (write1 2).paramLen).drop 4).length ≤ staged4.length) ∧
    (Accepted 0x0101 (chkConfigWrite (write1 3) (owe (write1 3) (holding (some staged4)))) (write1 3) (holding (some staged4)) ∧
      staged4.length < pf (write1 3) 0 4 + (((write1 3).params.take (write1 3).paramLen).drop 4).length) ∧
    (Accepted 0x0101 (chkConfigWrite (write1 0) (owe (write1 0) hold)) (write1 0) hold ∧ hold.conf.staging = none) ∧
    Accepted 0x0102 (chkConfigCommit (dev 0x0102) (owe (dev 0x0102) hold)) (dev 0x0102) hold := by
  repeat' apply And.intro
  all_goals decide +kernel

def recorded : State := { hold with conf := { recorded := some [1, 2, 3] } }
theorem witness_ConfigRead : Accepted 0x0104 (chkConfigRead (dev 0x0104)) (dev 0x0104) recorded ∧ recorded.conf.recorded = some [1, 2, 3] ∧
    Accepted 0x0104 (chkConfigRead (dev 0x0104)) (dev 0x0104) ready ∧ ready.conf.recorded = none := by
  repeat' apply And.intro
  all_goals decide +kernel

/-- Whether a check of a commit passes; its failure. -/
def passes (s : State) (g : Staging) : Bool := (commitCheck s g).toOption.isSome
def failure (s : State) (g : Staging) : Option CommitFail :=
  match commitCheck s g with
  | .error f => some f
  | .ok _ => none
def live1 : Packet := dev 0x0108 (leBytes 2 0x11 ++ zeros 2 ++ leBytes 4 8 ++ [0, 1, 0, 0, 1, 0, 0, 0])

theorem witness_ConfigCommit :
    (Accepted 0x0102 (chkConfigCommit (dev 0x0102) (owe (dev 0x0102) (holding (some stagedGood)))) (dev 0x0102) (holding (some stagedGood)) ∧
      passes (holding (some stagedGood)) stagedGood = true) ∧
    failure (withSlot (dev 0x0102) 16 (owe (dev 0x0102) (holding (some stagedBad))) (fun _ t => t)) stagedBad = some ⟨stHOLD, 0x0E06, 256⟩ ∧
    (Accepted 0x0103 (chkConfigAbort (dev 0x0103) (owe (dev 0x0103) hold)) (dev 0x0103) hold ∧ hold.dev.st = .hold ∧ hold.conf.mustCommit = false) ∧
    (Accepted 0x0108 (chkLiveSet live1) live1 ready ∧ pf live1 0 2 = 0x11 ∧ policyOk ((live1.params.drop 8).take (pf live1 4 4)) = true ∧
      allZero ((live1.params.take live1.paramLen).drop (8 + pf live1 4 4)) = true ∧ anyBound ready = false ∧
      Accepted 0x0108 (chkLiveSet live1) live1 (with0 { ctx0 with bound := true } ready) ∧ anyBound (with0 { ctx0 with bound := true } ready) = true) := by
  repeat' apply And.intro
  all_goals decide +kernel

/-- CONTEXT_SET of context 0: clusters 799, 64 KiB of store, no waits, no ring. -/
def set0 : Packet := adm 0x0110 ([0, 1] ++ leBytes 2 799 ++ leBytes 2 1 ++ leBytes 2 64 ++ zeros 8 ++ leBytes 8 0x200000)
def fault0 : FaultRec := { cls := 1, queue := 1, hostTag := 7, opcode := 0x0300, epoch := 1, step := 0, resume := 0
                           detail := .memory 0 0 1, work := none }

theorem witness_Contexts : (Accepted 0x0110 (chkContextSet set0 (owe set0 ready)) set0 ready ∧ fits [{ params := set0.params.take 24 }] = true ∧
      saveOverlap ready set0 = false ∧ ctxOf ready set0.ctx = none ∧ ready.conf.mustCommit = false) ∧
    (Accepted 0x0110 (chkContextSet set0 (owe set0 loaded)) set0 loaded ∧ saveOverlap loaded set0 = false ∧ (ctxOf loaded set0.ctx).isSome = true) ∧
    (Accepted 0x0111 (chkContextGet (adm 0x0111)) (adm 0x0111) loaded ∧ ctxOf loaded 0 = some ctx0) ∧
    (Accepted 0x0112 (chkContextClear (adm 0x0112)) (adm 0x0112) (with0 ctx0 ready) ∧ ctx0.works = [] ∧ ctx0.faults = [] ∧ ctx0.lateFaults = [] ∧
      queueBits noQueue 0 = 0 ∧ ctxOf noQueue 0 = some ctx0) ∧
    (Accepted 0x0112 (chkContextClear (adm 0x0112)) (adm 0x0112) (with0 { ctx0 with faults := [(0, fault0)] } ready) ∧
      ({ ctx0 with faults := [(0, fault0)] } : Ctx).faults ≠ []) := by
  repeat' apply And.intro
  all_goals decide +kernel

/-- SCALE_SET of tensor 5, one element, with its tables at 0x1000, 0x2000 and 0x3000; ACTION 0 or 1. -/
def scale1 (action : Nat) : Packet := cq 0x0120 (leBytes 8 action ++ leBytes 4 5 ++ zeros 4 ++ [0, 0, 1, 1, 64, 0] ++ zeros 18 ++ leBytes 4 1 ++
  leBytes 4 1 ++ leBytes 8 0x1000 ++ leBytes 8 0x2000 ++ leBytes 8 0x3000)
def rec5 : ScaleRec := scaleRecord (scaleBytes (scale1 0)) none
def scaled (s : State) : State := with0 { ctx0 with scales := [(5, rec5)] } s
def get5 (id : Nat) : Packet := cq 0x0121 (leBytes 4 id)

theorem witness_ScaleRecords : (Accepted 0x0120 (chkScaleSet (scale1 0)) (scale1 0) (scaled ready) ∧ pf (scale1 0) 0 1 = 0 ∧
      tget [(5, rec5)] (fieldAt (scaleBytes (scale1 0)) 0 4) = some rec5 ∧ sameBlocks rec5 (scaleRecord (scaleBytes (scale1 0)) (some rec5)) = true ∧
      (scaleRecord (scaleBytes (scale1 0)) (some rec5)).ovfVa % 64 = 0 ∧ tget ready.conf.sections 6 = none ∧ ctx0.bound = false) ∧
    (Accepted 0x0120 (chkScaleSet (scale1 0)) (scale1 0) (paged loaded) ∧ ctxOf (paged loaded) 0 = some ctx0 ∧ ctx0.scales.length < 16384 ∧
      (initBlocks 0 rec5 (ctxMod 0 (fun y => { y with scales := tset y.scales 5 rec5 }) (owe (scale1 0) (paged loaded)))).toOption.isSome = true) ∧
    (Accepted 0x0120 (chkScaleSet (scale1 1)) (scale1 1) (scaled ready) ∧ pf (scale1 1) 0 1 = 1) ∧
    ({ ctx0 with dead := [{ rec5 with deletedAt := 3 }] } : Ctx).dead.find? (fun d => d.id == 5) = some { rec5 with deletedAt := 3 } ∧
    (Accepted 0x0121 (chkScaleGet (get5 5)) (get5 5) (scaled ready) ∧ tget [(5, rec5)] (pf (get5 5) 0 4) = some rec5 ∧
      Accepted 0x0121 (chkScaleGet (get5 6)) (get5 6) (scaled ready) ∧ tget [(5, rec5)] (pf (get5 6) 0 4) = none) := by
  repeat' apply And.intro
  all_goals decide +kernel

def groupSet1 : Packet := cq 0x0132 (zeros 88)
def astk1 (window : Nat) : Packet := cq 0x0134 (leBytes 8 0x200000 ++ leBytes 8 0x200000 ++ leBytes 2 window ++ zeros 6)
def jobCtx : Ctx := { params := zeros 12 ++ [1] ++ zeros 11 }
def start1 : Packet := dev 0x0140 (leBytes 8 5 ++ zeros 8)
def stop1 : Packet := dev 0x0141
def root1 (dpa : Nat) : Packet := cq 0x0200 (leBytes 8 dpa)
def busy0 : State := with0 { ctx0 with works := [{ id := 3, queue := 1, hostTag := 7, opcode := 0x0300, epoch := 1, raw := [] }] } ready
def inval1 : Packet := cq 0x0201 (leBytes 8 0 ++ leBytes 8 0)
def running : State := { with0 { jobCtx with bound := true } ready with dev := { st := .run, level := 3, jobRunning := true } }
def invalidating : State := { loaded with mem := { State.reset.mem with invalidates := [⟨0, 0, 0, inval1⟩] } }

theorem witness_JobsAndTables : (Accepted 0x0132 (chkGroupSet groupSet1 (owe groupSet1 loaded)) groupSet1 loaded ∧ ctxOf loaded groupSet1.ctx = some ctx0) ∧
    (Accepted 0x0134 (chkAstkSet (astk1 512) (owe (astk1 512) loaded)) (astk1 512) loaded ∧
      Accepted 0x0134 (chkAstkSet (astk1 0xFFFF) (owe (astk1 0xFFFF) loaded)) (astk1 0xFFFF) loaded) ∧
    (Accepted 0x0140 (chkJobStart start1) start1 (with0 jobCtx ready) ∧ inGroup ready = false ∧ ready.grp.manager = false ∧ ready.dev.st = .ready ∧
      (with0 jobCtx ready).ctxs.any (fun e => e.2.job) = true) ∧
    (Accepted 0x0140 (chkJobStart start1) start1 running ∧ roleBars running start1 = false ∧ running.dev.st ≠ .ready) ∧
    (Accepted 0x0140 (chkJobStart start1) start1 loaded ∧ loaded.ctxs.any (fun e => e.2.job) = false) ∧
    (Accepted 0x0141 (chkJobStop stop1) stop1 running ∧ roleBars running stop1 = false ∧ running.dev.st = .run) ∧
    (Accepted 0x0200 (chkPtRootSet (root1 65536)) (root1 65536) loaded ∧ pf (root1 65536) 0 8 % 65536 = 0 ∧
      Accepted 0x0200 (chkPtRootSet (root1 65535)) (root1 65535) loaded ∧ pf (root1 65535) 0 8 % 65536 ≠ 0 ∧ ctx0.works = [] ∧
      Accepted 0x0200 (chkPtRootSet (root1 65536)) (root1 65536) busy0 ∧ has (ctxOf busy0 0) (fun x => x.works != []) = true) ∧
    (Accepted 0x0201 (chkTlbInvalidate inval1) inval1 loaded ∧ invalidating.mem.invalidates = ⟨0, 0, 0, inval1⟩ :: [] ∧
      granuleInFlight invalidating 0 = false) := by
  repeat' apply And.intro
  all_goals decide +kernel

/-! ### Witnesses: sync cells and DMA -/

def alloc (first n : Nat) : Packet := cq 0x0220 (leBytes 2 first ++ leBytes 2 n ++ zeros 4)
def free1 : Packet := cq 0x0221 (leBytes 2 9 ++ leBytes 2 1 ++ zeros 4)
/-- Context 0 owns cells 8 to 15. -/
def celled : State := { loaded with sync := { ranges := [⟨8, 8, 0, false⟩] } }
/-- A requester of context 0, its wait for cell 9 to equal 1, and the states in which it waits and is held. -/
def req0 : Requester := { unit := 0x9000, ctx := some 0 }
def wait9 : Wait := ⟨9, false, 1, req0, true⟩
def waiting9 : State := { celled with sync := { celled.sync with waits := [wait9] } }
def held9 : State := { celled with sync := { celled.sync with held := [wait9] } }
def op1 (rank : Nat) : Packet := cq 0x0222 ([2, 0] ++ leBytes 2 9 ++ leBytes 4 1 ++ zeros 4 ++ leBytes 2 rank ++ zeros 2)

theorem witness_SyncRanges : (Accepted 0x0220 (chkSyncAlloc (alloc 16 8)) (alloc 16 8) celled ∧ ctxOf celled (alloc 16 8).ctx = some ctx0 ∧
      pf (alloc 16 8) 0 2 + pf (alloc 16 8) 2 2 ≤ 65536 ∧ touchesReserved (pf (alloc 16 8) 0 2) (pf (alloc 16 8) 2 2) = false ∧
      celled.sync.ranges.any (fun r => overlaps r.first r.count (pf (alloc 16 8) 0 2) (pf (alloc 16 8) 2 2)) = false) ∧
    (Accepted 0x0220 (chkSyncAlloc (alloc 65535 2)) (alloc 65535 2) celled ∧ 65536 < pf (alloc 65535 2) 0 2 + pf (alloc 65535 2) 2 2) ∧
    (Accepted 0x0220 (chkSyncAlloc (alloc 8128 1)) (alloc 8128 1) celled ∧ touchesReserved (pf (alloc 8128 1) 0 2) (pf (alloc 8128 1) 2 2) = true) ∧
    (Accepted 0x0220 (chkSyncAlloc (alloc 15 1)) (alloc 15 1) celled ∧
      celled.sync.ranges.any (fun r => overlaps r.first r.count (pf (alloc 15 1) 0 2) (pf (alloc 15 1) 2 2)) = true) ∧
    (Accepted 0x0221 (chkSyncFree free1) free1 celled ∧ ownsRange celled free1.ctx (pf free1 0 2) (pf free1 2 2) = true ∧ 0 < pf free1 2 2 ∧
      waitIn celled (pf free1 0 2) (pf free1 2 2) = false) ∧
    (Accepted 0x0221 (chkSyncFree free1) free1 waiting9 ∧ waitIn waiting9 (pf free1 0 2) (pf free1 2 2) = true) ∧
    (Accepted 0x0222 (chkSyncOp (op1 0xFFFF)) (op1 0xFFFF) celled ∧ pf (op1 0xFFFF) 12 2 = 0xFFFF ∧
      ownsCell celled (op1 0xFFFF).ctx (pf (op1 0xFFFF) 2 2) = true) ∧
    (Accepted 0x0222 (chkSyncOp (op1 3)) (op1 3) celled ∧ pf (op1 3) 12 2 ≠ 0xFFFF) := by
  repeat' apply And.intro
  all_goals decide +kernel

/-- A context whose wait entries are all taken by others: 3,584 are claimed by a resident context. -/
def noEntry : State := { celled with ctxs := [(0, ctx0), (1, { params := zeros 8 ++ leBytes 2 3584 ++ zeros 14, resident := true })] }

theorem witness_SyncOperations : mayOperate req0 9 celled = true ∧ mayChange req0 9 celled = true ∧ cellValue celled 9 = 0 ∧ cellValue celled 9 ≠ 1 ∧
    waitEntry celled ⟨9, false, 1, req0, false⟩ = some true ∧ (mayOperate req0 9 noEntry = true ∧ waitEntry noEntry ⟨9, false, 1, req0, false⟩ = none) ∧
    (cellValue celled 9 - 0x80000001).toNat < 2 ^ 31 ∧ 2 ^ 31 ≤ (cellValue celled 9 - 0x80000000).toNat ∧
    waitEntry celled ⟨9, true, 0x80000000, req0, false⟩ = some true ∧
    (Claims.Behind celled req0 = false ∧ Claims.Behind noEntry req0 = false ∧ Claims.Behind held9 req0 = true ∧ mayOperate req0 9 held9 = true) ∧
    (wait9 ∈ waiting9.sync.waits ∧ wait9.cell = 9 ∧ wait9.cell ≠ 8 ∧ wait9.holds 1 = true) := by
  repeat' apply And.intro
  all_goals decide +kernel

def release0 : Release := ⟨0, req0, 5, 0⟩
theorem witness_SyncReleases : [release0].find? (fun r => r.wave == 0 && waveDue { celled with sync := { celled.sync with releases := [release0] } } r) = some release0 ∧
    held9.sync.held.find? (fun w => w.cell / 8192 == 0 && firstHeld held9 w && ((waitEntry held9 w).isSome || w.holds (cellValue held9 w.cell))) = some wait9 ∧
    ([(4, 3, 9, SyncAct.read, req0)] : List (Nat × Nat × Nat × SyncAct × Requester)).find? (fun e => e.1 == 4) = some (4, 3, 9, .read, req0) := by
  repeat' apply And.intro
  all_goals decide +kernel

/-- A DMA descriptor of one 256-byte granule, from 0x1000 to 0x2000, that signals cell 9 when `flags` says so. -/
def dma1 (op flags len : Nat) : List Byte := leBytes 2 (op + 256 * flags) ++ zeros 2 ++ leBytes 4 1 ++ leBytes 8 0x1000 ++ leBytes 8 0x2000 ++
  leBytes 8 len ++ leBytes 4 1 ++ zeros 4 ++ leBytes 4 256 ++ leBytes 4 256 ++ zeros 8 ++ leBytes 2 9 ++ zeros 2 ++ leBytes 4 5
def submit1 (len : Nat) : Packet := cq 0x0210 (dma1 0 0 len)
def dmaRun1 (op written len : Nat) : Work := { id := 3, queue := 1, hostTag := 7, opcode := 0x0210, epoch := 1, raw := dma1 op 1 len, st := .issued
                                               dma := [{ started := true, written := written }] }
def dmaCtx (w : Work) : Ctx := { ctx0 with resident := true, works := [w] }
def dmaState (w : Work) : State := { paged (with0 (dmaCtx w) ready) with sync := celled.sync }
/-- The state with an engine of the die that the module chooses at work, and whether all granules of the descriptor move. -/
def engineAt (w : Work) : State := atUnit (engineDie (dmaState w)).1 (engineDie (dmaState w)).2
def moves (w : Work) : Bool := (moveGranules 0 (dmaBytes w.raw 0) (((dmaGranules (dmaBytes w.raw 0)).drop 0).take 1) (engineAt w)).2.2.isNone
/-- The one granule of `dmaRun1 op 0 256`. -/
def granule1 (op : Nat) : Granule := ((dmaGranules (dma1 op 1 256))[0]?).getD ⟨0, 0, 0⟩
abbrev ReadyD (op : Nat) : Prop := Claims.DmaReady op 0 3 0 1 (dmaState (dmaRun1 op 0 256)) (dmaCtx (dmaRun1 op 0 256)) (dmaRun1 op 0 256) (granule1 op)

theorem witness_DmaTransfers : (Accepted 0x0210 (chkDmaSubmit (submit1 256)) (submit1 256) loaded ∧
      ctxOf loaded (submit1 256).ctx = some ctx0 ∧ dmaFirstFail (owe (submit1 256) loaded) 0 (submit1 256).params (dmaCount (submit1 256)) 0 = none) ∧
    (Accepted 0x0210 (chkDmaSubmit (submit1 0x1001)) (submit1 0x1001) loaded ∧
      dmaFirstFail (owe (submit1 0x1001) loaded) 0 (submit1 0x1001).params (dmaCount (submit1 0x1001)) 0 = some (0, stBADPARAM, 0x0810)) ∧
    (ReadyD 0 ∧ moves (dmaRun1 0 0 256) = true) ∧ (ReadyD 1 ∧ moves (dmaRun1 1 0 256) = true) ∧ (ReadyD 2 ∧ moves (dmaRun1 2 0 256) = true) ∧
    (Claims.AckDue 0 3 0 1 (dmaState (dmaRun1 0 2 512)) (dmaCtx (dmaRun1 0 2 512)) (dmaRun1 0 2 512) { started := true, written := 2 } ∧
      (dmaGranules (dmaBytes (dmaRun1 0 2 512).raw 0)).length = 2) ∧
    (Claims.AckDue 0 3 0 0 (dmaState (dmaRun1 0 1 256)) (dmaCtx (dmaRun1 0 1 256)) (dmaRun1 0 1 256) { started := true, written := 1 } ∧
      (dmaRun1 0 1 256).dma = [{ started := true, written := 1 }] ∧ (dmaGranules (dmaBytes (dmaRun1 0 1 256).raw 0)).length = 1 ∧
      dmaSignal (dmaBytes (dmaRun1 0 1 256).raw 0) = true) := by
  repeat' apply And.intro
  all_goals decide +kernel
/-! ### Witnesses: kernels, arrays, stripes -/

/-- `n` bytes with little-endian fields (offset, length, value) in them, zeros elsewhere. -/
def fields (n : Nat) (l : List (Nat × Nat × Nat)) : List Byte :=
  l.foldl (fun b e => b.take e.1 ++ leBytes e.2.1 e.2.2 ++ b.drop (e.1 + e.2.1)) (zeros n)

/-- Scale records of tensors 0, 5, 6 and 7, one KL8A or KL16 element each, block tables apart. -/
def recOf (id fmt : Nat) : ScaleRec := { rec5 with id := id, fmt := fmt, blocksVa := 0x1000 + 16 * id, ovfVa := 0x2000 + 64 * id, watchVa := 0x10000 + 4096 * id }
def recs : Table ScaleRec := [(0, recOf 0 2), (5, recOf 5 0), (6, recOf 6 0), (7, recOf 7 0)]

/-- A kernel descriptor of this code over tensors 5 (moving, at 0x4000), 6 (stationary, at 0x5000) and 7 (output, at 0x6000), EPOCH 1, on
cluster 0, one element wide, with more fields of its own. -/
def kraw (op : Nat) (l : List (Nat × Nat × Nat)) : List Byte := fields 256 ([(0, 1, op), (8, 4, 1), (26, 2, 1), (40, 4, 5), (44, 4, 6), (48, 4, 7),
  (56, 8, 0x4000), (64, 8, 0x5000), (72, 8, 0x6000), (80, 4, 64), (84, 4, 64), (88, 4, 64)] ++ l)
def mmRaw : List Byte := kraw 8 [(28, 4, 1), (32, 4, 1), (36, 4, 1)]
/-- One image of one pixel and one channel under a 1 × 1 window, with a stripe set or none (0xFF). -/
def slRaw (op set : Nat) : List Byte := kraw op [(128, 2, 1), (130, 2, 1), (132, 2, 1), (134, 2, 1), (136, 2, 1), (138, 6, 0x010101010101),
  (150, 2, 1), (153, 1, set), (154, 1, 1), (156, 2, 8), (158, 1, 0xFF)]
def kw (raw : List Byte) (st : WorkState) : Work :=
  { id := 3, queue := 1, hostTag := 7, opcode := 0x0300, epoch := 1, raw := raw, outVa := 0x6000, movVa := 0x4000, st := st }
def kctx (w : Work) : Ctx := { params := fields 24 [(4, 2, 1)], resident := true, root := some 0x1000000, scales := recs, works := [w] }
def kst (w : Work) : State := paged (with0 (kctx w) ready)
def kfree : State := paged (with0 { kctx (kw [] .done) with works := [] } ready)
def mm (st : WorkState) : Work := kw mmRaw st
def kp (raw : List Byte) : Packet := cq 0x0300 raw
/-- The matrix product with a stationary tensor that has no record. -/
def noRec : List Byte := kraw 8 [(28, 4, 1), (32, 4, 1), (36, 4, 1), (44, 4, 9)]
def deferred : Work := { mm .deferred with raw := kraw 8 [(4, 1, 1), (28, 4, 1), (32, 4, 1), (36, 4, 1)] }
def finished : Work := { mm .issued with started := true, parts := 1, partsDone := [0] }

theorem witness_Dispatch : (Accepted 0x0300 (chkKernel (kp mmRaw) (owe (kp mmRaw) kfree)) (kp mmRaw) kfree ∧ ctxOf kfree 0 = some { kctx (kw [] .done) with works := [] } ∧
      firstBad (kernelRefusals (owe (kp mmRaw) kfree) { kctx (kw [] .done) with works := [] } 0 (queueOf (kp mmRaw)) (kernelWork (kp mmRaw) kfree.nextId)) = none) ∧
    (Accepted 0x0300 (chkKernel (kp noRec) (owe (kp noRec) kfree)) (kp noRec) kfree ∧
      firstBad (kernelRefusals (owe (kp noRec) kfree) { kctx (kw [] .done) with works := [] } 0 1 (kernelWork (kp noRec) kfree.nextId)) =
        some (stBADPARAM, some 0x0402)) ∧
    (Claims.IsWork 0 3 (kst (mm .waiting)) (kctx (mm .waiting)) (mm .waiting) ∧ mayStart (kst (mm .waiting)) (kctx (mm .waiting)) (mm .waiting) = true ∧
      staleClusters (kst (mm .waiting)) (mm .waiting) = []) ∧
    (mayStart (kst { mm .waiting with epoch := 0xFFFFFFFF }) (kctx { mm .waiting with epoch := 0xFFFFFFFF }) { mm .waiting with epoch := 0xFFFFFFFF } = true ∧
      staleClusters (kst { mm .waiting with epoch := 0xFFFFFFFF }) { mm .waiting with epoch := 0xFFFFFFFF } = [(0, 0)]) ∧
    (Claims.IsWork 0 3 (kst deferred) (kctx deferred) deferred ∧ mayStart (kst deferred) (kctx deferred) deferred = true ∧
      deferred.clusters.any (deferredOnly (kst deferred)) = true ∧
      staleClusters (kst deferred) deferred = []) ∧
    (Claims.IsWork 0 3 (kst finished) (kctx finished) finished ∧ finished.partsDone.length = finished.parts ∧ finished.held = [] ∧
      stampsDone (kctx finished) finished = true ∧ signalReady (kst finished) finished = true) := by
  repeat' apply And.intro
  all_goals decide +kernel

/-- The state in which a cluster of the kernel works; whether an array kernel starts, a vector kernel runs, the ready stripes of one run. -/
def kat (w : Work) : State := atWork w (kst w)
def starts (w : Work) : Bool := (writeFrame 0 (kctx w) w (kat w)).toOption.isSome && (fixX (kat w) 0 w).toOption.isSome
def vectorRuns (w : Work) (total : Nat) (o : OutSpec) (f : State → Nat → Except AccErr (OutVal × Nat)) : Bool :=
  (writeFrame 0 (kctx w) w (kat w)).toOption.isSome &&
    (runGranules 0 w o f total (granuleElems (kat w) 0 w) (granuleCount (kat w) 0 w total - w.resume) w.resume (kat w)).2.isNone
def stripesRun (w : Work) (planes per : Nat) (one : Nat → List Nat → State → Except (AccErr × Access) State) : Bool :=
  (writeFrame 0 (kctx w) w (kat w)).toOption.isSome && readyStripes (kctx w) w != [] &&
    (runList one ((stripeGranules (kctx w) w planes per).filter (fun e => decide (e.2.1 ∈ readyStripes (kctx w) w) && !granuleMade w e.1)) (kat w)).2.isNone
abbrev ReadyK (op : Nat) (w : Work) : Prop := Claims.KernelReady op 0 3 (kst w) (kctx w) w
def slw (op : Nat) : Work := kw (slRaw op 0xFF) .issued
def gsw (base : Nat) : Work := kw (kraw 0x10 [(128, 4, base), (132, 1, 1), (136, 8, 0x4000)]) .issued
def upw : Work := kw (kraw 0x11 [(128, 8, 0x8000), (136, 2, 1), (140, 4, 1), (144, 8, 0x9000), (152, 4, 100)]) .issued
def pgw : Work := kw (kraw 0x20 []) .issued

theorem witness_Kernels : (ReadyK 8 (mm .issued) ∧ starts (mm .issued) = true) ∧ (ReadyK 0 (slw 0) ∧ starts (slw 0) = true) ∧
    (ReadyK 1 (slw 1) ∧ starts (slw 1) = true) ∧
    (ReadyK 2 (slw 2) ∧ stripesRun (slw 2) 1 (granuleElems (kat (slw 2)) 0 (slw 2)) (runGranule 0 (slw 2) (poolSpec (slw 2)) (poolMaxAt 0 (slw 2))) = true) ∧
    (ReadyK 3 (slw 3) ∧ stripesRun (slw 3) 1 (granuleElems (kat (slw 3)) 0 (slw 3)) (runGranule 0 (slw 3) (poolSpec (slw 3)) (poolAvgAt 0 (slw 3))) = true) ∧
    (ReadyK 4 (slw 4) ∧ stripesRun (slw 4) 1 2048 (argmaxGranule 0 (slw 4)) = true) ∧
    (ReadyK 0x10 (gsw 5) ∧ (presentSlots (kat (gsw 5)) (gsw 5)).any (fun i => (scaleOf (kat (gsw 5)) 0 (slotTensor (gsw 5) i).id).isNone) = false ∧
      vectorRuns (gsw 5) 1 (gatherSpec (kat (gsw 5)) 0 (gsw 5)) (gatherAt 0 (gsw 5) (presentSlots (kat (gsw 5)) (gsw 5))) = true) ∧
    (ReadyK 0x10 (gsw 8) ∧ (presentSlots (kat (gsw 8)) (gsw 8)).any (fun i => (scaleOf (kat (gsw 8)) 0 (slotTensor (gsw 8) i).id).isNone) = true) ∧
    (ReadyK 0x11 upw ∧ (mapAcc (fun k => vaRead (kat upw) 0 (upw.groupVa + 64 * k) 64) (List.range upw.groupCount)).toOption = some [zeros 64] ∧
      (updateEntries (kat upw) 0 upw).toOption = some [zeros 64] ∧ [zeros 64].all groupEntryOk = true ∧ [zeros 64].all (paramEntryOk [zeros 64]) = true ∧
      [zeros 64].filterMap (paramRecords (kat upw) 0 [zeros 64] (upw.step % 2)) = [] ∧ inRegions (kat upw) 0 upw.groupVa 64 = true ∧
      [zeros 64].all (paramCovered (kat upw) 0) = true ∧ scratchFits (kat upw) 0 upw (paramsOf (kat upw) 0 upw [zeros 64] [zeros 64]) = true ∧
      (updateParams 0 upw (paramsOf (kat upw) 0 upw [zeros 64] [zeros 64]) 0 (kat upw)).2.isNone = true) ∧
    (ReadyK 0x20 pgw ∧ imageRefusal (kat pgw) 0 [.draw 0x8000 0 0 0 0x4000] = none ∧ (writeFrame 0 (kctx pgw) pgw (kat pgw)).toOption.isSome = true ∧
      imageRefusal (kat pgw) 0 [.klAdd .kl8b .kl16 .kl16 .nearest false ⟨9, 0x4000, 0, 1, 0, 0⟩ ⟨6, 0x5000, 0, 1, 0, 0⟩
        ⟨7, 0x6000, 0, 1, 0, 0⟩] = some (some 0x0402)) := by
  repeat' apply And.intro
  all_goals decide +kernel

/-- A chain of the matrix product on gang 0 of cluster 0, before its tile, with it in the shadow registers, passed, and draining. -/
def started1 : Work := { mm .issued with started := true, parts := 1 }
/-- The same with chain 0 abandoned on cluster 0 by a fence. -/
def dropped1 : Work := { started1 with abandoned := [(0, 0)] }
def chain0 : ChainRun := { ctx := 0, id := 3, chain := 0, accs := [{}] }
def gst (g : Gang) : State := { kst started1 with arrays := { gangs := [(0, g)] } }
def before : State := gst { run := some chain0 }
def loadedTile : ChainRun := { chain0 with nextLoad := 1, shadow := some (0, [0]) }
def passed1 : ChainRun := { chain0 with nextLoad := 1, live := [0], passed := 1 }
def draining : State := gst { drain := some passed1 }
/-- The running chain of a state, and what a test says of it. -/
def running1 (s : State) (r : ChainRun) (f : Running → Bool) : Bool := has (runningOf s r) f
def stripes1 : StripeSet := { flags := 0, maxMove := 1, minRows := 1, deadband := 0, height := 1, haloBase := 8, haloCount := 2, clusters := [0], bound := [0] }
def haloWork : Work := { kw (slRaw 2 4) .issued with started := true, ran := [0] }
def haloCtx : Ctx := { kctx haloWork with stripes := [(4, stripes1)] }
def fencedHalo : State := { with0 haloCtx ready with chart := { epoch := 1, fence := [uCluster 0] } }
/-- A started kernel with a granule written and held; whether a loaded tile of a kernel can swap in. -/
def heldWork : Work := { kw (slRaw 2 0xFF) .issued with started := true, parts := 1, held := [⟨0, 7, {}, 0, none⟩] }
def swaps (w : Work) : Bool := running1 { kst w with arrays := { gangs := [(0, { run := some loadedTile })] } } loadedTile (fun k => k.w == w &&
  (passTile (atUnit (uCluster 0) (kst w)) loadedTile k ((k.tiles[0]?).getD []) [0]).toOption.isSome)
def stripe1 : Packet := cq 0x0310 ([4, 1, 0, 1] ++ leBytes 2 1 ++ zeros 2 ++ leBytes 2 1 ++ leBytes 2 8 ++ leBytes 2 2 ++ zeros 6)
def getStripe (n : Nat) : Packet := cq 0x0311 (leBytes 4 n)

theorem witness_ArraysAndStripes : (Claims.IsWork 0 3 (kst started1) (kctx started1) started1 ∧ chainMayStart (kst started1) 0 (kctx started1) started1 0 0 0 = true ∧
      nextTurn (kst started1) 0 (Claims.lowest started1 0) = some 0 ∧
      nextIdentity (kst started1) (carrier (kst started1) 0) (Claims.lowest started1 0) = some 0 ∧ tget started1.abandoned 0 = none ∧
      chainMayStart (kst dropped1) 0 (kctx dropped1) dropped1 0 0 0 = true ∧ tget dropped1.abandoned 0 ≠ none) ∧
    ((gangOf before 0 0).run = some chain0 ∧ running1 before chain0 (fun k => deadFor k.x 3 == [] && decide (chain0.nextLoad < k.tiles.length) && issues before k.x &&
      (tileCodes (atUnit (uCluster (carrier before 0)) before) chain0 k ((k.tiles[0]?).getD [])).toOption == some [0]) = true) ∧
    (running1 (gst { run := some loadedTile }) loadedTile (fun k => issues before k.x && !k.w.deferWg && deadFor k.x 3 == [] &&
      (passTile (atUnit (uCluster (carrier before 0)) (gst { run := some loadedTile })) loadedTile k ((k.tiles[0]?).getD []) [0]).toOption.isSome && (tget k.w.redo 0).getD 0 ≤ loadedTile.passed) = true ∧ swaps { started1 with raw := deferred.raw } = true ∧ swaps { started1 with redo := [(0, 1)] } = true) ∧
    (running1 (gst { run := some passed1 }) passed1 (fun k => passed1.passed == k.tiles.length && deadFor k.x 3 == []) = true ∧
      filesFree (gst { run := some passed1 }) 0 passed1.mode passed1.gang = true) ∧
    (draining.dev.st = .ready ∧ (gangOf draining 0 0).drain = some passed1 ∧ running1 draining passed1 (fun k => deadFor k.x 3 == [] &&
      (writeElems 0 (outSpecOf k.w) k.w.step k.w.origin (drainList passed1 k) (atUnit (uCluster (carrier draining 0)) draining, {}, 0)).toOption.isSome) = true) ∧
    (Claims.IsWork 0 3 (kst heldWork) (kctx heldWork) heldWork ∧ deadFor (kctx heldWork) 3 = [] ∧ heldWork.held.filter (fun h => h.part == 0) ≠ [] ∧
      heldWork.held.all (granuleServes (kst heldWork) heldWork) = true) ∧
    (outStripes haloCtx haloWork = some stripes1 ∧ stripes1.clusters[0]? = some 0 ∧ haloWork.started = true ∧
      writesAcked (kst haloWork) (uCluster (carrier (kst haloWork) 0)) = true ∧ uCluster (carrier (kst haloWork) 0) ∉ (kst haloWork).chart.fence ∧ uCluster (carrier fencedHalo 0) ∈ fencedHalo.chart.fence ∧ haloWork.haloBase + 2 * 0 + 1 ∉ haloWork.stamps ∧
      rowsWritten haloCtx haloWork 0 (coveredRows haloWork stripes1 0 true) = true) ∧
    (Accepted 0x0310 (chkStripeSet stripe1 (owe stripe1 loaded)) stripe1 loaded ∧ setShapeBad stripe1 = false ∧ ctx0.bound = false ∧
      Accepted 0x0310 (chkStripeSet stripe1 (owe stripe1 (with0 { ctx0 with bound := true } ready))) stripe1 (with0 { ctx0 with bound := true } ready)) ∧
    (Accepted 0x0311 (chkStripeGet (getStripe 4)) (getStripe 4) (with0 haloCtx ready) ∧ tget haloCtx.stripes (pf (getStripe 4) 0 1) = some stripes1 ∧
      Accepted 0x0311 (chkStripeGet (getStripe 63)) (getStripe 63) (with0 haloCtx ready) ∧ tget haloCtx.stripes 63 = none ∧ tget haloCtx.newStripes 63 = none) := by
  repeat' apply And.intro
  all_goals decide +kernel

/-! ### Witnesses: ingest, ports, collectives -/

/-- A schedule of one shard of two records at 0x10000 and one required RAW field "a" of 4 bytes; the same with entries too small. -/
def schedP (entry : Nat) : Packet := cq 0x0400 (fields 160 [(16, 4, 1), (20, 2, 1), (22, 2, 2), (26, 1, 1), (27, 1, 1), (40, 8, entry), (56, 4, 16),
  (64, 3, 5), (68, 4, 2), (72, 8, 0x10000), (80, 8, 256), (96, 1, 0x61), (128, 1, 6), (129, 1, 1), (134, 4, 4)])
def sched1 : Sched := schedOf (schedP 65536)
def ing (g : Ingest) : State := paged (with0 { params := fields 24 [(10, 2, 4)], root := some 0x1000000, ingest := g } ready)
def unscheduled : State := ing {}
def scheduled : Ingest := { sched := some sched1 }
def ingRuns : Ingest := { scheduled with running := true, admitted := true }
/-- The header of a table with one token more than its bytes and no merge, with its CRC. -/
def tableP (crc : Nat) : Packet := dev 0x0410 (fields 32 [(0, 4, 0x4B4F545A), (4, 4, 1), (8, 4, 257), (16, 4, 1), (20, 4, crc)])
def manP : Packet := cq 0x0420 (leBytes 8 3)
def man3 : BatchManifest := ⟨3, 0, 1, [5 * 2 ^ 40], [], true, []⟩

theorem witness_IngestCommands : (Accepted 0x0400 (chkIngestSchedule (schedP 65536) (owe (schedP 65536) unscheduled)) (schedP 65536) unscheduled ∧
      schedRefusal (owe (schedP 65536) unscheduled) 0 sched1 = none) ∧
    (Accepted 0x0400 (chkIngestSchedule (schedP 0) (owe (schedP 0) unscheduled)) (schedP 0) unscheduled ∧
      schedRefusal (owe (schedP 0) unscheduled) 0 (schedOf (schedP 0)) = some 0x0701) ∧
    (Accepted 0x0401 (chkIngestStart (cq 0x0401)) (cq 0x0401) (ing scheduled) ∧ scheduled.sched.isSome = true ∧ scheduled.needsSchedule = false) ∧
    Accepted 0x0402 (chkIngestStop (cq 0x0402)) (cq 0x0402) (ing ingRuns) ∧
    (Accepted 0x0410 (chkTokenTableLoad (tableP 0) (owe (tableP 0) ready)) (tableP 0) ready ∧
      fieldAt ((tableP 0).params.take (tableP 0).paramLen) 20 4 = (crc32c (((tableP 0).params.take (tableP 0).paramLen).drop 32)).toNat ∧
      merges ((tableP 0).params.take (tableP 0).paramLen) = []) ∧
    (Accepted 0x0410 (chkTokenTableLoad (tableP 1) (owe (tableP 1) ready)) (tableP 1) ready ∧
      fieldAt ((tableP 1).params.take (tableP 1).paramLen) 20 4 ≠ (crc32c (((tableP 1).params.take (tableP 1).paramLen).drop 32)).toNat) ∧
    (Accepted 0x0420 (chkManifestGet manP (owe manP (ing { scheduled with manifests := [man3] }))) manP (ing { scheduled with manifests := [man3] }) ∧
      [man3].find? (fun m => m.batch == pf manP 0 8) = some man3) := by
  repeat' apply And.intro
  all_goals decide +kernel

/-- Record 0 of the shard: a frame with the body of one key "a" and a typed array of two bytes 01 02. -/
def frame0 : List Byte :=
  let h : List Byte := leBytes 4 0x31535258 ++ leBytes 4 8 ++ zeros 8 ++ [0xA1, 0x61, 0x61, 0xD8, 0x40, 0x42, 0x01, 0x02]
  h ++ leBytes 4 (crc32c h).toNat
def framed : State := devWrite 0x10000 frame0 (ing ingRuns)
def sample0 : Sample := { stream := 0, id := 5 * 2 ^ 40, engine := 0x5000, values := [some [1, 2]] }
def decoding : Ingest := { ingRuns with assembling := true, samples := [sample0] }
def inRebuild : Ingest := { decoding with rebuild := [man3] }
/-- Whether record 0 parses to these values. -/
def parsesTo (v : List (Option (List Byte))) : Bool :=
  match parseRecord framed 0 sched1.fields ((sched1.shards.headD ⟨0, 0, 0, 0, 0⟩)) 0 with
  | .ok (.ok l) => l == v
  | _ => false
/-- Whether the sample's fields decode, or to which reason they do not. -/
def decodes (d : List Decoded) : Option Nat :=
  match decodeFields [] (jobSeed (ing decoding)) (5 * 2 ^ 40) 0 0 sched1.fields [some [1, 2]] d with
  | .ok _ => none
  | .error r => some r

theorem witness_IngestWork : (ingRuns.active = true ∧ ingRuns.mayRead 0 = true ∧ unitServes framed 0x5000 = true ∧ 0x5000 ∉ framed.chart.fence) ∧
    (shardOfId sched1 (streamId (jobSeed framed) sched1 0) = sched1.shards.head? ∧ sched1.shards ≠ [] ∧ streamId (jobSeed framed) sched1 0 % 2 ^ 40 = 0 ∧
      parsesTo [some [1, 2]] = true ∧ (pickEngines sched1.fields [some [1, 2]] framed).1.length ≤ 1) ∧
    (has (ctxOf (ing decoding) 0) (fun x => inDecode x 0 == some sample0) = true ∧ decoding.active = true ∧ 10 ≤ slowTicks decoding ∧ 10 < decodeLimit ∧
      sample0.engines.all (fun e => unitState (ing decoding) e == .healthy && !restarts (ing decoding) e) = true ∧
      decodes [.ofBody] = none ∧ decodes [.bad 5] = some 5 ∧ inRebuild.rebuild ≠ []) ∧
    mayAssemble (ing ingRuns) sched1 ingRuns = true ∧
    (sample0.slow = false ∧ slowTicks decoding < 100001 ∧ decoding.rebuild = [] ∧
      has (ctxOf (ing inRebuild) 0) (fun x => inDecode x 0 == some sample0) = true ∧ slowTicks inRebuild < 100001 ∧ inRebuild.rebuild ≠ [] ∧
      inRebuild.active = true) ∧
    (decoding.rebuild = [] ∧ runs (.decodeTimeout 0 0) (ing decoding) = true) := by
  repeat' apply And.intro
  all_goals decide +kernel

/-- Port 0 as given, the others unused; a native port that is up on eight lanes, and an Ethernet one. -/
def ported (p : Port) : State := { ready with fab := { ports := p :: List.replicate 5 {} } }
def native : Port := { mode := 0, outcome := 0, up := true, width := 8, active := [0, 1, 2, 3, 4, 5, 6, 7] }
def ether : Port := { native with mode := 1 }
def goodLanes : List LaneFound := (List.range 8).map (fun l => ⟨true, false, l⟩)
/-- A flit of this sequence number that carries nothing, and one in transit. -/
def flit0 (seq : Nat) : Flit := { cls := 3, dest := 0xFFFF, src := 1, seq := seq, ack := 65535, len := 0, payload := zeros 240 }
def transit0 : Flit := { flit0 0 with dest := 7, transit := true }

theorem witness_Ports : Accepted 0x0500 (chkPortStatus (dev 0x0500)) (dev 0x0500) ready ∧
    (fabricRuns (ported { mode := 0 }) = true ∧ (portOf (ported { mode := 0 }) 0).mode ≠ 2 ∧ (portOf (ported { mode := 0 }) 0).up = false ∧ (portOf (ported { mode := 0 }) 0).training = false ∧
      unitState (ported { mode := 0 }) (uPort 0) ≠ .failed) ∧
    ((portOf (ported { mode := 1, training := true }) 0).training = true ∧ foundOk goodLanes = true) ∧
    (usesLane (ported native) 0 3 = true ∧ 5 ≤ (portOf (ported native) 0).active.length) ∧
    ((portOf (ported native) 0).up = true) ∧
    ((portOf (ported native) 0).mode = 0 ∧ (flitBytes (flit0 0)).length = 256 ∧ flitSound (flitBytes (flit0 0)) false = false) ∧
    (flitSound (flitBytes (flit0 9)) true = true ∧ Sys2Proof.Machine.flitOk (flitOf (flitBytes (flit0 9))) = true ∧
      (flitOf (flitBytes (flit0 9))).seq ≠ (portOf (ported native) 0).rxSeq) ∧
    (flitSound (flitBytes (flit0 0)) true = true ∧ Sys2Proof.Machine.flitOk (flitOf (flitBytes (flit0 0))) = true ∧
      (flitOf (flitBytes (flit0 0))).seq = (portOf (ported native) 0).rxSeq) ∧
    (portCarries (portOf (ported native) 0) (flit0 0) = true ∧ forThis (ported native) (flit0 0) = true ∧ forThis (ported native) transit0 = false ∧
      portCarries (portOf (ported native) 0) transit0 = true ∧ portCarries (portOf (ported { native with outcome := 7 }) 0) transit0 = false) ∧
    ((trainedPort (numbered goodLanes) .samegroup native).up = true ∧ (trainedPort [] .samegroup native).up = false) ∧
    ((flit0 0).cls < 256 ∧ (flit0 0).payload.length = 240 ∧ 4 < 5) ∧
    (portOf (ported { native with replay := [flit0 2] }) 0).replay.any (fun f => f.seq == 2) = true ∧
    (etherUp (ported ether) 0 = true ∧ roceSupported .send = true ∧ roceSupported .read = false ∧
      sendRate (portOf (ported { ether with rates := [(4, 2 ^ 31)] }) 0) 4 < 2 ^ 32) := by
  repeat' apply And.intro
  all_goals decide +kernel

/-- A collective of eight KL16 elements of tensor 5 at 0x4000 into tensor 6 at 0x5000, by context 0. -/
def rec16 (id : Nat) : ScaleRec := { recOf id 2 with rows := 1, cols := 8 }
def collRaw (op root n : Nat) : List Byte := fields 64 [(0, 1, op), (2, 1, 2), (4, 2, root), (8, 4, 77), (12, 4, 1), (24, 4, 5), (28, 4, 6),
  (32, 8, 0x4000), (40, 8, 0x5000), (48, 8, n)]
def collP (n : Nat) : Packet := cq 0x0520 (collRaw 1 0 n)
def collCtx (w : List Work) : Ctx := { params := zeros 24, resident := true, root := some 0x1000000, scales := [(5, rec16 5), (6, rec16 6)], works := w }
def collSt (w : List Work) : State := paged (with0 (collCtx w) ready)
def cw (op : Nat) : Work := { collWork (cq 0x0520 (collRaw op (if op = 0 ∨ op = 4 then 0xFFFF else 0) 8)) 3 with st := .waiting }
/-- The collective of `cw op` may start, and a run of its row answers a next state. -/
def collStarts (op : Nat) (i : Instr) : Bool := (cw op).collOp == op && collReady (collSt [cw op]) (collCtx [cw op]) (cw op) &&
  !collBefore (collSt [cw op]) (cw op) && runs i (collSt [cw op])

theorem witness_Collectives : (Accepted 0x0520 (chkColl (collP 8)) (collP 8) (collSt []) ∧
      firstBad (collRefusals (owe (collP 8) (collSt [])) 0 (collWork (collP 8) (collSt []).nextId)) = none) ∧
    (Accepted 0x0520 (chkColl (collP 0)) (collP 0) (collSt []) ∧
      firstBad (collRefusals (owe (collP 0) (collSt [])) 0 (collWork (collP 0) (collSt []).nextId)) = some (stBADPARAM, some 0x0B02)) ∧
    collStarts 0 (.reduce 0 3) = true ∧ collStarts 1 (.allReduce 0 3) = true ∧ collStarts 2 (.allGather 0 3) = true ∧
    collStarts 3 (.reduceScatter 0 3) = true ∧ collStarts 4 (.broadcast 0 3) = true := by
  repeat' apply And.intro
  all_goals decide +kernel

/-- Rank 0 of a group of ranks 0 and 1, managed by rank 1, with the chart of epoch 1. -/
def grouped : State := { ready with grp := { joined := true, rank := 0, managerRank := 1, gen := 1, epoch := 1, recs := [{ rank := 0 }, { rank := 1, role := 1 }] } }
def sig1 (step : Nat) : CollSig := ⟨1, 0, 2, 0, 77, step, 8⟩
/-- The same collective with another DETAIL of its signature, and a group that has one signature in. -/
def other1 : CollSig := { sig1 0 with elements := 9 }
def signing (g : CollSig) : State := { grouped with colls := { sigs := [⟨1, 1, g⟩] } }
/-- An epoch abort of GEN 1 has taken place. -/
def aborted1 : State := { grouped with colls := { abortedFrom := some (1, 0) } }
def flying : Coll := { ctx := 0, work := 3, sig := sig1 0, gen := 1, unacked := [(0, 1)] }
/-- The ALL_REDUCE at work here with these chunks written, a state in which it is, with its output mapped or not, and a result of one chunk. -/
def cwRun (done : List Nat) : Work := { cw 1 with st := .issued, partsDone := done }
def writing (done : List Nat) : State := { collSt [cwRun done] with grp := grouped.grp, colls := { flight := [{ flying with ctx := 0, work := 3 }] } }
def unmapped : State := { with0 (collCtx [cwRun []]) ready with grp := grouped.grp, colls := (writing []).colls }
def result1 : CollResult := ⟨77, 0, 1, 0, [0, 0], []⟩
/-- A collective that has completed, with one chunk unacknowledged. -/
def landed : Coll := { flying with done := true }
def gabort : Packet := pk (.fabric 1) 0xFF 0x0521 (leBytes 8 0 ++ leBytes 2 1 ++ zeros 6)
def deadline1 : Packet := dev 0x0530 ([0, 0] ++ leBytes 2 320 ++ leBytes 4 1000 ++ leBytes 4 10000 ++ zeros 4)
def mirroring : State := { ready with grp := { manager := true, deputy := 2 } }
def managing : State := { ready with grp := { manager := true } }

theorem witness_CollectiveTraffic : (1 ∈ collRanks grouped ∧ 1 ≠ grouped.grp.rank ∧ (sig1 0).step < ({ grouped.dev with step := 1 } : Device).step ∧
      grouped.dev.step ≤ (sig1 0).step ∧
      grouped.colls.sigs.any (fun e => e.sig.collId == (sig1 0).collId && e.sig.step == (sig1 0).step && e.sig != sig1 0) = false ∧
      (signing (sig1 0)).colls.sigs.any (fun e => e.sig.collId == (other1).collId && e.sig.step == (other1).step && e.sig != other1) = true) ∧
    (inGroup grouped = true ∧ grouped.grp.recs.any (fun r => r.rank == 1) = true ∧ rankFailed grouped 1 = false ∧ staleGen grouped 0 = true ∧
      staleGen grouped 1 = false ∧ refusedGen grouped 1 = false ∧ sigOf grouped 77 0 = none ∧ sigOf (signing (sig1 0)) 77 0 = some (sig1 0) ∧
      staleGen aborted1 1 = false ∧ refusedGen aborted1 1 = true ∧ inGroup aborted1 = true) ∧
    ((77, 0) ∉ grouped.colls.mismatched ∧ collWorkOf grouped 77 0 = none ∧ inGroup (writing []) = true ∧ staleGen (writing []) 1 = false ∧
      refusedGen (writing []) 1 = false ∧ (77, 0) ∉ (writing []).colls.mismatched ∧ Claims.Writes 77 0 (writing []) 0 (cwRun []) ∧ 0 ∉ (cwRun []).partsDone ∧
      (writeChunk 0 (cwRun []) result1 (writing [])).toOption.isSome = true ∧ Claims.Writes 77 0 (writing [0]) 0 (cwRun [0]) ∧ 0 ∈ (cwRun [0]).partsDone ∧
      Claims.Writes 77 0 unmapped 0 (cwRun []) ∧ (writeChunk 0 (cwRun []) result1 unmapped).toOption = none ∧ staleGen unmapped 1 = false ∧
      refusedGen unmapped 1 = false ∧ (77, 0) ∉ unmapped.colls.mismatched ∧ inGroup unmapped = true) ∧
    flying.done = false ∧ (landed.done = true ∧ landed.unacked.filter (fun u => u != (0, 1)) = []) ∧
    [flying].find? (fun f => f.sig.collId == 77 && f.sig.step == 0 && decide ((0, 1) ∈ f.unacked)) = some flying ∧
    Accepted 0x0521 (chkEpochAbort gabort) gabort grouped ∧
    (Accepted 0x0530 (chkDeadline deadline1) deadline1 managing ∧ managing.grp.manager = true ∧ managing.grp.deputy = 0xFFFF ∧
      Accepted 0x0530 (chkDeadline deadline1) deadline1 mirroring ∧ mirroring.grp.manager = true ∧ mirroring.grp.deputy ≠ 0xFFFF ∧
      Accepted 0x0530 (chkDeadline deadline1) deadline1 ready ∧ ready.grp.manager = false) := by
  repeat' apply And.intro
  all_goals decide +kernel

/-! ### Witnesses: memory, faults of contexts -/

/-- The first GiB of the context's space in host memory, read only: a DMA item, a kernel and an ingest that read it. -/
def dmaHost : State := mapped 0x7 (with0 (dmaCtx (dmaRun1 0 0 256)) ready)
def kernelHost : State := mapped 0x7 (with0 (kctx (mm .issued)) ready)
def shardHost : State := mapped 0x7 (ing ingRuns)
/-- A resident context, its walk with an empty cache, and the same with the page cached for cluster 0. -/
def rooted : Ctx := { ctx0 with resident := true }
def tabled : State := paged (with0 rooted ready)
def cached0 : State := { tabled with mem := { tabled.mem with tlb := [⟨0x1000, 0, 0, 2 ^ 30, 0x13, 1, 0x1010000⟩] } }
def running8 : State := kst (mm .issued)

theorem witness_PcieAndTranslation : (tget (withQ oneSlot).queues.q 0 = some oneSlot ∧ oneSlot.stopped = false ∧ oneSlot.head ≠ oneSlot.sqTail) ∧
    (isHost (far (.host 0) 0xFF 0x0410 [1]).src = true ∧ bitAt (far (.host 0) 0xFF 0x0410 [1]).flags 0 = true ∧ ready.dev.st ≠ .off) ∧
    (ctxOf dmaHost 0 = some (dmaCtx (dmaRun1 0 0 256)) ∧ (dmaCtx (dmaRun1 0 0 256)).work 3 = some (dmaRun1 0 0 256) ∧
      mayAccess (dmaRun1 0 0 256) .read = true ∧ (dmaRun1 0 0 256).st = .issued ∧ mayRun dmaHost (dmaCtx (dmaRun1 0 0 256)) = true ∧
      dmaAt (dmaRun1 0 0 256) false 0x1000 = some (0, 0) ∧ has (pcieDetail dmaHost 0 0x1000 (engineDie dmaHost).1 .read) (fun _ => true) = true) ∧
    (Claims.IsWork 0 3 kernelHost (kctx (mm .issued)) (mm .issued) ∧ mayAccess (mm .issued) .read = true ∧ kernelRuns (mm .issued) = true ∧
      mayRun kernelHost (kctx (mm .issued)) = true ∧ has (pcieDetail kernelHost 0 0x1000 (someCluster (mm .issued) kernelHost).1 .read) (fun _ => true) = true) ∧
    (has (pcieDetail shardHost 0 0x1000 0x5000 .shard) (fun _ => true) = true ∧ has (ctxOf shardHost 0) (fun x => x.ingest.active) = true) ∧
    (accessOk 0x1000 .read = true ∧ mayRun tabled rooted = true ∧ translate (atUnit 0x1000 tabled) 0 0x1000 false = .ok (.dev 0x1000 false) ∧
      tlbFind tabled 0x1000 0 0x1000 = none ∧ leafOf tabled 0 0x1000 = .ok (0x13, 30, 1, 0x1010000) ∧ tlbSize 0x1000 = 64) ∧
    (accessOk 0x8000 .sync = true ∧ tlbSize 0x8000 = 0 ∧ translate (atUnit 0x8000 tabled) 0 0x1000 false = .ok (.dev 0x1000 false)) ∧
    (has (tlbFind cached0 0x1000 0 0x1000) (fun _ => true) = true ∧ translate (atUnit 0x1000 cached0) 0 0x1000 false = .ok (.dev 0x1000 false)) ∧
    (accessOk (uCluster (carrier running8 0)) .read = true ∧
      translate (atUnit (uCluster (carrier running8 0)) running8) 0 (2 ^ 30) false = .error { level := 1, reason := 1, entryDpa := 0x1010008 } ∧
      mayRun running8 (kctx (mm .issued)) = true ∧ (kctx (mm .issued)).works.find? (fun w => runsOn running8 w (carrier running8 0) &&
        (Access.read == .sync || mayAccess w .read)) = some (mm .issued)) := by
  repeat' apply And.intro
  all_goals decide +kernel

/-- A pool of 5 GiB a stack in quadrant 0, in an armour state, with block 7 poisoned. -/
def armoured (a : Armour) : State := { ready with
  conf := { sections := [(3, [1, 0, 0, 0, 0, 0, 0, 0])] }, mem := { armour := [a, {}, {}, {}], poison := [7] } }
def intact : State := armoured { st := 1 }
def poolOff : Nat := 42 * gib

/-- The line of a stack offset in its cache, dirty or not. -/
def lined (dirty : Bool) (st off : Nat) : State := { intact with mem := { intact.mem with cache := [⟨hbmKey st off / 128, dirty⟩] } }

theorem witness_ErrorCorrection : (stackAnswers intact 0 448 = true ∧ blockPoisoned intact 0 448 = true ∧ stackAnswers intact 0 0 = true ∧
      blockPoisoned intact 0 0 = false ∧ Claims.ReadsUnder intact 0 448 none false ∧ Claims.ReadsUnder intact 0 0 none false) ∧
    (stackAnswers (lined false 0 0) 0 0 = true ∧ lineAt (lined false 0 0) 0 0 = some ⟨0, false⟩ ∧ blockPoisoned (lined false 0 0) 0 0 = false ∧
      Claims.ReadsUnder (lined false 0 0) 0 0 none false ∧ lineAt (lined true 0 0) 0 0 = some ⟨0, true⟩) ∧
    (has (readAllocates (paged (with0 { ctx0 with resident := true } intact)) 0 0 (some (0, 0))) (fun _ => true) = true) ∧
    (intact.fix.stage ≠ .copying ∧ stackPart intact 0 0 = .plain) ∧
    (stackAnswers intact 0 poolOff = true ∧ stackPart intact 0 poolOff = .pool 0 ∧ (armourOf intact 0).st = 1 ∧ (armourOf (countUe 0 intact) 0).st = 1 ∧
      has (rebuiltBytes (countUe 0 intact) 0 0 (survivors 0)) (fun _ => true) = true) := by
  repeat' apply And.intro
  all_goals decide +kernel

def rebuilding (lost : Nat) : State := armoured { st := 3, lostJ := lost }
/-- Stripe 0 of quadrant 0 with a write in its owner's buffer. -/
def buffered : State := { intact with mem := { intact.mem with unacked := [⟨0, 0, 0, [], none⟩] } }

theorem witness_Armour : (oneStripe intact (2 ^ 39) [(1 : Byte)].length = some (0, 0) ∧ (armourOf intact 0).st ≠ 5 ∧ stripeBusy intact 0 0 = false ∧
      intact.dev.st ≠ .off) ∧
    stripeBusy buffered 0 0 = true ∧ (0 ∉ intact.mem.lost ∧ unitState intact (uStack 0) = .healthy) ∧
    (({ st := 1 } : Armour).st = 1 ∧ ({ st := 2 } : Armour).st = 2) ∧ (⟨0, true⟩ ∈ (lined true 0 0).mem.cache ∧ lineStack 0 = 0) ∧
    ((armourOf (rebuilding 5) 0).st = 3 ∧ (armourOf (rebuilding 5) 0).cursor < poolStripes (rebuilding 5) 0 ∧
      stripeBusy (rebuilding 5) 0 0 = false ∧ parityJ (armourOf (rebuilding 5) 0).cursor = (armourOf (rebuilding 5) 0).lostJ) ∧
    ((armourOf (rebuilding 0) 0).cursor < poolStripes (rebuilding 0) 0 ∧ parityJ (armourOf (rebuilding 0) 0).cursor ≠ (armourOf (rebuilding 0) 0).lostJ ∧
      stripeBusy (rebuilding 0) 0 0 = false ∧ has (rebuiltBytes (rebuilding 0) 0 0 (survivors 0)) (fun _ => true) = true) := by
  repeat' apply And.intro
  all_goals decide +kernel

/-- Record 0 of a context: of its work item 3, of ingest; FAULT_RESOLVE of record `i` with an action. -/
def fault3 : FaultRec := { fault0 with work := some 3 }
def overrun0 : FaultRec := { fault0 with cls := 4, detail := .overrun 0 1 }
def parkedWith (f : FaultRec) : State := with0 { dmaCtx (dmaRun1 0 0 256) with parked := true, faults := [(0, f)] } ready
def resolve (i action : Nat) : Packet := cq 0x0601 ([BitVec.ofNat 8 i, BitVec.ofNat 8 action] ++ zeros 2)
/-- Two contexts that each claim every wait entry, the first resident and the second with work. -/
def greedy (resident : Bool) (w : List Work) : Ctx := { params := fields 24 [(8, 2, 3584)], resident := resident, works := w }
def rivals : State := { loaded with ctxs := [(0, greedy true []), (1, greedy false [mm .waiting])] }
def leavingCtx : Ctx := { ctx0 with saving := true, works := [mm .waiting] }
def saved : Ctx := { ctx0 with savedOut := true, savedHeader := zeros 64, savedCrc := crc32c [], works := [mm .waiting] }
def damaged : Ctx := { saved with savedHeader := [1] }

theorem witness_ContextFaults : Accepted 0x0600 (chkFaultGet (cq 0x0600)) (cq 0x0600) (parkedWith fault3) ∧
    (Accepted 0x0601 (chkFaultResolve (resolve 0 0)) (resolve 0 0) (parkedWith fault3) ∧ pf (resolve 0 0) 1 1 = 0 ∧ fault3.cls ≠ 4 ∧
      tget [(0, fault3)] (pf (resolve 0 0) 0 1) = some fault3) ∧
    (Accepted 0x0601 (chkFaultResolve (resolve 0 1)) (resolve 0 1) (parkedWith fault3) ∧ pf (resolve 0 1) 1 1 = 1 ∧ replayedAbort (owe (resolve 0 1) (parkedWith fault3)) 0 fault3.step fault3.hostTag = none) ∧
    (Accepted 0x0601 (chkFaultResolve (resolve 0 2)) (resolve 0 2) (parkedWith fault3) ∧ pf (resolve 0 2) 1 1 = 2) ∧
    (Accepted 0x0601 (chkFaultResolve (resolve 5 0)) (resolve 5 0) (parkedWith fault3) ∧ tget [(0, fault3)] (pf (resolve 5 0) 0 1) = none) ∧
    (Accepted 0x0601 (chkFaultResolve (resolve 0 0)) (resolve 0 0) (parkedWith overrun0) ∧ overrun0.cls = 4) ∧
    (pendingRecord (parkedWith fault3) 0 0 = some fault3 ∧ fault3.cls ≠ 4 ∧ replayedAbort (parkedWith fault3) 0 fault3.step fault3.hostTag = none ∧
      has ((ctxOf (freeRecordSlot 0 0 (parkedWith fault3)) 0).bind (fun x => x.work 3)) (fun _ => true) = true ∧
      has ((ctxOf (freeRecordSlot 0 0 (abortRecord 0 1 fault3 (parkedWith fault3))) 0).bind (fun x => x.work 3)) (fun _ => true) = true) ∧
    (tget [(0, fault3)] 0 = some fault3 ∧ ([(0, fault3)] : Table FaultRec).all (fun e => decide (e.1 < 16)) = true) ∧
    (contended rivals 0 (greedy true []) = true ∧ (greedy true []).resident = true ∧ contended loaded 0 { ctx0 with resident := true } = false) ∧
    (ctxOf (with0 leavingCtx ready) 0 = some leavingCtx ∧ leavingCtx.saving = true ∧ sparingUnder leavingCtx (with0 leavingCtx ready) = false) ∧
    (saved.runnable = true ∧ fits (saved :: residentsBut (paged (with0 saved ready)) 0) = true ∧ comesNext (paged (with0 saved ready)) 0 = true ∧
      (readSaved (paged (with0 saved ready)) 0 saved).toOption = some (saved.savedHeader, []) ∧ crc32c [] = saved.savedCrc) ∧
    (damaged.runnable = true ∧ fits (damaged :: residentsBut (paged (with0 damaged ready)) 0) = true ∧ comesNext (paged (with0 damaged ready)) 0 = true ∧
      (readSaved (paged (with0 damaged ready)) 0 damaged).toOption = some (zeros 64, []) ∧ zeros 64 ≠ damaged.savedHeader) := by
  repeat' apply And.intro
  all_goals decide +kernel

/-! ### Witnesses: the chart -/

/-- Both spares of compute die 0 gone, and so are 25 of its clusters, or all of them but cluster 0. -/
def without (n : Nat) : Table UnitRec := (List.range 52).filterMap (fun i => if n ≤ i then some (0x1000 + i, ⟨.failed, 1⟩) else none)
def worn (n : Nat) : State := { ready with chart := { ready.chart with units := without n } }
def movesOf (s : State) (phys : Nat) : Option (List (Nat × Nat)) := movesFrom (foreseen (abortFix 1 s)) phys (identities (foreseen (abortFix 1 s)) phys) []
def spares (s : State) (phys : Nat) (f : List (Nat × Nat) → Bool) : Bool :=
  unitState (foreseen (abortFix 1 s)) (uCluster phys) == .healthy && leaving s (uCluster phys) == false && has (movesOf s phys) f
/-- One unit in a state; media engine 0x5001 alone of its function. -/
def inState (u : Nat) (st : UnitState) : State := { ready with chart := { ready.chart with units := [(u, ⟨st, 1⟩)] } }
def lastEngine : State := { ready with chart := { ready.chart with units := [(0x5011, ⟨.failed, 1⟩), (0x5021, ⟨.failed, 1⟩), (0x5031, ⟨.failed, 1⟩)] } }

theorem witness_HardwareFaults : spares ready 0 (fun m => m == [(0, 50)] && decide (25 ≤ healthyAfter (foreseen ready) 0 m)) = true ∧
    spares (worn 25) 0 (fun m => decide (healthyAfter (foreseen (worn 25)) 0 m < 25)) = true ∧
    (movesOf (worn 1) 0 = none ∧ unitState (foreseen (abortFix 1 (worn 1))) (uCluster 0) = .healthy) ∧
    (unitState ready 0x1032 = .spare ∧ leaving ready 0x1032 = false ∧ unitState (foreseen (abortFix 1 (noteArray 50 (some 3) ready))) 0x1032 = .spare ∧
      unitState (inState 0x1000 .testing) 0x1000 = .testing ∧ leaving (inState 0x1000 .testing) 0x1000 = false ∧
      unitState (foreseen (abortFix 1 (inState 0x1000 .testing))) 0x1000 = .testing) ∧
    (unitState (inState 0x5001 .testing) 0x5001 = .testing ∧ leaving (inState 0x5001 .testing) 0x5001 = false) ∧
    (holdsWork before 0 = true ∧ clusterServes before 0 = true ∧
      spares before (carrier before 0) (fun m => decide (25 ≤ healthyAfter (foreseen before) (carrier before 0) m)) = true) ∧
    (unitValid 0x5001 = true ∧ unitState ready 0x5001 = .healthy ∧ leaving ready 0x5001 = false ∧ sameEngines ready [] 0x5001 ≠ [] ∧
      sameEngines lastEngine [] 0x5001 = []) := by
  repeat' apply And.intro
  all_goals decide +kernel

def order (u st : Nat) : Packet := dev 0x0602 (leBytes 2 u ++ leBytes 2 st)
/-- Cluster 0 gone, its identity on cluster 1 beside that one's own. -/
def doubled0 : State := { ready with chart := { ready.chart with units := [(0x1000, ⟨.failed, 1⟩)], map := tset ready.chart.map 0 1 } }
def planned0 : State := { ready with chart := { ready.chart with planned := [(0, 0xFFFF, .testing)] } }

theorem witness_UnitOrders : (plannedMoves (foreseen planned0) (carrier planned0 0) (plannedFrom planned0 (carrier planned0 0)) (promised planned0) = some [(0, 50)] ∧
      ([(uCluster (carrier planned0 0), UnitState.testing), (uCluster 50, .healthy)]).all (permits (foreseen planned0)) = true ∧
      (plannedFrom planned0 (carrier planned0 0)).any (fun x => x.1 == 0 && x.2.2 == .testing) = true ∧ clusterIdle planned0 (carrier planned0 0) = true) ∧
    (Accepted 0x0602 (chkUnitState (order 0x5001 3)) (order 0x5001 3) ready ∧ unitStateOf (pf (order 0x5001 3) 2 1) = some .quarantined ∧
      transitionOk 5 (unitState (foreseen (owe (order 0x5001 3) ready)) 0x5001) .quarantined = true ∧ kindHas 5 .quarantined = true) ∧
    (Accepted 0x0602 (chkUnitState (order 0x5001 0)) (order 0x5001 0) ready ∧ unitStateOf (pf (order 0x5001 0) 2 1) = some .healthy ∧
      kindHas 5 .healthy = true ∧ transitionOk 5 (unitState (foreseen (owe (order 0x5001 0) ready)) 0x5001) .healthy = false) ∧
    (Accepted 0x0602 (chkUnitState (order 0x2000 3)) (order 0x2000 3) ready ∧
      Accepted 0x0602 (chkUnitState (order 0x5001 1)) (order 0x5001 1) ready ∧ kindHas 5 .spare = false) ∧
    (Accepted 0x0602 (chkUnitState (order 0x1000 2)) (order 0x1000 2) ready ∧ unitState (foreseen (owe (order 0x1000 2) ready)) 0x1000 = .healthy ∧
      transitionOk 1 .healthy .testing = true ∧ kindHas 1 .testing = true) ∧
    (Accepted 0x0602 (chkUnitState (order 0x1032 0)) (order 0x1032 0) doubled0 ∧ unitStateOf (pf (order 0x1032 0) 2 1) = some .healthy ∧
      unitState (foreseen (owe (order 0x1032 0) doubled0)) 0x1032 = .spare ∧ has (doubledOf (foreseen (owe (order 0x1032 0) doubled0)) 0) (fun _ => true) = true ∧
      Accepted 0x0602 (chkUnitState (order 0x1032 0)) (order 0x1032 0) ready ∧ unitState (foreseen (owe (order 0x1032 0) ready)) 0x1032 = .spare ∧
      doubledOf (foreseen (owe (order 0x1032 0) ready)) 0 = none) ∧
    (unitValid 0x1000 = true ∧ unitState (foreseen ready) 0x1000 = .healthy ∧ (identities ready 0).length = 1 ∧ plannedFrom ready 0 = [] ∧ leaving ready 0x1000 = false ∧
      (dieClusters ready 0 .spare).head? = some 50) ∧
    (unitState ready 0x1032 = .spare ∧ unitState ready 0x7000 = .healthy ∧ unitState (foreseen ready) 0x7000 = .healthy ∧
      unitValid 0x2000 = true ∧ unitState (inState 0x1000 .testing) (uCluster 0) = .testing ∧
      unitState (foreseen (inState 0x1000 .testing)) 0x2000 = unitState (inState 0x1000 .testing) 0x2000) := by
  repeat' apply And.intro
  all_goals decide +kernel

/-- Compute die 3's supervisor faulted before, or restarts; a takeover runs, or no standby is left. -/
def faultedBefore : State := { ready with chart := { ready.chart with faulted := [uSup 3] } }
def takingOver : State := { ready with dev := { ready.dev with takeover := true } }
def alone : State := { ready with dev := { ready.dev with standbyBinnacle := false } }
def change1 : Change := { units := [(0x5001, .quarantined)] }
def pub1 (fenced applied : Bool) : Publication := { change := change1, epoch := 2, fenced := fenced, applied := applied }
def publishing (b : Publication) (s : State) : State := { s with chart := { s.chart with pub := some b } }

theorem witness_SupervisorsAndBinnacles : (unitState ready (uSup 3) = .healthy ∧ 3 ∉ ready.chart.restarting ∧ leaving ready (uSup 3) = false ∧
      uSup 3 ∉ ready.chart.faulted) ∧
    (unitState faultedBefore (uSup 3) = .healthy ∧ leaving faultedBefore (uSup 3) = false ∧ uSup 3 ∈ faultedBefore.chart.faulted) ∧
    3 ∈ ({ ready.chart with restarting := [3] } : Chart).restarting ∧
    (ready.dev.takeover = false ∧ ready.dev.standbyBinnacle = true ∧ ready.dev.st ≠ .off ∧ ready.dev.st ≠ .failed ∧ alone.dev.standbyBinnacle = false) ∧
    (takingOver.dev.takeover = true ∧ takingOver.chart.pub = none ∧ (publishing (pub1 true true) takingOver).chart.pub = some (pub1 true true) ∧
      (pub1 true true).applied = true) := by
  repeat' apply And.intro
  all_goals decide +kernel

def fenced1 : State := { ready with chart := { ready.chart with fence := [0x1000] } }
def discarded1 : State := { fenced1 with chart := { fenced1.chart with discards := [(16, 0x1000, 1)] } }
/-- Cluster 0 whose change epoch is 5. -/
def changed5 : State := { ready with chart := { ready.chart with units := [(0x1000, ⟨.healthy, 5⟩)] } }

theorem witness_Publication : (changeOk (foreseen ready) change1 = true ∧ ready.dev.takeover = false) ∧
    ((publishing (pub1 false false) ready).chart.pub = some (pub1 false false) ∧ (pub1 false false).fenced = false) ∧
    ((pub1 true false).fenced = true ∧ (pub1 true false).applied = false ∧ (publishing (pub1 true false) alone).dev.standbyBinnacle = false) ∧
    ((pub1 true true).applied = true ∧ (publishing (pub1 true true) ready).dev.standbyBinnacle = true ∧ (publishing (pub1 true true) ready).dev.takeover = false) ∧
    (0x1000 ∈ fenced1.chart.fence ∧ (16, 0x1000, 1) ∉ fenced1.chart.discards ∧ (16, 0x1000, 1) ∈ discarded1.chart.discards) ∧
    (unitValid 0x1000 = true ∧ UnitState.failed ≠ unitState ready 0x1000) ∧ epochOlder 4 (changeEpoch changed5 0x1000) = true := by
  repeat' apply And.intro
  all_goals decide +kernel

/-! ### Witnesses: Fixes -/

/-- A COMPLETE and SEALED Fix of step 5, and a state that holds it in slot 0 as the group's recovery point. -/
def img5 : FixImage := { step := 5, seed := 0, level := 3, complete := true, sealed := true, rank := 0, chartEpoch := 1, groupEpoch := 0, gen := 0
                         s := 64 * 2 ^ 20, dataCrc := 0, ctxs := [], regions := [] }
def fixed (f : FixSys) : State := { ready with fix := { f with slot0 := some img5, recoveryStep := some 5, lastFixStep := some 5 } }
def member (s : State) : State := { s with grp := grouped.grp }
def request1 : Packet := dev 0x0610 (zeros 4)
def exportP : Packet := dev 0x0612 (leBytes 8 0x100000 ++ zeros 8)
def restore1 (step : Nat) : Packet := dev 0x0613 (fields 32 [(8, 8, step), (16, 8, step)])
def lower (s : State) : State := { s with dev := { s.dev with level := 2 } }

theorem witness_FixCommands : (Accepted 0x0610 (chkFixRequest request1) request1 ready ∧ roleBars (owe request1 ready) request1 = false) ∧
    (Accepted 0x0610 (chkFixRequest request1) request1 grouped ∧ roleBars (owe request1 grouped) request1 = true) ∧
    Accepted 0x0611 (chkFixStatus (dev 0x0611)) (dev 0x0611) ready ∧
    (Accepted 0x0612 (chkFixExport exportP (owe exportP (fixed {}))) exportP (fixed {}) ∧ (fixed {}).fix.exporting = none) ∧
    ((fixed { exporting := some (exportP, 512) }).fix.exporting = some (exportP, 512) ∧
      ((fixed {}).fix.recoveryStep.bind (slotOf (fixed {}))).bind (slotImage (fixed {})) = some img5) ∧
    (Accepted 0x0613 (chkFixRestore (restore1 5)) (restore1 5) (fixed {}) ∧
      roleBars (allocSlot (restore1 5) 0 (owe (restore1 5) (fixed {}))).2 (restore1 5) = false ∧
      (restoreImage (restore1 5) (allocSlot (restore1 5) 0 (owe (restore1 5) (fixed {}))).2).toOption = some img5 ∧
      img5.level = (allocSlot (restore1 5) 0 (owe (restore1 5) (fixed {}))).2.dev.level ∧ inGroup (fixed {}) = false) ∧
    (Accepted 0x0613 (chkFixRestore (restore1 4)) (restore1 4) (fixed {}) ∧
      (restoreImage (restore1 4) (allocSlot (restore1 4) 0 (owe (restore1 4) (fixed {}))).2).toOption = none) ∧
    (Accepted 0x0613 (chkFixRestore (restore1 5)) (restore1 5) (lower (fixed {})) ∧
      img5.level ≠ (allocSlot (restore1 5) 0 (owe (restore1 5) (lower (fixed {})))).2.dev.level) := by
  repeat' apply And.intro
  all_goals decide +kernel

/-- A Fix layout with one region of one page, context 0, VA 0; a stop at a stage, without and with it. -/
def layout1 : List Byte := fields 80 [(52, 2, 1), (68, 4, 1)]
def laid (s : State) : State := { s with conf := { s.conf with sections := [(6, layout1)] } }
def stopping (st : FixStage) (s : State) : State := { s with fix := { s.fix with stage := st, draft := some { img5 with complete := false, sealed := false } } }
def faulting (st : FixStage) : State := { stopping st loaded with fix := { (stopping st loaded).fix with abortDue := true } }
def poisoned : State := { paged loaded with mem := { (paged loaded).mem with poison := [0] } }
def copyFails (s : State) : Bool :=
  match readRegions s (fixRegions s) with
  | .error (.mem _) => true
  | _ => false
def walkFails (s : State) : Bool :=
  match readRegions s (fixRegions s) with
  | .error (.tf _ f) => f.reason != 6
  | _ => false
/-- Rank 1's consort is this module. -/
def partnered : State := laid { grouped with grp := { grouped.grp with recs := [{ rank := 0 }, { rank := 1, role := 1, consort := 0 }] } }
def streaming (f : FixSys) : State := fixed { f with stage := .stream }
def leading : State := { ready with grp := { manager := true, rank := 0, managerRank := 0, gen := 1, epoch := 1, recs := [{ rank := 0, role := 1 }, { rank := 1 }] } }

theorem witness_FixStop : ((stopping .quiesce loaded).fix.stage = .quiesce ∧ stillMoving (stopping .quiesce loaded) = false ∧ (stopping .quiesce loaded).fix.abortDue = false ∧ (faulting .quiesce).fix.abortDue = true ∧
      (faulting .quiesce).fix.stage = .quiesce ∧ stillMoving (faulting .quiesce) = false ∧ regionFault (undouble (stopping .quiesce loaded)) = none ∧ regionFault (undouble (laid (stopping .quiesce loaded))) = some 3) ∧
    ((stopping .copying loaded).fix.stage = .copying ∧ has (readRegions (stopping .copying loaded) (fixRegions (stopping .copying loaded))).toOption List.isEmpty = true) ∧
    (copyFails (laid (stopping .copying poisoned)) = true ∧ walkFails (laid (stopping .copying loaded)) = true ∧ (stopping .copying loaded).fix.abortDue = false ∧
      (faulting .copying).fix.stage = .copying ∧ (faulting .copying).fix.abortDue = true) ∧
    ((stopping .header loaded).fix.stage = .header ∧ (stopping .header loaded).fix.abortDue = false ∧ (stopping .header loaded).fix.draft.isSome = true ∧
      (faulting .header).fix.stage = .header ∧ (faulting .header).fix.abortDue = true) ∧
    (partnered.fix.assume = none ∧ partnerOf partnered = some 1 ∧ (fixLayout partnered).isSome = true) ∧
    (streamImage (streaming {}) = some img5 ∧ 0 < fixChunks img5 ∧ 0 ∉ (streaming {}).fix.acks ∧ 2 ≤ (tget (streaming { fails := [(0, 2)] }).fix.fails 0).getD 0 ∧
      (tget (streaming {}).fix.fails 0).getD 0 < 2) ∧
    (fixChunks img5 = 1 ∧ 0 ∈ (streaming { acks := [0], streamStartMs := some 10 }).fix.acks ∧ streamImage (streaming { acks := [0] }) = some img5) ∧
    (leading.grp.manager = true ∧ 1 ∈ presentRanks leading) ∧ (img5.step = 5 ∧ img5.sealed = true) := by
  repeat' apply And.intro
  all_goals decide +kernel

/-- A restore of step 5 by a member, of an image that agrees with the schedule or does not. -/
def restoring (i : FixImage) : Restore := ⟨restore1 5, 0x0613, 0, 5, 5, 1, 512, some i⟩
def disagreeing : FixImage := { img5 with ctxs := [⟨0, [], [], 0, 0, []⟩] }
def assume1 : Packet := pk (.fabric 1) 0xFF 0x0621 (fields 160 [(2, 2, 1), (4, 2, 1), (8, 8, 5)])
def standing : State := { grouped with dev := { grouped.dev with st := .standby } }
/-- A pull of a Fix of step 5 whose only chunk is in, in the slot at address 0: its header, of S = 128 bytes. -/
def head5 : List Byte :=
  let h := fields 68 [(8, 8, 5), (40, 8, 128)]
  h ++ leBytes 4 (crc32c h).toNat ++ zeros 56
def pulled : State := devWrite 0 head5 { standing with conf := { sections := [(6, zeros 64)] },
                                                       fix := { assume := some ⟨assume1, 0x0621, 2, 5, 0, 1, 512, none⟩, consortChunks := [0] } }
def manifestP (which : Nat) : Packet := dev 0x0630 (fields 16 [(8, 1, which)])
def logged (m : Manifest) : State := { ready with dev := { ready.dev with jobRunning := true }, fix := { log := [m] } }
def man0 : Manifest := { step := 0, gen := 0 }
def withConsort (s : State) : State := { s with grp := { s.grp with consort := 1 } }
def differing : State := { logged man0 with fix := { (logged man0).fix with replayTo := some 1, replayLog := [{ man0 with digest := 1 }] } }
def finalises (s : State) : Bool := (ownManifest s s.dev.step).any (fun m => !m.final) && stepWorkDone s && decisionIn s && logRoom s && !s.fix.checkpoint

theorem witness_RestoresAndManifests : ((restoring img5).image = some img5 ∧ ingestAgrees (fixed {}) 5 img5 = true ∧ (restoring img5).opcode ≠ 0x0621) ∧
    ((restoring disagreeing).image = some disagreeing ∧ ingestAgrees (ing scheduled) 5 disagreeing = false) ∧
    (Accepted 0x0621 (chkAssume assume1) assume1 standing ∧ standing.dev.st = .standby ∧ (allocSlot assume1 0 (owe assume1 standing)).2.dev.st = .standby ∧ standing.fix.home = none ∧
      Accepted 0x0621 (chkAssume assume1) assume1 grouped ∧ (allocSlot assume1 0 (owe assume1 grouped)).2.dev.st ≠ .standby) ∧
    ((devRead pulled (chunkBase pulled) 128).toOption = some head5 ∧ chunksAllIn pulled head5 = true ∧ slotCrcOk pulled (chunkBase pulled) head5 = true ∧
      fieldAt head5 8 8 = 5) ∧
    Accepted 0x0630 (chkManifest (manifestP 0)) (manifestP 0) ready ∧
    (finalises (logged man0) = true ∧ digestDiffers (logged man0) = false ∧ consortOf (finalise (logged man0)) = none ∧
      finalises (withConsort (logged man0)) = true ∧ consortOf (finalise (withConsort (logged man0))) = some 1 ∧ finalises differing = true ∧
      digestDiffers differing = true) ∧
    (partnerOf partnered = some 1 ∧ partnered.fix.assume = none) ∧ has pulled.fix.assume (fun _ => true) = true ∧
    ((ownManifest (withConsort (logged { man0 with final := true })) 0).any (fun m => m.final && !m.acked) = true ∧
      (consortOf (withConsort (logged { man0 with final := true }))).isSome = true ∧ (withConsort (logged man0)).fix.checkpoint = false) := by
  repeat' apply And.intro
  all_goals decide +kernel

/-! ### Witnesses: the group -/

/-- GROUP_JOIN of a module of no group, at a level, to a group, as worker or standby; of a full group. -/
def joinP (level group standby : Nat) : Packet := pk (.fabric 0xFFFF) 0xFF 0x0510 (fields 32 [(0, 4, group), (4, 1, standby), (5, 1, level)])
def lone : State := { ready with grp := { leading.grp with recs := [{ rank := 0, role := 1 }] } }
def inJob (s : State) : State := { s with dev := { s.dev with jobRunning := true } }
def full : State := { lone with grp := { lone.grp with recs := (List.range 256).map (fun i => { rank := i }) } }

theorem witness_GroupLevel : (Accepted 0x0510 (chkGroupJoin (joinP 2 0 0)) (joinP 2 0 0) lone ∧ pf (joinP 2 0 0) 5 1 ≠ lone.dev.level) ∧
    (Accepted 0x0510 (chkGroupJoin (joinP 3 0 0)) (joinP 3 0 0) lone ∧ runs (.groupJoin (joinP 3 0 0)) lone = true ∧
      ((acceptGroupJoin (joinP 3 0 0) lone).grp.recs.map GroupRec.rank) = [0, 1]) := by
  repeat' apply And.intro
  all_goals decide +kernel

def override1 : Packet := dev 0x0622 [1, 0, 0, 0]
def role1 : Packet := dev 0x0620 ([1, 0, 0, 0] ++ leBytes 4 9)

theorem witness_GroupMembership : (Accepted 0x0622 (chkFeedOverride override1) override1 lone ∧ lone.grp.manager = true ∧
      Accepted 0x0622 (chkFeedOverride override1) override1 ready ∧ ready.grp.manager = false) ∧
    (Accepted 0x0620 (chkRoleSet role1) role1 ready ∧ inGroup ready = false ∧ Accepted 0x0620 (chkRoleSet role1) role1 hold ∧
      Accepted 0x0620 (chkRoleSet role1) role1 leading ∧ inGroup leading = true) ∧
    (Accepted 0x0510 (chkGroupJoin (joinP 3 0 0)) (joinP 3 0 0) lone ∧ pf (joinP 3 0 0) 5 1 = lone.dev.level ∧ pf (joinP 3 0 0) 0 4 = lone.grp.groupId ∧
      lone.dev.jobRunning = false ∧ freeRank (owe (joinP 3 0 0) lone) (pf (joinP 3 0 0) 4 1 == 1) = some 1) ∧
    freeRank (owe (joinP 3 0 1) lone) (pf (joinP 3 0 1) 4 1 == 1) = some 256 ∧
    (Accepted 0x0510 (chkGroupJoin (joinP 3 8 0)) (joinP 3 8 0) lone ∧ pf (joinP 3 8 0) 0 4 ≠ lone.grp.groupId) ∧
    (Accepted 0x0510 (chkGroupJoin (joinP 3 0 0)) (joinP 3 0 0) full ∧ freeRank (owe (joinP 3 0 0) full) (pf (joinP 3 0 0) 4 1 == 1) = none) ∧
    (Accepted 0x0510 (chkGroupJoin (joinP 3 0 0)) (joinP 3 0 0) (inJob lone) ∧ (inJob lone).dev.jobRunning = true ∧ pf (joinP 3 0 0) 4 1 = 0 ∧
      freeRank (owe (joinP 3 0 0) (inJob lone)) (pf (joinP 3 0 0) 4 1 == 1) = some 1) ∧
    Accepted 0x0511 (chkGroupChart (dev 0x0511)) (dev 0x0511) leading ∧
    (recsOk leading.grp.recs = true ∧ routesOk [(1, [0])] = true ∧ leading.grp.recs.any (fun r => r.rank == leading.grp.rank && r.state == 0) = true) ∧
    (grouped.grp.manager = false ∧ grouped.grp.joined = true ∧ epochOlder grouped.grp.epoch 2 = true ∧ recsOk grouped.grp.recs = true) ∧
    (ready.dev.st ≠ .off ∧ inGroup ready = false ∧ ready.grp.manager = false ∧ admitState ready ≠ .anchored) ∧
    (leading.dev.st ≠ .off ∧ leading.grp.manager = true ∧ mayLose leading 1 = true) := by
  repeat' apply And.intro
  all_goals decide +kernel

/-- The deputy of a group whose manager is rank 1; a probe of that manager, or of member 1, is out. -/
def deputy : State := { grouped with grp := { grouped.grp with deputy := 0 } }
def probing (s : State) : State := { s with grp := { s.grp with beats := [(1, ⟨0, false, false, true⟩)] } }
def standbyRec : GroupRec := { rank := 256, role := 3, state := 3 }
def joiningRec : GroupRec := { rank := 2, state := 1 }
def upPort : State := { grouped with fab := (ported native).fab }

theorem witness_GroupLosses : (inGroup grouped = true ∧ grouped.dev.st ≠ .failed ∧ grouped.dev.st ≠ .off ∧ grouped.grp.manager = false) ∧
    ((groupRec leading 1).isSome = true ∧ 1 ≠ leading.grp.rank ∧ inGroup leading = true ∧ (groupRec grouped 1).isSome = true ∧ 1 = grouped.grp.managerRank) ∧
    (watches leading 1 = true ∧ watches deputy 1 = true ∧ inGroup deputy = true) ∧
    (watches (probing leading) 1 = true ∧ tget (probing leading).grp.beats 1 = some ⟨0, false, false, true⟩ ∧
      watches (probing deputy) 1 = true ∧ (probing deputy).grp.manager = false) ∧
    ((portOf upPort 0).up = true ∧ inGroup upPort = true ∧ 1 = upPort.grp.managerRank) ∧ mayLose leading 1 = true ∧
    ((inJob leading).dev.jobRunning = true ∧ mayLose (inJob leading) 1 = true ∧ 1 ∈ presentRanks (inJob leading) ∧ 1 ∉ (inJob leading).grp.arrived) ∧
    (joiningRec.role ≠ 3 ∧ joiningRec.state = 1 ∧ leading.dev.jobRunning = false ∧ leading.fix.recovering = none ∧ has (groupRec leading 1) (fun r => r.role != 3) = true) := by
  repeat' apply And.intro
  all_goals decide +kernel

/-- Cells 8 to 15 are REMOTE; rank 1 is FAILED. -/
def remote8 : State := { grouped with sync := { ranges := [⟨8, 8, 0, true⟩] } }
def failed1 : State := { grouped with grp := { grouped.grp with recs := [{ rank := 0 }, { rank := 1, role := 1, state := 2 }] } }
def timed (s : State) : State := { s with grp := { s.grp with deadline := { mode := 2 } } }
def replay0 (s : State) : State := { s with fix := { s.fix with replayTo := some 1 } }
/-- A bound context with one WAKE group in its table at 0x4000. -/
def wakeful : State := inJob (devWrite 0x4000 (fields 64 [(25, 1, 4)])
  (paged { grouped with ctxs := [(0, { ctx0 with bound := true, groupTables := [(0x4000, 1)] })] }))

theorem witness_GroupSteps : (rankFailed failed1 1 = true ∧ inGroup failed1 = true ∧ 1 ≠ failed1.grp.rank) ∧
    (rankFailed remote8 1 = false ∧ musterArrival remote8 1 9 .read = false ∧ remoteCell remote8 9 = true ∧ remoteCell remote8 16 = false ∧
      musterArrival remote8 1 16 .read = false) ∧
    (inGroup leading = true ∧ 1 ≠ leading.grp.rank ∧ rankFailed leading 1 = false ∧ reservedCell 8128 = true ∧ 1 ∈ presentRanks leading) ∧
    (1 ∉ (inJob leading).grp.handovers ∧ (inJob leading).dev.step = 0) ∧
    (1 ∈ ({ leading.grp with owing := [1] } : Group).owing ∧ decisionOut leading = false) ∧
    (hasDeadline (timed (inJob leading)) = true ∧ decisionOut (timed (inJob leading)) = false ∧ replaying (timed (inJob leading)) = false ∧
      replaying (replay0 (timed (inJob leading))) = true) ∧
    (decidedNow (inJob grouped) = false ∧ inGroup (inJob grouped) = true ∧ ownKind (inJob grouped) [⟨1, 1⟩] 1 = false) ∧
    (ownKind wakeful [⟨0, 1⟩] 1 = true ∧ replaying wakeful = false ∧ anyWake wakeful = true ∧ decidedNow wakeful = false ∧ inGroup wakeful = true ∧
      wakeful.dev.jobRunning = true) := by
  repeat' apply And.intro
  all_goals decide +kernel

/-! ### Witnesses: the boundary, power, tests -/

/-- A job outside a group whose step 0 is in its muster; a context whose watch slots are due; a retune; waves to release. -/
def closing : State := { inJob ready with dev := { (inJob ready).dev with st := .run }, bnd := { entered := some 0 } }
def close0 : CloseMsg := { step := 0 }
def watchful : Ctx := { ctx0 with watchDue := true }
def retuning : State := { ready with grp := { retune := true } }
def stopRetune : State := { retuning with fix := { resumeDue := true } }
def waving : State := { ready with bnd := { waves := [0, 1] } }
def telemetryP (set : Nat) : Packet := dev 0x0700 (leBytes 2 set)

theorem witness_StepBoundary : closeReady close0 closing = true ∧ (ctxOf (with0 watchful ready) 0 = some watchful ∧ watchful.watchDue = true ∧ watchful.scales = [] ∧ watchful.dead = []) ∧
    (retuning.grp.retune = true ∧ retuning.dev.st ≠ .off ∧ retuning.dev.st ≠ .failed ∧ retuning.dev.st ≠ .anchored ∧ retuning.fix.resumeDue = false ∧
      stopRetune.fix.resumeDue = true ∧ stopRetune.grp.retune = true) ∧
    (waving.bnd.waves = 0 :: [1] ∧ waving.dev.st = .ready ∧ waving.grp.retune = false ∧ recalHolds waving = false ∧ waving.fix.stopDelayed = false) ∧
    Accepted 0x0701 (chkStepReport (dev 0x0701)) (dev 0x0701) ready ∧ Accepted 0x0700 (chkTelemetry (telemetryP 0x18) (owe (telemetryP 0x18) ready)) (telemetryP 0x18) ready := by
  repeat' apply And.intro
  all_goals decide +kernel

def freqP (f : Nat) : Packet := dev 0x0711 (leBytes 2 f ++ zeros 2)
def freqWide : Packet := dev 0x0711 (leBytes 2 1600 ++ [1, 0])
def capP (w : Nat) : Packet := dev 0x0710 (leBytes 2 w ++ zeros 2)
def stretched : State := { ready with pow := { dies := { stretching := true } :: List.replicate 15 {} } }
def warm : List TempRead := [⟨0x4000, 16 * 40⟩]
def boiling : State := { ready with pow := { sensors := [(0x4000, { temp := 16 * 200, max := 16 * 200, hot := 1 })] } }

theorem witness_PowerAndThermal : (Accepted 0x0711 (chkFreqSet (freqP 1600)) (freqP 1600) ready ∧ freqOk (pf (freqP 1600) 0 2) = true ∧
      (inGroup (owe (freqP 1600) ready) && !ready.grp.manager) = false ∧ Accepted 0x0711 (chkFreqSet (freqP 1601)) (freqP 1601) ready ∧
      freqOk (pf (freqP 1601) 0 2) = false ∧ Accepted 0x0711 (chkFreqSet freqWide) freqWide ready ∧ pf freqWide 2 2 ≠ 0 ∧ Accepted 0x0711 (chkFreqSet (freqP 1600)) (freqP 1600) grouped ∧
      (inGroup (owe (freqP 1600) grouped) && !grouped.grp.manager) = true) ∧
    (Accepted 0x0710 (chkPowerCap (capP 2000)) (capP 2000) ready ∧ Accepted 0x0710 (chkPowerCap (capP 4400)) (capP 4400) ready ∧
      Accepted 0x0710 (chkPowerCap (capP 1999)) (capP 1999) ready ∧ pf (capP 1999) 0 2 < 2000) ∧
    (ready.board.aux = true ∧ ready.pow.energyUj < 2 ^ 64 ∧ ready.pow.energyRem < 1000) ∧
    (diesRun ready = true ∧ ready.pow.dies.length = 16 ∧ (diePower ready 15).stretching = false) ∧
    ((diePower stretched 0).stretching = true ∧ stretched.pow.dies.length = 16) ∧
    (warm.all (fun r => sensorUnit r.unit) = true ∧ (warm.map TempRead.unit).Nodup ∧ mustShutDown (throttle (takeReadings warm 400 500 ready)) = false ∧
      mustShutDown (throttle (takeReadings [⟨0x4000, 16 * 200⟩] 400 500 boiling)) = true) := by
  repeat' apply And.intro
  all_goals decide +kernel

def enter1 : Packet := dev 0x0720
def enterWith1 : Packet := dev 0x0720 [1]
def awake : State := with0 { ctx0 with works := [mm .waiting] } ready
def anchored : State := { ready with dev := { ready.dev with st := .anchored } }

theorem witness_AnchorEnter : (Accepted 0x0720 (chkAnchor enter1) enter1 ready ∧ ready.ctxs.any (fun e => keepsAwake e.2) = false ∧ inGroup ready = false) ∧
    (Accepted 0x0720 (chkAnchor enter1) enter1 awake ∧ awake.ctxs.any (fun e => keepsAwake e.2) = true) ∧
    (Accepted 0x0720 (chkAnchor enter1) enter1 grouped ∧ grouped.ctxs.any (fun e => keepsAwake e.2) = false ∧ inGroup grouped = true) ∧
    (ready.dev.anchoring = none ∧ behindHeld (owe enterWith1 ready) enterWith1 = false ∧ mustWait (owe enterWith1 ready) 0x0720 enterWith1 = false ∧
      enterWith1.crc = packetCrc 0x0720 enterWith1 ∧ enterWith1.src = .host 0 ∧ enterWith1.paramLen ≠ 0) ∧
    (runs (.ilzanReplyReceive 1 0x0510 0 5) anchored = true ∧ anchored.dev.st = .anchored) := by
  repeat' apply And.intro
  all_goals decide +kernel

def entering : State := { ready with dev := { ready.dev with anchoring := some enter1 } }
def exit1 : Packet := dev 0x0721
def leaving1 : State := { anchored with dev := { anchored.dev with leaving := [exit1] } }
def bist1 : Packet := dev 0x0800 [1, 0, 0, 0]
def bisting : State := { hold with test := { bist := some (512, 1) } }
def clTest (mask : Nat) : Packet := dev 0x0801 (leBytes 4 mask)
def testing0 : State := { ready with chart := { ready.chart with units := [(0x1000, ⟨.testing, 1⟩)] } }
def margin1 : Packet := dev 0x0802 [1, 100, 0, 0]
def eyes48 : List LaneEye := List.replicate 48 ⟨0, 0, List.replicate 7 0, List.replicate 7 0⟩
def recalP (mask : Nat) : Packet := dev 0x0803 (leBytes 4 mask)
def recalling : State := { ready with test := { recal := some (recalP 3) }, mem := { recalQueue := [0, 1] } }

theorem witness_AnchorAndTests : (entering.dev.anchoring = some enter1 ∧ entering.mem.unacked = [] ∧ entering.dev.st = .ready) ∧
    (Accepted 0x0721 (chkAnchor exit1) exit1 ready ∧ admitState (owe exit1 ready) ≠ .anchored ∧
      Accepted 0x0721 (chkAnchor exit1) exit1 anchored ∧ admitState (owe exit1 anchored) = .anchored) ∧ leaving1.dev.leaving = [exit1] ∧
    (Accepted 0x0800 (chkBistRun bist1 (owe bist1 ready)) bist1 ready ∧ Accepted 0x0800 (chkBistRun bist1 (owe bist1 loaded)) bist1 loaded) ∧
    (bisting.test.bist = some (512, 1) ∧ bisting.dev.st = .hold) ∧
    (Accepted 0x0801 (chkClusterTest (clTest 1) (owe (clTest 1) ready)) (clTest 1) ready ∧
      Accepted 0x0801 (chkClusterTest (clTest 0) (owe (clTest 0) ready)) (clTest 0) ready) ∧
    (unitState testing0 (uCluster 0) = .testing ∧ unitState (foreseen testing0) (uCluster 0) = .testing ∧ diesRun testing0 = true) ∧
    Accepted 0x0802 (chkMarginScan margin1 (owe margin1 ready)) margin1 ready ∧
    (eyes48.length = 48 ∧ eyes48.all (fun e => e.horiz.length == 7 && e.vert.length == 7) = true) ∧
    (Accepted 0x0803 (chkHbmRecal (recalP 0) (owe (recalP 0) ready)) (recalP 0) ready ∧ (List.range 24).filter (bitAt (pf (recalP 0) 0 4)) = [] ∧
      Accepted 0x0803 (chkHbmRecal (recalP 3) (owe (recalP 3) ready)) (recalP 3) ready ∧ (List.range 24).filter (bitAt (pf (recalP 3) 0 4)) ≠ []) ∧
    (recalling.test.recal = some (recalP 3) ∧ recalling.test.recalHeld = false ∧ recalling.mem.recalQueue.find? (fun n => n / 6 == 0 / 6) = some 0 ∧
      ([1] : List Nat).filter (fun n => n != 1) = []) := by
  repeat' apply And.intro
  all_goals decide +kernel

/-! ### Witnesses: board, boot, management -/

def unpowered : State := { ready with dev := { st := .off }, board := { converters := false, pwrEn := false } }
def noAux : State := { unpowered with board := { unpowered.board with aux := false } }
def straps (n : Nat) : List StrapRead := List.replicate n ⟨300, 0⟩
def leaky : State := { ready with board := { leakHeld := 10, leak := 2 } }

theorem witness_BoardPower : (ready.board.aux = true ∧ (straps 6).length = 6 ∧ (straps 4).length = 4 ∧ strapNumber (straps 6) = some 0) ∧
    (40000 ≤ (54000 : Nat) ∧ (54000 : Nat) ≤ 60000 ∧ strapBit ⟨300, 0⟩ = some 0 ∧ strapBit ⟨3300, 3000⟩ = some 1 ∧ strapBit ⟨600, 0⟩ = none) ∧
    (unpowered.board.aux = true ∧ unpowered.board.converters = false ∧ unpowered.board.pwrEn = false ∧ unpowered.dev.st = .off) ∧
    (ready.board.pwrEn = true ∧ ready.board.converters = true) ∧ noAux.board.aux = false ∧
    (10 ≤ leaky.board.leakHeld ∧ leaky.board.converters = true ∧ 10 ≤ ({ unpowered.board with leakHeld := 10 } : Board).leakHeld) := by
  repeat' apply And.intro
  all_goals decide +kernel

def selectedBoot : State := { State.reset with flash := { selected := true } }
def good1 : ImageFound := ⟨true, true⟩
def bad1 : ImageFound := ⟨true, false⟩
def portsFound : List (PeerFound × List LaneFound) := List.replicate 6 (.samegroup, goodLanes)
def updating (l : List Byte) : State := { ready with flash := { transfer := some l } }

theorem witness_BootAndManagement : (State.reset.dev.st = .boot ∧ State.reset.flash.selected = false ∧ State.reset.flash.stuck = false ∧
      State.reset.flash.preferB = false ∧ imageGood good1 = true ∧ imageGood bad1 = false) ∧
    (selectedBoot.dev.st = .boot ∧ selectedBoot.flash.selected = true ∧ bootFails [] false [] = false ∧ bootFails [] true [] = true ∧
      portsFound.length = 6 ∧ portsFound.all (fun x => foundOk x.2) = true) ∧
    ready.board.aux = true ∧ (0x99 : Nat) ∉ controlCommands ∧
    (ready.flash.transfer = none ∧ (updating (leBytes 4 0x4957465A)).flash.transfer = some (leBytes 4 0x4957465A) ∧
      imageMagic (leBytes 4 0x4957465A ++ [1]) = true) ∧
    (({ ready.flash with verified := true } : Flash).verified = true ∧ ready.flash.verified = false) ∧
    (ready.dev.st ≠ .off ∧ 64 ≤ (zeros 64).length) ∧ (opRow 0x0999 = none ∧ (dev 0x0999).crc = packetCrc 0x0999 (dev 0x0999)) := by
  repeat' apply And.intro
  all_goals decide +kernel

/-! ### Witnesses: the whole machine -/

/-- The empty packet of device command `op` that a fabric sender sent, and one behind a held packet. -/
def behind1 : State := withQ oneHeld
def badCrc : Packet := { dev 0 with crc := 0 }
def wrongCrc (p : Packet) : Packet := { p with crc := p.crc + 1 }
/-- Every result slot is taken by one of 512 units. -/
def slotsFull : State := { ready with slots := { s := [(0, { slot1 with units := 512 })] } }
def fixing : State := with0 ctx0 { ready with dev := { st := .fixing, level := 3 } }
def epoch0 (op : Nat) (params : List Byte) : Packet :=
  let p : Packet := { dev op params with epoch := 0 }
  { p with crc := packetCrc op p }

theorem witness_StepRunsFront : ({ ready with pending := [.queueErr] } : State).pending = .queueErr :: [] ∧ ready.pending = [] := by
  repeat' apply And.intro
  all_goals decide +kernel

theorem witness_ResetState : (799 : Nat) < 800 ∧ (831 : Nat) < 832 := by
  repeat' apply And.intro
  all_goals decide +kernel

theorem witness_PacketChecks : (has (Claims.packetRow (.nop (dev 0))) (fun r => r.1 == 0 && r.2.1 == dev 0 && (r.2.2 ready).lenOk) = true ∧
      Claims.packetRow .queueErr = none ∧ ready.dev.st ≠ .off ∧ ({ ready with dev := { st := .off } } : State).dev.st = .off) ∧
    (behindHeld (owe badCrc ready) badCrc = false ∧ mustWait (owe badCrc ready) 0 badCrc = false ∧
      acceptance (owe badCrc ready) 0 (chkNop badCrc) badCrc = some (stBADCRC, none)) ∧
    ((behindHeld (owe (dev 0) behind1) (dev 0) || mustWait (owe (dev 0) behind1) 0 (dev 0)) = true) ∧
    (badCrc.crc ≠ packetCrc 0 badCrc ∧ (dev 0x0999).crc = packetCrc 0x0999 (dev 0x0999) ∧ opRow 0x0999 = none ∧
      (dev 0).crc = packetCrc 0 (dev 0) ∧ has (opRow 0x0520) (fun r => r.permits (.mctp 9) == false) = true ∧
      has (opRow 0x0140) (fun r => (sourceRefusal hold r 0x0140 start1).isNone && (stateRefusal hold 0x0140 start1.src).isSome) = true ∧
      has (opRow 0x0000) (fun r => (sourceRefusal ready r 0x0000 (dev 0 [1])).isNone && (stateRefusal ready 0 (dev 0 [1]).src).isNone &&
        !(chkNop (dev 0 [1])).lenOk) = true ∧
      has (opRow 0x0610) (fun r => (sourceRefusal ready r 0x0610 (epoch0 0x0610 (zeros 4))).isNone && (stateRefusal ready 0x0610 (.host 0)).isNone &&
        (paramRefusal r (chkFixRequest (epoch0 0x0610 (zeros 4))) (epoch0 0x0610 (zeros 4))).isNone) = true ∧ (epoch0 0x0610 (zeros 4)).epoch = 0 ∧
      (0x0610 : Nat) / 256 ∉ [0, 7, 8] ∧
      has (opRow 0x0001) (fun r => (sourceRefusal slotsFull r 1 (dev 1)).isNone && (stateRefusal slotsFull 1 (dev 1).src).isNone &&
        (paramRefusal r (chkIdentify (dev 1)) (dev 1)).isNone && (epochRefusal slotsFull 1 (chkIdentify (dev 1)) (dev 1)).isNone) = true ∧
      has (chkIdentify (dev 1)).charge (fun n => !slotFree n slotsFull) = true ∧ busyRefusal ready (chkIdentify (dev 1)) (dev 1) = none) ∧
    (has (Claims.packetRow (.ptRootSet (root1 0))) (fun r => r.1 == 0x0200 && r.2.1 == root1 0) = true ∧ waitsForStop 0x0200 = true ∧
      fixing.dev.st = .fixing ∧ Passes 0x0200 (chkPtRootSet (root1 0)) (root1 0) fixing ∧ Passes 0x0120 (chkScaleSet (scale1 0)) (scale1 0) fixing) ∧
    ((dev 0).src = .host 0 ∧ tget ready.queues.q 0 = some q0) := by
  repeat' apply And.intro
  all_goals decide +kernel

theorem witness_HeaderParses : (0xFFFF : Nat) < 2 ^ 16 ∧ (adm 0x0110 [1]).flags < 2 ^ 16 ∧ (adm 0x0110 [1]).ctx < 2 ^ 8 ∧ (adm 0x0110 [1]).resv5 < 2 ^ 24 ∧
    (adm 0x0110 [1]).paramLen < 2 ^ 32 ∧ (adm 0x0110 [1]).resv20 < 2 ^ 32 ∧ (adm 0x0110 [1]).paramAddr < 2 ^ 64 ∧ (adm 0x0110 [1]).resv32 < 2 ^ 224 ∧
    (flit0 9).cls < 256 ∧ (flit0 9).dest < 65536 ∧ (flit0 9).src < 65536 ∧ (flit0 9).seq < 65536 ∧ (flit0 9).ack < 65536 ∧ (flit0 9).len < 256 ∧
    (flit0 9).payload.length = 240 := by
  repeat' apply And.intro
  all_goals decide +kernel

/-- A change that quarantines a media engine, makes a spare cluster HEALTHY, and moves cluster 0's identity to it. -/
def moving : Change := { units := [(0x5001, .quarantined), (0x1032, .healthy)], moves := [(0, 50)] }

theorem witness_ChangeEpochs : ((fullUnits ready moving).map Prod.fst).Nodup ∧ ((0x5001, UnitState.quarantined) ∈ fullUnits ready moving ∧ .quarantined ≠ unitState ready 0x5001) ∧
    (50 ∈ movedPhys ready moving ∧ 0 ∈ movedPhys ready moving ∧ uCluster 0 = 0x1000) ∧
    ((∀ e ∈ fullUnits ready moving, e.1 ≠ 0x5011) ∧ (∀ p ∈ movedPhys ready moving, 0x5011 ≠ uCluster p)) := by
  repeat' apply And.intro
  all_goals decide +kernel

theorem witness_Epochs : (5 : Word) ≠ 0xFFFFFFFF ∧ epochOlder 0xFFFFFFFF 1 = true ∧ ((fullUnits ready moving).map Prod.fst).Nodup ∧
    ((0x5001, UnitState.quarantined) ∈ moving.units ∧ 0x5011 ∉ (fullUnits ready moving).map Prod.fst) ∧
    ((0x2003, UnitState.testing) ∈ fullUnits ready { units := [(0x1000, .testing)] } ∧ (0x5011, .healthy) ∈ fullUnits ready { restate := [0x5011] }) ∧
    (0 ∈ moving.moves.map Prod.fst ∧ 1 ∉ moving.moves.map Prod.fst ∧ (ctxOf loaded 0).isSome = true) ∧
    ((0x5001, UnitState.quarantined) ∈ (lawful ready moving).units ∧ (0x5001, UnitState.spare) ∉ (lawful ready { units := [(0x5001, .spare)] }).units) ∧ (UnitState.healthy ≠ .failed ∧ UnitState.healthy ≠ .absent) := by
  repeat' apply And.intro
  all_goals decide +kernel

/-- A gradient record; counts of a step that qualified, of one that did not, of one that wrote nothing. -/
def gradRec : ScaleRec := { rec5 with mode := 4, gradHist := 0 }
def good8 : WatchLive := { elements := 100, maxk := some 3 }
def worse8 : WatchLive := { elements := 100, saturated := 1, maxk := some 3 }

theorem witness_GradientFormat : (gradRec.grad = true ∧ gradRec.pin = false ∧ gradRec.shadow.maxk = none ∧ gradRec.gradHist = 0) ∧
    (({ gradRec with shadow := good8 } : ScaleRec).shadow.maxk ≠ none ∧ qualifies good8 = true ∧ qualifies worse8 = false) ∧ rec5.grad = false ∧
    (List.replicate 8 good8 ≠ [] ∧ (∀ w ∈ List.replicate 8 good8, w.maxk ≠ none) ∧ (Claims.gradientRun gradRec (List.replicate 8 good8)).gfmt = 1 ∧
      (Claims.gradientRun gradRec (worse8 :: List.replicate 7 good8)).gfmt = 2) := by
  repeat' apply And.intro
  all_goals decide +kernel

theorem witness_KyonexAndScales : (1 ≤ (1 : Nat) ∧ 1 ≤ Kl.emax .a 3 ∧ 1 ≤ Kl.emax .b 0 ∧ 1 ≤ Kl.emax .w 3) ∧ (0 : Nat) < 1 ∧
    (¬ (rec5.fmt = 3 ∧ rec5.grad = false) ∧
      (((({ rec5 with shadow := good8 } : ScaleRec).shadow.maxk :: rec5.hist).take 4)[rec5.delay - 1]?).join = some 3) := by
  repeat' apply And.intro
  all_goals decide +kernel

/-- The stripe set of 512 rows on four clusters of the spec's example (R127). -/
def stripes4 : StripeSet := { flags := 1, maxMove := 4, minRows := 8, deadband := 3, height := 512, haloBase := 0, haloCount := 8,
                              clusters := [128, 129, 130, 131], bound := [0, 128, 256, 384], busyLatched := [25000, 25000, 31250, 25000] }

theorem witness_BalanceAndEnergy : Claims.LegalSet stripes4 ∧ bitAt stripes1.flags 0 = false ∧ balance stripes4 ≠ stripes4.bound ∧
    (ready.pow.energyRem < 1000 ∧ Claims.energyNj ready.pow + 2 * ([900000, 1] : List Nat).sum < 1000 * 2 ^ 64) := by
  repeat' apply And.intro
  all_goals decide +kernel

theorem witness_PlainAndArmourWrites : (Memory.wf intact.mem.hbm = true ∧ (∀ q, q < 4 → 5 * secField intact 3 q 1 0 ≤ 40) ∧ intact.mem.armour.length = 4 ∧
      (armourOf intact 0).st = 1 ∧ 0 < poolStripes intact 0 ∧ poolKey intact 0 0 (dataJ 0 0) 0 / 64 ∉ intact.mem.poison) ∧
    (locate intact 0x1000 = .plain 1 0 ∧ locate intact (2 ^ 40) = .plain 6 0 ∧ 1 ∉ intact.mem.lost ∧ hbmKey 1 0 / 64 ∉ intact.mem.poison ∧
      hbmKey 6 0 ≠ hbmKey 1 0) := by
  repeat' apply And.intro
  all_goals decide +kernel

/-- In empty memory every parity granule holds the exclusive-or of its stripe. -/
theorem parity_empty (s : State) (q : Nat) (h : s.mem.hbm = []) : Claims.ParityHolds s q := by
  intro stripe b _ _
  have hg : ∀ k, Memory.get s.mem.hbm k = 0 := by intro k; rw [h]; rfl
  simp only [Claims.stripeXor, hg]
  rfl

theorem witness_parity : Claims.ParityHolds intact 0 := parity_empty _ _ rfl

def clean : State := { intact with mem := { intact.mem with poison := [] } }

theorem witness_ArmourSurvives : Memory.wf clean.mem.hbm = true ∧ 5 * secField clean 3 0 1 0 ≤ 40 ∧ clean.mem.armour.length = 4 ∧ (armourOf clean 0).st = 1 ∧
    clean.mem.poison = [] ∧ 6 * 0 + 5 ∉ clean.mem.lost ∧ unitState clean (uStack (6 * 0 + 5)) = .healthy ∧ clean.dev.st ≠ .off := by
  repeat' apply And.intro
  all_goals decide +kernel

theorem witness_parity_clean : Claims.ParityHolds clean 0 := parity_empty _ _ rfl

theorem witness_idle : step ready = .next ready := rfl

theorem witness_StepInvariants : (Memory.wf ready.mem.hbm = true ∧ Memory.wf ready.host.mem = true ∧ Memory.wf ready.host.cxlMem = true) ∧ Claims.Sized ready := by
  repeat' apply And.intro
  all_goals decide +kernel

/-! ### Witnesses: every command that a frame names runs somewhere -/

def allRun (l : List (Instr × State)) : Bool := l.all (fun e => runs e.1 e.2)

def queryRuns : List (Instr × State) := [(.nop (dev 0), ready), (.identify (dev 1), ready), (.queueCreate (create 256), noQueue), (.queueDelete delete1, loaded),
  (.resultRelease (dev 0x0011 (leBytes 4 0x200)), slotted slot1), (.chartGet (dev 0x0020), ready), (.skewLogGet (dev 0x0021), ready),
  (.statusGet (dev 0x0030), ready), (.configRead (dev 0x0104), recorded), (.contextGet (adm 0x0111), loaded), (.scaleGet (get5 5), scaled ready),
  (.stripeGet (getStripe 4), with0 haloCtx ready), (.manifestGet manP, ing { scheduled with manifests := [man3] }), (.portStatusGet (dev 0x0500), ready),
  (.groupChartGet (dev 0x0511), leading), (.faultGet (cq 0x0600), parkedWith fault3), (.fixStatusGet (dev 0x0611), ready),
  (.stepManifestGet (manifestP 0), ready), (.telemetryGet (telemetryP 0x18), ready), (.stepReportGet (dev 0x0701), ready)]
def setupRuns : List (Instr × State) := [(.configBegin (begin1 32), ready), (.configWrite (write1 2), holding (some staged4)),
  (.configCommit (dev 0x0102), holding (some stagedGood)), (.configAbort (dev 0x0103), hold), (.liveSet live1, ready), (.contextSet set0, ready),
  (.contextClear (adm 0x0112), noQueue), (.groupSet groupSet1, loaded), (.astkSet (astk1 512), loaded), (.ptRootSet (root1 65536), loaded), (.jobStop stop1, running),
  (.stripeSet stripe1, loaded), (.ingestSchedule (schedP 65536), unscheduled), (.ingestStart (cq 0x0401), ing scheduled), (.ingestStop (cq 0x0402), ing ingRuns),
  (.scaleRecordRemove 0 5, with0 { ctx0 with dead := [{ rec5 with deletedAt := 3 }] } ready)]
def syncRuns : List (Instr × State) := [(.syncOp (op1 0xFFFF), celled), (.read req0 9, celled), (.write req0 9 5, celled), (.add req0 9 5, celled), (.cas req0 9 0 5, celled),
  (.waitEq req0 9 1, celled), (.waitGe req0 9 1, celled), (.arrive req0 9 5 1, celled),
  (.waitReleaseWave 0, { celled with sync := { celled.sync with releases := [release0] } }), (.waitEntryFree 0, held9),
  (.remoteSyncReply 4 7, { grouped with sync := { remoteOut := [(4, 3, 9, .read, req0)] } })]
def workRuns : List (Instr × State) := [(.dmaSubmit (submit1 256), loaded), (.kernelDispatch (kp mmRaw), kfree), (.collectiveSubmit (collP 8), collSt []),
  (.chainStart 0 3 0 0 0, kst started1), (.shadowLoadComplete 0 0, before), (.swapToken 0 0, gst { run := some loadedTile }),
  (.chainComplete 0 0, gst { run := some passed1 }), (.vectorGranuleComplete 0 3 0, kst { started1 with held := [⟨0, 7, {}, 0, none⟩] })]
def chartRuns : List (Instr × State) := [(.plannedMove 0 50 .testing, planned0), (.chartChangeDecision change1.units [], ready),
  (.fenceAck, publishing (pub1 false false) ready), (.supervisorApplyAck, publishing (pub1 true false) ready), (.binnacleMirrorAck, publishing (pub1 true true) ready),
  (.fencedOutputDiscard 16 0x1000 1, fenced1), (.supervisorStateMismatch 0x1000 .failed 1, ready), (.staleProgressReport 0x1000 4, changed5),
  (.clusterFault 0 none false, ready), (.clusterWatchdog 0, before), (.supervisorHeartbeatMiss 3, ready),
  (.supervisorRestartEnd 3, { ready with chart := { ready.chart with restarting := [3] } }), (.binnacleTakeover, ready), (.binnacleTakeoverEnd, takingOver),
  (.mediaEngineFault 0x5001, ready), (.rollingTest 0x1032 none, ready), (.unitStateSet (order 0x5001 3), ready)]

theorem witness_CommandFrames : allRun queryRuns = true ∧ allRun setupRuns = true ∧ allRun syncRuns = true ∧ allRun workRuns = true ∧
    allRun chartRuns = true := by decide +kernel

def powerRuns : List (Instr × State) := [(.powerSample 900000 54000 16000, ready), (.thermalReefDecay, ready), (.coolantFlowLow 100, ready), (.avsAdjust 15 true, ready),
  (.droopStretch 3, ready), (.droopStretchEnd 0 16, stretched), (.retuneComplete, retuning), (.descriptorReleaseWave 0, waving), (.heartbeat, ready),
  (.strapRead (straps 6) (straps 4), ready), (.leakLoopSample 100, ready)]
def managementRuns : List (Instr × State) := [(.setEndpointId 9, ready), (.getEndpointId, ready), (.getMctpVersionSupport 0, ready), (.getMessageTypeSupport, ready),
  (.getVendorDefinedMessageSupport, ready), (.unsupportedMctpControlCommand 0x99, ready), (.pldmDiscovery 2, ready), (.getSensorReading 1, ready),
  (.getStateSensorReadings 1, ready), (.setEventReceiver true 9, ready), (.fruDataRead, ready), (.pldmFirmwareUpdate true (leBytes 4 0x4957465A) true false, ready),
  (.activateFirmware, ready)]
def portRuns : List (Instr × State) := [(.portTraining 0, ported { mode := 0 }), (.portTrainingComplete 0 .none goodLanes, ported { mode := 1, training := true }),
  (.laneFailure 0 3, ported native), (.portDown 0, ported native), (.flitReceive 0 ⟨flitBytes (flit0 0), true⟩, ported native),
  (.flitReplay 0 2, ported { native with replay := [flit0 2] }), (.rocePacketReceive 0 4 .send true 100, ported ether), (.cnpReceive 0 4, ported ether),
  (.sendRateRise 0 4, ported { ether with rates := [(4, 2 ^ 31)] }), (.laneDownReceive 0 3, ported native), (.probeReceive 1 0, upPort), (.groupHeartbeatSend, grouped),
  (.fixPullRequest 1 5 0, { ready with fix := { consortSlot := some img5 } }), (.stepManifestReceive (zeros 64), partnered), (.fixChunkAck 0 true, streaming {})]
def groupRuns : List (Instr × State) := [(.groupHeartbeatReceive 1 0 false false, leading), (.heartbeatTimeout 1, leading), (.groupChartChange leading.grp.recs [], leading),
  (.groupChartPublication 2 1 1 0xFFFF grouped.grp.recs [], grouped), (.handover 1 0, inJob leading), (.deadlineExpiry 0, timed (inJob leading)),
  (.deadlineSet deadline1, managing), (.roleSet role1, ready), (.feedOverride override1, lone), (.freqSet (freqP 1600), ready), (.fixSealReport 1 5, leading)]
def testRuns : List (Instr × State) := [(.bistRun bist1, ready), (.clusterTest (clTest 1), ready), (.clusterTestResult 0 true, testing0), (.marginScan margin1, ready),
  (.marginScanComplete eyes48, { ready with test := { margin := some (512, 1) } }), (.hbmRecal (recalP 3), ready), (.hbmRecalStackComplete 0, recalling)]
def registerRuns : List (Instr × State) := [(.sqTail 0 255, withQ q0), (.cqHead 0 0, withQ q0), (.eventCause 1, ready), (.eventMask 1, ready), (.queueErr, ready),
  (.adminEnable 0x800000FF, State.reset), (.adminDisable 0, { ready with regs := { adminEnable := true } }), (.fpFlags 0 31, ready), (.registerWrite 0x14 0, ready),
  (.hostLinkDlActive true, ready)]

theorem witness_MachineFrames : allRun powerRuns = true ∧ allRun managementRuns = true ∧ allRun portRuns = true ∧ allRun groupRuns = true ∧
    allRun testRuns = true ∧ allRun registerRuns = true := by decide +kernel

/-! ### Well-formedness: an ill-formed term for each check -/

/-- A check of WellFormed takes the first command and refuses the second. -/
def refuses (good bad : Instr) : Bool := good.wf && !bad.wf

theorem test_wf_ctx : refuses (.sliceExpiry 15) (.sliceExpiry 16) = true := by decide +kernel
theorem test_wf_cell : refuses (.read req0 65535) (.read req0 65536) = true := by decide +kernel
theorem test_wf_rank : refuses (.heartbeatTimeout 0xFFFF) (.heartbeatTimeout 0x10000) = true := by decide +kernel
theorem test_wf_step : refuses (.deadlineExpiry (2 ^ 64 - 1)) (.deadlineExpiry (2 ^ 64)) = true := by decide +kernel
theorem test_wf_unit : refuses (.mediaEngineFault 0xFFFF) (.mediaEngineFault 0x10000) = true := by decide +kernel
theorem test_wf_source : refuses (.nop { src := .host 64 }) (.nop { src := .host 65 }) = true ∧
    refuses (.nop { src := .fabric 0xFFFF }) (.nop { src := .fabric 0x10000 }) = true ∧
    refuses (.nop { src := .mctp 255 }) (.nop { src := .mctp 256 }) = true := by decide +kernel
theorem test_wf_packet : refuses (.nop { src := .host 0, ctx := 255 }) (.nop { src := .host 0, ctx := 256 }) = true ∧
    (Instr.nop { src := .host 0, flags := 2 ^ 16 }).wf = false ∧ (Instr.nop { src := .host 0, resv5 := 2 ^ 24 }).wf = false ∧
    (Instr.nop { src := .host 0, paramLen := 2 ^ 32 }).wf = false ∧ (Instr.nop { src := .host 0, resv20 := 2 ^ 32 }).wf = false ∧
    (Instr.nop { src := .host 0, paramAddr := 2 ^ 64 }).wf = false ∧ (Instr.nop { src := .host 0, resv32 := 2 ^ 224 }).wf = false := by decide +kernel
theorem test_wf_requester : refuses (.read { unit := 0x9000, cluster := some 799 } 9) (.read { unit := 0x9000, cluster := some 800 } 9) = true ∧
    (Instr.read { unit := 0x10000 } 9).wf = false ∧ (Instr.read { unit := 0, ctx := some 16 } 9).wf = false := by decide +kernel
theorem test_wf_pcie : refuses (.pcieCompletionTimeout (.slot 64)) (.pcieCompletionTimeout (.slot 65)) = true ∧
    (Instr.pcieCompletionTimeout (.target 0 (2 ^ 64) .read 3)).wf = false ∧ (Instr.pcieCompletionTimeout (.params 65536 (dev 0))).wf = false := by decide +kernel
theorem test_wf_signature : refuses (.collectiveSignature 1 (sig1 0)) (.collectiveSignature 1 { sig1 0 with op := 256 }) = true ∧
    (Instr.collectiveSignature 1 { sig1 0 with collId := 2 ^ 32 }).wf = false := by decide +kernel
theorem test_wf_flit : refuses (.flitReceive 5 ⟨flitBytes (flit0 0), true⟩) (.flitReceive 6 ⟨flitBytes (flit0 0), true⟩) = true ∧
    (Instr.flitReceive 5 ⟨[], true⟩).wf = false := by decide +kernel
theorem test_wf_places : refuses (.waitReleaseWave 15) (.waitReleaseWave 16) = true ∧ refuses (.waitEntryFree 7) (.waitEntryFree 8) = true ∧
    refuses (.chainStart 0 3 0 799 3) (.chainStart 0 3 0 799 4) = true ∧ refuses (.drainComplete 799 3) (.drainComplete 800 3) = true ∧
    refuses (.plannedMove 0 831 .testing) (.plannedMove 0 832 .testing) = true ∧ refuses (.stackLoss 23) (.stackLoss 24) = true ∧
    refuses (.patrolScrub 23 0 .clean) (.patrolScrub 23 (48 * 2 ^ 30) .clean) = true ∧ refuses (.rebuildStripe 3 none) (.rebuildStripe 4 none) = true ∧
    refuses (.droopStretch 15) (.droopStretch 16) = true ∧ refuses (.droopStretchEnd 15 1) (.droopStretchEnd 16 1) = true ∧
    refuses (.fencedOutputDiscard 29 0 1) (.fencedOutputDiscard 30 0 1) = true ∧
    refuses (.supervisorHeartbeatMiss 29) (.supervisorHeartbeatMiss 30) = true ∧ refuses (.clusterWatchdog 799) (.clusterWatchdog 800) = true ∧
    refuses (.laneFailure 5 7) (.laneFailure 5 8) = true ∧ refuses (.clusterTestResult 831 true) (.clusterTestResult 832 true) = true ∧
    refuses (.clusterFault 0 (some 3) false) (.clusterFault 0 (some 4) false) = true ∧ refuses (.bootComplete [831] false [] []) (.bootComplete [832] false [] []) = true := by
  decide +kernel
theorem test_wf_fields : refuses (.sqTail 64 0) (.sqTail 65 0) = true ∧ refuses (.sqFetch 1999) (.sqFetch 2000) = true ∧
    refuses (.registerWrite 0xFFFFFFFF 0) (.registerWrite 0x100000000 0) = true ∧ refuses (.setEndpointId 255) (.setEndpointId 256) = true ∧
    refuses (.getSensorReading 65535) (.getSensorReading 65536) = true ∧ refuses (.aux3v3Rise (straps 6) []) (.aux3v3Rise (straps 7) []) = true ∧
    refuses (.groupHeartbeatReceive 1 15 false false) (.groupHeartbeatReceive 1 16 false false) = true ∧
    refuses (.collectiveChunkReceive 1 77 0 65535 0 []) (.collectiveChunkReceive 1 77 0 65536 0 []) = true ∧
    refuses (.retry 0 15) (.retry 0 16) = true ∧ refuses (.decision 0 [⟨1, 3⟩]) (.decision 0 [⟨1, 4⟩]) = true ∧
    refuses (.close { step := 0, freq := 65535 }) (.close { step := 0, freq := 65536 }) = true ∧
    refuses (.bistComplete 0 [⟨0, 255, false, 0⟩]) (.bistComplete 0 [⟨0, 256, false, 0⟩]) = true ∧
    refuses (.thermalReading [⟨0xFFFF, 0⟩] 0 0) (.thermalReading [⟨0x10000, 0⟩] 0 0) = true ∧
    refuses (.marginScanComplete [⟨65535, 0, [], []⟩]) (.marginScanComplete [⟨65536, 0, [], []⟩]) = true ∧
    refuses (.chartChangeDecision [] [(799, 831)]) (.chartChangeDecision [] [(800, 831)]) = true ∧
    refuses (.ilzanReplyReceive 1 65535 0 0) (.ilzanReplyReceive 1 65536 0 0) = true := by decide +kernel

/-! ### Worked examples of the spec -/

/-- The dot product of R38: two products at s = −17 in the accumulator, and its KL8A and KL16 codes (R44). -/
def dotRow : List (Operand × Operand) := [(⟨.a, 0x5B, 0, false⟩, ⟨.a, 0x48, 0, false⟩), (⟨.a, 0xCD, 0, false⟩, ⟨.a, 0x44, 0, false⟩)]
def dotAcc := Acc.resolve (-17) (Acc.run 3 (-17) {} dotRow)
theorem test_dot_product : (Kl.write .a 3 .nearest 0 0 dotAcc).hi = 0x60 ∧ (Kl.write .a 3 .stochastic 17530 0 dotAcc).hi ≠ (Kl.write .a 3 .stochastic 17531 0 dotAcc).hi ∧
    (write16 .nearest 0 dotAcc).hi = 0x4C19 := by decide +kernel
/-- −3.0 in binary32 to KL8A, to nearest and toward zero (R48); a KL16 code to binary32. -/
def fromMinus3 (r : Round) : Nat :=
  match Bin.b32.decode 0xC0400000 with
  | .fin s m e => (Kl.round .a 3 r 0 0 s m e).code
  | _ => 0
theorem test_convert : fromMinus3 .nearest = 0xCD ∧ fromMinus3 .towardZero = 0xCC ∧ (toBin .b32 ({ v := Kl.value .w 3 0 0x4280 }, 0)).1 = 0x40B504F3 := by
  decide +kernel
/-- The random draw of R55. -/
theorem test_draw : tensorDraw 0x299F31D0A4093822 0x85A3 0x13198A2E 0x08D3243F6A88 0x3707344 = ⟨0xD16CFE09, 0x94FDCCEB, 0x5001E420, 0x24126EA1⟩ := by decide +kernel
/-- The balanced boundaries of R127. -/
theorem test_balance : balance stripes4 = [0, 132, 260, 380] := by decide +kernel
/-- The bubbles of R345 at a target of 4,200 W and GAIN 128. -/
theorem test_bubbles : [4150, 4263, 4410, 4800].map (bubbleCount 128 4200) = [0, 7, 25, 48] := by decide +kernel
/-- The check value of CRC-32C (R246). -/
theorem test_crc : crc32c ([0x31, 0x32, 0x33, 0x34, 0x35, 0x36, 0x37, 0x38, 0x39] : List Byte) = 0xE3069283 := by decide +kernel
/-- The armoured byte of R207 in quadrant 1 with a pool of 20 GiB a stack: stripe, granule, byte, stacks, offsets, and its place in the reserve. -/
def pool20 : State := { State.reset with conf := { sections := [(3, [0, 4, 0, 0] ++ zeros 60)] }
                                         mem := { State.reset.mem with armour := [{}, { st := 1 }, {}, {}] } }
theorem test_armour_place : locate pool20 (2 ^ 40 + 2 ^ 39 + 0x4C4B43100) = .armour 1 1000000 3 0x100 ∧ parityJ 1000000 = 1 ∧ dataJ 1000000 3 = 4 ∧
    poolKey pool20 1 1000000 4 0x100 = hbmKey 10 0x6F4240100 ∧ reserveKey pool20 1 1000000 0 4 = hbmKey 6 0xB30D40000 ∧ poolStripes pool20 1 = 5242880 := by
  decide +kernel
/-- The heights and widths of the windows of R83 and R84. -/
def convRaw (l : List (Nat × Nat × Nat)) : Work := kw (fields 256 ([(128, 2, 1), (130, 2, 16), (132, 2, 96), (142, 1, 1), (143, 1, 1), (144, 4, 0x01010101), (150, 2, 1)] ++ l)) .issued
theorem test_windows : (let w := convRaw [(0, 1, 0), (134, 2, 8), (136, 2, 8), (138, 2, 0x0303), (140, 2, 0x0202)]; (w.ho, w.wo)) = (4, 4) ∧
    (let w := convRaw [(0, 1, 1), (134, 2, 3), (136, 2, 3), (138, 2, 0x0404), (140, 2, 0x0202)]; (w.ho, w.wo)) = (6, 6) := by decide +kernel
/-- Logical cluster 421 at reset (R14), and its unit ID (R19). -/
theorem test_carrier : carrier State.reset 421 = 437 ∧ uCluster 437 = 0x11B5 := by decide +kernel

/-! ### Meanings on small states -/

/-- What a run of a command leaves, looked at by `f`. -/
def after (i : Instr) (s : State) (f : State → Bool) : Bool :=
  match exec i s with
  | .next t => f t
  | _ => false
/-- The status codes of the completions that stand in a queue's list after a packet. -/
def statuses (i : Instr) (s : State) (q : Nat) : Option (List Nat) :=
  match exec i s with
  | .next t => (tget t.queues.q q).map (fun x => x.ready.map (fun c => c.status))
  | _ => none

theorem test_add_wraps : after (.add req0 9 2) { celled with sync := { celled.sync with cells := [(9, 0xFFFFFFFF)] } } (fun t => cellValue t 9 == 1) = true := by decide +kernel
theorem test_cas_differs : after (.cas req0 9 1 5) celled (fun t => cellValue t 9 == 0) = true := by decide +kernel
theorem test_cas_equal : after (.cas req0 9 0 5) celled (fun t => cellValue t 9 == 5) = true := by decide +kernel
theorem test_arrive_adds : after (.arrive req0 9 7 9) { celled with sync := { celled.sync with cells := [(9, 1)] } } (fun t => cellValue t 9 == 8 && t.sync.waits.length == 1) = true := by
  decide +kernel
theorem test_nop_completes : statuses (.nop (dev 0)) ready 0 = some [0] := by decide +kernel
theorem test_nop_bad_crc : statuses (.nop badCrc) ready 0 = some [stBADCRC] := by decide +kernel
theorem test_hold_refuses : statuses (.jobStart start1) hold 0 = some [stHOLD] := by decide +kernel
theorem test_heartbeat : after .heartbeat ready (fun t => t.regs.heartbeat == 1) = true := by decide +kernel
theorem test_power_cap : after (.powerCapSet (capP 3000)) ready (fun t => t.pow.capW == 3000) = true := by decide +kernel
theorem test_event_cause_clears : after (.eventCause 3) { ready with regs := { eventCause := 7 } } (fun t => t.regs.eventCause == 4) = true := by decide +kernel
theorem test_step_queue : (match step { ready with pending := [.heartbeat, .queueErr] } with
    | .next t => decide (t.pending = [.queueErr] ∧ t.regs.heartbeat = 1)
    | _ => false) = true := by decide +kernel
theorem test_stack_loss : after (.stackLoss 5) clean (fun t => decide ((armourOf t 0).st = 2 ∧ (armourOf t 0).lostJ = 5)) = true := by decide +kernel
/-- The header stands in the slot once it is written (R311, R315); a slot without it is refused as a CRC failure (R334). -/
theorem test_header_stands : after (.fixHeaderAck 10) (laid (stopping .header loaded)) (fun t =>
    decide ((devRead t 0 8).toOption = some (leBytes 4 0x5849465A ++ leBytes 4 1)) && has t.fix.slot0 (fun i => i.sealed && slotHolds t 0 i)) = true := by
  decide +kernel
theorem test_no_header_refused : (match restoreImage (restore1 5) (laid (fixed {})) with
    | .error d => d == 0x0C11
    | .ok _ => false) = true := by decide +kernel
theorem test_plain_store : (devByte (devSet 0x1000 7 ready) 0x1000).toOption = some 7 ∧ (devByte (devSet 0x1000 7 ready) 0x1001).toOption = some 0 := by decide +kernel
theorem test_cluster_fault_moves : after (.clusterFault 0 none true) ready (fun t => (t.chart.pub.map (fun b => b.change.moves)) == some [(0, 50)]) = true := by
  decide +kernel
end Sys2Proof.Tests
end

section
/-! SUPPORT. Everything a packet's row can do (it waits, is refused, starts after a Fix stop, or runs its body), and from it the rule of GROUP_JOIN
that a manager takes in only a module of the group's level (R5). -/
namespace Sys2Proof.Machine

/-- A packet's row that answers a next state either holds the command or gives it to its acceptance, with its completion owed. -/
theorem packetOut_next_cases {op : Nat} {accept : Packet → State → State} {p : Packet} {s t : State} (h : packetOut op accept p s = .next t) :
    ((behindHeld (owe p s) p || mustWait (owe p s) op p) = true ∧ t = holdCommand op p (owe p s)) ∨
    ((behindHeld (owe p s) p || mustWait (owe p s) op p) = false ∧ t = accept p (owe p s)) := by
  have ht : t = runPacket op accept p s := by
    unfold packetOut gate at h
    split at h
    · cases h; rfl
    · cases h
  cases hw : behindHeld (owe p s) p || mustWait (owe p s) op p with
  | true => exact .inl ⟨rfl, by simp [ht, runPacket, hw]⟩
  | false => exact .inr ⟨rfl, by simp [ht, runPacket, hw]⟩

/-- The acceptance of a packet refuses it (checks 1 to 7), puts it off to the end of a Fix stop, or runs its body, with a result slot where the
command has one (R247, R248, R255). -/
theorem acceptPacket_cases (op : Nat) (c : Checks) (body : Nat → State → State) (p : Packet) (s : State) :
    (∃ st d, acceptance s op c p = some (st, d) ∧ acceptPacket op c body p s = complete p op st d none 0xFFFF [] s) ∨
    (acceptance s op c p = none ∧ waitsForStop op = true ∧ s.dev.st = .fixing ∧
      acceptPacket op c body p s = { s with dev := { s.dev with starts := s.dev.starts ++ [(op, p)] } }) ∨
    (acceptance s op c p = none ∧ ∃ n, c.charge = some n ∧ acceptPacket op c body p s = withSlot p n s body) ∨
    (acceptance s op c p = none ∧ c.charge = none ∧ acceptPacket op c body p s = body 0xFFFF s) := by
  cases ha : acceptance s op c p with
  | some r => exact .inl ⟨r.1, r.2, rfl, by simp [acceptPacket, ha]⟩
  | none =>
    by_cases hw : waitsForStop op = true ∧ s.dev.st = .fixing
    · exact .inr (.inl ⟨rfl, hw.1, hw.2, by simp [acceptPacket, ha, hw]⟩)
    · cases hc : c.charge with
      | some n => exact .inr (.inr (.inl ⟨rfl, n, rfl, by simp [acceptPacket, ha, hw, hc, withSlot]⟩))
      | none => exact .inr (.inr (.inr ⟨rfl, rfl, by simp [acceptPacket, ha, hw, hc]⟩))

@[simp] theorem holdCommand_grp (op : Nat) (p : Packet) (s : State) : (holdCommand op p s).grp = s.grp := by unfold holdCommand; split <;> rfl

/-- GROUP_JOIN of a module at another level than the group's completes with ST_LEVEL_UNSUPPORTED and does nothing else (R5). -/
theorem bodyGroupJoin_otherLevel {p : Packet} {s : State} (hl : pf p 5 1 ≠ s.dev.level) :
    bodyGroupJoin p s = completeOpen p 0x0510 stLEVEL s := by simp [bodyGroupJoin, hl]

/-- However the acceptance of a GROUP_JOIN at another level ends, the group is as it was. -/
theorem acceptGroupJoin_otherLevel_grp {p : Packet} {s : State} (hl : pf p 5 1 ≠ s.dev.level) : (acceptGroupJoin p s).grp = s.grp := by
  unfold acceptGroupJoin
  obtain ⟨st, d, -, he⟩ | ⟨-, -, -, he⟩ | ⟨-, n, hc, -⟩ | ⟨-, -, he⟩ :=
    acceptPacket_cases 0x0510 (chkGroupJoin p) (fun _ t => bodyGroupJoin p t) p s
  · rw [he, complete_grp]
  · rw [he]
  · simp [chkGroupJoin] at hc
  · rw [he, bodyGroupJoin_otherLevel hl, completeOpen_grp]

/-- A GROUP_JOIN that answers a next state, held, refused or run, leaves the group as it was when the module's level is another. -/
theorem execGroupJoin_otherLevel_grp {p : Packet} {s t : State} (hl : pf p 5 1 ≠ s.dev.level) (h : execGroupJoin p s = .next t) :
    t.grp = s.grp := by
  obtain ⟨-, rfl⟩ | ⟨-, rfl⟩ := packetOut_next_cases h
  · rw [holdCommand_grp, owe_grp]
  · rw [acceptGroupJoin_otherLevel_grp (by simpa using hl), owe_grp]

/-- An accepted GROUP_JOIN runs its effect at once: it has no result slot and waits for no Fix stop. -/
theorem exec_groupJoin_accepted {p : Packet} {s : State} (h : Accepted 0x0510 (chkGroupJoin p) p s) :
    exec (.groupJoin p) s = .next (bodyGroupJoin p (owe p s)) :=
  packetOut_plain (body := fun _ t => bodyGroupJoin p t) h rfl rfl

end Sys2Proof.Machine

namespace Sys2Proof
open Sys2Proof.Machine

/-- Settles O43: a group chart that changed means the module's level was the group's, since at any other level every outcome of GROUP_JOIN's row
keeps the group; an accepted one is then answered ST_LEVEL_UNSUPPORTED. -/
theorem groupLevel : Obligations.GroupLevel := by
  unfold Obligations.GroupLevel Claims.groupLevel
  constructor
  · intro p s t hexec hrecs
    by_contra hl
    exact hrecs (congrArg Group.recs (execGroupJoin_otherLevel_grp hl hexec))
  · intro p s hacc hl
    have hl' : pf p 5 1 ≠ (owe p s).dev.level := by simpa using hl
    constructor
    · rw [exec_groupJoin_accepted hacc, bodyGroupJoin_otherLevel hl', stLEVEL]
    · rw [completeOpen_grp, owe_grp]

end Sys2Proof
end

section
/-! SUPPORT. The unit records a published change leaves, by the three ways a unit can stand to it: given a state, moved only, or neither; and from
them the change epochs (R24). -/
namespace Sys2Proof.Machine

/-- Unit records of units the list does not name stay. -/
theorem tget_applyUnits_of_notMem (s : State) (e : Word) (moved : List Nat) {u : Nat} {l : List (Nat × UnitState)} (h : u ∉ l.map Prod.fst)
    (t : Table UnitRec) : tget (applyUnits s e moved l t) u = tget t u := by
  induction l generalizing t with
  | nil => rfl
  | cons x r ih =>
    obtain ⟨hx, hr⟩ : u ≠ x.1 ∧ u ∉ r.map Prod.fst := by simpa using h
    rw [applyUnits, ih hr, tget_tset_other _ _ hx]

/-- A unit that the list names once has the record that its state there makes of its old one. -/
theorem tget_applyUnits_of_mem (s : State) (e : Word) (moved : List Nat) {u : Nat} {st : UnitState} {l : List (Nat × UnitState)}
    (hnd : (l.map Prod.fst).Nodup) (h : (u, st) ∈ l) (t : Table UnitRec) :
    tget (applyUnits s e moved l t) u = some (changedRec s e u st (decide (u ∈ moved.map uCluster))) := by
  induction l generalizing t with
  | nil => cases h
  | cons x r ih =>
    obtain ⟨hx, hr⟩ := List.nodup_cons.mp hnd
    obtain rfl | hmem := List.mem_cons.mp h
    · rw [applyUnits, tget_applyUnits_of_notMem s e moved hx, tget_tset_same]
    · exact ih hr hmem _

/-- A named unit's record is left to `applyUnits`. -/
theorem tget_applyMovedUnits_of_named (s : State) (e : Word) {named : List Nat} {u : Nat} (h : u ∈ named) (ps : List Nat) (t : Table UnitRec) :
    tget (applyMovedUnits s e named ps t) u = tget t u := by
  induction ps generalizing t with
  | nil => rfl
  | cons p r ih =>
    rw [applyMovedUnits, ih]
    split
    · rfl
    · next hp => exact tget_tset_other _ _ (fun hu => hp (hu ▸ h))

/-- A unit that is none of the moved clusters keeps its record. -/
theorem tget_applyMovedUnits_of_notMem (s : State) (e : Word) (named : List Nat) {u : Nat} {ps : List Nat} (h : u ∉ ps.map uCluster)
    (t : Table UnitRec) : tget (applyMovedUnits s e named ps t) u = tget t u := by
  induction ps generalizing t with
  | nil => rfl
  | cons p r ih =>
    obtain ⟨hp, hr⟩ : u ≠ uCluster p ∧ u ∉ r.map uCluster := by simpa using h
    rw [applyMovedUnits, ih hr]
    split
    · rfl
    · exact tget_tset_other _ _ hp

/-- A moved cluster without a named state keeps its state and takes the change's epoch. -/
theorem tget_applyMovedUnits_of_mem (s : State) (e : Word) {named : List Nat} {u : Nat} {ps : List Nat} (hn : u ∉ named)
    (h : u ∈ ps.map uCluster) (t : Table UnitRec) : tget (applyMovedUnits s e named ps t) u = some ⟨unitState s u, e⟩ := by
  induction ps generalizing t with
  | nil => cases h
  | cons p r ih =>
    rw [applyMovedUnits]
    by_cases hr : u ∈ r.map uCluster
    · exact ih hr _
    · obtain rfl : u = uCluster p := (List.mem_cons.mp h).resolve_right hr
      rw [tget_applyMovedUnits_of_notMem s e named hr, if_neg hn, tget_tset_same, unitState]

/-- A published change gives a unit with a state in it the record that this state makes of the old one. -/
theorem unitRec_publishChange_of_mem {c : Change} {s : State} (e : Word) {u : Nat} {st : UnitState} (hnd : ((fullUnits s c).map Prod.fst).Nodup)
    (h : (u, st) ∈ fullUnits s c) :
    unitRec (publishChange c e s) u = changedRec s e u st (decide (u ∈ (movedPhys s c).map uCluster)) := by
  have hn : u ∈ (fullUnits s c).map Prod.fst := List.mem_map_of_mem (f := Prod.fst) h
  simp only [unitRec, publishChange, tget_applyMovedUnits_of_named s e hn, tget_applyUnits_of_mem s e (movedPhys s c) hnd h, Option.getD_some]

/-- A published change that moves a cluster's identity and gives the cluster no state leaves its state and sets its change epoch. -/
theorem unitRec_publishChange_of_moved {c : Change} {s : State} (e : Word) {u : Nat} (hn : u ∉ (fullUnits s c).map Prod.fst)
    (h : u ∈ (movedPhys s c).map uCluster) : unitRec (publishChange c e s) u = ⟨unitState s u, e⟩ := by
  simp only [unitRec, publishChange, tget_applyMovedUnits_of_mem s e hn h, Option.getD_some]

/-- A published change leaves the record of a unit that it neither gives a state nor moves. -/
theorem unitRec_publishChange_of_other {c : Change} {s : State} (e : Word) {u : Nat} (hn : u ∉ (fullUnits s c).map Prod.fst)
    (h : u ∉ (movedPhys s c).map uCluster) : unitRec (publishChange c e s) u = unitRec s u := by
  simp only [unitRec, publishChange, tget_applyMovedUnits_of_notMem s e _ h, tget_applyUnits_of_notMem s e _ hn]

/-- A new state or a move sets the change epoch of a record. -/
theorem changedRec_change_of_altered {s : State} (e : Word) {u : Nat} {st : UnitState} {moved : Bool} (h : st ≠ unitState s u ∨ moved = true) :
    (changedRec s e u st moved).change = e := by
  have hc : ¬((unitRec s u).st = st ∧ ¬ moved) := by
    rintro ⟨rfl, hm⟩
    exact h.elim (fun hs => hs rfl) hm
  rw [changedRec, if_neg hc]

/-- A restated unit whose identity does not move keeps its record. -/
theorem changedRec_restated (s : State) (e : Word) (u : Nat) : changedRec s e u (unitState s u) false = unitRec s u :=
  if_pos ⟨rfl, Bool.false_ne_true⟩

/-- A unit's change epoch becomes the change's when the change gives it another state or moves its identity. -/
theorem changeEpoch_publishChange_of_altered {c : Change} {s : State} (e : Word) {u : Nat} (hnd : ((fullUnits s c).map Prod.fst).Nodup)
    (h : (∃ st, (u, st) ∈ fullUnits s c ∧ st ≠ unitState s u) ∨ u ∈ (movedPhys s c).map uCluster) :
    changeEpoch (publishChange c e s) u = e := by
  obtain ⟨st, hmem, hst⟩ | hmoved := h
  · rw [changeEpoch, unitRec_publishChange_of_mem e hnd hmem, changedRec_change_of_altered e (.inl hst)]
  · by_cases hn : u ∈ (fullUnits s c).map Prod.fst
    · obtain ⟨⟨_, st⟩, hmem, rfl⟩ := List.mem_map.mp hn
      rw [changeEpoch, unitRec_publishChange_of_mem e hnd hmem, changedRec_change_of_altered e (.inr (decide_eq_true hmoved))]
    · rw [changeEpoch, unitRec_publishChange_of_moved e hn hmoved]

/-- A unit keeps its whole record under a change that gives it no other state than its own and does not move its identity. -/
theorem unitRec_publishChange_of_unaltered {c : Change} {s : State} (e : Word) {u : Nat} (hnd : ((fullUnits s c).map Prod.fst).Nodup)
    (hst : ∀ st, (u, st) ∈ fullUnits s c → st = unitState s u) (hmoved : u ∉ (movedPhys s c).map uCluster) :
    unitRec (publishChange c e s) u = unitRec s u := by
  by_cases hn : u ∈ (fullUnits s c).map Prod.fst
  · obtain ⟨⟨_, st⟩, hmem, rfl⟩ := List.mem_map.mp hn
    rw [unitRec_publishChange_of_mem e hnd hmem, hst st hmem, decide_eq_false hmoved, changedRec_restated]
  · exact unitRec_publishChange_of_other e hn hmoved

end Sys2Proof.Machine

namespace Sys2Proof
open Sys2Proof.Machine

/-- Settles O38, from the record a published change leaves a unit: a changed one when its state or its identity is altered, else its old one. -/
theorem changeEpochs : Obligations.ChangeEpochs := by
  unfold Obligations.ChangeEpochs Claims.changeEpochs
  intro c e s u hnd
  constructor
  · intro haltered
    refine changeEpoch_publishChange_of_altered e hnd (haltered.imp_right ?_)
    rintro ⟨p, hp, rfl⟩
    exact List.mem_map_of_mem hp
  · intro hst hmoved
    have hnot : u ∉ (movedPhys s c).map uCluster := by
      intro hu
      obtain ⟨p, hp, hpu⟩ := List.mem_map.mp hu
      exact hmoved p hp hpu.symm
    rw [changeEpoch, changeEpoch, unitRec_publishChange_of_unaltered e hnd hst hnot]

end Sys2Proof
end

section
/-! SUPPORT. GRAD_HIST and GFMT at the boundary, case by case, and what a run of boundaries of written steps makes of them: how many of the latest
steps qualified one after another stands in the low bits of GRAD_HIST (R103). -/
namespace Sys2Proof.Machine

/-- A step qualifies that wrote elements, saturated fewer than one in 65,536 of them and wrote no non-finite one (R103). -/
theorem qualifies_iff (w : WatchLive) : qualifies w = true ↔ 0 < w.elements ∧ w.saturated * 65536 < w.elements ∧ w.nonfinite = 0 := by
  simp [qualifies, and_assoc]

/-- A record without GRAD is left as it is. -/
theorem gradDecision_of_not_grad {r : ScaleRec} (hg : r.grad = false) : gradDecision r = r := by
  simp [gradDecision, hg]

@[simp] theorem gradDecision_mode (r : ScaleRec) : (gradDecision r).mode = r.mode := by
  unfold gradDecision
  split <;> rfl

/-- The format of the next step follows the history that this boundary leaves. -/
theorem gradDecision_gfmt {r : ScaleRec} (hg : r.grad = true) :
    (gradDecision r).gfmt = (if r.pin then 3 else if (gradDecision r).gradHist = 0xFF then 1 else 2) := by
  simp [gradDecision, hg]

/-- A step that wrote no counted element leaves the history. -/
theorem gradDecision_gradHist_of_unwritten {r : ScaleRec} (hg : r.grad = true) (hw : r.shadow.maxk = none) :
    (gradDecision r).gradHist = r.gradHist := by
  simp [gradDecision, hg, hw]

/-- A step that wrote a counted element shifts the history, and the new bit says whether it qualified. -/
theorem gradDecision_gradHist_of_written {r : ScaleRec} (hg : r.grad = true) (hw : r.shadow.maxk ≠ none) :
    (gradDecision r).gradHist = (2 * r.gradHist + (if qualifies r.shadow then 1 else 0)) % 256 := by
  have hs : r.shadow.maxk.isSome = true := Option.isSome_iff_ne_none.mpr hw
  simp only [gradDecision, hg, hs, if_true]
  split <;> omega

/-- The last boundary of a run acts on what the boundaries before it left. -/
theorem gradientRun_concat (r : ScaleRec) (ws : List WatchLive) (w : WatchLive) :
    Claims.gradientRun r (ws ++ [w]) = gradDecision { Claims.gradientRun r ws with shadow := w } := by
  induction ws generalizing r with
  | nil => rfl
  | cons v rest ih => exact ih _

/-- No boundary changes MODE. -/
@[simp] theorem gradientRun_mode (r : ScaleRec) (ws : List WatchLive) : (Claims.gradientRun r ws).mode = r.mode := by
  induction ws generalizing r with
  | nil => rfl
  | cons w rest ih => exact (ih _).trans (gradDecision_mode _)

@[simp] theorem gradientRun_grad (r : ScaleRec) (ws : List WatchLive) : (Claims.gradientRun r ws).grad = r.grad :=
  congrArg (bitAt · 2) (gradientRun_mode r ws)

@[simp] theorem gradientRun_pin (r : ScaleRec) (ws : List WatchLive) : (Claims.gradientRun r ws).pin = r.pin :=
  congrArg (bitAt · 3) (gradientRun_mode r ws)

/-- A boundary of a written step appended to a run shifts the history that the run left. -/
theorem gradientRun_concat_gradHist {r : ScaleRec} (hg : r.grad = true) (ws : List WatchLive) {w : WatchLive} (hw : w.maxk ≠ none) :
    (Claims.gradientRun r (ws ++ [w])).gradHist =
      (2 * (Claims.gradientRun r ws).gradHist + (if qualifies w then 1 else 0)) % 256 := by
  rw [gradientRun_concat]
  exact gradDecision_gradHist_of_written ((gradientRun_grad r ws).trans hg) hw

/-- The low `j + 1` bits of a shifted history byte are all ones exactly when the new bit is one and the low `j` bits were. -/
theorem shiftedHist_lowOnes_iff {j : Nat} (hj : j + 1 ≤ 8) (h : Nat) (q : Bool) :
    (2 * h + (if q then 1 else 0)) % 256 % 2 ^ (j + 1) = 2 ^ (j + 1) - 1 ↔ q = true ∧ h % 2 ^ j = 2 ^ j - 1 := by
  have hdvd : 2 ^ (j + 1) ∣ 256 := pow_dvd_pow 2 hj
  have hpos : 0 < 2 ^ j := Nat.two_pow_pos j
  rw [Nat.mod_mod_of_dvd _ hdvd, pow_succ']
  generalize 2 ^ j = m at hpos
  have hmod : 2 * h % (2 * m) = 2 * (h % m) := Nat.mul_mod_mul_left 2 h m
  have hlt : h % m < m := Nat.mod_lt h hpos
  cases q with
  | false =>
    simp only [Bool.false_eq_true, if_false, Nat.add_zero, hmod, false_and, iff_false]
    omega
  | true =>
    have hsucc : (2 * h + 1) % (2 * m) = 2 * (h % m) + 1 := by
      rw [Nat.add_mod, hmod, Nat.mod_eq_of_lt (by omega : 1 < 2 * m), Nat.mod_eq_of_lt (by omega)]
    simp only [if_true, true_and, hsucc]
    omega

/-- From GRAD_HIST 0 and boundaries of written steps only, the low `j` bits of GRAD_HIST are all ones exactly when at least `j` of them ran and the
last `j` qualified. -/
theorem gradientRun_lowOnes_iff {r : ScaleRec} (hg : r.grad = true) (h0 : r.gradHist = 0) {ws : List WatchLive}
    (hws : ∀ w ∈ ws, w.maxk ≠ none) {j : Nat} (hj : j ≤ 8) :
    (Claims.gradientRun r ws).gradHist % 2 ^ j = 2 ^ j - 1 ↔ j ≤ ws.length ∧ ∀ w ∈ ws.reverse.take j, qualifies w = true := by
  induction ws using List.reverseRecOn generalizing j with
  | nil =>
    have hj0 : 2 ^ j = 1 ↔ j = 0 := by simp
    have hpos : 0 < 2 ^ j := Nat.two_pow_pos j
    simp only [Claims.gradientRun, h0, Nat.zero_mod, List.length_nil, Nat.le_zero, List.reverse_nil, List.take_nil, List.not_mem_nil,
      false_implies, implies_true, and_true]
    omega
  | append_singleton ws w ih =>
    obtain ⟨hrest, hw⟩ : (∀ v ∈ ws, v.maxk ≠ none) ∧ w.maxk ≠ none := by simpa [or_imp, forall_and] using hws
    cases j with
    | zero => simp [Nat.mod_one]
    | succ i =>
      rw [gradientRun_concat_gradHist hg ws hw, shiftedHist_lowOnes_iff hj, ih hrest (Nat.le_of_succ_le hj)]
      simp [and_left_comm]

/-- GRAD_HIST is a byte after a run that began at 0 and had boundaries of written steps only. -/
theorem gradientRun_gradHist_lt {r : ScaleRec} (hg : r.grad = true) (h0 : r.gradHist = 0) {ws : List WatchLive}
    (hws : ∀ w ∈ ws, w.maxk ≠ none) : (Claims.gradientRun r ws).gradHist < 256 := by
  obtain rfl | ⟨us, w, rfl⟩ := ws.eq_nil_or_concat'
  · simp [Claims.gradientRun, h0]
  · rw [gradientRun_concat_gradHist hg us (hws w (by simp))]
    exact Nat.mod_lt _ (by decide)

/-- After at least one boundary a gradient record that is not pinned is in KL8B exactly when its history is all ones. -/
theorem gradientRun_gfmt_eq_one_iff {r : ScaleRec} (hg : r.grad = true) (hp : r.pin = false) {ws : List WatchLive} (hne : ws ≠ []) :
    (Claims.gradientRun r ws).gfmt = 1 ↔ (Claims.gradientRun r ws).gradHist = 0xFF := by
  obtain ⟨us, w, rfl⟩ := ws.eq_nil_or_concat'.resolve_left hne
  have hg' : ({ Claims.gradientRun r us with shadow := w } : ScaleRec).grad = true := (gradientRun_grad r us).trans hg
  have hp' : ({ Claims.gradientRun r us with shadow := w } : ScaleRec).pin = false := (gradientRun_pin r us).trans hp
  rw [gradientRun_concat, gradDecision_gfmt hg', hp']
  simp

end Sys2Proof.Machine

namespace Sys2Proof
open Sys2Proof.Machine

/-- Settles O55: the boundary's decision case by case, and GRAD_HIST 0xFF as eight low ones of the history, which a run from 0 has only after eight
qualifying written steps. -/
theorem gradientFormat : Obligations.GradientFormat := by
  unfold Obligations.GradientFormat Claims.gradientFormat Claims.gradientNeedsEight
  refine ⟨⟨qualifies_iff, fun r => gradDecision_gfmt, fun r => gradDecision_gradHist_of_unwritten,
    fun r => gradDecision_gradHist_of_written, fun r => gradDecision_of_not_grad, fun x => ⟨rfl, rfl⟩, fun b => rfl⟩, ?_⟩
  intro r ws hg hp h0 hne hws
  have hbyte : (Claims.gradientRun r ws).gradHist % 2 ^ 8 = (Claims.gradientRun r ws).gradHist :=
    Nat.mod_eq_of_lt (gradientRun_gradHist_lt hg h0 hws)
  rw [gradientRun_gfmt_eq_one_iff hg hp hne, ← gradientRun_lowOnes_iff hg h0 hws (le_refl 8), hbyte]
  exact Iff.rfl

end Sys2Proof
end

section
/-! SUPPORT. The answers of ANCHOR_ENTER, case by case (R354, R355): what its effect does once it is accepted, and that parameters have it refused
at check 5; and that a reply to GROUP_JOIN changes nothing in ANCHORED. -/
namespace Sys2Proof.Machine

@[simp] theorem inGroup_owe (p : Packet) (s : State) : inGroup (owe p s) = inGroup s := by simp [inGroup]

/-- A packet that waits for nothing and fails a check of acceptance is answered with that check's status and detail. -/
theorem packetOut_refused {op st : Nat} {d : Option Nat} {c : Checks} {p : Packet} {s : State} {accept : Packet → State → State}
    {body : Nat → State → State} (hpow : s.dev.st ≠ .off) (hb : behindHeld (owe p s) p = false) (hm : mustWait (owe p s) op p = false)
    (ha : accept p (owe p s) = acceptPacket op c body p (owe p s)) (hr : acceptance (owe p s) op c p = some (st, d)) :
    packetOut op accept p s = .next (complete p op st d none 0xFFFF [] (owe p s)) := by
  rw [packetOut_next hpow]
  simp [runPacket, hb, hm, ha, acceptPacket, hr]

/-- A packet whose parameters have not the length its command wants fails check 5 with ST_BAD_PARAM, by this or by an earlier part of the check. -/
theorem paramRefusal_of_badLength (row : OpRow) {c : Checks} (p : Packet) (hl : c.lenOk = false) :
    ∃ d, paramRefusal row c p = some (stBADPARAM, d) := by
  unfold paramRefusal
  split
  · exact ⟨_, rfl⟩
  · split
    · exact ⟨_, rfl⟩
    · exact ⟨some 0x0A05, by simp [hl]⟩

/-- The first check that refuses a packet is check 5 when its CRC and opcode are good and its source and the device state admit it. -/
theorem acceptance_of_paramRefusal {s : State} {op : Nat} {c : Checks} {p : Packet} {row : OpRow} {r : Nat × Option Nat}
    (hcrc : p.crc = packetCrc op p) (hrow : opRow op = some row) (hsrc : sourceRefusal s row op p = none)
    (hst : stateRefusal s op p.src = none) (hr : paramRefusal row c p = some r) : acceptance s op c p = some r := by
  simp [acceptance, hcrc, hrow, hsrc, hst, hr]

/-- READY admits every opcode while no entry to ANCHORED runs (R248). -/
theorem stateRefusal_ready {s : State} (op : Nat) (src : Source) (hst : s.dev.st = .ready) (ha : s.dev.anchoring = none) :
    stateRefusal s op src = none := by
  have hadmit : admitState s = .ready := by simp [admitState, hst, ha]
  simp [stateRefusal, stateRefusal0, hadmit]

/-- A host queue that the opcode's row permits is not refused: only a fabric sender has further rules (R250, R268). -/
theorem sourceRefusal_host {s : State} {row : OpRow} {op q : Nat} {p : Packet} (hsrc : p.src = .host q) (hp : row.permits (.host q) = true) :
    sourceRefusal s row op p = none := by
  simp [sourceRefusal, hsrc, hp]

/-- In READY, with every context at rest and outside a group, the entry begins and its command is kept (R355). -/
theorem bodyAnchorEnter_begins {p : Packet} {s : State} (hst : s.dev.st = .ready) (hc : s.ctxs.any (fun e => keepsAwake e.2) = false)
    (hg : inGroup s = false) : bodyAnchorEnter p s = { s with dev := { s.dev with anchoring := some p } } := by
  simp only [bodyAnchorEnter, hst, hc, hg, ne_eq, not_true, Bool.false_eq_true, or_self, if_false]

/-- Outside READY or with a context that is not at rest, the answer is 0x0D10, in a group or not (R354). -/
theorem bodyAnchorEnter_underWay {p : Packet} {s : State} (h : s.dev.st ≠ .ready ∨ s.ctxs.any (fun e => keepsAwake e.2) = true) :
    bodyAnchorEnter p s = completeWith p 0x0720 stBUSY 0x0D10 s := if_pos h

/-- Only the group stands against the entry: the answer is 0x0D11 (R354). -/
theorem bodyAnchorEnter_grouped {p : Packet} {s : State} (hst : s.dev.st = .ready) (hc : s.ctxs.any (fun e => keepsAwake e.2) = false)
    (hg : inGroup s = true) : bodyAnchorEnter p s = completeWith p 0x0720 stBUSY 0x0D11 s := by
  simp only [bodyAnchorEnter, hst, hc, hg, ne_eq, not_true, Bool.false_eq_true, or_self, if_false, if_true]

/-- An accepted ANCHOR_ENTER runs its effect at once: it has no result slot and waits for no Fix stop. -/
theorem exec_anchorEnter_accepted {p : Packet} {s : State} (h : Accepted 0x0720 (chkAnchor p) p s) :
    exec (.anchorEnter p) s = .next (bodyAnchorEnter p (owe p s)) :=
  packetOut_plain (body := fun _ t => bodyAnchorEnter p t) h rfl rfl

/-- ANCHOR_ENTER with parameters, from the admin queue in READY, fails check 5. -/
theorem acceptance_anchorEnter_params {p : Packet} {s : State} (hst : s.dev.st = .ready) (ha : s.dev.anchoring = none)
    (hcrc : p.crc = packetCrc 0x0720 p) (hsrc : p.src = .host 0) (hlen : p.paramLen ≠ 0) :
    ∃ d, acceptance s 0x0720 (chkAnchor p) p = some (stBADPARAM, d) := by
  have hrow : opRow 0x0720 = some ⟨false, true, false, false, true⟩ := rfl
  obtain ⟨d, hd⟩ := paramRefusal_of_badLength ⟨false, true, false, false, true⟩ (c := chkAnchor p) p (by simp [chkAnchor, hlen])
  exact ⟨d, acceptance_of_paramRefusal hcrc hrow (sourceRefusal_host hsrc rfl) (stateRefusal_ready _ _ hst ha) hd⟩

theorem exec_ilzanReplyReceive (rank opcode status : Nat) (v : BitVec 64) (s : State) :
    exec (.ilzanReplyReceive rank opcode status v) s = execIlzanReplyReceive rank opcode status v s := rfl

/-- In ANCHORED the reply to a GROUP_JOIN lets the module into no group, and no other use of a reply concerns this opcode. -/
theorem exec_joinReply_anchored (rank status : Nat) (v : BitVec 64) {s : State} (hst : s.dev.st = .anchored) :
    exec (.ilzanReplyReceive rank 0x0510 status v) s = .next s := by
  have hadmit : admitState s = .anchored := by simp [admitState, hst]
  have hsent : (s.dev.st != .off && (opRow 0x0510).any (fun r => r.fabric)) = true := by
    rw [hst]
    rfl
  simp [exec_ilzanReplyReceive, execIlzanReplyReceive, gate, hsent, hadmit]

end Sys2Proof.Machine

namespace Sys2Proof
open Sys2Proof.Machine

/-- Settles O49: an accepted ANCHOR_ENTER by the three cases of its effect, one with parameters by check 5, and the reply to a join by the state in
which the module takes no rank. -/
theorem anchorEnter : Obligations.AnchorEnter := by
  unfold Obligations.AnchorEnter Claims.anchorEnter Claims.anchorNoParams Claims.anchoredNotAdmitted
  refine ⟨?_, ?_, fun m v s hst => exec_joinReply_anchored m 0 v hst⟩
  · intro p s hacc
    rw [exec_anchorEnter_accepted hacc]
    refine ⟨fun hst hc hg => ?_, fun h => ?_, fun hst hc hg => ?_⟩
    · rw [bodyAnchorEnter_begins (by simpa using hst) (by simpa using hc) (by simpa using hg), owe_dev]
    · rw [bodyAnchorEnter_underWay (by simpa using h)]
    · rw [bodyAnchorEnter_grouped (by simpa using hst) (by simpa using hc) (by simpa using hg)]
  · intro p s hst ha hb hm hcrc hsrc hlen
    obtain ⟨d, hd⟩ := acceptance_anchorEnter_params (s := owe p s) (by simpa using hst) (by simpa using ha) hcrc hsrc hlen
    have hpow : s.dev.st ≠ .off := by simp [hst]
    exact ⟨d, packetOut_refused (body := fun _ t => bodyAnchorEnter p t) hpow hb hm rfl hd⟩

end Sys2Proof
end

section
/-! SUPPORT. The commands on the image buffer, case by case (R363, R364, R367): that a conflicting activity alone has a packet refused at check 7,
what a write leaves in the buffer, what each command's effect is once it is accepted, and that CONFIG_BEGIN keeps the recorded image. -/
namespace Sys2Proof.Machine

/-- Conflicting activity is the last part of check 7: a packet that passes the check without it is refused with ST_BUSY and the activity's detail. -/
theorem busyRefusal_of_busy {s : State} {c : Checks} {p : Packet} (d : Option Nat) (h : busyRefusal s c p = none) :
    busyRefusal s { c with busy := some d } p = some (stBUSY, d) := by
  unfold busyRefusal at h ⊢
  obtain ⟨-, h⟩ | ⟨hfull, h⟩ := ite_eq_iff.mp h
  · cases h
  · rw [if_neg hfull]
    cases hcharge : c.charge with
    | none => rfl
    | some n =>
      have hfree : slotFree n s = true := by
        by_contra hno
        simp [hcharge, hno] at h
      simp [hfree]

/-- Check 7 is the last before a command runs, and no other reads the conflicting activity: a packet that passes every check without it is refused
for it (R247). -/
theorem acceptance_of_busy {s : State} {op : Nat} {c : Checks} {p : Packet} (d : Option Nat) (h : acceptance s op c p = none) :
    acceptance s op { c with busy := some d } p = some (stBUSY, d) := by
  unfold acceptance at h ⊢
  split at h
  · cases h
  next hcrc =>
    rw [if_neg hcrc]
    split at h
    · cases h
    next row hrow =>
      simp only [Option.or_eq_none_iff] at h
      obtain ⟨hsrc, hstate, hparam, hepoch, hbusy⟩ := h
      have hparam' : paramRefusal row { c with busy := some d } p = none := hparam
      have hepoch' : epochRefusal s op { c with busy := some d } p = none := hepoch
      simp only [hsrc, hstate, hparam', hepoch', busyRefusal_of_busy d hbusy, Option.none_or]

/-- What follows the taking of a result slot sees the configuration as it was. -/
theorem withSlot_congr_of_conf {p : Packet} {n : Nat} {s : State} {f g : Nat → State → State}
    (h : ∀ idx t, t.conf = s.conf → f idx t = g idx t) : withSlot p n s f = withSlot p n s g :=
  h _ _ (allocSlot_conf p n s)

@[simp] theorem holdCommand_conf (op : Nat) (p : Packet) (s : State) : (holdCommand op p s).conf = s.conf := by unfold holdCommand; split <;> rfl
@[simp] theorem idlePorts_conf (s : State) : (idlePorts s).conf = s.conf := rfl
@[simp] theorem enterHold_conf (detail : Nat) (s : State) : (enterHold detail s).conf = s.conf := by simp [enterHold]

/-! ### CONFIG_BEGIN -/

theorem bodyConfigBegin_opens {p : Packet} {s : State} (hn : within 32 (pf p 0 4) 1048576 = true) :
    bodyConfigBegin p s = completeOk p 0x0100 (
      if s.dev.st = .ready then enterHold 0x0E12 { s with conf := { s.conf with staging := some { length := pf p 0 4 } } }
      else { s with conf := { s.conf with staging := some { length := pf p 0 4 } } }) := by
  simp [bodyConfigBegin, hn]

theorem bodyConfigBegin_badLength {p : Packet} {s : State} (hn : within 32 (pf p 0 4) 1048576 = false) :
    bodyConfigBegin p s = completeWith p 0x0100 stBADPARAM 0x0E41 s := by
  simp [bodyConfigBegin, hn]

/-- CONFIG_BEGIN changes the image buffer only: the recorded image stays, whether the buffer is opened or the LENGTH refused. -/
@[simp] theorem bodyConfigBegin_recorded (p : Packet) (s : State) : (bodyConfigBegin p s).conf.recorded = s.conf.recorded := by
  cases hn : within 32 (pf p 0 4) 1048576 with
  | true =>
    rw [bodyConfigBegin_opens hn, completeOk_conf]
    split
    · rw [enterHold_conf]
    · rfl
  | false => rw [bodyConfigBegin_badLength hn, completeWith_conf]

/-- However the acceptance of a CONFIG_BEGIN ends, the recorded image stays. -/
theorem acceptConfigBegin_recorded (p : Packet) (s : State) : (acceptConfigBegin p s).conf.recorded = s.conf.recorded := by
  unfold acceptConfigBegin
  obtain ⟨st, d, -, he⟩ | ⟨-, -, -, he⟩ | ⟨-, n, hc, -⟩ | ⟨-, -, he⟩ :=
    acceptPacket_cases 0x0100 (chkConfigBegin p s) (fun _ t => bodyConfigBegin p t) p s
  · rw [he, complete_conf]
  · rw [he]
  · simp [chkConfigBegin] at hc
  · rw [he, bodyConfigBegin_recorded]

theorem execConfigBegin_recorded {p : Packet} {s t : State} (h : execConfigBegin p s = .next t) : t.conf.recorded = s.conf.recorded := by
  obtain ⟨-, rfl⟩ | ⟨-, rfl⟩ := packetOut_next_cases h
  · rw [holdCommand_conf, owe_conf]
  · rw [acceptConfigBegin_recorded, owe_conf]

/-- An accepted CONFIG_BEGIN runs its effect at once: it has no result slot and waits for no Fix stop. -/
theorem exec_configBegin_accepted {p : Packet} {s : State} (h : Accepted 0x0100 (chkConfigBegin p (owe p s)) p s) :
    exec (.configBegin p) s = .next (bodyConfigBegin p (owe p s)) :=
  packetOut_plain (body := fun _ t => bodyConfigBegin p t) h rfl rfl

/-- A CONFIG_BEGIN that passes every check but for a conflicting activity is refused with the activity's detail. -/
theorem exec_configBegin_busy {p : Packet} {s : State} {d : Option Nat} (h : Accepted 0x0100 { lenOk := p.paramLen == 4 } p s)
    (hd : beginBusy (owe p s) = some d) :
    exec (.configBegin p) s = .next (complete p 0x0100 stBUSY d none 0xFFFF [] (owe p s)) := by
  obtain ⟨⟨hpow, hheld, hwait, hacc⟩, -⟩ := h
  have hchk : chkConfigBegin p (owe p s) = { lenOk := p.paramLen == 4, busy := some d } := by rw [chkConfigBegin, hd]
  have hr : acceptance (owe p s) 0x0100 (chkConfigBegin p (owe p s)) p = some (stBUSY, d) := hchk ▸ acceptance_of_busy d hacc
  exact packetOut_refused (body := fun _ t => bodyConfigBegin p t) hpow hheld hwait rfl hr

/-- In READY a loaded context stands against CONFIG_BEGIN. -/
theorem beginBusy_of_loaded {s : State} (hb : s.test.bist = none) (hst : s.dev.st = .ready) (hc : s.ctxs ≠ []) :
    beginBusy s = some (some 0x0E45) := by
  simp [beginBusy, anyLoaded, hb, hst, hc]

/-- In READY with no context loaded the membership of a group stands against CONFIG_BEGIN. -/
theorem beginBusy_of_grouped {s : State} (hb : s.test.bist = none) (hst : s.dev.st = .ready) (hc : s.ctxs = []) (hg : inGroup s = true) :
    beginBusy s = some (some 0x0E46) := by
  simp [beginBusy, anyLoaded, hb, hst, hc, hg]

/-! ### CONFIG_WRITE and CONFIG_COMMIT -/

/-- Staged bytes stand at their offsets and every other offset keeps what it had. -/
theorem tget_stageBytes (t : Table Byte) (k : Nat) (l : List Byte) (i : Nat) :
    tget (stageBytes t k l) i = if k ≤ i ∧ i < k + l.length then l[i - k]? else tget t i := by
  induction l generalizing t k with
  | nil =>
    have hout : ¬(k ≤ i ∧ i < k + ([] : List Byte).length) := by simp
    rw [if_neg hout, stageBytes]
  | cons b r ih =>
    rw [stageBytes, ih, tget_tset, List.length_cons]
    obtain hlt | rfl | hgt := Nat.lt_trichotomy i k
    · rw [if_neg (by omega), if_neg (by omega), if_neg (by omega)]
    · rw [if_neg (by omega), if_pos rfl, if_pos (by omega), Nat.sub_self, List.getElem?_cons_zero]
    · obtain ⟨j, rfl⟩ := Nat.exists_eq_add_of_lt hgt
      rw [if_neg (by omega : ¬ k + j + 1 = k)]
      have hsub : k + j + 1 - k = (k + j + 1 - (k + 1)) + 1 := by omega
      rw [hsub, List.getElem?_cons_succ]
      exact if_congr (by omega) rfl rfl

theorem bodyConfigWrite_inRange {p : Packet} {s : State} {g : Staging} (hg : s.conf.staging = some g)
    (hr : pf p 0 4 + ((p.params.take p.paramLen).drop 4).length ≤ g.length) :
    bodyConfigWrite p s = completeOk p 0x0101 { s with conf := { s.conf with
      staging := some { g with bytes := stageBytes g.bytes (pf p 0 4) ((p.params.take p.paramLen).drop 4) } } } := by
  simp only [bodyConfigWrite, hg, if_neg (Nat.not_lt.mpr hr)]

theorem bodyConfigWrite_outOfRange {p : Packet} {s : State} {g : Staging} (hg : s.conf.staging = some g)
    (hr : g.length < pf p 0 4 + ((p.params.take p.paramLen).drop 4).length) :
    bodyConfigWrite p s = completeWith p 0x0101 stBADPARAM 0x0E42 s := by
  simp only [bodyConfigWrite, hg, gt_iff_lt, if_pos hr]

theorem bodyConfigWrite_noBuffer {p : Packet} {s : State} (hg : s.conf.staging = none) :
    bodyConfigWrite p s = completeWith p 0x0101 stBADPARAM 0x0E43 s := by
  simp only [bodyConfigWrite, hg]

/-- An accepted CONFIG_WRITE runs its effect at once: it has no result slot and waits for no Fix stop. -/
theorem exec_configWrite_accepted {p : Packet} {s : State} (h : Accepted 0x0101 (chkConfigWrite p (owe p s)) p s) :
    exec (.configWrite p) s = .next (bodyConfigWrite p (owe p s)) :=
  packetOut_plain (body := fun _ t => bodyConfigWrite p t) h rfl rfl

/-- An accepted CONFIG_COMMIT takes a slot for its payload of 16 bytes and runs its effect. -/
theorem exec_configCommit_accepted {p : Packet} {s : State} (h : Accepted 0x0102 (chkConfigCommit p (owe p s)) p s) :
    exec (.configCommit p) s = .next (withSlot p 16 (owe p s) (bodyConfigCommit p)) :=
  packetOut_slot (accept := acceptConfigCommit) h rfl rfl

theorem bodyConfigCommit_noBuffer {p : Packet} {s : State} (idx : Nat) (hg : s.conf.staging = none) :
    bodyConfigCommit p idx s = refuse8 p 0x0102 stBADPARAM (some 0x0E43) idx s := by
  simp only [bodyConfigCommit, hg]

/-! ### CONFIG_READ -/

theorem bodyConfigRead_of_recorded {p : Packet} {s : State} {img : List Byte} (idx : Nat) (hi : s.conf.recorded = some img) :
    bodyConfigRead p idx s = finishSlot p 0x0104 idx 0 img s := by
  simp only [bodyConfigRead, hi]

theorem bodyConfigRead_of_not_recorded {p : Packet} {s : State} (idx : Nat) (hi : s.conf.recorded = none) :
    bodyConfigRead p idx s = refuse8 p 0x0104 stBADPARAM (some 0x0E44) idx s := by
  simp only [bodyConfigRead, hi]

/-- An accepted CONFIG_READ takes a slot for the largest image and runs its effect. -/
theorem exec_configRead_accepted {p : Packet} {s : State} (h : Accepted 0x0104 (chkConfigRead p) p s) :
    exec (.configRead p) s = .next (withSlot p 1048576 (owe p s) (bodyConfigRead p)) :=
  packetOut_slot (accept := acceptConfigRead) h rfl rfl

end Sys2Proof.Machine

namespace Sys2Proof
open Sys2Proof.Machine

/-- Settles O11: an accepted CONFIG_BEGIN by the two cases of its effect, one that only a loaded context or a group stands against by check 7, and
the recorded image by every outcome of the row. -/
theorem configBegin : Obligations.ConfigBegin := by
  unfold Obligations.ConfigBegin Claims.configBegin Claims.configBeginRefused
  refine ⟨?_, ?_, ?_, ?_, fun p s t h => execConfigBegin_recorded h⟩
  · intro p s hacc hn
    rw [exec_configBegin_accepted hacc, bodyConfigBegin_opens hn]
    simp only [owe_dev, owe_conf]
  · intro p s hacc hn
    have hn' : within 32 (pf p 0 4) 1048576 = false := by
      simp only [within, Bool.and_eq_false_iff, decide_eq_false_iff_not]
      omega
    rw [exec_configBegin_accepted hacc, bodyConfigBegin_badLength hn', stBADPARAM]
  · intro p s hacc hb hst hc
    exact exec_configBegin_busy hacc (beginBusy_of_loaded (by simpa using hb) (by simpa using hst) (by simpa using hc))
  · intro p s hacc hb hst hc hg
    exact exec_configBegin_busy hacc
      (beginBusy_of_grouped (by simpa using hb) (by simpa using hst) (by simpa using hc) (by simpa using hg))

/-- Settles O12: an accepted CONFIG_WRITE by the three cases of its effect, the staged bytes by induction on the bytes of the write, and
CONFIG_COMMIT by the case of its effect without a buffer. -/
theorem configWrite : Obligations.ConfigWrite := by
  unfold Obligations.ConfigWrite Claims.configWrite Claims.laterWritePrevails Claims.commitNoBuffer
  refine ⟨?_, tget_stageBytes, ?_⟩
  · intro p s hacc
    rw [exec_configWrite_accepted hacc]
    refine ⟨fun g hg hr => ?_, fun g hg hr => ?_, fun hg => ?_⟩
    · rw [bodyConfigWrite_inRange (by simpa using hg) hr, owe_conf]
    · rw [bodyConfigWrite_outOfRange (by simpa using hg) hr]
    · rw [bodyConfigWrite_noBuffer (by simpa using hg)]
  · intro p s hacc hg
    rw [exec_configCommit_accepted hacc]
    refine congrArg Host.Outcome.next (withSlot_congr_of_conf fun idx t ht => ?_)
    exact bodyConfigCommit_noBuffer idx (by simpa [ht] using hg)

/-- Settles O13: an accepted CONFIG_READ by the two cases of its effect, which sees the recorded image through the taking of its slot. -/
theorem configRead : Obligations.ConfigRead := by
  unfold Obligations.ConfigRead Claims.configRead Claims.configReadRefused
  constructor
  · intro p s img hacc hi
    rw [exec_configRead_accepted hacc]
    refine congrArg Host.Outcome.next (withSlot_congr_of_conf fun idx t ht => ?_)
    exact bodyConfigRead_of_recorded idx (by simpa [ht] using hi)
  · intro p s hacc hi
    rw [exec_configRead_accepted hacc]
    refine congrArg Host.Outcome.next (withSlot_congr_of_conf fun idx t ht => ?_)
    exact bodyConfigRead_of_not_recorded idx (by simpa [ht] using hi)

end Sys2Proof
end

section
/-! SUPPORT. What a row of an internal event or of a packet answers. -/
namespace Sys2Proof.Machine

/-- A gated row answers its next state where its condition holds. -/
theorem gate_of_true {c : Bool} (why : String) (t : State) (h : c = true) : gate c why t = .next t := if_pos h

end Sys2Proof.Machine
end

section
/-! SUPPORT. A Fix stop that a stack loss aborts starts what was accepted in FIXING (R236, R248), which may write armoured memory: the state and
the command that refute the survival of every armoured byte over the loss. -/
namespace Sys2Proof.Machine

/-- SCALE_SET of tensor 5, one element with INIT_SCALE 1 and its block table at VA 0x1000, accepted in FIXING. -/
def fixingScaleSet : Packet :=
  { src := .host 1, ctx := 0, hostTag := 7, paramLen := 72, epoch := 1
    params := leBytes 8 0 ++ leBytes 4 5 ++ zeros 2 ++ leBytes 2 1 ++ [0, 1, 1, 64, 0] ++ zeros 19 ++ leBytes 4 1 ++ leBytes 4 1 ++
      leBytes 8 0x1000 ++ leBytes 8 0x2000 ++ leBytes 8 0x3000 }

/-- Page tables in the plain view of quadrant 1 that map the first GiB of a context to the armoured view of quadrant 0, writable (R194, R195). -/
def armourTables : Mem :=
  Memory.setN (Memory.setN [] (hbmKey 6 0) (leBytes 8 (2 ^ 40 + 0x1001))) (hbmKey 7 0) (leBytes 8 (2 ^ 39 + 0x13))

/-- A module in the copy stage of a Fix stop, quadrant 0 INTACT with 5 GiB of armour, that has accepted the SCALE_SET (R248). -/
def stopWithStart : State := { State.reset with
  dev := { st := .fixing, level := 3, jobRunning := true, starts := [(0x0120, fixingScaleSet)] }
  chart := { epoch := 1 }
  conf := { sections := [(3, [1, 0, 0, 0] ++ zeros 60)] }
  mem := { hbm := armourTables, armour := [{ st := 1 }, {}, {}, {}] }
  ctxs := [(0, { params := zeros 24, root := some (2 ^ 40) })]
  fix := { stage := .copying } }


/-- The byte of quadrant 0 that lies where the SCALE_SET writes: VA 0x1000 is byte 0 of granule 1 of stripe 0, and reads 0 before the loss. -/
theorem armourByte_stopWithStart : armourByte stopWithStart 0 0 1 0 = some 0 := by decide +kernel

/-- The loss of stack 0 aborts the stop, the SCALE_SET starts, and its block table stands in the armoured view. -/
theorem armourByte_loseStack_stopWithStart : armourByte (loseStack 0 stopWithStart) 0 0 1 0 = some 1 := by decide +kernel

theorem exec_stackLoss_stopWithStart : exec (.stackLoss 0) stopWithStart = .next (loseStack 0 stopWithStart) := by
  have hgate : (decide (0 < 24) && decide (0 ∉ stopWithStart.mem.lost) && unitState stopWithStart (uStack 0) == .healthy &&
      stopWithStart.dev.st != .off) = true := by decide +kernel
  exact gate_of_true "the stack is not in service" _ hgate

theorem plainGib_stopWithStart : plainGib stopWithStart 0 = 42 := by decide +kernel

theorem poolStripes_stopWithStart : poolStripes stopWithStart 0 = 1310720 := by decide +kernel

/-- Nothing is listed below the first stack of quadrant 1, so the whole pool of quadrant 0 reads 0. -/
theorem get_pool_stopWithStart {stripe j b : Nat} (hs : stripe < poolStripes stopWithStart 0) (hj : j < 6) (hb : b < 4096) :
    Memory.get stopWithStart.mem.hbm (poolKey stopWithStart 0 stripe j b) = 0 := by
  have hwf : Memory.wfFrom (some (hbmKey 6 0 - 1)) stopWithStart.mem.hbm = true := by decide +kernel
  rw [poolStripes_stopWithStart] at hs
  refine Memory.get_below hwf ?_
  simp only [poolKey, hbmKey, gib, plainGib_stopWithStart]
  omega

theorem parityHolds_stopWithStart : Claims.ParityHolds stopWithStart 0 := by
  intro stripe b hs hb
  have hz : ∀ (x : Byte), ∀ j ∈ List.range 6, x ^^^ Memory.get stopWithStart.mem.hbm (poolKey stopWithStart 0 stripe j b) = x := by
    intro x j hj
    rw [get_pool_stopWithStart hs (List.mem_range.mp hj) hb]
    exact BitVec.xor_zero
  exact (List.foldl_ext _ (fun x _ => x) 0 hz).trans (List.foldl_fixed _)

end Sys2Proof.Machine

namespace Sys2Proof
open Sys2Proof.Machine

/-- Refutes O59: the loss of stack 0 during a Fix stop aborts the stop, a SCALE_SET accepted in FIXING starts, and its block table overwrites an
armoured byte of the quadrant; the hypotheses do not exclude commands that wait for the end of a stop (R236, R248). -/
theorem not_armourSurvives : ¬ Obligations.ArmourSurvives := by
  unfold Obligations.ArmourSurvives Claims.armourSurvives
  intro h
  obtain ⟨t, hexec, -, -, hsame⟩ := h stopWithStart 0 0 (by decide) (by decide) (by decide +kernel) (by decide +kernel) rfl rfl
    parityHolds_stopWithStart (fun _ _ _ _ _ _ => List.not_mem_nil) List.not_mem_nil (by decide +kernel) (by decide)
  obtain rfl : loseStack 0 stopWithStart = t := Host.Outcome.next.inj (exec_stackLoss_stopWithStart.symm.trans hexec)
  have hbyte := hsame 0 1 0 (by rw [poolStripes_stopWithStart]; decide) (by decide) (by decide)
  rw [armourByte_stopWithStart, armourByte_loseStack_stopWithStart] at hbyte
  exact absurd hbyte (by decide)

end Sys2Proof
end

section
/-! SUPPORT. Where the bytes of the plain view and of a quadrant's pool lie (R190, R191, R207), and what a write to either view leaves in the stacks:
what reads back, and that an INTACT quadrant keeps its parity (R205, R208). -/
namespace Sys2Proof.Machine

/-! ### Places of the plain view -/

/-- A byte of the plain view lies in its quadrant, on the stack and at the offset that the interleaving gives (R191). -/
theorem locate_eq_plain {s : State} {d st off : Nat} (h : locate s d = .plain st off) :
    d / 2 ^ 40 < 4 ∧ d / 2 ^ 39 % 2 = 0 ∧ d % 2 ^ 39 < 6 * plainGib s (d / 2 ^ 40) * gib ∧
    st = 6 * (d / 2 ^ 40) + d % 2 ^ 39 / 4096 % 6 ∧ off = d % 2 ^ 39 / 24576 * 4096 + d % 2 ^ 39 % 4096 := by
  unfold locate at h
  simp only at h
  split at h
  · cases h
  next hq =>
    split at h
    · split at h <;> cases h
    next hview =>
      split at h
      next ho =>
        injection h with hst hoff
        have hbit : d / 2 ^ 39 % 2 = 0 := by
          simp only [bitAt, beq_iff_eq] at hview
          omega
        exact ⟨by omega, hbit, ho, hst.symm, hoff.symm⟩
      · cases h

/-- The plain part of a stack is at most the whole stack. -/
theorem plainGib_mul_le (s : State) (q : Nat) : plainGib s q * gib ≤ 48 * gib :=
  Nat.mul_le_mul_right gib (by unfold plainGib; omega)

/-- A byte of the plain view lies on a stack of the package, inside the stack's plain part. -/
theorem locate_plain_bounds {s : State} {d st off : Nat} (h : locate s d = .plain st off) :
    st < 24 ∧ st / 6 = d / 2 ^ 40 ∧ off < plainGib s (d / 2 ^ 40) * gib := by
  obtain ⟨hq, -, ho, rfl, rfl⟩ := locate_eq_plain h
  unfold gib at ho ⊢
  omega

/-- The key of a stack's byte names the stack and the offset. -/
theorem hbmKey_inj {st st' off off' : Nat} (h : hbmKey st off = hbmKey st' off') (ho : off < 48 * gib) (ho' : off' < 48 * gib) :
    st = st' ∧ off = off' := by
  unfold hbmKey gib at *
  omega

/-- Two bytes of the plain view in one place are one byte. -/
theorem locate_plain_inj {s : State} {d d' st off st' off' : Nat} (h : locate s d = .plain st off) (h' : locate s d' = .plain st' off')
    (hk : hbmKey st off = hbmKey st' off') : d = d' := by
  obtain ⟨-, -, hoff⟩ := locate_plain_bounds h
  obtain ⟨-, -, hoff'⟩ := locate_plain_bounds h'
  obtain ⟨hst, hof⟩ := hbmKey_inj hk (Nat.lt_of_lt_of_le hoff (plainGib_mul_le s _)) (Nat.lt_of_lt_of_le hoff' (plainGib_mul_le s _))
  obtain ⟨hq, hb, -, rfl, rfl⟩ := locate_eq_plain h
  obtain ⟨hq', hb', -, rfl, rfl⟩ := locate_eq_plain h'
  omega

/-! ### Writes to the plain view -/

@[simp] theorem locate_rawSet (k : Nat) (v : Byte) (s : State) (d : Nat) : locate (rawSet k v s) d = locate s d := rfl
@[simp] theorem rawSet_lost (k : Nat) (v : Byte) (s : State) : (rawSet k v s).mem.lost = s.mem.lost := rfl
@[simp] theorem rawSet_poison (k : Nat) (v : Byte) (s : State) : (rawSet k v s).mem.poison = s.mem.poison := rfl
@[simp] theorem rawSet_hbm (k : Nat) (v : Byte) (s : State) : (rawSet k v s).mem.hbm = Memory.set s.mem.hbm k v := rfl
@[simp] theorem armourOf_rawSet (k : Nat) (v : Byte) (s : State) (q : Nat) : armourOf (rawSet k v s) q = armourOf s q := rfl
@[simp] theorem poolKey_rawSet (k : Nat) (v : Byte) (s : State) (q stripe j b : Nat) :
    poolKey (rawSet k v s) q stripe j b = poolKey s q stripe j b := rfl
@[simp] theorem poolStripes_rawSet (k : Nat) (v : Byte) (s : State) (q : Nat) : poolStripes (rawSet k v s) q = poolStripes s q := rfl

/-- A raw write reads back at its key and leaves every other key, poison apart. -/
theorem rawByte_rawSet {s : State} {k j : Nat} {v : Byte} (hwf : Memory.wf s.mem.hbm = true) :
    rawByte (rawSet k v s) j = if j / 64 ∈ s.mem.poison then none else some (if j = k then v else Memory.get s.mem.hbm j) := by
  simp only [rawByte, rawSet_poison, rawSet_hbm, Memory.get_set hwf]

/-- A write to the plain view on a stack in service is a raw write at the byte's place. -/
theorem devSet_plain {s : State} {d st off : Nat} {v : Byte} (h : locate s d = .plain st off) (hl : st ∉ s.mem.lost) :
    devSet d v s = rawSet (hbmKey st off) v s := by
  simp [devSet, h, hl]

/-- What the plain view reads at a place. -/
theorem devByte_plain {s : State} {d st off : Nat} (h : locate s d = .plain st off) :
    devByte s d = if st ∈ s.mem.lost then .error (.poison (blockDpa d)) else
      match rawByte s (hbmKey st off) with
      | some b => .ok b
      | none => .error (.poison (blockDpa d)) := by
  simp only [devByte, h] <;> rfl

/-- A byte written to the plain view reads back where its block is not poisoned. -/
theorem devByte_devSet_same {s : State} {d st off : Nat} {v : Byte} (hwf : Memory.wf s.mem.hbm = true) (h : locate s d = .plain st off)
    (hl : st ∉ s.mem.lost) (hp : hbmKey st off / 64 ∉ s.mem.poison) : devByte (devSet d v s) d = .ok v := by
  rw [devSet_plain h hl, devByte_plain ((locate_rawSet _ _ _ _).trans h), rawByte_rawSet hwf]
  simp [hl, hp]

/-- Every byte of the plain view in another place reads as before. -/
theorem devByte_devSet_other {s : State} {d d' st off st' off' : Nat} {v : Byte} (hwf : Memory.wf s.mem.hbm = true)
    (h : locate s d = .plain st off) (hl : st ∉ s.mem.lost) (h' : locate s d' = .plain st' off')
    (hk : hbmKey st' off' ≠ hbmKey st off) : devByte (devSet d v s) d' = devByte s d' := by
  rw [devSet_plain h hl, devByte_plain ((locate_rawSet _ _ _ _).trans h'), devByte_plain h', rawByte_rawSet hwf, if_neg hk, rawSet_lost]
  rfl

/-! ### Writes to the armoured view of an INTACT quadrant -/

/-- A byte of a quadrant's pool lies in its stack. -/
theorem poolOffset_lt {s : State} {q stripe b : Nat} (hA : 5 * secField s 3 q 1 0 ≤ 40) (hs : stripe < poolStripes s q) (hb : b < 4096) :
    plainGib s q * gib + stripe * 4096 + b < 48 * gib := by
  unfold poolStripes at hs
  unfold plainGib
  unfold armourGib at *
  unfold gib at *
  omega

/-- Bytes of a quadrant's pool in one place are one byte of one granule. -/
theorem poolKey_inj {s : State} {q stripe stripe' j j' b b' : Nat} (hA : 5 * secField s 3 q 1 0 ≤ 40) (hs : stripe < poolStripes s q)
    (hs' : stripe' < poolStripes s q) (hb : b < 4096) (hb' : b' < 4096) (h : poolKey s q stripe j b = poolKey s q stripe' j' b') :
    stripe = stripe' ∧ j = j' ∧ b = b' := by
  obtain ⟨hst, hoff⟩ := hbmKey_inj h (poolOffset_lt hA hs hb) (poolOffset_lt hA hs' hb')
  omega

/-- A granule's data and its stripe's parity stand on different quadrant stacks. -/
theorem dataJ_ne_parityJ (stripe g : Nat) : dataJ stripe g ≠ parityJ stripe := by
  unfold dataJ
  split <;> omega

theorem parityJ_lt (stripe : Nat) : parityJ stripe < 6 := by
  unfold parityJ
  omega

theorem dataJ_lt {stripe g : Nat} (hg : g < 5) : dataJ stripe g < 6 := by
  unfold dataJ parityJ
  split <;> omega

/-- A write to an INTACT quadrant sets the data byte and brings the parity byte along (R208). -/
theorem armourSet_intact {s : State} {q stripe g b : Nat} {v : Byte} (h : (armourOf s q).st = 1) :
    armourSet q stripe g b v s = rawSet (poolKey s q stripe (parityJ stripe) b)
      (Memory.get s.mem.hbm (poolKey s q stripe (parityJ stripe) b) ^^^ Memory.get s.mem.hbm (poolKey s q stripe (dataJ stripe g) b) ^^^ v)
      (rawSet (poolKey s q stripe (dataJ stripe g) b) v s) := by
  simp [armourSet, h]

/-- What the pool holds after a write to an INTACT quadrant. -/
theorem get_armourSet_intact {s : State} {q stripe g b : Nat} {v : Byte} (hwf : Memory.wf s.mem.hbm = true) (h : (armourOf s q).st = 1) (k : Nat) :
    Memory.get (armourSet q stripe g b v s).mem.hbm k =
      if k = poolKey s q stripe (parityJ stripe) b then
        Memory.get s.mem.hbm (poolKey s q stripe (parityJ stripe) b) ^^^ Memory.get s.mem.hbm (poolKey s q stripe (dataJ stripe g) b) ^^^ v
      else if k = poolKey s q stripe (dataJ stripe g) b then v else Memory.get s.mem.hbm k := by
  rw [armourSet_intact h, rawSet_hbm, rawSet_hbm, Memory.get_set (Memory.wf_set hwf), Memory.get_set hwf]

/-- A start value of an exclusive-or comes out of the fold. -/
theorem foldl_xor_start (f : Nat → Byte) (x y : Byte) (l : List Nat) :
    l.foldl (fun a j => a ^^^ f j) (x ^^^ y) = l.foldl (fun a j => a ^^^ f j) x ^^^ y := by
  induction l generalizing x with
  | nil => rfl
  | cons j r ih =>
    rw [List.foldl_cons, List.foldl_cons, BitVec.xor_assoc, BitVec.xor_comm y, ← BitVec.xor_assoc, ih]

theorem xor_xor_cancel (x y z : Byte) : x ^^^ y ^^^ y ^^^ z = x ^^^ z := by
  rw [BitVec.xor_assoc x, BitVec.xor_self, BitVec.xor_zero]

/-- An exclusive-or in which one term changes takes up the difference of that term. -/
theorem foldl_xor_update {d : Nat} {l : List Nat} (f : Nat → Byte) (w x : Byte) (hnd : l.Nodup) (hd : d ∈ l) :
    l.foldl (fun a j => a ^^^ Function.update f d w j) x = l.foldl (fun a j => a ^^^ f j) x ^^^ f d ^^^ w := by
  induction l generalizing x with
  | nil => cases hd
  | cons j r ih =>
    obtain ⟨hj, hr⟩ := List.nodup_cons.mp hnd
    rw [List.foldl_cons, List.foldl_cons]
    by_cases hjd : j = d
    · subst hjd
      have hsame : r.foldl (fun a k => a ^^^ Function.update f j w k) (x ^^^ w) = r.foldl (fun a k => a ^^^ f k) (x ^^^ w) :=
        List.foldl_ext _ _ _ (fun a k hk => by rw [Function.update_of_ne (ne_of_mem_of_not_mem hk hj)])
      rw [Function.update_self, hsame, foldl_xor_start, foldl_xor_start, xor_xor_cancel]
    · rw [Function.update_of_ne hjd]
      exact ih _ hr ((List.mem_cons.mp hd).resolve_left (fun h => hjd h.symm))

/-- Setting one term and letting another take up the difference leaves an exclusive-or as it was (R207, R208). -/
theorem foldl_xor_parity {d p : Nat} {l : List Nat} (f : Nat → Byte) (v x : Byte) (hnd : l.Nodup) (hd : d ∈ l) (hp : p ∈ l) (hdp : d ≠ p) :
    l.foldl (fun a j => a ^^^ Function.update (Function.update f d v) p (f p ^^^ f d ^^^ v) j) x = l.foldl (fun a j => a ^^^ f j) x := by
  rw [foldl_xor_update _ _ _ hnd hp, foldl_xor_update _ _ _ hnd hd, Function.update_of_ne hdp.symm]
  generalize l.foldl (fun a j => a ^^^ f j) x = y
  ext i hi
  simp only [BitVec.getElem_xor]
  cases y[i] <;> cases (f d)[i] <;> cases v[i] <;> cases (f p)[i] <;> rfl

/-- A stripe of another number, or a byte of another place in it, keeps all its six granules under a write to an INTACT quadrant. -/
theorem stripeXor_armourSet_other {s : State} {q stripe g b : Nat} {v : Byte} (hwf : Memory.wf s.mem.hbm = true)
    (hA : 5 * secField s 3 q 1 0 ≤ 40) (h : (armourOf s q).st = 1) (hs : stripe < poolStripes s q) (hb : b < 4096) {stripe' b' : Nat}
    (hs' : stripe' < poolStripes s q) (hb' : b' < 4096) (hne : ¬(stripe' = stripe ∧ b' = b)) :
    Claims.stripeXor (armourSet q stripe g b v s) q stripe' b' = Claims.stripeXor s q stripe' b' := by
  have hkey : ∀ j i, poolKey s q stripe' j b' ≠ poolKey s q stripe i b := fun j i hk =>
    hne ((poolKey_inj hA hs' hs hb' hb hk).imp id And.right)
  refine List.foldl_ext _ _ _ (fun a j _ => ?_)
  rw [armourSet_intact h, poolKey_rawSet, poolKey_rawSet, ← armourSet_intact h, get_armourSet_intact hwf h, if_neg (hkey j _), if_neg (hkey j _)]

/-- The written byte's stripe keeps its exclusive-or: the parity byte takes up what the data byte changes. -/
theorem stripeXor_armourSet_same {s : State} {q stripe g b : Nat} {v : Byte} (hwf : Memory.wf s.mem.hbm = true)
    (hA : 5 * secField s 3 q 1 0 ≤ 40) (h : (armourOf s q).st = 1) (hs : stripe < poolStripes s q) (hg : g < 5) (hb : b < 4096) :
    Claims.stripeXor (armourSet q stripe g b v s) q stripe b = Claims.stripeXor s q stripe b := by
  have hinj : ∀ j i, poolKey s q stripe j b = poolKey s q stripe i b ↔ j = i := fun j i =>
    ⟨fun hk => (poolKey_inj hA hs hs hb hb hk).2.1, fun hj => hj ▸ rfl⟩
  refine Eq.trans (List.foldl_ext _ _ _ fun a j _ => ?_)
    (foldl_xor_parity (fun j => Memory.get s.mem.hbm (poolKey s q stripe j b)) v 0 List.nodup_range
      (List.mem_range.mpr (dataJ_lt hg)) (List.mem_range.mpr (parityJ_lt stripe)) (dataJ_ne_parityJ stripe g))
  rw [armourSet_intact h, poolKey_rawSet, poolKey_rawSet, ← armourSet_intact h, get_armourSet_intact hwf h]
  simp only [hinj, Function.update_apply]

/-- A write to an INTACT quadrant keeps its parity. -/
theorem parityHolds_armourSet {s : State} {q stripe g b : Nat} {v : Byte} (hwf : Memory.wf s.mem.hbm = true)
    (hA : 5 * secField s 3 q 1 0 ≤ 40) (h : (armourOf s q).st = 1) (hs : stripe < poolStripes s q) (hg : g < 5) (hb : b < 4096)
    (hp : Claims.ParityHolds s q) : Claims.ParityHolds (armourSet q stripe g b v s) q := by
  intro stripe' b' hs' hb'
  rw [armourSet_intact h, poolStripes_rawSet, poolStripes_rawSet] at hs'
  by_cases hsame : stripe' = stripe ∧ b' = b
  · obtain ⟨rfl, rfl⟩ := hsame
    rw [stripeXor_armourSet_same hwf hA h hs hg hb, hp _ _ hs hb]
  · rw [stripeXor_armourSet_other hwf hA h hs hb hs' hb' hsame, hp _ _ hs' hb']

/-- A read of an INTACT quadrant is a raw read of the data granule. -/
theorem armourByte_intact {s : State} {q : Nat} (h : (armourOf s q).st = 1) (stripe g b : Nat) :
    armourByte s q stripe g b = rawByte s (poolKey s q stripe (dataJ stripe g) b) := by
  simp [armourByte, h]

/-- A byte written to an INTACT quadrant reads back where its block is not poisoned. -/
theorem armourByte_armourSet {s : State} {q stripe g b : Nat} {v : Byte} (hwf : Memory.wf s.mem.hbm = true)
    (hA : 5 * secField s 3 q 1 0 ≤ 40) (h : (armourOf s q).st = 1) (hs : stripe < poolStripes s q) (hb : b < 4096)
    (hp : poolKey s q stripe (dataJ stripe g) b / 64 ∉ s.mem.poison) : armourByte (armourSet q stripe g b v s) q stripe g b = some v := by
  have hne : poolKey s q stripe (dataJ stripe g) b ≠ poolKey s q stripe (parityJ stripe) b := fun hk =>
    dataJ_ne_parityJ stripe g (poolKey_inj hA hs hs hb hb hk).2.1
  have hst : (armourOf (armourSet q stripe g b v s) q).st = 1 := by rw [armourSet_intact h, armourOf_rawSet, armourOf_rawSet, h]
  have hpois : (armourSet q stripe g b v s).mem.poison = s.mem.poison := by rw [armourSet_intact h, rawSet_poison, rawSet_poison]
  have hkey : poolKey (armourSet q stripe g b v s) q stripe (dataJ stripe g) b = poolKey s q stripe (dataJ stripe g) b := by
    rw [armourSet_intact h, poolKey_rawSet, poolKey_rawSet]
  rw [armourByte_intact hst, rawByte, hkey, hpois, if_neg hp, get_armourSet_intact hwf h, if_neg hne, if_pos rfl]

end Sys2Proof.Machine

namespace Sys2Proof
open Sys2Proof.Machine

/-- Settles O58: the place of a plain byte gives the byte back, and a write to either view is one or two raw writes at places of their own. -/
theorem plainAndArmourWrites : Obligations.PlainAndArmourWrites := by
  unfold Obligations.PlainAndArmourWrites Claims.plainPlaces Claims.plainWrite Claims.armourWrite
  refine ⟨?_, ?_, ?_⟩
  · intro s d d' _ st off st' off' h h'
    obtain ⟨hst, hq, hoff⟩ := locate_plain_bounds h
    exact ⟨hst, hq ▸ hoff, fun hk _ => locate_plain_inj h h' hk⟩
  · intro s d v st off hwf _ h hl hp
    exact ⟨devByte_devSet_same hwf h hl hp, fun d' st' off' h' hk => devByte_devSet_other hwf h hl h' hk⟩
  · intro s q stripe g b v hwf _ hA _ h hs hg hb hp
    exact ⟨parityHolds_armourSet hwf hA h hs hg hb hp, fun hpois => armourByte_armourSet hwf hA h hs hb hpois⟩

end Sys2Proof
end

section
/-! SUPPORT. The chart at reset: where the logical clusters stand and which identities a physical cluster carries (R14). -/
namespace Sys2Proof.Machine

theorem carrier_reset (l : Nat) : carrier State.reset l = 52 * (l / 50) + l % 50 := rfl

/-- The carriers of a die's logical clusters are the positions 0 to 49 of the die. -/
theorem carrier_reset_die (d : Nat) {i : Nat} (hi : i < 50) : carrier State.reset (50 * d + i) = 52 * d + i := by
  rw [carrier_reset]
  omega

/-- At reset a logical cluster is the one identity of its carrier. -/
theorem identities_carrier_reset (l : Nat) : identities State.reset (carrier State.reset l) = [l] := by
  have hp : carrier State.reset l = 52 * (l / 50) + l % 50 := carrier_reset l
  have hdie : carrier State.reset l / 52 = l / 50 := by omega
  have hat : ∀ i ∈ List.range 50, (carrier State.reset (50 * (l / 50) + i) == carrier State.reset l) = (i == l % 50) := by
    intro i hi
    rw [carrier_reset_die _ (List.mem_range.mp hi), hp, Bool.eq_iff_iff, beq_iff_eq, beq_iff_eq]
    omega
  have hone : (List.range 50).filter (fun i => i == l % 50) = [l % 50] := by
    rw [List.filter_beq, List.count_eq_one_of_mem List.nodup_range (List.mem_range.mpr (Nat.mod_lt l (by decide)))]
    rfl
  rw [identities, List.filter_map, hdie]
  simp only [Function.comp_def]
  rw [List.filter_congr hat, hone]
  simp only [List.map_cons, List.map_nil, Nat.div_add_mod]

theorem unitState_reset (u : Nat) : unitState State.reset u = unitDefault u := rfl

/-- A cluster's default state goes by its position on its die. -/
theorem unitDefault_cluster {p : Nat} (hp : p < 832) : unitDefault (uCluster p) = if p % 52 ≥ 50 then .spare else .healthy := by
  have hkind : uCluster p / 4096 = 1 := by unfold uCluster; omega
  have hpos : uCluster p % 4096 = p := by unfold uCluster; omega
  have hbb : uCluster p ≠ 0x8001 := by unfold uCluster; omega
  simp only [unitDefault, hkind, hpos, hbb, true_and, if_false]

end Sys2Proof.Machine

namespace Sys2Proof
open Sys2Proof.Machine

/-- Settles O1: each clause is the case of `step` that its queue of commands selects. -/
theorem stepRunsFront : Obligations.StepRunsFront := by
  unfold Obligations.StepRunsFront Claims.stepRunsFront Claims.stepRunsPushed Claims.stepIdles Claims.noWordSpells
  refine ⟨fun c r s hs => ?_, fun c s => rfl, fun s hs => ?_, fun nbits w => ⟨rfl, fun s => rfl⟩⟩
  · simp only [step, hs]
  · simp only [step, hs]

/-- Settles O2: the fields of the reset state, and the chart's defaults by die and position. -/
theorem resetState : Obligations.ResetState := by
  unfold Obligations.ResetState Claims.resetState Claims.resetMap Claims.resetUnits Claims.resetSound
  refine ⟨?_, fun l hl => ⟨carrier_reset l, ?_, ?_, identities_carrier_reset l⟩, fun p hp => ⟨?_, rfl, rfl⟩, ?_⟩
  · exact ⟨rfl, rfl, rfl, rfl, rfl, rfl, rfl, rfl, rfl, rfl, rfl, rfl, rfl, rfl, rfl, rfl⟩
  · rw [carrier_reset]
    omega
  · rw [carrier_reset]
    omega
  · rw [unitState_reset, unitDefault_cluster hp]
  · exact ⟨rfl, rfl, rfl, rfl, rfl, rfl, rfl, Nat.zero_le _⟩

end Sys2Proof
end

section
/-! SUPPORT. The commands of group 0x00xx once they are accepted: what queries complete with, what a read of a result slot leaves, and the creation
and deletion of queues, case by case (R239, R251, R257, R258). -/
namespace Sys2Proof.Machine

/-! ### Queries -/

theorem regValue_owe (p : Packet) (s : State) (off : Nat) : regValue (owe p s) off = regValue s off := by
  unfold owe
  split <;> rfl

theorem statusValue_owe (p : Packet) (s : State) : statusValue (owe p s) = statusValue s := by
  unfold owe
  split <;> rfl

/-- The low half of a 64-bit VALUE of which the spec states bits 31:0. -/
theorem value32_low (v : Nat) (s : State) : (value32 v s).1.toNat % 2 ^ 32 = v % 2 ^ 32 := by
  simp only [value32, freshValue, BitVec.toNat_ofNat]
  omega

/-- REG_READ completes with the register's value in the state that the read leaves (R7, R251). -/
theorem bodyRegRead_eq (p : Packet) (s : State) :
    bodyRegRead p s = complete p 0x0031 0 none (some (value32 (regValue s (pf p 0 4)) (readReg (pf p 0 4) s).2).1) 0xFFFF []
      (value32 (regValue s (pf p 0 4)) (readReg (pf p 0 4) s).2).2 := rfl

theorem readReg_regs (off : Nat) (s : State) :
    (readReg off s).2.regs = if off = 0x20 then { s.regs with queueErrCode := 0, queueErrQueue := 0 } else s.regs := by
  unfold readReg
  split <;> rfl

theorem readReg_mem (off : Nat) (s : State) : (readReg off s).2.mem = s.mem := by
  unfold readReg
  split <;> rfl

theorem readReg_dev (off : Nat) (s : State) : (readReg off s).2.dev = s.dev := by
  unfold readReg
  split <;> rfl

/-! ### Result slots -/

theorem slotNamed_owe (p : Packet) (s : State) (idx : Nat) (o : Owner) : slotNamed (owe p s) idx o = slotNamed s idx o := by
  simp only [slotNamed, owe_slots]

/-- The slot as a read of it leaves it, on the state that its data has reached (R257, R258). -/
def slotAfterRead (p : Packet) (idx : Nat) (sl : Slot) (s : State) : State :=
  if sl.autoRelease ∧ pf p 4 4 + pf p 8 4 = sl.payload.length then slotDrop idx s
  else { s with slots := { s.slots with s := tset s.slots.s (idx % 512) { sl with reads := satAdd 16 sl.reads 1 } } }

@[simp] theorem slotAfterRead_host (p : Packet) (idx : Nat) (sl : Slot) (s : State) : (slotAfterRead p idx sl s).host = s.host := by
  unfold slotAfterRead
  split <;> rfl
@[simp] theorem slotAfterRead_mem (p : Packet) (idx : Nat) (sl : Slot) (s : State) : (slotAfterRead p idx sl s).mem = s.mem := by
  unfold slotAfterRead
  split <;> rfl
@[simp] theorem slotAfterRead_ctxs (p : Packet) (idx : Nat) (sl : Slot) (s : State) : (slotAfterRead p idx sl s).ctxs = s.ctxs := by
  unfold slotAfterRead
  split <;> rfl

/-- A read slot stays with its count of reads raised, or goes with its last byte. -/
theorem slotAfterRead_slot (p : Packet) (idx : Nat) (sl : Slot) (s : State) :
    tget (slotAfterRead p idx sl s).slots.s (idx % 512) =
      if sl.autoRelease ∧ pf p 4 4 + pf p 8 4 = sl.payload.length then none else some { sl with reads := satAdd 16 sl.reads 1 } := by
  unfold slotAfterRead
  split
  · simp only [slotDrop, tget_tdel, if_true]
  · simp only [tget_tset_same]

/-- The VALUE of a RESULT_READ: STATUS, the count of earlier reads, the payload's length (R257). -/
def slotReadValue (sl : Slot) : BitVec 64 := BitVec.ofNat 64 (sl.status + sl.reads * 2 ^ 16 + sl.payload.length * 2 ^ 32)

/-- The bytes that a RESULT_READ asks for. -/
def readData (p : Packet) (sl : Slot) : List Byte := (sl.payload.drop (pf p 4 4)).take (pf p 8 4)

/-- A read by a host queue writes the data to DEST. -/
theorem readSlot_host {p : Packet} {q : Nat} (hsrc : p.src = .host q) (idx : Nat) (sl : Slot) (s : State) :
    readSlot p idx sl s = complete p 0x0010 0 (some sl.detail) (some (slotReadValue sl)) 0xFFFF []
      (slotAfterRead p idx sl (hostWrite (pf p 12 8) (readData p sl) s)) := by
  have hhost : isHost p.src = true := by rw [hsrc]; rfl
  simp only [readSlot, hhost, if_true]
  rfl

/-- A read over the fabric or MCTP carries the data in its reply. -/
theorem readSlot_reply {p : Packet} (hsrc : isHost p.src = false) (idx : Nat) (sl : Slot) (s : State) :
    readSlot p idx sl s = complete p 0x0010 0 (some sl.detail) (some (slotReadValue sl)) 0xFFFF (readData p sl) (slotAfterRead p idx sl s) := by
  simp only [readSlot, hsrc, Bool.false_eq_true, if_false]
  rfl

/-- RESULT_READ with a DEST that its source may have, by what its index names (R257). -/
theorem bodyResultRead_ready {p : Packet} {s : State} {sl : Slot} (hd : (!isHost p.src && pf p 12 8 != 0) = false)
    (hsl : slotNamed s (pf p 0 2) (ownerOf p.src) = some sl) (hr : sl.ready = true) (hlen : pf p 4 4 + pf p 8 4 ≤ sl.payload.length) :
    bodyResultRead p s = readSlot p (pf p 0 2) sl s := by
  simp [bodyResultRead, hd, hsl, hr, Nat.not_lt.mpr hlen]

theorem bodyResultRead_notReady {p : Packet} {s : State} {sl : Slot} (hd : (!isHost p.src && pf p 12 8 != 0) = false)
    (hsl : slotNamed s (pf p 0 2) (ownerOf p.src) = some sl) (hr : sl.ready = false) :
    bodyResultRead p s = completeOpen p 0x0010 stNOTREADY s := by
  simp [bodyResultRead, hd, hsl, hr]

theorem bodyResultRead_unnamed {p : Packet} {s : State} (hd : (!isHost p.src && pf p 12 8 != 0) = false)
    (hsl : slotNamed s (pf p 0 2) (ownerOf p.src) = none) : bodyResultRead p s = completeWith p 0x0010 stBADPARAM 0x0A07 s := by
  simp [bodyResultRead, hd, hsl]

/-- An accepted RESULT_READ runs its effect at once. -/
theorem exec_resultRead_accepted {p : Packet} {s : State} (h : Accepted 0x0010 (chkResultRead p) p s) :
    exec (.resultRead p) s = .next (bodyResultRead p (owe p s)) :=
  packetOut_plain (body := fun _ t => bodyResultRead p t) h rfl rfl

theorem bodyResultRelease_named {p : Packet} {s : State} {sl : Slot} (hsl : slotNamed s (pf p 0 2) (ownerOf p.src) = some sl) :
    bodyResultRelease p s = completeOk p 0x0011 (if sl.ready then slotDrop (pf p 0 2) s
      else { s with slots := { s.slots with s := tset s.slots.s (pf p 0 2 % 512) { sl with releaseLate := true } } }) := by
  simp only [bodyResultRelease, hsl]

/-! ### Queues -/

theorem ctxOf_owe (p : Packet) (s : State) (c : Nat) : ctxOf (owe p s) c = ctxOf s c := by
  simp only [ctxOf, owe_ctxs]

/-- A command owed by a packet changes a queue's count of completions owed, and which queues there are not at all. -/
theorem tget_queues_owe (p : Packet) (s : State) (k : Nat) :
    tget (owe p s).queues.q k = (tget s.queues.q k).map (fun x => if p.src = .host k then { x with owing := x.owing + 1 } else x) := by
  unfold owe
  split
  next q hq =>
    rw [tget_tmod, hq]
    by_cases hk : k = q
    · subst hk
      simp
    · have hne : q ≠ k := fun h => hk h.symm
      simp [hk, hne]
  next e he => simp [he]
  next r hr => simp [hr]

theorem lastTurn_owe (p : Packet) (s : State) : (owe p s).queues.lastTurn = s.queues.lastTurn := by
  unfold owe
  split <;> rfl

/-- An accepted QUEUE_CREATE runs its effect at once. -/
theorem exec_queueCreate_accepted {p : Packet} {s : State} (h : Accepted 0x0002 (chkQueueCreate p) p s) :
    exec (.queueCreate p) s = .next (bodyQueueCreate p (owe p s)) :=
  packetOut_plain (body := fun _ t => bodyQueueCreate p t) h rfl rfl

theorem bodyQueueCreate_creates {p : Packet} {s : State} (hc : (ctxOf s p.ctx).isSome = true) (hq : tget s.queues.q (pf p 0 2) = none)
    (hd : depthOk (pf p 4 4) = true) (hs : pf p 8 8 % 4096 = 0) (hb : pf p 16 8 % 4096 = 0) :
    bodyQueueCreate p s = completeOk p 0x0002 { s with queues := { s.queues with
      q := tset s.queues.q (pf p 0 2) { depth := pf p 4 4, sqBase := pf p 8 8, cqBase := pf p 16 8, irq := bitAt (pf p 2 1) 0 } } } := by
  have hc' : (ctxOf s p.ctx).isNone = false := by simpa using hc
  simp [bodyQueueCreate, hc', hq, hd, hs, hb]

theorem bodyQueueCreate_unloaded {p : Packet} {s : State} (hc : ctxOf s p.ctx = none) :
    bodyQueueCreate p s = completeWith p 0x0002 stBADPARAM 0x0A01 s := by
  simp [bodyQueueCreate, hc]

theorem bodyQueueCreate_exists {p : Packet} {s : State} (hc : (ctxOf s p.ctx).isSome = true) (hq : (tget s.queues.q (pf p 0 2)).isSome = true) :
    bodyQueueCreate p s = completeWith p 0x0002 stBADPARAM 0x0A02 s := by
  have hc' : (ctxOf s p.ctx).isNone = false := by simpa using hc
  simp [bodyQueueCreate, hc', hq]

theorem bodyQueueCreate_badLayout {p : Packet} {s : State} (hc : (ctxOf s p.ctx).isSome = true) (hq : tget s.queues.q (pf p 0 2) = none)
    (hbad : depthOk (pf p 4 4) = false ∨ pf p 8 8 % 4096 ≠ 0 ∨ pf p 16 8 % 4096 ≠ 0) :
    bodyQueueCreate p s = completeWith p 0x0002 stBADPARAM 0x0A04 s := by
  have hc' : (ctxOf s p.ctx).isNone = false := by simpa using hc
  have hcond : (!depthOk (pf p 4 4) || pf p 8 8 % 4096 != 0 || pf p 16 8 % 4096 != 0) = true := by
    simpa [or_assoc] using hbad
  simp only [bodyQueueCreate, hc', hq, Option.isSome_none, hcond, Bool.false_eq_true, if_false, if_true]

theorem bodyQueueDelete_idle {p : Packet} {s : State} {x : Queue} (hq : tget s.queues.q (pf p 0 2) = some x) (ho : x.owing = 0) :
    bodyQueueDelete p s = completeOk p 0x0003 { s with queues := { s.queues with q := tdel s.queues.q (pf p 0 2) } } := by
  simp [bodyQueueDelete, hq, ho]

end Sys2Proof.Machine

namespace Sys2Proof
open Sys2Proof.Machine

/-- Settles O5: each query is accepted and runs its effect, which sees the state as it was but for the completion owed. -/
theorem queries : Obligations.Queries := by
  unfold Obligations.Queries Claims.nop Claims.identify Claims.statusGet Claims.regRead Claims.chartGet Claims.skewLogGet
  refine ⟨fun p s h => ?_, fun p s h => ?_, fun p s h => ?_, fun p s h => ?_, fun p s h => ?_, fun p s h => ?_⟩
  · exact packetOut_plain (accept := acceptNop) (body := fun _ t => completeOk p 0x0000 t) h rfl rfl
  · exact packetOut_slot (accept := acceptIdentify) h rfl rfl
  · have hrun : exec (.statusGet p) s = _ := packetOut_plain (accept := acceptStatusGet)
      (body := fun _ t => complete p 0x0030 0 none (some (statusValue t)) 0xFFFF [] t) h rfl rfl
    rw [hrun, statusValue_owe]
    rfl
  · have hrun : exec (.regRead p) s = _ := packetOut_plain (accept := acceptRegRead) (body := fun _ t => bodyRegRead p t) h rfl rfl
    refine ⟨_, _, hrun.trans (congrArg Host.Outcome.next (bodyRegRead_eq p _)), ?_, ?_, ?_, ?_⟩
    · rw [value32_low, regValue_owe]
    · exact (readReg_regs _ _).trans (by rw [owe_regs])
    · exact (readReg_mem _ _).trans (owe_mem _ _)
    · exact (readReg_dev _ _).trans (owe_dev _ _)
  · exact packetOut_slot (accept := acceptChartGet) h rfl rfl
  · exact packetOut_slot (accept := acceptSkewLogGet) h rfl rfl

/-- Settles O6: an accepted RESULT_READ by what its index names, and the slot that a read or a release leaves. -/
theorem resultSlots : Obligations.ResultSlots := by
  unfold Obligations.ResultSlots Claims.resultReadHost Claims.resultReadReply Claims.resultReadRefused Claims.resultRelease
  refine ⟨fun p s q sl hsrc h hsl hr hlen => ?_, fun p s sl hsrc hdest h hsl hr hlen => ?_, fun p s hsrc h => ?_, fun p s sl h hsl => ?_⟩
  · have hd : (!isHost p.src && pf p 12 8 != 0) = false := by simp [hsrc, isHost]
    have hsl' : slotNamed (owe p s) (pf p 0 2) (ownerOf p.src) = some sl := by rw [slotNamed_owe, hsrc]; exact hsl
    rw [exec_resultRead_accepted h, bodyResultRead_ready hd hsl' hr hlen, readSlot_host hsrc]
    refine ⟨_, rfl, ?_, ?_, ?_, slotAfterRead_slot p _ sl _⟩
    · rw [slotAfterRead_host]
      simp only [hostWrite, owe_host, readData]
    · rw [slotAfterRead_mem, hostWrite_mem, owe_mem]
    · rw [slotAfterRead_ctxs, hostWrite_ctxs, owe_ctxs]
  · have hd : (!isHost p.src && pf p 12 8 != 0) = false := by simp [hdest]
    have hsl' : slotNamed (owe p s) (pf p 0 2) (ownerOf p.src) = some sl := by rw [slotNamed_owe]; exact hsl
    rw [exec_resultRead_accepted h, bodyResultRead_ready hd hsl' hr hlen, readSlot_reply hsrc]
    exact ⟨_, rfl, (slotAfterRead_host p _ sl _).trans (owe_host p s), (slotAfterRead_mem p _ sl _).trans (owe_mem p s)⟩
  · have hd : (!isHost p.src && pf p 12 8 != 0) = false := by simp [hsrc, isHost]
    have hnamed : slotNamed (owe p s) (pf p 0 2) (ownerOf p.src) = slotNamed s (pf p 0 2) .host := by rw [slotNamed_owe, hsrc]; rfl
    rw [exec_resultRead_accepted h]
    exact ⟨fun hsl => by rw [bodyResultRead_unnamed hd (hnamed.trans hsl)],
      fun sl hsl hr => by rw [bodyResultRead_notReady hd (hnamed.trans hsl) hr]⟩
  · have hrun : exec (.resultRelease p) s = _ := packetOut_plain (accept := acceptResultRelease)
      (body := fun _ t => bodyResultRelease p t) h rfl rfl
    rw [hrun, bodyResultRelease_named ((slotNamed_owe p s _ _).trans hsl), owe_slots]

/-- Settles O7: an accepted QUEUE_CREATE by its checks in the order of R239, and a QUEUE_DELETE of a queue that owes nothing. -/
theorem queueCommands : Obligations.QueueCommands := by
  unfold Obligations.QueueCommands Claims.queueCreate Claims.queueCreateRefused Claims.queueDelete
  have hnone : ∀ {p : Packet} {s : State} {k : Nat}, tget s.queues.q k = none → tget (owe p s).queues.q k = none := by
    intro p s k hk
    rw [tget_queues_owe, hk]
    rfl
  refine ⟨fun p s h _ hc hq hd hs hb => ?_, fun p s h _ => ?_, fun p s x h hsrc _ hq0 hq ho => ?_⟩
  · rw [exec_queueCreate_accepted h, bodyQueueCreate_creates ((ctxOf_owe p s _).symm ▸ hc) (hnone hq) hd hs hb]
    simp only [lastTurn_owe]
  · rw [exec_queueCreate_accepted h]
    refine ⟨fun hc => ?_, fun hc hq => ?_, fun hc hq hbad => ?_⟩
    · rw [bodyQueueCreate_unloaded ((ctxOf_owe p s _).trans hc)]
    · rw [bodyQueueCreate_exists ((ctxOf_owe p s _).symm ▸ hc) (by rw [tget_queues_owe, Option.isSome_map]; exact hq)]
    · rw [bodyQueueCreate_badLayout ((ctxOf_owe p s _).symm ▸ hc) (hnone hq) hbad]
  · have hrun : exec (.queueDelete p) s = _ := packetOut_plain (accept := acceptQueueDelete)
      (body := fun _ t => bodyQueueDelete p t) h rfl rfl
    have hq' : tget (owe p s).queues.q (pf p 0 2) = some x := by
      have hne : p.src ≠ .host (pf p 0 2) := by
        rw [hsrc]
        exact fun he => hq0 (Source.host.inj he).symm
      rw [tget_queues_owe, hq, Option.map_some, if_neg hne]
    rw [hrun, bodyQueueDelete_idle hq' ho]
    simp only [lastTurn_owe]

end Sys2Proof
end

section
/-! SUPPORT. Doorbells, fetching, the posting of completions, the writable registers and the CXL window, case by case (R220, R239 to R243, R265,
R358). -/
namespace Sys2Proof.Machine

/-! ### Doorbells -/

theorem doorbellSq_inRange {q v : Nat} {s : State} {x : Queue} (hx : tget s.queues.q q = some x) (hs : x.stopped = false) (hv : v < x.depth)
    (hm : (x.sqTail + x.depth - x.head) % x.depth ≤ (v + x.depth - x.head) % x.depth) :
    doorbellSq q v s = queueMod q (fun y => { y with sqTail := v }) s := by
  simp [doorbellSq, hx, hs, Nat.not_le.mpr hv, Nat.not_lt.mpr hm]

theorem doorbellSq_outOfRange {q v : Nat} {s : State} {x : Queue} (hx : tget s.queues.q q = some x) (hs : x.stopped = false) (hv : x.depth ≤ v) :
    doorbellSq q v s = queueError q 1 s := by
  simp [doorbellSq, hx, hs, hv]

theorem doorbellSq_stopped {q v : Nat} {s : State} {x : Queue} (hx : tget s.queues.q q = some x) (hs : x.stopped = true) :
    doorbellSq q v s = s := by
  simp [doorbellSq, hx, hs]

theorem doorbellCq_inRange {q v : Nat} {s : State} {x : Queue} (hx : tget s.queues.q q = some x) (hv : v < x.depth)
    (hn : (v + x.depth - x.cqHead) % x.depth ≤ x.cqUsed) :
    doorbellCq q v s = queueMod q (fun y => { y with cqHead := v, cqUsed := y.cqUsed - (v + x.depth - x.cqHead) % x.depth }) s := by
  have hcond : ¬(v ≥ x.depth ∨ (v + x.depth - x.cqHead) % x.depth > x.cqUsed) := by omega
  simp only [doorbellCq, hx, if_neg hcond]

theorem exec_sqTail {q : Nat} (v : Word) (s : State) (hq : q ≤ 64) : exec (.sqTail q v) s = .next (doorbellSq q v.toNat s) :=
  gate_of_true _ _ (decide_eq_true hq)

theorem exec_cqHead {q : Nat} (v : Word) (s : State) (hq : q ≤ 64) : exec (.cqHead q v) s = .next (doorbellCq q v.toNat s) :=
  gate_of_true _ _ (decide_eq_true hq)

/-! ### Fetching and posting -/

theorem execSqFetch_slot {q : Nat} {s : State} {x : Queue} (hx : tget s.queues.q q = some x) (hh : x.held = []) (hf : fetches s = true)
    (hq : fetchable (q, x) = true) (ht : turnOf s = some q) : execSqFetch q s = .next (fetchSlot q x s) := by
  simp [execSqFetch, hx, releasable, hh, gate, hf, hq, ht]

theorem execSqFetch_held {q op : Nat} {s : State} {x : Queue} {p : Packet} (hx : tget s.queues.q q = some x)
    (hr : releasable s x = some (op, p)) (hd : s.dev.st ≠ .off) (ht : s.dev.takeover = false) :
    execSqFetch q s = .next (acceptOp op p (queueMod q (fun y => { y with held := y.held.drop 1 }) s)) := by
  simp [execSqFetch, hx, hr, gate, hd, ht]

/-- A queue whose first completion stands in host memory and which has moved on (R242). -/
def entryStored (q : Nat) (x : Queue) (c : Completion) (s : State) : State :=
  queueMod q (fun _ => afterPost x c) (hostWrite (x.cqBase + 32 * x.cqTail) (entryBytes q x s.chart.epoch c) s)

/-- An entry posted, before a stopped admin queue goes: it is stored, and the MSI-X entry is sent where the queue has IRQ 1 (R242, R243). -/
def entryPosted (q : Nat) (x : Queue) (c : Completion) (s : State) : State :=
  if x.irq then sendMsix q (entryStored q x c s) else entryStored q x c s

theorem postEntry_eq (q : Nat) (x : Queue) (c : Completion) (s : State) : postEntry q x c s = endAdminStop (entryPosted q x c s) := rfl

theorem execCompletionPost_live {q : Nat} {s : State} {x : Queue} {c : Completion} {r : List Completion} (hx : tget s.queues.q q = some x)
    (hr : x.ready = c :: r) (hq : q < 1000) (hu : x.cqUsed < x.depth) (hl : s.host.linkUp = true) (hp : s.host.perst = false)
    (ht : s.dev.takeover = false) : execCompletionPost q s = .next (endAdminStop (entryPosted q x c s)) := by
  simp [execCompletionPost, hx, hr, Nat.not_le.mpr hq, gate, hu, hl, hp, ht, postEntry_eq]

theorem sendMsix_msix (n : Nat) (s : State) :
    (sendMsix n s).host.msix = s.host.msix ++ (if n ∈ s.host.msixMasked then [] else [n]) := by
  unfold sendMsix
  split <;> simp

@[simp] theorem sendMsix_hostMem (n : Nat) (s : State) : (sendMsix n s).host.mem = s.host.mem := by
  unfold sendMsix
  split <;> rfl

theorem mem_msixPending_sendMsix {n : Nat} {s : State} (h : n ∈ s.host.msixMasked) : n ∈ (sendMsix n s).host.msixPending := by
  unfold sendMsix
  rw [if_pos h]
  dsimp only
  split
  · assumption
  · exact List.mem_append_right _ (List.mem_singleton.mpr rfl)

theorem entryStored_msixMasked (q : Nat) (x : Queue) (c : Completion) (s : State) :
    (entryStored q x c s).host.msixMasked = s.host.msixMasked := by
  simp only [entryStored, queueMod, hostWrite]

theorem entryPosted_hostMem (q : Nat) (x : Queue) (c : Completion) (s : State) :
    (entryPosted q x c s).host.mem = Memory.setN s.host.mem (x.cqBase + 32 * x.cqTail) (entryBytes q x s.chart.epoch c) := by
  unfold entryPosted
  split
  · simp only [sendMsix_hostMem, entryStored, queueMod, hostWrite]
  · simp only [entryStored, queueMod, hostWrite]

theorem entryPosted_msix (q : Nat) (x : Queue) (c : Completion) (s : State) :
    (entryPosted q x c s).host.msix = s.host.msix ++ (if x.irq ∧ q ∉ s.host.msixMasked then [q] else []) := by
  unfold entryPosted
  split
  next hi =>
    rw [sendMsix_msix]
    by_cases hm : q ∈ s.host.msixMasked <;> simp [entryStored, queueMod, hostWrite, hi, hm]
  next hi => simp [entryStored, queueMod, hostWrite, hi]

theorem mem_msixPending_entryPosted {q : Nat} {x : Queue} (c : Completion) {s : State} (hi : x.irq = true) (hm : q ∈ s.host.msixMasked) :
    q ∈ (entryPosted q x c s).host.msixPending := by
  rw [entryPosted, if_pos hi]
  refine mem_msixPending_sendMsix ?_
  rw [entryStored_msixMasked]
  exact hm

/-- Posting an entry touches the host's side and the queue alone. -/
theorem entryPosted_queues (q : Nat) (x : Queue) (c : Completion) (s : State) :
    (entryPosted q x c s).queues.q = tmod s.queues.q q (fun _ => afterPost x c) := by
  unfold entryPosted
  split <;> simp [entryStored, queueMod]

theorem entryPosted_mem (q : Nat) (x : Queue) (c : Completion) (s : State) :
    (entryPosted q x c s).mem = s.mem := by
  unfold entryPosted
  split <;> simp [entryStored, queueMod]

theorem entryPosted_ctxs (q : Nat) (x : Queue) (c : Completion) (s : State) :
    (entryPosted q x c s).ctxs = s.ctxs := by
  unfold entryPosted
  split <;> simp [entryStored, queueMod]

theorem entryPosted_dev (q : Nat) (x : Queue) (c : Completion) (s : State) :
    (entryPosted q x c s).dev = s.dev := by
  unfold entryPosted
  split <;> simp [entryStored, queueMod]

/-! ### The admin queue -/

/-- The state in which a write of ADMIN_CTRL with ENABLE 1 has set the register's fields (R239). -/
def adminFields (v : Nat) (s : State) : State :=
  { s with regs := { s.regs with adminIrq := bitAt v 16, adminDepthM1 := v % 65536, adminEnable := true } }

theorem bitAt_toNat (v : Word) (i : Nat) : bitAt v.toNat i = v.getLsbD i := by
  rw [bitAt, BitVec.getLsbD, Nat.testBit_eq_decide_div_mod_eq]
  rfl

theorem exec_adminEnable {v : Word} {s : State} (hv : v.getLsbD 31 = true) (he : s.regs.adminEnable = false) (hr : s.regs.adminReady = false) :
    exec (.adminEnable v) s = .next (startAdmin (adminFields v.toNat s)) := by
  have hbit : bitAt v.toNat 31 = true := (bitAt_toNat v 31).trans hv
  refine (gate_of_true _ _ hv).trans (congrArg Host.Outcome.next ?_)
  have hno : ¬ s.regs.adminReady = true := by simp [hr]
  rw [writeAdminCtrl, if_neg (by simp [he])]
  dsimp only
  rw [if_pos ⟨hbit, hno⟩, hbit, adminFields]

/-- Good registers start the admin queue. -/
theorem startAdmin_good {s : State} (hd : depthOk (adminQueue s).depth = true) (hs : (adminQueue s).sqBase % 4096 = 0)
    (hc : (adminQueue s).cqBase % 4096 = 0) :
    startAdmin s = { s with queues := { s.queues with q := tset s.queues.q 0 (adminQueue s) }, regs := { s.regs with adminReady := true } } := by
  simp [startAdmin, hd, hs, hc]

/-- Bad ones latch error 0x6 over the queue they would have started. -/
theorem startAdmin_bad {s : State} (h : depthOk (adminQueue s).depth = false ∨ (adminQueue s).sqBase % 4096 ≠ 0 ∨ (adminQueue s).cqBase % 4096 ≠ 0) :
    startAdmin s = queueError 0 6 { s with queues := { s.queues with q := tset s.queues.q 0 (adminQueue s) } } := by
  have hcond : (!depthOk (adminQueue s).depth || (adminQueue s).sqBase % 4096 != 0 || (adminQueue s).cqBase % 4096 != 0) = true := by
    simpa [or_assoc] using h
  simp only [startAdmin, hcond, if_true]

/-- A queue error stops its queue and leaves the others. -/
theorem tget_queues_queueError (q code : Nat) (s : State) (k : Nat) :
    tget (queueError q code s).queues.q k =
      if k = q then (tget s.queues.q q).map (fun x => { x with stopped := true }) else tget s.queues.q k := by
  simp only [queueError, raiseEvent_queues, tget_tmod]

theorem raiseEvent_regs (b : Nat) (s : State) :
    (raiseEvent b s).regs = { s.regs with eventCause := s.regs.eventCause ||| BitVec.ofNat 32 (2 ^ b) } := by
  unfold raiseEvent
  dsimp only
  split
  · rw [sendMsix_regs]
  · rfl

/-- A queue error sets EVENT_CAUSE.QUEUE_ERROR and latches code and queue when no error is latched (R241). -/
theorem queueError_regs (q code : Nat) (s : State) :
    (queueError q code s).regs = { (if s.regs.queueErrCode = 0 then { s.regs with queueErrCode := code, queueErrQueue := q } else s.regs) with
      eventCause := s.regs.eventCause ||| 1 } := by
  simp only [queueError, raiseEvent_regs]
  split <;> rfl

theorem exec_adminDisable {v : Word} {s : State} (hv : v.getLsbD 31 = false) (he : s.regs.adminEnable = true) :
    exec (.adminDisable v) s =
      .next (endAdminStop (queueMod 0 (fun x => { x with stopping := true }) { s with regs := { s.regs with adminEnable := false } })) := by
  have hbit : bitAt v.toNat 31 = false := (bitAt_toNat v 31).trans hv
  refine (gate_of_true _ _ (by rw [hv]; rfl)).trans (congrArg Host.Outcome.next ?_)
  simp only [writeAdminCtrl, he, hbit, Bool.false_eq_true, if_true, if_false]

/-- A stopped admin queue that owes nothing goes, and with ENABLE 0 none starts in its place (R239). -/
theorem endAdminStop_ends {s : State} {x : Queue} (hx : tget s.queues.q 0 = some x) (hs : x.stopping = true) (ho : x.owing = 0)
    (he : s.regs.adminEnable = false) :
    endAdminStop s = { s with regs := { s.regs with adminReady := false }, queues := { s.queues with q := tdel s.queues.q 0 } } := by
  simp [endAdminStop, hx, hs, ho, he]

/-- One that owes completions stays. -/
theorem endAdminStop_owing {s : State} {x : Queue} (hx : tget s.queues.q 0 = some x) (ho : 0 < x.owing) : endAdminStop s = s := by
  have hno : ¬(x.stopping = true ∧ x.owing = 0) := fun h => absurd h.2 (Nat.ne_of_gt ho)
  simp only [endAdminStop, hx, if_neg hno]

/-! ### Other registers -/

theorem exec_registerWrite (off : Nat) (v : Word) (s : State) : exec (.registerWrite off v) s = .next (writeReg off v s) := rfl

/-- A write outside the aligned offsets below 0x20000, or of a register that is only read, is ignored (R7, R265). -/
theorem writeReg_ignored {off : Nat} (v : Word) (s : State)
    (h : off % 4 ≠ 0 ∨ off ∈ [0x00, 0x04, 0x08, 0x0C, 0x10, 0x14, 0x20] ∨ 0x20000 ≤ off) : writeReg off v s = s := by
  obtain h | h | h := h
  · exact if_pos (.inl h)
  · simp only [List.mem_cons, List.not_mem_nil, or_false] at h
    obtain rfl | rfl | rfl | rfl | rfl | rfl | rfl := h <;> rfl
  · exact if_pos (.inr h)

theorem writeReg_sqBaseLow (v : Word) (s : State) : writeReg 0x30 v s = if s.regs.adminEnable then s else
    { s with regs := { s.regs with adminSqBase := setHalf s.regs.adminSqBase false v.toNat } } := rfl

theorem writeReg_cqBaseHigh (v : Word) (s : State) : writeReg 0x3C v s = if s.regs.adminEnable then s else
    { s with regs := { s.regs with adminCqBase := setHalf s.regs.adminCqBase true v.toNat } } := rfl

/-! ### PERST_N -/

/-- Above every doorbell lie the queues that PERST_N took away (R358). -/
theorem tget_orphanQueues {q : Nat} (hq : q < 1000) (t : Table Queue) : tget (orphanQueues t) q = none := by
  have hlist : ∀ l : Table Queue, (∀ e ∈ l, 1000 ≤ e.1) → tget l q = none := by
    intro l hl
    induction l with
    | nil => rfl
    | cons e r ih =>
      have hne : q ≠ e.1 := by
        have := hl e List.mem_cons_self
        omega
      rw [tget_cons, if_neg hne]
      exact ih (fun a ha => hl a (List.mem_cons_of_mem _ ha))
  refine hlist _ (fun e he => ?_)
  obtain ⟨d, -, rfl⟩ := List.mem_map.mp he
  exact Nat.le_add_left 1000 d.1

theorem perstReset_ctxs (s : State) : (perstReset s).ctxs = s.ctxs.map (fun e => (e.1, orphanCtx e.2)) := rfl

/-! ### The CXL window -/

theorem execCxlMemAccess_read {s : State} (off len : Nat) (data : List Byte) {ds : List Nat} (hl : s.host.linkUp = true)
    (hp : s.host.perst = false) (hw : windowOpen s = true) (hd : cxlDpas s off len = some ds) :
    execCxlMemAccess false off len data s = .next { s with host := { s.host with cxlData := readDpas s ds } } := by
  simp [execCxlMemAccess, hl, hp, hw, hd]

theorem execCxlMemAccess_write {s : State} (off len : Nat) {data : List Byte} {ds : List Nat} (hl : s.host.linkUp = true)
    (hp : s.host.perst = false) (hw : windowOpen s = true) (hd : cxlDpas s off data.length = some ds) (hr : runsWait s ds data = false) :
    execCxlMemAccess true off len data s = .next (writeDpas ds data s) := by
  simp [execCxlMemAccess, hl, hp, hw, hd, hr, gate]

theorem execCxlMemAccess_closed {s : State} (write : Bool) (off len : Nat) (data : List Byte) (hl : s.host.linkUp = true)
    (hp : s.host.perst = false) (hw : windowOpen s = false) :
    execCxlMemAccess write off len data s = .next (if write then s else { s with host := { s.host with cxlData := none } }) := by
  simp [execCxlMemAccess, hl, hp, hw]

end Sys2Proof.Machine

namespace Sys2Proof
open Sys2Proof.Machine

/-- Settles O8: each doorbell, fetch and post by the case of the queue that its hypotheses name. -/
theorem doorbellsAndFetch : Obligations.DoorbellsAndFetch := by
  unfold Obligations.DoorbellsAndFetch Claims.sqTail Claims.sqTailError Claims.cqHead Claims.sqFetch Claims.sqFetchHeld Claims.completionPost
  refine ⟨fun q v s x hq hx hs hv hm => ?_, fun q v s x hq hx hs hv => ?_, fun q v s x hq hx hv hn => ?_, fun q s x hx hh hf hq ht => ?_,
    fun q s x op p hx hr hd ht => execSqFetch_held hx hr hd ht, fun q s x c r hx hr hq hu hl hp ht => ?_⟩
  · rw [exec_sqTail v s hq, doorbellSq_inRange hx hs hv hm, queueMod]
  · rw [exec_sqTail v s hq, doorbellSq_outOfRange hx hs hv]
  · rw [exec_cqHead v s hq, doorbellCq_inRange hx hv hn, queueMod]
  · exact execSqFetch_slot hx hh hf hq ht
  · refine ⟨entryPosted q x c s, execCompletionPost_live hx hr hq hu hl hp ht, entryPosted_hostMem q x c s, entryPosted_msix q x c s,
      mem_msixPending_entryPosted c, ?_, entryPosted_mem q x c s, entryPosted_ctxs q x c s, entryPosted_dev q x c s⟩
    rw [entryPosted_queues, afterPost, hr, List.drop_one, List.tail_cons]

/-- Settles O9: each register's write by its case, the admin queue by whether its registers are good or it owes completions, PERST_N by what it
makes of the queues. -/
theorem registerWrites : Obligations.RegisterWrites := by
  unfold Obligations.RegisterWrites
  refine ⟨fun v s => rfl, fun v s => rfl, fun s => rfl, fun c v s hc => ?_, fun off v s h => ?_, fun v s => ⟨fun he => ⟨?_, ?_⟩, fun he => ⟨?_, ?_⟩⟩,
    fun v s hv he hr hd hs hc => ?_, fun v w s hv he hr hbad => ?_, fun v s x hv he hx => ?_, fun s => ?_, fun s => rfl, fun a s h => ?_⟩
  · exact gate_of_true _ _ (decide_eq_true hc)
  · rw [exec_registerWrite, writeReg_ignored v s h]
  · rw [exec_registerWrite, writeReg_sqBaseLow, if_pos he]
  · rw [exec_registerWrite, writeReg_cqBaseHigh, if_pos he]
  · rw [exec_registerWrite, writeReg_sqBaseLow, if_neg (by simp [he])]
    rfl
  · rw [exec_registerWrite, writeReg_cqBaseHigh, if_neg (by simp [he])]
    rfl
  · rw [exec_adminEnable hv he hr, startAdmin_good (s := adminFields v.toNat s) hd hs hc]
    rfl
  · have hstart := startAdmin_bad (s := adminFields v.toNat s) hbad
    have hq : tget (startAdmin (adminFields v.toNat s)).queues.q 0 = some { adminQueue (adminFields v.toNat s) with stopped := true } := by
      rw [hstart, tget_queues_queueError, if_pos rfl, tget_tset_same]
      rfl
    have hregs : (startAdmin (adminFields v.toNat s)).regs = _ := (congrArg State.regs hstart).trans (queueError_regs 0 6 _)
    refine ⟨_, exec_adminEnable hv he hr, ?_, ?_, ?_, ?_, fun hcode => ?_, ?_, ?_, ?_, ?_, fun q hq0 => ?_⟩
    · rw [hregs]
      split <;> exact hr
    · rw [hregs]
      split <;> rfl
    · rw [hregs]
      rfl
    · rw [hq]
      rfl
    · rw [hregs]
      split
      next => exact ⟨rfl, rfl⟩
      next hne => exact absurd hcode hne
    · rw [exec_sqTail w _ (Nat.zero_le 64), doorbellSq_stopped hq rfl]
    · rw [hstart, queueError_mem]
      rfl
    · rw [hstart, queueError_ctxs]
      rfl
    · rw [hstart, queueError_dev]
      rfl
    · rw [hstart, tget_queues_queueError, if_neg hq0, tget_tset_other _ _ hq0]
      rfl
  · have hx' : tget (queueMod 0 (fun y => { y with stopping := true }) { s with regs := { s.regs with adminEnable := false } }).queues.q 0 =
        some { x with stopping := true } := by
      rw [queueMod, tget_tmod, if_pos rfl, hx]
      rfl
    obtain ho | ho := Nat.eq_zero_or_pos x.owing
    · refine ⟨_, exec_adminDisable hv he, ?_, fun _ => ?_, fun hpos => absurd ho (Nat.ne_of_gt hpos)⟩
      · rw [endAdminStop_ends hx' rfl ho rfl]
        rfl
      · rw [endAdminStop_ends hx' rfl ho rfl]
        exact ⟨rfl, by rw [tget_tdel, if_pos rfl]⟩
    · refine ⟨_, exec_adminDisable hv he, ?_, fun hzero => absurd hzero (Nat.ne_of_gt ho), fun _ => ?_⟩
      · rw [endAdminStop_owing hx' ho]
        rfl
      · rw [endAdminStop_owing hx' ho]
        exact ⟨rfl, hx'⟩
  · refine ⟨perstReset s, rfl, rfl, rfl, rfl, fun q hq => tget_orphanQueues (by omega) _, rfl, rfl, rfl, rfl, ?_⟩
    rw [perstReset_ctxs, List.map_map]
    rfl
  · cases a with
    | false => rfl
    | true =>
      obtain ⟨hp, hd⟩ := h rfl
      exact gate_of_true _ _ (by simp [hp, hd])

/-- Settles O10: the window's accesses by whether it is open and what its extents hold. -/
theorem cxlWindow : Obligations.CxlWindow := by
  unfold Obligations.CxlWindow Claims.cxlMemAccess Claims.cxlMemOutside
  refine ⟨fun off len data s ds hl hp hw => ⟨fun hd => ?_, fun hd hr => ?_⟩, fun off len data s hl hp hw => ⟨?_, ?_⟩⟩
  · exact execCxlMemAccess_read off len data hl hp hw hd
  · exact execCxlMemAccess_write off len hl hp hw hd hr
  · exact execCxlMemAccess_closed false off len data hl hp hw
  · exact execCxlMemAccess_closed true off len data hl hp hw

end Sys2Proof
end

section
/-! SUPPORT. Which parts of the state a function may change: a relation that composes, with one lemma for each shared operation (00, the state). -/
namespace Sys2Proof.Machine

/-- The parts of the state, and of these what many operations leave of a part that they change: the bytes of the three memories, HEARTBEAT, the
sync cells and their ranges, and what remains of a part without the lists that a fault or a Fix stop adds to. -/
inductive Part where
  | pending | free | nextId | host | regs | dev | chart | queues | slots | conf | mem | sync | ctxs | arrays | tokens | fab | grp | colls | fix
  | pow | board | mgmt | flash | test | bnd
  | hbm | hostMem | cxlMem | heartbeat | memRest | cells | devRest | fixRest | bndRest
  deriving DecidableEq

/-- The sync cells, their ranges, and how many waits stand in the wait lists (R215 to R218). -/
@[simp] def cellPart (s : State) : Table Word × List CellRange × List Wait × Nat := (s.sync.cells, s.sync.ranges, s.sync.held, s.sync.waits.length)

/-- What the memory dies hold beside their bytes and their translations (R204 to R214). -/
@[simp] def memPart (s : State) : List Nat × List Armour × List Nat × List Line × List StripeWrite × Table MemCounts :=
  (s.mem.poison, s.mem.armour, s.mem.lost, s.mem.cache, s.mem.unacked, s.mem.counts)

/-- DEVICE_STATE and what goes with it, without the commands that wait for the end of a Fix stop (R248). -/
@[simp] def devPart (s : State) : Device := { s.dev with starts := [] }

/-- The Fix system without the mark of a context fault during a stop (R235). -/
@[simp] def fixPart (s : State) : FixSys := { s.fix with abortDue := false }

/-- What of the boundary a submission leaves: the cut, the step entered, the parameters updated, the waves of a release. -/
@[simp] def bndPart (s : State) : Option (Nat × Nat × Nat × Nat) × Option Nat × List Nat × List Nat :=
  (s.bnd.cut, s.bnd.entered, s.bnd.updated, s.bnd.waves)

/-- Two states have the same part. -/
@[simp] def Part.Same (s t : State) : Part → Prop
  | .pending => t.pending = s.pending | .free => t.free = s.free | .nextId => t.nextId = s.nextId | .host => t.host = s.host
  | .regs => t.regs = s.regs | .dev => t.dev = s.dev | .chart => t.chart = s.chart | .queues => t.queues = s.queues
  | .slots => t.slots = s.slots | .conf => t.conf = s.conf | .mem => t.mem = s.mem | .sync => t.sync = s.sync | .ctxs => t.ctxs = s.ctxs
  | .arrays => t.arrays = s.arrays | .tokens => t.tokens = s.tokens | .fab => t.fab = s.fab | .grp => t.grp = s.grp
  | .colls => t.colls = s.colls | .fix => t.fix = s.fix | .pow => t.pow = s.pow | .board => t.board = s.board | .mgmt => t.mgmt = s.mgmt
  | .flash => t.flash = s.flash | .test => t.test = s.test | .bnd => t.bnd = s.bnd
  | .hbm => t.mem.hbm = s.mem.hbm | .hostMem => t.host.mem = s.host.mem | .cxlMem => t.host.cxlMem = s.host.cxlMem
  | .heartbeat => t.regs.heartbeat = s.regs.heartbeat | .memRest => memPart t = memPart s | .cells => cellPart t = cellPart s
  | .devRest => devPart t = devPart s
  | .fixRest => fixPart t = fixPart s | .bndRest => bndPart t = bndPart s

theorem Part.Same.refl (s : State) (p : Part) : p.Same s s := by
  cases p <;> rfl

theorem Part.Same.trans {s t u : State} {p : Part} (h : p.Same s t) (k : p.Same t u) : p.Same s u := by
  cases p <;> exact Eq.trans k h

/-- From `s` to `t` no part changes but those listed. -/
def Changes (l : List Part) (s t : State) : Prop := ∀ p, p ∉ l → p.Same s t

theorem Changes.refl (l : List Part) (s : State) : Changes l s s := fun p _ => Part.Same.refl s p

theorem Changes.mono {l m : List Part} {s t : State} (h : Changes l s t) (hl : l ⊆ m) : Changes m s t := fun p hp => h p (fun hm => hp (hl hm))

theorem Changes.trans {l : List Part} {s t u : State} (h : Changes l s t) (k : Changes l t u) : Changes l s u :=
  fun p hp => (h p hp).trans (k p hp)

/-- One change after another changes at most what either changes. -/
theorem Changes.andThen {l m : List Part} {s t u : State} (h : Changes l s t) (k : Changes m t u) : Changes (l ++ m) s u :=
  (h.mono (List.subset_append_left l m)).trans (k.mono (List.subset_append_right l m))

/-- A fold over a list changes what its steps change. -/
theorem Changes.foldl {α : Type} {l : List Part} {f : State → α → State} (h : ∀ s a, Changes l s (f s a)) (as : List α) (s : State) :
    Changes l s (as.foldl f s) := by
  induction as generalizing s with
  | nil => exact Changes.refl l s
  | cons a as ih => exact (h s a).trans (ih (f s a))

/-! ### Reading a part through a change -/

section
variable {l : List Part} {s t : State}

theorem Changes.keeps_host (h : Changes l s t) (hl : Part.host ∉ l) : t.host = s.host := h .host hl
theorem Changes.keeps_regs (h : Changes l s t) (hl : Part.regs ∉ l) : t.regs = s.regs := h .regs hl
theorem Changes.keeps_dev (h : Changes l s t) (hl : Part.dev ∉ l) : t.dev = s.dev := h .dev hl
theorem Changes.keeps_chart (h : Changes l s t) (hl : Part.chart ∉ l) : t.chart = s.chart := h .chart hl
theorem Changes.keeps_slots (h : Changes l s t) (hl : Part.slots ∉ l) : t.slots = s.slots := h .slots hl
theorem Changes.keeps_conf (h : Changes l s t) (hl : Part.conf ∉ l) : t.conf = s.conf := h .conf hl
theorem Changes.keeps_mem (h : Changes l s t) (hl : Part.mem ∉ l) : t.mem = s.mem := h .mem hl
theorem Changes.keeps_ctxs (h : Changes l s t) (hl : Part.ctxs ∉ l) : t.ctxs = s.ctxs := h .ctxs hl
theorem Changes.keeps_heartbeat (h : Changes l s t) (hl : Part.heartbeat ∉ l) : t.regs.heartbeat = s.regs.heartbeat := h .heartbeat hl

end

/-! ### The shared operations -/

@[simp] theorem sendMsix_cxlMem (n : Nat) (s : State) : (sendMsix n s).host.cxlMem = s.host.cxlMem := by
  unfold sendMsix
  split <;> rfl
@[simp] theorem raiseEvent_hostMem (b : Nat) (s : State) : (raiseEvent b s).host.mem = s.host.mem := by
  unfold raiseEvent
  dsimp only
  split <;> simp
@[simp] theorem raiseEvent_cxlMem (b : Nat) (s : State) : (raiseEvent b s).host.cxlMem = s.host.cxlMem := by
  unfold raiseEvent
  dsimp only
  split <;> simp
@[simp] theorem raiseEvent_heartbeat (b : Nat) (s : State) : (raiseEvent b s).regs.heartbeat = s.regs.heartbeat := by
  unfold raiseEvent
  dsimp only
  split <;> simp

theorem raiseEvent_changes (b : Nat) (s : State) : Changes [.host, .regs] s (raiseEvent b s) := by
  intro p hp
  cases p <;> simp at hp ⊢

theorem changes_dev (d : Device) (s : State) : Changes [.dev, .devRest] s { s with dev := d } := by
  intro p hp
  cases p <;> simp at hp ⊢

theorem changes_fix (x : FixSys) (s : State) : Changes [.fix, .fixRest] s { s with fix := x } := by
  intro p hp
  cases p <;> simp at hp ⊢

theorem sensorEvent_changes (a b c : Nat) (s : State) : Changes [.mgmt] s (sensorEvent a b c s) := by
  unfold sensorEvent
  split
  · intro p hp
    cases p <;> simp at hp ⊢
  · exact Changes.refl _ s

theorem enterState_changes (d : DevState) (n : Nat) (s : State) : Changes [.host, .regs, .dev, .devRest, .mgmt] s (enterState d n s) := by
  unfold enterState
  split
  · exact (changes_dev _ s).mono (by decide)
  · exact (((changes_dev _ s).andThen (raiseEvent_changes 2 _)).andThen (sensorEvent_changes _ _ _ _)).mono (by decide)

theorem devStore_changes (d : Nat) (b : List Byte) (s : State) : Changes [.free, .mem, .hbm, .memRest] s (devStore d b s) := by
  intro p hp
  cases p <;> simp at hp ⊢

theorem devPut_changes (k : Bool) (d : Nat) (b : List Byte) (s : State) : Changes [.free, .mem, .hbm, .memRest] s (devPut k d b s) := by
  intro p hp
  cases p <;> simp at hp ⊢

theorem hostWrite_changes (a : Nat) (b : List Byte) (s : State) : Changes [.host, .hostMem] s (hostWrite a b s) := by
  intro p hp
  cases p <;> simp [hostWrite] at hp ⊢

theorem ctxMod_changes (c : Nat) (f : Ctx → Ctx) (s : State) : Changes [.ctxs] s (ctxMod c f s) := by
  intro p hp
  cases p <;> simp at hp ⊢

theorem postTo_changes (o : Source) (c : Completion) (b : List Byte) (s : State) : Changes [.free, .queues, .fab, .mgmt] s (postTo o c b s) := by
  intro p hp
  cases p <;> simp at hp ⊢

theorem addFault_changes (c : Nat) (f : FaultRec) (b : Bool) (s : State) :
    Changes [.free, .host, .regs, .queues, .ctxs, .fab, .fix, .mgmt] s (addFault c f b s) := by
  have hdue (d : Bool) : Changes [.fix] s { s with fix := { s.fix with abortDue := d } } := by
    intro p hp
    cases p <;> simp at hp ⊢
  unfold addFault
  split
  · exact Changes.refl _ s
  · dsimp only
    split
    · exact ((hdue _).andThen (ctxMod_changes c _ _)).mono (by decide)
    · split
      · exact (((hdue _).andThen (ctxMod_changes c _ _)).andThen (raiseEvent_changes 4 _)).mono (by decide)
      · exact ((((hdue _).andThen (ctxMod_changes c _ _)).andThen (raiseEvent_changes 4 _)).andThen (postTo_changes _ _ _ _)).mono (by decide)

theorem reschedule_changes (s : State) : Changes [.nextId, .sync, .ctxs] s (reschedule s) := by
  intro p hp
  cases p <;> simp [reschedule] at hp ⊢

theorem freshValue_changes (s : State) : Changes [.free] s (freshValue s).2 := by
  intro p hp
  cases p <;> simp [freshValue] at hp ⊢

theorem countMem_changes (n : Nat) (f : MemCounts → MemCounts) (s : State) : Changes [.mem, .memRest] s (countMem n f s) := by
  intro p hp
  cases p <;> simp [countMem] at hp ⊢

theorem poisonRead_changes (d : Nat) (s : State) : Changes [.mem, .memRest] s (poisonRead d s) := by
  unfold poisonRead
  split
  · exact countMem_changes _ _ s
  · exact Changes.refl _ s

theorem countPoison_changes (e : AccErr) (s : State) : Changes [.mem, .memRest] s (countPoison e s) := by
  unfold countPoison
  split
  · exact poisonRead_changes _ s
  · split
    · exact poisonRead_changes _ s
    · exact Changes.refl _ s

/-! ### Accesses to a context's space -/

theorem writePiece_changes {c va : Nat} {b : List Byte} {s t : State} (h : writePiece c va b s = .ok t) : Changes [.free, .host, .hostMem, .cxlMem, .mem, .hbm, .memRest] s t := by
  unfold writePiece at h
  split at h
  · cases h
  · cases h
    exact (hostWrite_changes _ b s).mono (by decide)
  · cases h
    intro p hp
    cases p <;> simp at hp ⊢
  · cases h
    exact (devPut_changes _ _ b s).mono (by decide)

theorem writePieces_changes {c : Nat} {ps : List (Nat × Nat)} {b : List Byte} {s t : State} (h : writePieces c ps b s = .ok t) :
    Changes [.free, .host, .hostMem, .cxlMem, .mem, .hbm, .memRest] s t := by
  induction ps generalizing b s with
  | nil =>
    cases h
    exact Changes.refl _ _
  | cons p ps ih =>
    obtain ⟨va, n⟩ := p
    rw [writePieces] at h
    split at h
    · cases h
    next u hu => exact (writePiece_changes hu).trans (ih h)

theorem vaWrite_changes {c va : Nat} {b : List Byte} {s t : State} (h : vaWrite c va b s = .ok t) : Changes [.free, .host, .hostMem, .cxlMem, .mem, .hbm, .memRest] s t :=
  writePieces_changes h

/-- What the module's own accesses may change: memory, the faults they meet and what a fault brings. -/
def faultParts : List Part := [.free, .nextId, .host, .hostMem, .cxlMem, .regs, .queues, .mem, .hbm, .memRest, .sync, .ctxs, .fab, .fix, .fixRest, .mgmt]

theorem moduleFault_changes (c : Nat) (e : AccErr) (a : Access) (s : State) : Changes faultParts s (moduleFault c e a s) := by
  have hfree : Changes [.free] s (freshValue (freshValue (freshValue s).2).2).2 :=
    ((freshValue_changes s).trans (freshValue_changes _)).trans (freshValue_changes _)
  exact (((hfree.andThen (countPoison_changes e _)).andThen (addFault_changes c _ true _)).andThen (reschedule_changes _)).mono (by decide)

theorem moduleWrite_changes (c va : Nat) (b : List Byte) (s : State) : Changes faultParts s (moduleWrite c va b s) := by
  unfold moduleWrite
  split
  next t ht => exact (vaWrite_changes ht).mono (by decide)
  next e he => exact moduleFault_changes c e .write s

/-! ### The step log -/

theorem storeManifest_changes (n : Nat) (s : State) : Changes [.free, .mem, .hbm, .memRest] s (storeManifest n s) := by
  unfold storeManifest storeRing
  split
  · exact (devStore_changes _ _ s).trans (devStore_changes _ _ _)
  · exact Changes.refl _ s

theorem manRecord_changes (n type : Nat) (b : List Byte) (s : State) : Changes [.fix, .fixRest, .free, .mem, .hbm, .memRest] s (manRecord n type b s) := by
  exact (changes_fix _ s).andThen (storeManifest_changes n _)

theorem commitBatch_changes (n c : Nat) (s : State) : Changes faultParts s (commitBatch n c s) := by
  unfold commitBatch
  split
  · exact Changes.refl _ s
  · split
    · exact (((moduleWrite_changes c _ _ s).andThen (ctxMod_changes c _ _)).andThen (manRecord_changes n 1 _ _)).mono (by decide)
    · exact Changes.refl _ s

theorem openStepWith_changes (r : List ManRec) (n : Nat) (s : State) : Changes faultParts s (openStepWith r n s) := by
  unfold openStepWith
  refine Changes.trans ?_ (Changes.foldl (fun u c => commitBatch_changes n c u) _ _)
  exact ((changes_fix _ s).andThen (storeManifest_changes n _)).mono (by decide)

end Sys2Proof.Machine
end

section
/-! SUPPORT. The commit of a configuration image and live sections, contexts, scale records, jobs, page tables and translation caches, case by case
(R89 to R95, R132, R133, R135, R146, R197, R198, R221, R252, R364 to R369). -/
namespace Sys2Proof.Machine

/-! ### The commit of an image -/

/-- A slot taken for a command's payload changes slots alone: a body that sees the context table sees that of the state before. -/
theorem withSlot_congr_of_ctxs {p : Packet} {n : Nat} {s : State} {f g : Nat → State → State}
    (h : ∀ idx t, t.ctxs = s.ctxs → f idx t = g idx t) : withSlot p n s f = withSlot p n s g :=
  h _ _ (allocSlot_ctxs p n s)

theorem commitFailOf_congr {s t : State} (hc : t.chart = s.chart) (hf : t.flash = s.flash) (img : List Byte) (l : List Sec) :
    commitFailOf t img l = commitFailOf s img l := by
  simp only [commitFailOf, memoryOk, quadrantFailed, unitState, unitRec, roleOf, hc, hf]

/-- The checks of a commit look at the chart and at the stored role, and at nothing else of the state (R365). -/
theorem commitCheck_congr {s t : State} (hc : t.chart = s.chart) (hf : t.flash = s.flash) (g : Staging) : commitCheck t g = commitCheck s g := by
  simp only [commitCheck, commitFailOf_congr hc hf]

theorem commitCheck_allocSlot (p : Packet) (n : Nat) (s : State) (g : Staging) : commitCheck (allocSlot p n (owe p s)).2 g = commitCheck s g :=
  commitCheck_congr (by simp) (by simp) g

theorem bodyConfigCommit_passes {p : Packet} {s : State} {g : Staging} {c : List Byte × List Sec} (idx : Nat) (hg : s.conf.staging = some g)
    (hc : commitCheck s g = .ok c) : bodyConfigCommit p idx s =
      complete p 0x0102 stPENDING none none idx [] { s with conf := { s.conf with applying := some (idx, p, 0) } } := by
  simp only [bodyConfigCommit, hg, hc]

theorem bodyConfigCommit_fails {p : Packet} {s : State} {g : Staging} {f : CommitFail} (idx : Nat) (hg : s.conf.staging = some g)
    (hc : commitCheck s g = .error f) : bodyConfigCommit p idx s =
      complete p 0x0102 f.status (some f.code) none idx [] (slotReady idx f.status f.code (commitPayload f) (stayInHold f.code s)) := by
  simp only [bodyConfigCommit, hg, hc]

theorem exec_configCommit_slot {p : Packet} {s : State} (h : Accepted 0x0102 (chkConfigCommit p (owe p s)) p s) :
    exec (.configCommit p) s = .next (bodyConfigCommit p (allocSlot p 16 (owe p s)).1 (allocSlot p 16 (owe p s)).2) := by
  rw [exec_configCommit_accepted h, withSlot]

theorem execConfigCommitApplied_passes {s : State} {idx n : Nat} {p : Packet} {g : Staging} {img : List Byte} {l : List Sec}
    (ha : s.conf.applying = some (idx, p, n)) (hg : s.conf.staging = some g) (hd : s.dev.st = .hold) (hc : commitCheck s g = .ok (img, l)) :
    execConfigCommitApplied s = .next (finishPending idx 0 0 (commitPayload ⟨0, 0, 0xFFFFFFFF⟩) (applyImage img l s)) := by
  simp [execConfigCommitApplied, ha, hg, hc, gate, hd]

theorem enterState_dev (d : DevState) (n : Nat) (s : State) : (enterState d n s).dev = { s.dev with st := d, detail := n } := by
  unfold enterState
  split
  next h => rw [← h]
  next => simp

theorem setTarget_eq (f : Nat) (s : State) : ∃ g, setTarget f s = { s with grp := g } := by
  unfold setTarget
  split
  · exact ⟨_, rfl⟩
  · exact ⟨_, rfl⟩

theorem setTarget_changes (f : Nat) (s : State) : Changes [.grp] s (setTarget f s) := by
  obtain ⟨g, hg⟩ := setTarget_eq f s
  rw [hg]
  intro p hp
  cases p <;> simp at hp ⊢

theorem sendMsg_changes (cls dest : Nat) (name : String) (args : List Nat) (s : State) : Changes [.fab] s (sendMsg cls dest name args s) := by
  intro p hp
  cases p <;> simp at hp ⊢

theorem changes_grp (g : Group) (s : State) : Changes [.grp] s { s with grp := g } := by
  intro p hp
  cases p <;> simp at hp ⊢

theorem askJoin_changes (gid : Nat) (s : State) : Changes [.free, .fab] s (askJoin gid s) :=
  (freshValue_changes s).andThen (sendMsg_changes _ _ _ _ _)

theorem takeRole_changes (r : Bool) (gid : Nat) (s : State) : Changes [.free, .fab, .grp] s (takeRole r gid s) := by
  unfold takeRole
  split
  · dsimp only
    split
    · exact (changes_grp _ s).mono (by decide)
    · exact (changes_grp _ s).mono (by decide)
  · exact ((changes_grp _ s).andThen (askJoin_changes gid _)).mono (by decide)

theorem raiseUnless_changes (c : Prop) [Decidable c] (b : Nat) (s : State) : Changes [.host, .regs] s (if c then s else raiseEvent b s) := by
  split
  · exact Changes.refl _ s
  · exact raiseEvent_changes b s

/-- The sections of an image put in force, before the module enters READY (R1, R366). -/
theorem applyImage_eq (img : List Byte) (l : List Sec) (s : State) : ∃ (u : State) (c : Prop) (_ : Decidable c) (r : Bool) (gid f : Nat),
    applyImage img l s = setTarget f (enterState .ready 0 (takeRole r gid (if c then u else raiseEvent 1 u))) ∧
    u.dev = { s.dev with level := if fieldAt ((bodyOf l 1).getD []) 0 1 = 0 then 3 else fieldAt ((bodyOf l 1).getD []) 0 1 } ∧
    u.conf.recorded = some img ∧ u.conf.staging = none ∧ u.conf.applying = none ∧ u.pow.capW = fieldAt ((bodyOf l 0x10).getD []) 0 2 ∧
    u.ctxs = s.ctxs ∧ u.chart = s.chart :=
  ⟨_, _, _, _, _, _, rfl, rfl, rfl, rfl, rfl, rfl, rfl, rfl⟩

/-- A committed image in force: the module is READY at the image's level, the image recorded, the buffer closed (R366). -/
theorem applyImage_ready (img : List Byte) (l : List Sec) (s : State) :
    (applyImage img l s).dev.st = .ready ∧ (applyImage img l s).conf.recorded = some img ∧ (applyImage img l s).conf.staging = none ∧
    (applyImage img l s).conf.applying = none ∧
    (applyImage img l s).dev.level = (if fieldAt ((bodyOf l 1).getD []) 0 1 = 0 then 3 else fieldAt ((bodyOf l 1).getD []) 0 1) ∧
    (applyImage img l s).pow.capW = fieldAt ((bodyOf l 0x10).getD []) 0 2 ∧ (applyImage img l s).ctxs = s.ctxs ∧
    (applyImage img l s).chart = s.chart := by
  obtain ⟨u, c, dc, r, gid, f, he, hdev, hrec, hst, hap, hcap, hctx, hch⟩ := applyImage_eq img l s
  have hrole : Changes [.free, .fab, .grp, .host, .regs] u (takeRole r gid (if c then u else raiseEvent 1 u)) :=
    ((raiseUnless_changes c 1 u).andThen (takeRole_changes r gid _)).mono (by decide)
  have hdev' : (applyImage img l s).dev = { u.dev with st := .ready, detail := 0 } := by
    rw [he, (setTarget_changes f _).keeps_dev (by decide), enterState_dev, hrole.keeps_dev (by decide)]
  have hrest : Changes [.free, .fab, .grp, .host, .regs, .dev, .devRest, .mgmt] u (applyImage img l s) := by
    rw [he]
    exact ((hrole.andThen (enterState_changes .ready 0 _)).andThen (setTarget_changes f _)).mono (by decide)
  have hpow : (applyImage img l s).pow = u.pow := hrest .pow (by decide)
  rw [hdev', hdev, hrest.keeps_conf (by decide), hpow, hrest.keeps_ctxs (by decide), hrest.keeps_chart (by decide)]
  exact ⟨rfl, hrec, hst, hap, rfl, hcap, hctx, hch⟩

/-! ### CONFIG_ABORT and LIVE_SET -/

theorem anyBound_owe (p : Packet) (s : State) : anyBound (owe p s) = anyBound s := by
  simp only [anyBound, owe_ctxs]

theorem bodyLiveSet_waits {p : Packet} {s : State} (ht : pf p 0 2 ∈ [0x10, 0x11, 0x12])
    (hp : pf p 0 2 = 0x10 → powerOk (liveBody p) = true ∧ freqOk (fieldAt (liveBody p) 6 2) = true) (hb : anyBound s = true) :
    bodyLiveSet p s = completeOk p 0x0108 { s with conf := { s.conf with live := s.conf.live ++ [⟨s.nextId, pf p 0 2, liveBody p⟩] }
                                                   nextId := s.nextId + 1 } := by
  have hr : ¬ (pf p 0 2 = 0x10 ∧ ¬ (powerOk (liveBody p) && freqOk (fieldAt (liveBody p) 6 2)) = true) := by
    rintro ⟨h1, h2⟩
    exact h2 (by rw [(hp h1).1, (hp h1).2]; rfl)
  simp only [bodyLiveSet, ht, not_true, if_false, hr, hb, if_true]

theorem bodyLiveSet_applies {p : Packet} {s : State} (ht : pf p 0 2 ∈ [0x10, 0x11, 0x12])
    (hp : pf p 0 2 = 0x10 → powerOk (liveBody p) = true ∧ freqOk (fieldAt (liveBody p) 6 2) = true) (hb : anyBound s = false) :
    bodyLiveSet p s = completeOk p 0x0108 (applyLive ⟨s.nextId, pf p 0 2, liveBody p⟩ s) := by
  have hr : ¬ (pf p 0 2 = 0x10 ∧ ¬ (powerOk (liveBody p) && freqOk (fieldAt (liveBody p) 6 2)) = true) := by
    rintro ⟨h1, h2⟩
    exact h2 (by rw [(hp h1).1, (hp h1).2]; rfl)
  simp only [bodyLiveSet, ht, not_true, if_false, hr, hb]
  rfl

end Sys2Proof.Machine

namespace Sys2Proof
open Sys2Proof.Machine

/-- Settles O14: an accepted CONFIG_COMMIT by the outcome of its checks, which the taking of a slot does not change; its application by what an
image in force leaves. -/
theorem configCommit : Obligations.ConfigCommit := by
  unfold Obligations.ConfigCommit Claims.configCommit Claims.configCommitFails Claims.configCommitApplied Claims.configAbort Claims.liveSet
  refine ⟨fun p s g c h hg hc => ?_, fun p s g f h hg hc => ?_, fun s idx p n g img l ha hg hd hc => ?_, fun p s h => ?_,
    fun p s h ht hp => ⟨fun hb => ?_, fun hb => ?_⟩⟩
  · have hbody := bodyConfigCommit_passes (p := p) (s := (allocSlot p 16 (owe p s)).2) (allocSlot p 16 (owe p s)).1 (by simpa using hg)
      ((commitCheck_allocSlot p 16 s g).trans hc)
    rw [exec_configCommit_slot h, hbody]
    refine ⟨_, _, rfl, ?_, rfl, by simp⟩
    rw [← owe_conf p s, ← allocSlot_conf p 16 (owe p s)]
  · rw [exec_configCommit_slot h]
    have hg' : (allocSlot p 16 (owe p s)).2.conf.staging = some g := by simpa using hg
    rw [bodyConfigCommit_fails _ hg' hc]
    simp only [withSlot, stayInHold, allocSlot_dev, owe_dev]
  · refine ⟨_, execConfigCommitApplied_passes ha hg hd hc, ?_⟩
    simpa using applyImage_ready img l s
  · have hrun : exec (.configAbort p) s = _ := packetOut_plain (accept := acceptConfigAbort) (body := fun _ t => bodyConfigAbort p t) h rfl rfl
    rw [hrun]
    simp only [bodyConfigAbort, owe_conf, owe_dev]
  · have hrun : exec (.liveSet p) s = _ := packetOut_plain (accept := acceptLiveSet) (body := fun _ t => bodyLiveSet p t) h rfl rfl
    rw [hrun, bodyLiveSet_waits ht hp ((anyBound_owe p s).trans hb), owe_conf, owe_nextId, liveBody]
  · have hrun : exec (.liveSet p) s = _ := packetOut_plain (accept := acceptLiveSet) (body := fun _ t => bodyLiveSet p t) h rfl rfl
    rw [hrun, bodyLiveSet_applies ht hp ((anyBound_owe p s).trans hb), owe_nextId, liveBody]

end Sys2Proof
end

section
/-! SUPPORT. Contexts, scale records, jobs, page tables and translation caches, case by case (R89 to R95, R132, R133, R135, R146, R197, R198, R221,
R252). -/
namespace Sys2Proof.Machine

/-! ### Contexts -/

theorem withCtx_loaded {p : Packet} {op idx : Nat} {s : State} {x : Ctx} (body : Ctx → State) (hx : ctxOf s p.ctx = some x) :
    withCtx p op idx s body = body x := by
  simp only [withCtx, hx]

theorem saveOverlap_owe (p : Packet) (s : State) : saveOverlap (owe p s) p = saveOverlap s p := by
  simp only [saveOverlap, owe_ctxs]

theorem exec_contextSet_accepted {p : Packet} {s : State} (h : Accepted 0x0110 (chkContextSet p (owe p s)) p s) :
    exec (.contextSet p) s = .next (bodyContextSet p (owe p s)) :=
  packetOut_plain (accept := acceptContextSet) (body := fun _ t => bodyContextSet p t) h rfl rfl

theorem bodyContextSet_loads {p : Packet} {s : State} (hm : s.conf.mustCommit = false) (hf : fits [{ params := p.params.take 24 }] = true)
    (ho : saveOverlap s p = false) (hc : ctxOf s p.ctx = none) : bodyContextSet p s = completeOk p 0x0110 { s with
      ctxs := tset s.ctxs p.ctx { params := p.params.take 24 }, mem := { s.mem with tlb := s.mem.tlb.filter (fun t => t.ctx != p.ctx) } } := by
  simp only [bodyContextSet, hm, hf, ho, hc]
  rfl

theorem bodyContextSet_loaded {p : Packet} {s : State} (hm : s.conf.mustCommit = false) (hf : fits [{ params := p.params.take 24 }] = true)
    (ho : saveOverlap s p = false) (hc : (ctxOf s p.ctx).isSome = true) : bodyContextSet p s = completeWith p 0x0110 stBADPARAM 0x0903 s := by
  simp only [bodyContextSet, hm, hf, ho, hc]
  rfl

theorem queueBits_congr {s t : State} (h : ∀ k, (tget t.queues.q k).isSome = (tget s.queues.q k).isSome) (c : Nat) : queueBits t c = queueBits s c := by
  simp only [queueBits, h]

theorem queueBits_owe (p : Packet) (s : State) (c : Nat) : queueBits (owe p s) c = queueBits s c :=
  queueBits_congr (fun k => by rw [tget_queues_owe, Option.isSome_map]) c

theorem exec_contextClear_accepted {p : Packet} {s : State} (h : Accepted 0x0112 (chkContextClear p) p s) :
    exec (.contextClear p) s = .next (bodyContextClear p (owe p s)) :=
  packetOut_plain (accept := acceptContextClear) (body := fun _ t => bodyContextClear p t) h rfl rfl

theorem bodyContextClear_idle {p : Packet} {s : State} {x : Ctx} (hx : ctxOf s p.ctx = some x) (hw : x.works = []) (hf : x.faults = [])
    (hl : x.lateFaults = []) (hq : queueBits s p.ctx = 0) :
    bodyContextClear p s = completeOk p 0x0112 (settleIngest { s with ctxs := tdel s.ctxs p.ctx }) := by
  simp [bodyContextClear, withCtx_loaded _ hx, Ctx.busy, hw, hf, hl, hq]

theorem bodyContextClear_busy {p : Packet} {s : State} {x : Ctx} (hx : ctxOf s p.ctx = some x) (h : x.works ≠ [] ∨ x.faults ≠ []) :
    bodyContextClear p s = completeOpen p 0x0112 stBUSY s := by
  have hb : (x.busy || !x.faults.isEmpty || !x.lateFaults.isEmpty) = true := by
    obtain h | h := h <;> simp [Ctx.busy, h]
  rw [bodyContextClear, withCtx_loaded _ hx, if_pos hb]

/-! ### Scale records -/

theorem exec_scaleSetCreateReplace_accepted {p : Packet} {s : State} (h : Accepted 0x0120 (chkScaleSet p) p s) (ha : pf p 0 1 = 0) :
    exec (.scaleSetCreateReplace p) s = .next (bodyScaleCreate p (owe p s)) := by
  have hne : ¬ pf p 0 1 = 1 := by omega
  have hrun : packetOut 0x0120 acceptScaleSet p s = .next (bodyScaleSet p (owe p s)) :=
    packetOut_plain (accept := acceptScaleSet) (body := fun _ t => bodyScaleSet p t) h rfl rfl
  have hexec : exec (.scaleSetCreateReplace p) s = execScaleSetCreateReplace p s := rfl
  rw [hexec, execScaleSetCreateReplace, if_neg hne, hrun, bodyScaleSet, if_neg hne]

theorem exec_scaleSetDelete_accepted {p : Packet} {s : State} (h : Accepted 0x0120 (chkScaleSet p) p s) (ha : pf p 0 1 = 1) :
    exec (.scaleSetDelete p) s = .next (bodyScaleDelete p (owe p s)) := by
  have hrun : packetOut 0x0120 acceptScaleSet p s = .next (bodyScaleSet p (owe p s)) :=
    packetOut_plain (accept := acceptScaleSet) (body := fun _ t => bodyScaleSet p t) h rfl rfl
  have hexec : exec (.scaleSetDelete p) s = execScaleSetDelete p s := rfl
  rw [hexec, execScaleSetDelete, if_pos ha, hrun, bodyScaleSet, if_pos ha]

/-- With no Fix layout in force nothing is to be covered (R311, log 24). -/
theorem covered_of_noLayout {s : State} (h : tget s.conf.sections 6 = none) (c va n : Nat) : covered s c va n = true := by
  simp [covered, ctxRegions, h]

theorem scaleOf_loaded {s : State} {c : Nat} {x : Ctx} (hx : ctxOf s c = some x) (id : Nat) : scaleOf s c id = tget x.scales id := by
  simp [scaleOf, hx]

/-- A record keeps the tensor ID of its bytes. -/
theorem scaleRecord_id (b : List Byte) (o : Option ScaleRec) : (scaleRecord b o).id = fieldAt b 0 4 := rfl

theorem bodyScaleCreate_applies {p : Packet} {s : State} {x : Ctx} (hx : ctxOf s p.ctx = some x)
    (ho : (scaleRecord (scaleBytes p) (tget x.scales (fieldAt (scaleBytes p) 0 4))).ovfVa % 64 = 0)
    (hn : tget x.scales (fieldAt (scaleBytes p) 0 4) = none → x.scales.length < 16384) (hl : tget s.conf.sections 6 = none)
    (hb : x.bound = true → tget x.scales (fieldAt (scaleBytes p) 0 4) = none) : bodyScaleCreate p s =
      match applyScale p.ctx (scaleBytes p) s with
      | .ok t => completeOk p 0x0120 t
      | .error e => faultScale p e s := by
  have hfull : ¬ ((tget x.scales (fieldAt (scaleBytes p) 0 4)).isNone = true ∧ x.scales.length ≥ 16384) := by
    rintro ⟨h1, h2⟩
    exact absurd (hn (Option.isNone_iff_eq_none.mp h1)) (by omega)
  have hedit : ¬ (x.bound = true ∧ (tget x.scales (fieldAt (scaleBytes p) 0 4)).isSome = true) := by
    rintro ⟨h1, h2⟩
    rw [hb h1] at h2
    cases h2
  rw [bodyScaleCreate, withCtx_loaded _ hx]
  simp only [ho, ne_eq, not_true, if_false, hfull, covered_of_noLayout hl, Bool.not_true, Bool.or_false, Bool.false_eq_true, hedit] <;> rfl

theorem applyScale_replaces {s : State} {c : Nat} {b : List Byte} {o : ScaleRec} (ho : scaleOf s c (fieldAt b 0 4) = some o)
    (hs : sameBlocks o (scaleRecord b (some o)) = true) :
    applyScale c b s = .ok (ctxMod c (fun y => { y with scales := tset y.scales (fieldAt b 0 4) (scaleRecord b (some o)) }) s) := by
  simp only [applyScale, ho, hs, if_true, scaleRecord_id]

theorem applyScale_creates {s : State} {c : Nat} {b : List Byte} (ho : scaleOf s c (fieldAt b 0 4) = none) :
    applyScale c b s = initBlocks c (scaleRecord b none)
      (ctxMod c (fun y => { y with scales := tset y.scales (fieldAt b 0 4) (scaleRecord b none) }) s) := by
  simp only [applyScale, ho, scaleRecord_id]

theorem bodyScaleDelete_deletes {p : Packet} {s : State} {x : Ctx} {r : ScaleRec} (hx : ctxOf s p.ctx = some x)
    (hr : tget x.scales (fieldAt (scaleBytes p) 0 4) = some r) :
    bodyScaleDelete p s = completeOk p 0x0120 (ctxMod p.ctx (fun y => { y with
      scales := tdel y.scales (fieldAt (scaleBytes p) 0 4)
      dead := y.dead ++ [{ r with deletedAt := s.nextId }]
      scaleEdits := y.scaleEdits.filter (fun b => fieldAt b 0 4 != fieldAt (scaleBytes p) 0 4) }) s) := by
  rw [bodyScaleDelete, withCtx_loaded _ hx]
  simp only [hr]

theorem execScaleRecordRemove_unused {c tensor : Nat} {s : State} {x : Ctx} {r : ScaleRec} (hx : ctxOf s c = some x)
    (hr : x.dead.find? (fun d => d.id == tensor) = some r) (hw : ∀ w ∈ x.works, w.id < r.deletedAt → w.touches tensor = false)
    (hd : x.watchDue = true → r.slotDue = false) : execScaleRecordRemove c tensor s = .next (ctxMod c (fun y => { y with
      dead := y.dead.filter (fun d => !(d.id == tensor && d.deletedAt == r.deletedAt))
      orphanSat := sat32 y.orphanSat r.live.saturated
      orphanNonfinite := sat32 y.orphanNonfinite r.live.nonfinite
      orphanFlush := sat32 y.orphanFlush r.live.flushed
      orphanOvf := sat32 y.orphanOvf r.live.ovfBlocks.length }) s) := by
  simp only [execScaleRecordRemove, hx, hr]
  refine gate_of_true _ _ ?_
  rw [Bool.and_eq_true, Bool.not_eq_true', Bool.not_eq_true', List.any_eq_false, Bool.and_eq_false_imp]
  refine ⟨fun w hm => ?_, hd⟩
  simp only [Bool.and_eq_true, decide_eq_true_eq, not_and]
  exact fun hlt => by simp [hw w hm hlt]

/-! ### Jobs -/

theorem roleBars_owe (p : Packet) (s : State) : roleBars (owe p s) p = roleBars s p := by
  simp only [roleBars, inGroup, owe_grp]

theorem exec_jobStart_accepted {p : Packet} {s : State} (h : Accepted 0x0140 (chkJobStart p) p s) :
    exec (.jobStart p) s = .next (bodyJobStart p (owe p s)) :=
  packetOut_plain (accept := acceptJobStart) (body := fun _ t => bodyJobStart p t) h rfl rfl

theorem bodyJobStart_alone {p : Packet} {s : State} (hg : inGroup s = false) (hm : s.grp.manager = false) (hd : s.dev.st = .ready)
    (hj : s.ctxs.any (fun e => e.2.job) = true) : bodyJobStart p s = completeOk p 0x0140 (startJob (pf p 0 8) s) := by
  simp [bodyJobStart, roleBars, hg, hm, hd, hj]

theorem bodyJobStart_notReady {p : Packet} {s : State} (hr : roleBars s p = false) (hd : s.dev.st ≠ .ready) :
    bodyJobStart p s = completeOpen p 0x0140 stBUSY s := by
  simp [bodyJobStart, hr, hd]

theorem bodyJobStart_noJob {p : Packet} {s : State} (hr : roleBars s p = false) (hd : s.dev.st = .ready)
    (hj : s.ctxs.any (fun e => e.2.job) = false) : bodyJobStart p s = completeWith p 0x0140 stBADPARAM 0x0613 s := by
  simp only [bodyJobStart, hr, hd, hj]
  rfl

/-- The start of a job opens its step and leaves the chart, HEARTBEAT and the result slots as they are (R132). -/
theorem startJob_run (n : Nat) (s : State) : (startJob n s).dev.st = .run ∧ (startJob n s).dev.step = n ∧ (startJob n s).dev.jobRunning = true ∧
    (startJob n s).chart = s.chart ∧ (startJob n s).regs.heartbeat = s.regs.heartbeat ∧ (startJob n s).slots = s.slots := by
  have hopen (u : State) : Changes faultParts u (openStep n u) := openStepWith_changes [] n u
  unfold startJob
  rw [(hopen _).keeps_dev (by decide), (hopen _).keeps_chart (by decide), (hopen _).keeps_heartbeat (by decide), (hopen _).keeps_slots (by decide),
    enterState_dev, (enterState_changes .run 0 _).keeps_chart (by decide), (enterState_changes .run 0 _).keeps_heartbeat (by decide),
    (enterState_changes .run 0 _).keeps_slots (by decide)]
  exact ⟨rfl, rfl, rfl, rfl, rfl, rfl⟩

theorem exec_jobStop_accepted {p : Packet} {s : State} (h : Accepted 0x0141 (chkJobStop p) p s) :
    exec (.jobStop p) s = .next (bodyJobStop p (owe p s)) :=
  packetOut_plain (accept := acceptJobStop) (body := fun _ t => bodyJobStop p t) h rfl rfl

theorem bodyJobStop_running {p : Packet} {s : State} (hr : roleBars s p = false) (hd : s.dev.st = .run ∨ s.dev.st = .fixing) :
    bodyJobStop p s = completeOk p 0x0141 { s with dev := { s.dev with stopAsked := true } } := by
  simp only [bodyJobStop, hr, hd, if_true]
  rfl

/-! ### Page tables -/

theorem exec_ptRootSet_accepted {p : Packet} {s : State} (h : Accepted 0x0200 (chkPtRootSet p) p s) :
    exec (.ptRootSet p) s = .next (bodyPtRootSet p (owe p s)) :=
  packetOut_plain (accept := acceptPtRootSet) (body := fun _ t => bodyPtRootSet p t) h rfl rfl

theorem bodyPtRootSet_loaded {p : Packet} {s : State} {x : Ctx} (hx : ctxOf s p.ctx = some x) : bodyPtRootSet p s =
    if x.busy then completeOpen p 0x0200 stBUSY s
    else if pf p 0 8 % 65536 ≠ 0 then completeWith p 0x0200 stBADPARAM 0x0802 s
    else completeOk p 0x0200 (ctxMod p.ctx (fun x => { x with root := some (pf p 0 8) }) s) := by
  rw [bodyPtRootSet, withCtx_loaded _ hx]

end Sys2Proof.Machine

namespace Sys2Proof
open Sys2Proof.Machine

/-- Settles O15: CONTEXT_SET, CONTEXT_GET and CONTEXT_CLEAR by the check that their hypotheses pass or fail. -/
theorem contexts : Obligations.Contexts := by
  unfold Obligations.Contexts Claims.contextSet Claims.contextSetLoaded Claims.contextGet Claims.contextClear Claims.contextClearBusy
  refine ⟨fun p s h hm hf ho hc => ?_, fun p s h hm hf ho hc => ?_, fun p s x h hx => ?_, fun p s x h hx hw hf hl hq => ?_,
    fun p s x h hx hb => ?_⟩
  · rw [exec_contextSet_accepted h, bodyContextSet_loads (by simpa using hm) hf ((saveOverlap_owe p s).trans ho) ((ctxOf_owe p s _).trans hc),
      owe_ctxs, owe_mem]
  · rw [exec_contextSet_accepted h, bodyContextSet_loaded (by simpa using hm) hf ((saveOverlap_owe p s).trans ho) (by rw [ctxOf_owe]; exact hc)]
  · have hrun : exec (.contextGet p) s = _ := packetOut_slot (accept := acceptContextGet) (body := bodyContextGet p) h rfl rfl
    refine hrun.trans (congrArg Host.Outcome.next (withSlot_congr_of_ctxs fun idx t ht => ?_))
    rw [bodyContextGet, withCtx_loaded]
    rw [ctxOf, ht, owe_ctxs]
    exact hx
  · rw [exec_contextClear_accepted h, bodyContextClear_idle ((ctxOf_owe p s _).trans hx) hw hf hl ((queueBits_owe p s _).trans hq), owe_ctxs]
  · rw [exec_contextClear_accepted h, bodyContextClear_busy ((ctxOf_owe p s _).trans hx) hb]

/-- Settles O16: SCALE_SET by what its tensor ID names, the removal of a deleted record by the works that touch it, SCALE_GET by the table. -/
theorem scaleRecords : Obligations.ScaleRecords := by
  unfold Obligations.ScaleRecords Claims.scaleSetCreateReplace Claims.scaleSetCreates Claims.scaleSetDelete Claims.scaleRecordRemove Claims.scaleGet
  refine ⟨fun p s x h ha hx hb o ho hs hv hl => ?_, fun p s x t h ha hx ho hn hv hl hi => ?_, fun p s x r h ha hx hr => ?_,
    fun c tensor s x r hx hr hw hd => ?_, fun p s x h hx => ⟨fun r hr => ?_, fun hr => ?_⟩⟩
  · have hx' : ctxOf (owe p s) p.ctx = some x := (ctxOf_owe p s _).trans hx
    rw [exec_scaleSetCreateReplace_accepted h ha, bodyScaleCreate_applies hx' (by rw [ho]; exact hv) (by simp [ho]) (by rw [owe_conf]; exact hl)
      (by simp [hb]), applyScale_replaces ((scaleOf_loaded hx' _).trans ho) hs]
  · have hx' : ctxOf (owe p s) p.ctx = some x := (ctxOf_owe p s _).trans hx
    rw [exec_scaleSetCreateReplace_accepted h ha, bodyScaleCreate_applies hx' (by rw [ho]; exact hv) (fun _ => hn) (by rw [owe_conf]; exact hl)
      (fun _ => ho), applyScale_creates ((scaleOf_loaded hx' _).trans ho), hi]
  · rw [exec_scaleSetDelete_accepted h ha, bodyScaleDelete_deletes ((ctxOf_owe p s _).trans hx) hr, owe_nextId]
  · exact execScaleRecordRemove_unused hx hr hw hd
  · have hrun : exec (.scaleGet p) s = _ := packetOut_slot (accept := acceptScaleGet) (body := bodyScaleGet p) h rfl rfl
    refine hrun.trans (congrArg Host.Outcome.next (withSlot_congr_of_ctxs fun idx t ht => ?_))
    rw [bodyScaleGet, withCtx_loaded (x := x) _ (by rw [ctxOf, ht, owe_ctxs]; exact hx)]
    simp only [hr]
  · have hrun : exec (.scaleGet p) s = _ := packetOut_slot (accept := acceptScaleGet) (body := bodyScaleGet p) h rfl rfl
    refine hrun.trans (congrArg Host.Outcome.next (withSlot_congr_of_ctxs fun idx t ht => ?_))
    rw [bodyScaleGet, withCtx_loaded (x := x) _ (by rw [ctxOf, ht, owe_ctxs]; exact hx)]
    simp only [hr]

/-- Settles O17: each command by its body, JOB_START by what the opening of a step leaves. -/
theorem jobsAndTables : Obligations.JobsAndTables := by
  unfold Obligations.JobsAndTables Claims.groupSet Claims.astkSet Claims.jobStart Claims.jobStartRefused Claims.jobStop Claims.ptRootSet
    Claims.tlbInvalidate Claims.tlbInvalidateComplete
  refine ⟨fun p s x h hx => ?_, fun p s x h hx => ?_, fun p s h hg hm hd hj => ?_, fun p s h hr => ⟨fun hd => ?_, fun hd hj => ?_⟩,
    fun p s h hr hd => ?_, fun p s x h hx => ⟨fun hw => ?_, fun hw ha => ?_, fun hw ha => ?_⟩, fun p s x h hx => ?_, fun s i r hi hg => ?_⟩
  · have hrun : exec (.groupSet p) s = _ := packetOut_plain (accept := acceptGroupSet) (body := fun _ t => bodyGroupSet p t) h rfl rfl
    rw [hrun, bodyGroupSet, withCtx_loaded (x := x) _ ((ctxOf_owe p s _).trans hx), owe_nextId]
  · have hrun : exec (.astkSet p) s = _ := packetOut_plain (accept := acceptAstkSet) (body := fun _ t => bodyAstkSet p t) h rfl rfl
    rw [hrun, bodyAstkSet, withCtx_loaded (x := x) _ ((ctxOf_owe p s _).trans hx)]
  · obtain ⟨hst, hstep, hrun, hch, hhb, hsl⟩ := startJob_run (pf p 0 8) (owe p s)
    refine ⟨startJob (pf p 0 8) (owe p s), ?_, hst, hstep, hrun, hch.trans (owe_chart p s), hhb.trans (by rw [owe_regs]), hsl.trans (owe_slots p s)⟩
    rw [exec_jobStart_accepted h, bodyJobStart_alone (by simpa [inGroup] using hg) (by simpa using hm) (by simpa using hd) (by simpa using hj)]
  · rw [exec_jobStart_accepted h, bodyJobStart_notReady ((roleBars_owe p s).trans hr) (by simpa using hd)]
  · rw [exec_jobStart_accepted h, bodyJobStart_noJob ((roleBars_owe p s).trans hr) (by simpa using hd) (by rw [owe_ctxs]; exact hj)]
  · rw [exec_jobStop_accepted h, bodyJobStop_running ((roleBars_owe p s).trans hr) (by simpa using hd), owe_dev]
  · rw [exec_ptRootSet_accepted h, bodyPtRootSet_loaded ((ctxOf_owe p s _).trans hx), if_pos (by simp [Ctx.busy, hw])]
  · rw [exec_ptRootSet_accepted h, bodyPtRootSet_loaded ((ctxOf_owe p s _).trans hx), if_neg (by simp [Ctx.busy, hw]), if_neg (by simp [ha])]
  · rw [exec_ptRootSet_accepted h, bodyPtRootSet_loaded ((ctxOf_owe p s _).trans hx), if_neg (by simp [Ctx.busy, hw]), if_pos ha]
  · have hrun : exec (.tlbInvalidate p) s = _ := packetOut_plain (accept := acceptTlbInvalidate) (body := fun _ t => bodyTlbInvalidate p t) h rfl rfl
    rw [hrun, bodyTlbInvalidate, withCtx_loaded (x := x) _ ((ctxOf_owe p s _).trans hx), owe_mem]
  · have hexec : exec .tlbInvalidateComplete s = execTlbInvalidateComplete s := rfl
    rw [hexec]
    simp only [execTlbInvalidateComplete, hi]
    exact gate_of_true _ _ (by simp [hg])

end Sys2Proof
end

section
/-! SUPPORT. Ranges of sync cells, operations on cells, the waits they release, and the DMA engines, case by case (R200 to R202, R215 to R218, R298,
R349). -/
namespace Sys2Proof.Machine

/-! ### Ranges -/

/-- A table without the keys that meet a condition has none of them, and keeps the others. -/
theorem tget_filter_key {α : Type} (f : Nat → Bool) (t : Table α) (k : Nat) : tget (t.filter (fun e => f e.1)) k = if f k then tget t k else none := by
  induction t with
  | nil => simp
  | cons e t ih =>
    by_cases he : f e.1 = true
    · by_cases hk : k = e.1 <;> simp [he, tget_cons, ih, hk]
    · by_cases hk : k = e.1
      · subst hk
        have hne : f e.1 = false := Bool.eq_false_iff.mpr he
        simp [hne, ih]
      · simp [he, tget_cons, ih, hk]

theorem ownsCell_owe (p : Packet) (s : State) (c k : Nat) : ownsCell (owe p s) c k = ownsCell s c k := by
  simp only [ownsCell, rangeOf, owe_sync]

theorem binnacleUnit_owe (p : Packet) (s : State) : binnacleUnit (owe p s) = binnacleUnit s := by
  simp only [binnacleUnit, owe_dev]

theorem exec_syncAlloc_accepted {p : Packet} {s : State} (h : Accepted 0x0220 (chkSyncAlloc p) p s) :
    exec (.syncAlloc p) s = .next (bodySyncAlloc p (owe p s)) :=
  packetOut_plain (accept := acceptSyncAlloc) (body := fun _ t => bodySyncAlloc p t) h rfl rfl

theorem bodySyncAlloc_free {p : Packet} {s : State} {x : Ctx} (hx : ctxOf s p.ctx = some x) (hn : pf p 0 2 + pf p 2 2 ≤ 65536)
    (hr : touchesReserved (pf p 0 2) (pf p 2 2) = false) (ho : s.sync.ranges.any (fun r => overlaps r.first r.count (pf p 0 2) (pf p 2 2)) = false) :
    bodySyncAlloc p s = completeOk p 0x0220 { s with sync := { s.sync with
      ranges := s.sync.ranges ++ [⟨pf p 0 2, pf p 2 2, p.ctx, bitAt (pf p 4 1) 0⟩]
      cells := s.sync.cells.filter (fun e => !(decide (pf p 0 2 ≤ e.1) && decide (e.1 < pf p 0 2 + pf p 2 2))) } } := by
  rw [bodySyncAlloc, withCtx_loaded _ hx]
  simp only [hr, ho, gt_iff_lt, Nat.not_lt.mpr hn, decide_false, Bool.or_false, Bool.false_eq_true, if_false]

theorem bodySyncAlloc_taken {p : Packet} {s : State} {x : Ctx} (hx : ctxOf s p.ctx = some x)
    (h : 65536 < pf p 0 2 + pf p 2 2 ∨ touchesReserved (pf p 0 2) (pf p 2 2) = true ∨
      s.sync.ranges.any (fun r => overlaps r.first r.count (pf p 0 2) (pf p 2 2)) = true) :
    bodySyncAlloc p s = completeWith p 0x0220 stBADPARAM 0x0820 s := by
  have hbad : (decide (pf p 0 2 + pf p 2 2 > 65536) || touchesReserved (pf p 0 2) (pf p 2 2) ||
      s.sync.ranges.any (fun r => overlaps r.first r.count (pf p 0 2) (pf p 2 2))) = true := by
    rw [Bool.or_eq_true, Bool.or_eq_true, decide_eq_true_eq, or_assoc]
    exact h
  rw [bodySyncAlloc, withCtx_loaded _ hx]
  exact if_pos hbad

theorem ownsRange_owe (p : Packet) (s : State) (c f n : Nat) : ownsRange (owe p s) c f n = ownsRange s c f n := by
  simp only [ownsRange, ownsCell_owe]

theorem exec_syncFree_accepted {p : Packet} {s : State} (h : Accepted 0x0221 (chkSyncFree p) p s) :
    exec (.syncFree p) s = .next (bodySyncFree p (owe p s)) :=
  packetOut_plain (accept := acceptSyncFree) (body := fun _ t => bodySyncFree p t) h rfl rfl

theorem bodySyncFree_owned {p : Packet} {s : State} {x : Ctx} (hx : ctxOf s p.ctx = some x) (hn : 0 < pf p 2 2)
    (ho : ownsRange s p.ctx (pf p 0 2) (pf p 2 2) = true) : bodySyncFree p s =
      if waitIn s (pf p 0 2) (pf p 2 2) then completeWith p 0x0221 stBUSY 0x0822 s
      else completeOk p 0x0221 { s with sync := { s.sync with ranges := s.sync.ranges.flatMap (cutRange (pf p 0 2) (pf p 2 2)) } } := by
  have hok : ¬ (pf p 2 2 = 0 ∨ ¬ ownsRange s p.ctx (pf p 0 2) (pf p 2 2) = true) := by
    rw [ho]
    simp only [not_true, or_false]
    omega
  rw [bodySyncFree, withCtx_loaded _ hx]
  exact if_neg hok

/-! ### SYNC_OP -/

theorem exec_syncOp_accepted {p : Packet} {s : State} (h : Accepted 0x0222 (chkSyncOp p) p s) :
    exec (.syncOp p) s = .next (bodySyncOp p (owe p s)) :=
  packetOut_plain (accept := acceptSyncOp) (body := fun _ t => bodySyncOp p t) h rfl rfl

/-- The state in which a SYNC_OP has become a descriptor of its context. -/
def syncOpAccepted (p : Packet) (s : State) : State :=
  reschedule (ctxMod p.ctx (fun y => { y with works := y.works ++ [Claims.syncWork p s] }) { s with nextId := s.nextId + 1 })

theorem syncWork_owe (p : Packet) (s : State) : Claims.syncWork p (owe p s) = Claims.syncWork p s := by
  simp only [Claims.syncWork, owe_nextId, owe_dev]

theorem bodySyncOp_own {p : Packet} {s : State} {x : Ctx} (hx : ctxOf s p.ctx = some x) (hr : pf p 12 2 = 0xFFFF)
    (ho : ownsCell s p.ctx (pf p 2 2) = true) : bodySyncOp p s =
      syncApply { unit := binnacleUnit s, ctx := some p.ctx, work := some s.nextId } (pf p 2 2)
        (actOf (pf p 0 1) (BitVec.ofNat 32 (pf p 4 4)) (BitVec.ofNat 32 (pf p 8 4))) (syncOpAccepted p s) := by
  have hown : ¬ (pf p 12 2 = 0xFFFF ∧ ¬ ownsCell s p.ctx (pf p 2 2) = true) := fun h => h.2 ho
  rw [bodySyncOp, withCtx_loaded _ hx]
  simp only [if_neg hown, freshId, if_pos hr]
  rfl

theorem bodySyncOp_remote {p : Packet} {s : State} {x : Ctx} (hx : ctxOf s p.ctx = some x) (hr : pf p 12 2 ≠ 0xFFFF) : bodySyncOp p s =
      sendRemote { unit := binnacleUnit s, ctx := some p.ctx, work := some s.nextId } (pf p 12 2) (pf p 2 2)
        (actOf (pf p 0 1) (BitVec.ofNat 32 (pf p 4 4)) (BitVec.ofNat 32 (pf p 8 4))) (syncOpAccepted p s) := by
  have hown : ¬ (pf p 12 2 = 0xFFFF ∧ ¬ ownsCell s p.ctx (pf p 2 2) = true) := fun h => hr h.1
  rw [bodySyncOp, withCtx_loaded _ hx]
  simp only [if_neg hown, freshId, if_neg hr]
  rfl

theorem sendRemote_sync (r : Requester) (rank cell : Nat) (act : SyncAct) (s : State) : (sendRemote r rank cell act s).sync =
    { s.sync with remoteOut := s.sync.remoteOut ++ [(s.sync.remoteSeq, rank, cell, act, r)], remoteSeq := s.sync.remoteSeq + 1 } := by
  unfold sendRemote
  simp only [sendMsg_sync]

/-! ### Operations on a cell -/

theorem cellValue_setCell (c : Nat) (v : Word) (s : State) (k : Nat) : cellValue (setCell c v s) k = if k = c then v else cellValue s k := by
  unfold cellValue setCell
  dsimp only
  split
  next hv =>
    rw [tget_tdel]
    split
    · exact hv.symm
    · rfl
  next =>
    rw [tget_tset]
    split <;> rfl

theorem cellValue_releaseWaits (c : Nat) (s : State) (k : Nat) : cellValue (releaseWaits c s) k = cellValue s k := rfl

theorem cellValue_cellWrite (c : Nat) (v : Word) (s : State) (k : Nat) : cellValue (cellWrite c v s) k = if k = c then v else cellValue s k :=
  (cellValue_releaseWaits c _ k).trans (cellValue_setCell c v s k)

theorem cellValue_cellWrite_same (c : Nat) (v : Word) (s : State) : cellValue (cellWrite c v s) c = v := by
  rw [cellValue_cellWrite, if_pos rfl]

theorem cellWrite_waits (c : Nat) (v : Word) (s : State) :
    (cellWrite c v s).sync.waits = s.sync.waits.filter (fun w => !(w.cell == c && w.holds v)) := by
  have hv : cellValue (setCell c v s) c = v := by rw [cellValue_setCell, if_pos rfl]
  simp only [cellWrite, releaseWaits, hv]
  rfl

theorem cellWrite_releases (c : Nat) (v : Word) (s : State) : (cellWrite c v s).sync.releases = s.sync.releases ++
    (s.sync.waits.filter (fun w => w.cell == c && w.holds v)).map (fun w => ⟨waveOf w.who, w.who, v, s.sync.opSeq⟩) := by
  have hv : cellValue (setCell c v s) c = v := by rw [cellValue_setCell, if_pos rfl]
  simp only [cellWrite, releaseWaits, hv]
  rfl

/-! ### Waits -/

theorem presentWait_behind {w : Wait} {s : State} (h : s.sync.held.any (fun e => sourceOf e.who == sourceOf w.who) = true) :
    presentWait w s = { s with sync := { s.sync with held := s.sync.held ++ [w] } } := by
  simp only [presentWait, h, if_true]

theorem presentWait_holds {w : Wait} {s : State} (h : s.sync.held.any (fun e => sourceOf e.who == sourceOf w.who) = false)
    (hv : w.holds (cellValue s w.cell) = true) : presentWait w s = deliver w.who (cellValue s w.cell) s := by
  simp only [presentWait, h, hv, if_true, Bool.false_eq_true, if_false]

theorem presentWait_enters {w : Wait} {s : State} {sh : Bool} (h : s.sync.held.any (fun e => sourceOf e.who == sourceOf w.who) = false)
    (hv : w.holds (cellValue s w.cell) = false) (he : waitEntry s w = some sh) :
    presentWait w s = { s with sync := { s.sync with waits := s.sync.waits ++ [{ w with shared := sh }] } } := by
  simp only [presentWait, h, hv, he, Bool.false_eq_true, if_false]

theorem presentWait_full {w : Wait} {s : State} (h : s.sync.held.any (fun e => sourceOf e.who == sourceOf w.who) = false)
    (hv : w.holds (cellValue s w.cell) = false) (he : waitEntry s w = none) :
    presentWait w s = { s with sync := { s.sync with held := s.sync.held ++ [w] } } := by
  simp only [presentWait, h, hv, he, Bool.false_eq_true, if_false]

/-- A row that presents a wait treats it by whether an earlier one of its requester is held, whether it holds, and whether an entry is free. -/
theorem waits_of_presentWait {i : Instr} {w : Wait} {s : State} (h : exec i s = .next (presentWait w s)) : Claims.Waits i w s := by
  refine ⟨fun hb => ⟨fun hv => ?_, fun hv sh he => ?_, fun hv he => ?_⟩, fun hb => ?_⟩
  · rw [h, presentWait_holds hb hv]
  · rw [h, presentWait_enters hb hv he]
  · rw [h, presentWait_full hb hv he]
  · rw [h, presentWait_behind hb]

/-- Which entry a wait takes does not depend on the waits that are held. -/
theorem waitEntry_congr_held (l : List Wait) (s : State) (w : Wait) : waitEntry { s with sync := { s.sync with held := l } } w = waitEntry s w := rfl

/-! ### DMA descriptors -/

theorem exec_dmaSubmit_accepted {p : Packet} {s : State} (h : Accepted 0x0210 (chkDmaSubmit p) p s) :
    exec (.dmaSubmit p) s = .next (bodyDmaSubmit p (owe p s)) :=
  packetOut_plain (accept := acceptDmaSubmit) (body := fun _ t => bodyDmaSubmit p t) h rfl rfl

theorem logSkew_changes (u cause rep : Nat) (e : Word) (s : State) : Changes [.host, .regs, .chart, .bnd] s (logSkew u cause rep e s) := by
  intro p hp
  cases p <;> simp [logSkew] at hp ⊢

theorem logStale_changes (us : List Nat) (e : Word) (s : State) : Changes [.host, .regs, .chart, .bnd] s (logStale us e s) :=
  Changes.foldl (fun t u => logSkew_changes u 1 _ e t) us s

theorem value16_low (v : Nat) (s : State) : (value16 v s).1.toNat % 65536 = v % 65536 := by
  simp only [value16, freshValue, BitVec.toNat_ofNat]
  omega

theorem value16_changes (v : Nat) (s : State) : Changes [.free] s (value16 v s).2 := freshValue_changes s

theorem bodyDmaSubmit_refused {p : Packet} {s : State} {x : Ctx} {k st d : Nat} (hx : ctxOf s p.ctx = some x)
    (hf : dmaFirstFail s p.ctx p.params (dmaCount p) 0 = some (k, st, d)) : ∃ u, Changes [.host, .regs, .chart, .bnd] s u ∧
      bodyDmaSubmit p s = complete p 0x0210 st (some d) (some (value16 k u).1) 0xFFFF [] (value16 k u).2 := by
  refine ⟨if st = stCHARTSTALE then logStale (staleDies s (dmaBytes p.params k)) (BitVec.ofNat 32 (fieldAt (dmaBytes p.params k) 4 4)) s else s, ?_, ?_⟩
  · split
    · exact logStale_changes _ _ s
    · exact Changes.refl _ s
  · rw [bodyDmaSubmit, withCtx_loaded _ hx]
    simp only [hf]

/-- A descriptor's row moves its granules on an engine of the die that the module chooses. -/
theorem dmaRow_ready {op c id index count : Nat} {s : State} {x : Ctx} {w : Work} {g : Granule} (h : Claims.DmaReady op c id index count s x w g) :
    dmaRow op c id index count s = .next (runDma c w index count s) := by
  obtain ⟨hx, hw, hop, hi, hd, hissue, hst, hcount, hg, hwait, hdies, hord⟩ := h
  simp only [dmaRow, hx, hw]
  refine gate_of_true _ _ ?_
  have hissue' : (mayIssue s x || (w.st == .issued && mayRun s x)) = true := by simpa using hissue
  have hord' : (!dmaOrdered (dmaBytes w.raw index) || earlierDone x w index) = true := by
    cases ho : dmaOrdered (dmaBytes w.raw index) with
    | false => rfl
    | true => exact hord ho
  simp [hop, hi, hd, hissue', hst, hdies, hg, hcount, hwait, hord']

theorem runDma_moves {c index count n : Nat} {w : Work} {s t : State}
    (h : moveGranules c (dmaBytes w.raw index) (((dmaGranules (dmaBytes w.raw index)).drop (((w.dma[index]?).map DmaRun.written).getD 0)).take count)
      (atUnit (engineDie s).1 (engineDie s).2) = (t, n, none)) :
    runDma c w index count s = atRest (workMod c w.id (fun y => { y with
      started := true, st := .issued
      dma := lmod y.dma index (fun r => { r with started := true, written := ((w.dma[index]?).map DmaRun.written).getD 0 + n }) }) t) := by
  have hrun : runDma c w index count s = atRest (runGranulesOn (engineDie s).1 c w index count (atUnit (engineDie s).1 (engineDie s).2)) := rfl
  rw [hrun, runGranulesOn]
  simp only [h]

theorem dmaMoves_of_ready {op c id index count : Nat} {i : Instr} {s : State} {x : Ctx} {w : Work} {g : Granule}
    (hi : exec i s = dmaRow op c id index count s) (h : Claims.DmaReady op c id index count s x w g) : Claims.DmaMoves c index count i s w := by
  intro t n hm
  rw [hi, dmaRow_ready h, runDma_moves hm]

/-- The state in which a granule of a descriptor is noted as acknowledged. -/
def granuleAcked (c id index granule : Nat) (s : State) : State :=
  workMod c id (fun y => { y with dma := lmod y.dma index (fun q => { q with acked := granule :: q.acked }) }) s

theorem execDmaGranuleWriteAck_due {c id index granule : Nat} {s : State} {x : Ctx} {w : Work} {r : DmaRun}
    (h : Claims.AckDue c id index granule s x w r) : execDmaGranuleWriteAck c id index granule s = .next
      (if r.acked.length + 1 = (dmaGranules (dmaBytes w.raw index)).length then finishDma c w index (granuleAcked c id index granule s)
       else granuleAcked c id index granule s) := by
  obtain ⟨hx, hw, hr, hlt, hnew, hack⟩ := h
  simp only [execDmaGranuleWriteAck, hx, Option.bind_some, hw, hr]
  rw [if_pos ⟨hlt, hnew, hack⟩]
  rfl

/-- The end of the only descriptor of a work item adds to its cell and completes the command (R201, R252). -/
theorem finishDma_only {c : Nat} {w : Work} {r : DmaRun} (hw : w.dma = [r]) (hs : dmaSignal (dmaBytes w.raw 0) = true) (s : State) :
    finishDma c w 0 s = reschedule (finishWork c w 0 none none (syncAdd (dmaCell (dmaBytes w.raw 0)) (BitVec.ofNat 32 (fieldAt (dmaBytes w.raw 0) 60 4))
      (workMod c w.id (fun y => { y with dma := lmod y.dma 0 (fun r => { r with done := true }) }) s))) := by
  simp [finishDma, hs, hw, lmod]

theorem cellValue_workMod (c id : Nat) (f : Work → Work) (s : State) (k : Nat) : cellValue (workMod c id f s) k = cellValue s k := by
  simp only [cellValue, workMod_sync]

end Sys2Proof.Machine

namespace Sys2Proof
open Sys2Proof.Machine

/-- Settles O18: the range commands by what the range holds, SYNC_OP by whose cell it names. -/
theorem syncRanges : Obligations.SyncRanges := by
  unfold Obligations.SyncRanges Claims.syncAlloc Claims.syncAllocRefused Claims.syncFree Claims.syncOp Claims.syncOpRemote
  refine ⟨fun p s x h hx hn hr ho => ?_, fun p s x h hx hbad => ?_, fun p s x h hx hn ho => ?_, fun p s x h hx hr ho => ?_,
    fun p s x h hx hr => ?_⟩
  · refine ⟨_, (exec_syncAlloc_accepted h).trans (congrArg Host.Outcome.next
      (bodySyncAlloc_free ((ctxOf_owe p s _).trans hx) hn hr (by rw [owe_sync]; exact ho))), ?_, fun c hlo hhi => ?_, fun c hout => ?_, ?_, ?_⟩
    · rw [owe_sync]
    · simp only [cellValue, owe_sync]
      rw [tget_filter_key (fun k => !(decide (pf p 0 2 ≤ k) && decide (k < pf p 0 2 + pf p 2 2))), if_neg (by simp [hlo, hhi])]
      rfl
    · simp only [cellValue, owe_sync]
      rw [tget_filter_key (fun k => !(decide (pf p 0 2 ≤ k) && decide (k < pf p 0 2 + pf p 2 2))), if_pos (by simp; omega)]
    · rw [owe_ctxs]
    · rw [owe_mem]
  · rw [exec_syncAlloc_accepted h, bodySyncAlloc_taken ((ctxOf_owe p s _).trans hx) (by rw [owe_sync]; exact hbad)]
  · have hw : waitIn (owe p s) (pf p 0 2) (pf p 2 2) = waitIn s (pf p 0 2) (pf p 2 2) := by simp only [waitIn, owe_sync]
    rw [exec_syncFree_accepted h, bodySyncFree_owned ((ctxOf_owe p s _).trans hx) hn ((ownsRange_owe p s _ _ _).trans ho), hw]
    exact ⟨fun hi => by rw [hi, owe_sync]; rfl, fun hi => by rw [hi]; rfl⟩
  · rw [exec_syncOp_accepted h, bodySyncOp_own ((ctxOf_owe p s _).trans hx) hr ((ownsCell_owe p s _ _).trans ho), binnacleUnit_owe, owe_nextId,
      syncOpAccepted, syncWork_owe, owe_nextId]
  · refine ⟨_, (exec_syncOp_accepted h).trans (congrArg Host.Outcome.next (bodySyncOp_remote ((ctxOf_owe p s _).trans hx) hr)), ?_⟩
    rw [sendRemote_sync, binnacleUnit_owe, owe_nextId]
    simp [syncOpAccepted, reschedule]

/-- Settles O19: each operation by its effect on the cell, each wait by how it is presented. -/
theorem syncOperations : Obligations.SyncOperations := by
  unfold Obligations.SyncOperations Claims.read Claims.write Claims.add Claims.cas Claims.waitEq Claims.waitGe Claims.arrive Claims.waitsReleased
    Claims.waitHolds
  refine ⟨fun r cell s h => gate_of_true _ _ h, fun r cell v s h => gate_of_true _ _ h, fun r cell v s h => gate_of_true _ _ h,
    fun r cell c v s h => ⟨fun hc => ?_, fun hc => ?_⟩, fun r cell v s h => waits_of_presentWait (gate_of_true _ _ h),
    fun r cell v s h => waits_of_presentWait (gate_of_true _ _ h), fun r cell v t s h => gate_of_true _ _ h,
    fun cell v s => ⟨fun w hw hcell => ?_, fun w hw hcell => ?_, fun w hw hcell hv => ?_, cellValue_cellWrite_same cell v s⟩,
    fun cell v x r sh => ⟨?_, ?_⟩⟩
  · refine (gate_of_true _ _ h).trans ?_
    simp only [syncApply, hc, if_true, cellWrite]
  · refine (gate_of_true _ _ h).trans ?_
    simp only [syncApply, hc, if_false]
  · rw [cellWrite_waits, List.mem_filter] at hw
    simpa [hcell] using hw.2
  · rw [cellWrite_waits, List.mem_filter]
    exact ⟨hw, by simp [hcell]⟩
  · rw [cellWrite_releases]
    exact List.mem_append_right _ (List.mem_map.mpr ⟨w, List.mem_filter.mpr ⟨hw, by simp [hcell, hv]⟩, rfl⟩)
  · simp [Wait.holds]
  · simp [Wait.holds, wrapGe]

/-- Settles O20: a wave by the first release that stands at it, a held wait by whether it holds or takes an entry. -/
theorem syncReleases : Obligations.SyncReleases := by
  unfold Obligations.SyncReleases Claims.waitReleaseWave Claims.waitEntryFree Claims.remoteSyncReply
  refine ⟨fun wave s x hx => ⟨?_, fun r hr hop => ?_⟩, fun die s w t hw ht => ?_, fun seq v s a b c r hr => ?_⟩
  · have hop : waveOp s wave = some x.op := by rw [waveOp, hx, Option.map_some]
    have hexec : exec (.waitReleaseWave wave) s = execWaitReleaseWave wave s := rfl
    rw [hexec]
    simp only [execWaitReleaseWave, hop]
  · have hp := List.find?_some hx
    simp only [Bool.and_eq_true, beq_iff_eq, waveDue, List.all_eq_true] at hp
    obtain ⟨hwave, hall⟩ := hp
    have hle := hall r hr
    simpa [hop, hwave] using hle
  · have hexec : exec (.waitEntryFree die) s = .next (presentHeld w s) := by
      have : exec (.waitEntryFree die) s = execWaitEntryFree die s := rfl
      rw [this]
      simp only [execWaitEntryFree, hw]
    subst ht
    refine ⟨fun hv => ?_, fun hv sh he => ?_⟩
    · rw [hexec, presentHeld]
      exact congrArg Host.Outcome.next (if_pos hv)
    · rw [hexec, presentHeld]
      refine congrArg Host.Outcome.next ((if_neg (fun hc => Bool.false_ne_true (hv.symm.trans hc))).trans ?_)
      rw [waitEntry_congr_held, he]
  · have hexec : exec (.remoteSyncReply seq v) s = execRemoteSyncReply seq v s := rfl
    rw [hexec]
    simp only [execRemoteSyncReply, hr]

/-- Settles O21: a DMA_SUBMIT by the first descriptor that fails, the moves by their granules, an acknowledgement by whether it is the last. -/
theorem dmaTransfers : Obligations.DmaTransfers := by
  unfold Obligations.DmaTransfers Claims.dmaSubmit Claims.dmaSubmitRefused Claims.copy Claims.fill Claims.copy2d Claims.dmaGranuleWriteAck Claims.dmaLastAck
  refine ⟨fun p s x h hx hf => ?_, fun p s x k st d h hx hf => ?_, fun c id index count s x w g h => dmaMoves_of_ready rfl h,
    fun c id index count s x w g h => dmaMoves_of_ready rfl h, fun c id index count s x w g h => dmaMoves_of_ready rfl h,
    fun c id index granule s x w r h hne => ?_, fun c id granule s x w r h hw hlast hs => ?_⟩
  · rw [exec_dmaSubmit_accepted h, bodyDmaSubmit, withCtx_loaded _ ((ctxOf_owe p s _).trans hx)]
    simp only [hf, freshId, owe_nextId, owe_dev]
    rfl
  · obtain ⟨u, hu, hbody⟩ := bodyDmaSubmit_refused ((ctxOf_owe p s _).trans hx) hf
    have hch := hu.andThen (value16_changes k u)
    exact ⟨_, _, (exec_dmaSubmit_accepted h).trans (congrArg Host.Outcome.next hbody), value16_low k u,
      (hch.keeps_ctxs (by decide)).trans (owe_ctxs p s), (hch.keeps_mem (by decide)).trans (owe_mem p s)⟩
  · exact (execDmaGranuleWriteAck_due h).trans (congrArg Host.Outcome.next (if_neg hne))
  · have hack := (execDmaGranuleWriteAck_due h).trans (congrArg Host.Outcome.next (if_pos hlast))
    refine ⟨_, hack.trans (congrArg Host.Outcome.next (finishDma_only hw hs _)), ?_, fun k hk => ?_, ?_⟩
    · rw [syncAdd, cellValue_cellWrite_same, cellValue_workMod, granuleAcked, cellValue_workMod]
    · rw [syncAdd, cellValue_cellWrite, if_neg hk, cellValue_workMod, granuleAcked, cellValue_workMod]
    · simp [granuleAcked]

end Sys2Proof
end

section
/-! SUPPORT. Kernel descriptors at their dispatch, issue and completion, the kernels that an issued descriptor runs, chains on the gangs, halo stamps
and stripe sets, case by case (R27, R30, R64 to R86, R110 to R124, R137 to R151, R217, R252). -/
namespace Sys2Proof.Machine

/-! ### Dispatch and issue -/

theorem exec_kernelDispatch_accepted {p : Packet} {s : State} (h : Accepted 0x0300 (chkKernel p (owe p s)) p s) :
    exec (.kernelDispatch p) s = .next (bodyKernel p (owe p s)) :=
  packetOut_plain (accept := acceptKernel) (body := fun _ t => bodyKernel p t) h rfl rfl

theorem bodyKernel_placed {p : Packet} {s : State} {x : Ctx} (hx : ctxOf s p.ctx = some x)
    (hr : firstBad (kernelRefusals s x p.ctx (queueOf p) (kernelWork p s.nextId)) = none) :
    bodyKernel p s = placeKernel p.ctx (kernelWork p s.nextId) { s with nextId := s.nextId + 1 } := by
  rw [bodyKernel, withCtx_loaded _ hx]
  simp only [freshId, hr]

theorem bodyKernel_refused {p : Packet} {s : State} {x : Ctx} {st : Nat} {d : Option Nat} (hx : ctxOf s p.ctx = some x)
    (hr : firstBad (kernelRefusals s x p.ctx (queueOf p) (kernelWork p s.nextId)) = some (st, d)) :
    bodyKernel p s = complete p 0x0300 st d none 0xFFFF [] s := by
  rw [bodyKernel, withCtx_loaded _ hx]
  simp only [freshId, hr]

theorem issueWork_current {c : Nat} {x : Ctx} {w : Work} {s : State} (h : staleClusters s w = []) : issueWork c x w s =
    noteBegun x w (noteStripes c (Claims.issuedWork s x w) (workMod c w.id (fun _ => Claims.issuedWork s x w) s)) := by
  simp only [issueWork, h]
  rfl

theorem issueWork_stale {c : Nat} {x : Ctx} {w : Work} {s : State} {l ph : Nat} {r : List (Nat × Nat)} (h : staleClusters s w = (l, ph) :: r) :
    issueWork c x w s = endWork c w stCHARTSTALE (some (uCluster ph)) (logStaleClusters ((0, ph) :: r) w.epoch s) := by
  simp only [issueWork, h]

theorem exec_descriptorIssue {c id : Nat} {s : State} {x : Ctx} {w : Work} (h : Claims.IsWork c id s x w) (ho : w.opcode = 0x0300)
    (hw : w.st = .waiting) (hm : mayStart s x w = true) : exec (.descriptorIssue c id) s = .next (issueWork c x w s) := by
  obtain ⟨hx, hid⟩ := h
  have hexec : exec (.descriptorIssue c id) s = execDescriptorIssue c id s := rfl
  rw [hexec]
  simp only [execDescriptorIssue, hx, hid]
  exact gate_of_true _ _ (by simp [ho, hw, hm])

theorem exec_deferredIdleIssue {c id : Nat} {s : State} {x : Ctx} {w : Work} (h : Claims.IsWork c id s x w) (hw : w.st = .deferred)
    (hm : mayStart s x w = true) (hd : w.clusters.any (deferredOnly s) = true) :
    exec (.deferredIdleIssue c id) s = .next (issueWork c x w s) := by
  obtain ⟨hx, hid⟩ := h
  have hexec : exec (.deferredIdleIssue c id) s = execDeferredIdleIssue c id s := rfl
  rw [hexec]
  simp only [execDeferredIdleIssue, hx, hid]
  exact gate_of_true _ _ (by rw [hw, hm, hd]; rfl)

/-! ### Kernels -/

/-- A work item found by its number has it. -/
theorem work_id {x : Ctx} {id : Nat} {w : Work} (h : x.work id = some w) : w.id = id := by
  simpa using List.find?_some h

/-- A step of a work item with no deleted record kept aside runs on the context's records as they stand (R252). -/
theorem withRecords_of_noDead {c id : Nat} {s : State} {x : Ctx} (f : State → State) (hx : ctxOf s c = some x) (hd : deadFor x id = []) :
    withRecords c id f s = f s := by
  simp only [withRecords, hx, hd]

/-- The condition on a deferred descriptor, as the rows test it (R140). -/
theorem mayDefer_test {s : State} {w : Work} (h : Claims.MayDefer s w) :
    (!w.deferWg || w.promoted || w.clusters.any (deferredOnly s)) = true := by
  rw [Bool.or_eq_true, Bool.or_eq_true, Bool.not_eq_true', or_assoc]
  exact h

theorem onCluster_eq (w : Work) (f : State → State) (s : State) : onCluster w f s = atRest (f (atWork w s)) := rfl

theorem kernelRow_ready {op c id : Nat} {s : State} {x : Ctx} {w : Work} (run : Ctx → Work → State → State) (h : Claims.KernelReady op c id s x w) :
    kernelRow op c id run s = .next (atRest (run x w (atWork w s))) := by
  obtain ⟨⟨⟨hx, hid⟩, ho, hop, hst, hrun, hcl, hdef, hdead⟩, hstart⟩ := h
  simp only [kernelRow, hx, hid]
  rw [withRecords_of_noDead _ hx hdead, onCluster_eq]
  exact gate_of_true _ _ (by rw [mayDefer_test hdef]; simp [ho, hop, hst, hrun, hstart, hcl])

theorem slidingRow_issued {op c id : Nat} {s : State} {x : Ctx} {w : Work} (run : Ctx → Work → State → State) (h : Claims.KernelIssued op c id s x w)
    (hr : readyStripes x w ≠ []) : slidingRow op c id run s = .next (atRest (run x w (atWork w s))) := by
  obtain ⟨⟨hx, hid⟩, ho, hop, hst, hrun, hcl, hdef, hdead⟩ := h
  simp only [slidingRow, hx, hid]
  rw [withRecords_of_noDead _ hx hdead, onCluster_eq]
  exact gate_of_true _ _ (by rw [mayDefer_test hdef]; simp [ho, hop, hst, hrun, hr, hcl])

theorem arrayStarts_of_ready {op c id : Nat} {i : Instr} {s : State} {x : Ctx} {w : Work} (hi : exec i s = kernelRow op c id (startArrays c) s)
    (h : Claims.KernelReady op c id s x w) : Claims.ArrayStarts c i s x w := by
  intro t X hf hX
  rw [hi, kernelRow_ready _ h]
  simp only [startArrays, hf, hX]

theorem runStripes_runs {c planes per : Nat} {x : Ctx} {w : Work} {one : Nat → List Nat → State → Except (AccErr × Access) State} {s t u : State}
    (hf : (if w.started then .ok s else writeFrame c x w s) = .ok t)
    (hl : runList one ((stripeGranules x w planes per).filter (fun e => decide (e.2.1 ∈ readyStripes x w) && !granuleMade w e.1)) t = (u, none)) :
    runStripes c x w planes per one s = workMod c w.id (fun y => { y with
      started := true, parts := (stripeGranules x w planes per).length, ran := (readyStripes x w).foldl ninsert y.ran }) u := by
  simp only [runStripes, hf, hl]

theorem stripesRun_of_issued {op c id planes per : Nat} {i : Instr} {s : State} {x : Ctx} {w : Work}
    {one : Nat → List Nat → State → Except (AccErr × Access) State} {run : Ctx → Work → State → State} (hi : exec i s = slidingRow op c id run s)
    (hrun : run x w (atWork w s) = runStripes c x w planes per one (atWork w s)) (h : Claims.KernelIssued op c id s x w) (hr : readyStripes x w ≠ []) :
    Claims.StripesRun c planes per one i s x w := by
  intro t u hf hl
  rw [hi, slidingRow_issued _ h hr, hrun, runStripes_runs hf hl]

theorem runVector_runs {c total : Nat} {x : Ctx} {w : Work} {o : OutSpec} {f : State → Nat → Except AccErr (OutVal × Nat)} {s t u : State}
    (hf : writeFrame c x w s = .ok t)
    (hg : runGranules c w o f total (granuleElems t c w) (granuleCount t c w total - w.resume) w.resume t = (u, none)) :
    runVector c x w o total f s = workMod c w.id (fun y => { y with started := true, parts := granuleCount t c w total }) u := by
  simp only [runVector, hf, hg]

theorem exec_gatherSum_ready {c id : Nat} {s : State} {x : Ctx} {w : Work} (h : Claims.KernelReady 0x10 c id s x w) :
    exec (.gatherSum c id) s = .next (atRest (runGather c x w (atWork w s))) :=
  kernelRow_ready (runGather c) h

theorem runUpdate_updates {c : Nat} {x : Ctx} {w : Work} {s t : State} {groups l : List (List Byte)}
    (hg : mapAcc (fun k => vaRead s c (w.groupVa + 64 * k) 64) (List.range w.groupCount) = .ok groups) (hl : updateEntries s c w = .ok l)
    (hge : groups.all groupEntryOk = true) (hle : l.all (paramEntryOk groups) = true)
    (hrec : l.filterMap (paramRecords s c groups (w.step % 2)) = []) (hin : inRegions s c w.groupVa (64 * w.groupCount) = true)
    (hcov : l.all (paramCovered s c) = true) (hfit : scratchFits s c w (paramsOf s c w groups l) = true)
    (hu : updateParams c w (paramsOf s c w groups l) 0 s = (t, none)) : runUpdate c x w s = workMod c w.id (fun y => { y with
      started := true, parts := ((paramsOf s c w groups l).map Param.granules).sum }) t := by
  simp only [runUpdate, hg, hl, hge, hle, hrec, hin, hcov, hfit, runParams, hu, List.head?_nil, Bool.and_self, Bool.not_true, Bool.false_eq_true, if_false]

/-! ### Gangs -/

theorem gangOf_setGang (l g : Nat) (x : Gang) (s : State) (h : Nat) : gangOf (setGang l g x s) l h = if h = g then x else gangOf s l h := by
  have hkey : 4 * l + h = 4 * l + g ↔ h = g := by omega
  unfold gangOf setGang
  dsimp only
  by_cases hx : x = {}
  · rw [if_pos hx, tget_tdel]
    by_cases hg : h = g
    · rw [if_pos (hkey.mpr hg), if_pos hg, hx]
      rfl
    · rw [if_neg (fun hk => hg (hkey.mp hk)), if_neg hg]
  · rw [if_neg hx, tget_tset]
    by_cases hg : h = g
    · rw [if_pos (hkey.mpr hg), if_pos hg]
      rfl
    · rw [if_neg (fun hk => hg (hkey.mp hk)), if_neg hg]

theorem gangOf_setGang_same (l g : Nat) (x : Gang) (s : State) : gangOf (setGang l g x s) l g = x := by
  rw [gangOf_setGang, if_pos rfl]

theorem gangOf_setGang_other {l g h : Nat} (x : Gang) (s : State) (hg : h ≠ g) : gangOf (setGang l g x s) l h = gangOf s l h := by
  rw [gangOf_setGang, if_neg hg]

/-- The gangs are read from their own table alone. -/
theorem gangOf_congr {s t : State} (h : t.arrays.gangs = s.arrays.gangs) (l g : Nat) : gangOf t l g = gangOf s l g := by
  simp only [gangOf, h]

theorem gangOf_dropRun (l g : Nat) (s : State) (h : Nat) :
    gangOf (dropRun l g s) l h = if h = g then { gangOf s l g with run := none } else gangOf s l h :=
  gangOf_setGang l g _ s h

theorem gangOf_toDrain (l g : Nat) (r : ChainRun) (s : State) (h : Nat) : gangOf (toDrain l g r s) l h =
    if h = fileAt r.mode r.gang then { gangOf (dropRun l g s) l (fileAt r.mode r.gang) with drain := some r } else gangOf (dropRun l g s) l h :=
  gangOf_setGang l _ _ _ h

theorem toDrain_drain (l g : Nat) (r : ChainRun) (s : State) (h : Nat) :
    (gangOf (toDrain l g r s) l h).drain = if h = fileAt r.mode r.gang then some r else (gangOf s l h).drain := by
  rw [gangOf_toDrain, gangOf_dropRun, gangOf_dropRun]
  split
  · rfl
  · split
    next hg => rw [hg]
    · rfl

theorem toDrain_run (l g : Nat) (r : ChainRun) (s : State) (h : Nat) :
    (gangOf (toDrain l g r s) l h).run = if h = g then none else (gangOf s l h).run := by
  rw [gangOf_toDrain, gangOf_dropRun, gangOf_dropRun]
  by_cases hf : h = fileAt r.mode r.gang
  · subst hf
    rw [if_pos rfl]
    split <;> rfl
  · rw [if_neg hf]
    split <;> rfl

/-- What a chain run belongs to names its context. -/
theorem runningOf_ctx {s : State} {r : ChainRun} {k : Running} (h : runningOf s r = some k) : ctxOf s r.ctx = some k.x := by
  obtain ⟨x, hx, w, hw, ch, hch, rfl⟩ : ∃ x, ctxOf s r.ctx = some x ∧ ∃ w, x.work r.id = some w ∧ ∃ ch, (chainsOf x w)[r.chain]? = some ch ∧
      (⟨x, w, ch, tilesOf s r.ctx w ch⟩ : Running) = k := by
    simpa [runningOf, Option.bind_eq_some_iff] using h
  exact hx

/-- An event of the chain that a gang passes runs on the state in which the gang's cluster works. -/
theorem withRun_runs {l g : Nat} {s : State} {r : ChainRun} {k : Running} {ok : ChainRun → Running → Bool} (f : ChainRun → Running → State → State)
    (h : Claims.Runs l g s r k) (hok : ok r k = true) : withRun l g s ok f = .next (atRest (f r k (atUnit (uCluster (carrier s l)) s))) := by
  obtain ⟨hr, hk, hd⟩ := h
  have hx : ctxOf s r.ctx = some k.x := runningOf_ctx hk
  simp only [withRun, hr, hk]
  rw [withRecords_of_noDead _ hx hd]
  exact gate_of_true _ _ hok

/-- What the passing of a tile leaves does not depend on the unit whose translation cache the cluster reads through. -/
theorem noteMiss_passedTile (u c l g : Nat) (x : Ctx) (w : Work) (r : ChainRun) (codes : List Nat) (accs : List Acc) (f : ArrayCounts → ArrayCounts)
    (s : State) : noteMiss c l x w (countArray l f (setGang l g
      { gangOf (atUnit u s) l g with run := some { r with shadow := none, live := codes, passed := r.passed + 1, accs := accs } } (atUnit u s))) =
        atUnit u (noteMiss c l x w (countArray l f (Claims.passedTile l g r codes accs s))) := by
  unfold noteMiss
  split <;> rfl

theorem startChain_ctxs_kept {c chain l g : Nat} {x : Ctx} {w : Work} {s : State} (h : tget w.abandoned chain = none) :
    (startChain c x w chain l g s).ctxs = s.ctxs := by
  simp only [startChain, h, Option.isSome_none, Bool.false_eq_true, if_false]
  rfl

/-- A change of a work item is found under its number where it keeps it. -/
theorem work_workMod {c id : Nat} {s : State} {x : Ctx} {w : Work} (f : Work → Work) (hf : ∀ v, (f v).id = v.id) (hx : ctxOf s c = some x)
    (hw : x.work id = some w) : (ctxOf (workMod c id f s) c).bind (fun y => y.work id) = some (f w) := by
  have hfind (ws : List Work) : (ws.map (fun v => if v.id = id then f v else v)).find? (fun v => v.id == id) =
      (ws.find? (fun v => v.id == id)).map f := by
    induction ws with
    | nil => rfl
    | cons v ws ih =>
      by_cases hv : v.id = id
      · simp [hv, hf]
      · simp [hv, ih]
  simp only [ctxOf] at hx ⊢
  simp only [workMod, ctxMod, tget_tmod, if_true, hx, Option.map_some, Option.bind_some]
  exact (hfind x.works).trans (congrArg (Option.map f) hw)

theorem drainSet_writes {l g flags : Nat} {r : ChainRun} {k : Running} {s t : State} {counts : WatchLive}
    (h : writeElems r.ctx (outSpecOf k.w) k.w.step k.w.origin (drainList r k) (s, {}, 0) = .ok (t, counts, flags)) : drainSet l g r k s =
      countArray l (fun n => { n with chains := sat32 n.chains 1 })
        (partDone r.ctx k.w r.chain ⟨r.chain, k.w.outTensor, counts, BitVec.ofNat 32 flags, none⟩
          (if k.w.astk = 1 then keepPart r.ctx l (k.w.outVa - 64) (k.ch.rows.length * k.ch.cols.length * k.w.outBytes) (dropDrain l g t)
           else dropDrain l g t)) := by
  simp only [drainSet, h]

/-! ### The start of a chain -/

/-- The chain run that CHAIN_START sets. -/
def firstRun (c : Nat) (x : Ctx) (w : Work) (chain g : Nat) : ChainRun :=
  { ctx := c, id := w.id, chain := chain, mode := w.gang, gang := g
    accs := match (chainsOf x w)[chain]? with
      | some ch => List.replicate (ch.rows.length * ch.cols.length) {}
      | none => [] }

/-- The state in which a gang has taken a chain, before an abandoned one takes the current epoch. -/
def chainTaken (c : Nat) (x : Ctx) (w : Work) (chain l g : Nat) (s : State) : State :=
  let t := countArray l (fun n => { n with ran := true })
    (setGang l (gangAt w.gang g) { gangOf s l (gangAt w.gang g) with run := some (firstRun c x w chain g) } s)
  { t with arrays := { t.arrays with turns := tset t.arrays.turns (4 * l + gangAt w.gang g) c
                                     idents := tset t.arrays.idents (4 * carrier s l + gangAt w.gang g) l } }

theorem startChain_eq (c : Nat) (x : Ctx) (w : Work) (chain l g : Nat) (s : State) : startChain c x w chain l g s =
    if (tget w.abandoned chain).isSome then
      workMod c w.id (fun y => { y with epoch := s.chart.epoch, abandoned := tdel y.abandoned chain }) (chainTaken c x w chain l g s)
    else chainTaken c x w chain l g s := rfl

/-- The arrays after CHAIN_START do not depend on whether the chain was abandoned. -/
theorem startChain_arrays (c : Nat) (x : Ctx) (w : Work) (chain l g : Nat) (s : State) :
    (startChain c x w chain l g s).arrays = (chainTaken c x w chain l g s).arrays := by
  rw [startChain_eq]
  split
  · exact workMod_arrays _ _ _ _
  · rfl

theorem gangOf_startChain (c : Nat) (x : Ctx) (w : Work) (chain l g : Nat) (s : State) :
    gangOf (startChain c x w chain l g s) l (gangAt w.gang g) =
      { gangOf s l (gangAt w.gang g) with run := some (firstRun c x w chain g) } := by
  refine (gangOf_congr ?_ l _).trans (gangOf_setGang_same l (gangAt w.gang g) _ s)
  rw [startChain_arrays]
  rfl

theorem startChain_mem (c : Nat) (x : Ctx) (w : Work) (chain l g : Nat) (s : State) : (startChain c x w chain l g s).mem = s.mem := by
  rw [startChain_eq]
  split
  · exact workMod_mem _ _ _ _
  · rfl

theorem firstRun_accs (c : Nat) (x : Ctx) (w : Work) (chain g : Nat) : ∀ a ∈ (firstRun c x w chain g).accs, a = {} := by
  intro a ha
  unfold firstRun at ha
  dsimp only at ha
  split at ha
  · exact List.eq_of_mem_replicate ha
  · cases ha

/-- An abandoned chain that starts again carries the current epoch (R30). -/
theorem startChain_epoch {c id chain l g : Nat} {x : Ctx} {w : Work} {s : State} (hx : ctxOf s c = some x) (hw : x.work id = some w)
    (h : tget w.abandoned chain ≠ none) :
    ((ctxOf (startChain c x w chain l g s) c).bind (fun y => y.work id)).map Work.epoch = some s.chart.epoch := by
  have hctx : ctxOf (chainTaken c x w chain l g s) c = some x := hx
  rw [startChain_eq, if_pos (Option.isSome_iff_ne_none.mpr h), work_id hw]
  rw [work_workMod (fun y => { y with epoch := s.chart.epoch, abandoned := tdel y.abandoned chain }) (fun _ => rfl) hctx hw]
  rfl

/-! ### Halo stamps -/

theorem execHaloStamp_due {c id stripe l : Nat} {done : Bool} {s : State} {x : Ctx} {w : Work} {t : StripeSet} (h : Claims.IsWork c id s x w)
    (ht : outStripes x w = some t) (hl : t.clusters[stripe]? = some l) (hs : w.started = true)
    (hn : w.haloBase + 2 * stripe + (if done then 1 else 0) ∉ w.stamps) (hr : rowsWritten x w stripe (coveredRows w t stripe done) = true)
    (ha : writesAcked s (uCluster (carrier s l)) = true) : execHaloStamp c id stripe done s = .next
      (if uCluster (carrier s l) ∈ s.chart.fence then s
       else workMod c id (fun y => { y with stamps := (w.haloBase + 2 * stripe + (if done then 1 else 0)) :: y.stamps })
         (cellWrite (w.haloBase + 2 * stripe + (if done then 1 else 0)) (stampValue w.step w.haloPass) s)) := by
  obtain ⟨hx, hid⟩ := h
  have hlt : stripe < t.clusters.length := (List.getElem?_eq_some_iff.mp hl).1
  simp only [execHaloStamp, hx, hid, ht, hl, Option.all_some, Option.any_some, decide_eq_true_eq]
  exact gate_of_true _ _ (by simp only [hlt, hs, hn, hr, ha, decide_true, not_false_iff, Bool.and_self])

/-! ### Stripe sets -/

theorem exec_stripeSet_accepted {p : Packet} {s : State} (h : Accepted 0x0310 (chkStripeSet p (owe p s)) p s) :
    exec (.stripeSet p) s = .next (bodyStripeSet p (owe p s)) :=
  packetOut_plain (accept := acceptStripeSet) (body := fun _ t => bodyStripeSet p t) h rfl rfl

theorem bodyStripeSet_good {p : Packet} {s : State} {x : Ctx} (hx : ctxOf s p.ctx = some x) (hb : setShapeBad p = false) :
    bodyStripeSet p s = completeOk p 0x0310 (ctxMod p.ctx (fun y =>
      if x.bound then { y with newStripes := tset y.newStripes (pf p 0 1) (setOf p) }
      else { y with stripes := tset y.stripes (pf p 0 1) (setOf p) }) s) := by
  rw [bodyStripeSet, withCtx_loaded _ hx]
  simp only [hb, Bool.false_eq_true, if_false]

end Sys2Proof.Machine

namespace Sys2Proof
open Sys2Proof.Machine

/-- Settles O22: a dispatch by the first check that refuses it, an issue by the units with a newer change epoch, a completion by its test. -/
theorem dispatch : Obligations.Dispatch := by
  unfold Obligations.Dispatch Claims.kernelDispatch Claims.kernelDispatchRefused Claims.descriptorIssue Claims.descriptorStale
    Claims.deferredIdleIssue Claims.kernelComplete
  refine ⟨fun p s x h hx hr => ?_, fun p s x st d h hx hr => ?_, fun c id s x w h ho hw hm hs => ?_, fun c id s x w l ph r h ho hw hm hs => ?_,
    fun c id s x w h hw hm hd hs => ?_, fun c id s x w h ho hst hs hp hh hd hsig => ?_⟩
  · rw [exec_kernelDispatch_accepted h, bodyKernel_placed ((ctxOf_owe p s _).trans hx) (by rw [owe_nextId]; exact hr), owe_nextId]
  · rw [exec_kernelDispatch_accepted h, bodyKernel_refused ((ctxOf_owe p s _).trans hx) (by rw [owe_nextId]; exact hr)]
  · rw [exec_descriptorIssue h ho hw hm, issueWork_current hs]
  · rw [exec_descriptorIssue h ho hw hm, issueWork_stale hs]
  · rw [exec_deferredIdleIssue h hw hm hd, issueWork_current hs]
  · obtain ⟨hx, hid⟩ := h
    have hexec : exec (.kernelComplete c id) s = execKernelComplete c id s := rfl
    rw [hexec]
    simp only [execKernelComplete, hx, hid]
    exact gate_of_true _ _ (by simp [ho, hst, hs, hp, hh, hd, hsig])

/-- Settles O23: each kernel by the row that runs it on a cluster of its own. -/
theorem kernels : Obligations.Kernels := by
  unfold Obligations.Kernels Claims.matmul Claims.conv Claims.convT Claims.poolMax Claims.poolAvg Claims.argmaxC Claims.gatherSum
    Claims.gatherSumRefused Claims.update Claims.program
  refine ⟨fun c id s x w h => arrayStarts_of_ready rfl h, fun c id s x w h => arrayStarts_of_ready rfl h,
    fun c id s x w h => arrayStarts_of_ready rfl h, fun c id s x w h hr => stripesRun_of_issued rfl rfl h hr,
    fun c id s x w h hr => stripesRun_of_issued rfl rfl h hr, fun c id s x w h hr => stripesRun_of_issued rfl rfl h hr,
    fun c id s x w h hs t u hf hg => ?_, fun c id s x w h hs => ?_, fun c id s x w groups l t h hg hl hge hle hrec hin hcov hfit hu => ?_,
    fun c id ops s x w h => ⟨fun t hi hf => ?_, fun d hi => ?_⟩⟩
  · rw [exec_gatherSum_ready h]
    simp only [runGather, hs, Bool.false_eq_true, if_false]
    rw [runVector_runs hf hg]
  · rw [exec_gatherSum_ready h]
    simp only [runGather, hs, if_true]
  · have hexec : exec (.update c id) s = .next (atRest (runUpdate c x w (atWork w s))) := kernelRow_ready (runUpdate c) h
    rw [hexec, runUpdate_updates hg hl hge hle hrec hin hcov hfit hu]
  · have hexec : exec (.program c id ops) s = .next (atRest (runProgram ops c x w (atWork w s))) := kernelRow_ready (runProgram ops c) h
    obtain ⟨⟨⟨_, hid⟩, _⟩, _⟩ := h
    rw [hexec]
    simp only [runProgram, hi, hf, work_id hid]
  · have hexec : exec (.program c id ops) s = .next (atRest (runProgram ops c x w (atWork w s))) := kernelRow_ready (runProgram ops c) h
    rw [hexec]
    simp only [runProgram, hi]

/-- Settles O24: the events of a chain by what stands on its gang, granules and stamps by their units, stripe sets by whether a job is bound. -/
theorem arraysAndStripes : Obligations.ArraysAndStripes := by
  unfold Obligations.ArraysAndStripes Claims.chainStart Claims.shadowLoadComplete Claims.swapToken Claims.chainComplete Claims.drainComplete
    Claims.vectorGranuleComplete Claims.haloStamp Claims.stripeSet Claims.stripeGet
  refine ⟨fun c id chain l g s x w h hm ht hi => ?_, fun l g s r k codes h hs hn hi ht => ?_, fun l g s r k tile codes accs h hs hi hp => ?_,
    fun l g s r k h hp hf => ?_, fun l g s r k t counts flags hoff hfail hr hk hd hwr => ?_, fun c id granule s x w h hd hne hs => ?_,
    fun c id stripe done s x w t l h ht hl hs hn hr ha => ?_, fun p s x h hx hb => ⟨fun hbound => ?_, fun hbound => ?_⟩,
    fun p s x h hx => ⟨fun t ht => ?_, fun h1 h2 => ?_⟩⟩
  · obtain ⟨hx, hid⟩ := h
    have hexec : exec (.chainStart c id chain l g) s = .next (startChain c x w chain l g s) := by
      have he : exec (.chainStart c id chain l g) s = execChainStart c id chain l g s := rfl
      rw [he]
      simp only [execChainStart, hx, hid]
      exact gate_of_true _ _ (by simp [hm, ht, hi])
    refine ⟨_, firstRun c x w chain g, hexec, ?_, rfl, work_id hid, rfl, rfl, rfl, rfl, rfl, firstRun_accs c x w chain g, ?_,
      startChain_mem c x w chain l g s, ?_, ?_, startChain_ctxs_kept, startChain_epoch hx hid⟩
    · rw [gangOf_startChain]
    · rw [gangOf_startChain]
    · rw [startChain_arrays]
      exact tget_tset_same _ _ _
    · rw [startChain_arrays]
      exact tget_tset_same _ _ _
  · have hexec : exec (.shadowLoadComplete l g) s = _ := withRun_runs (loadTile l g) h (by simp [hs, hn, hi])
    rw [hexec]
    simp only [loadTile, ht]
    rfl
  · have hexec : exec (.swapToken l g) s = _ := withRun_runs (swapTile l g) h (by simp [hs, hi])
    rw [hexec]
    simp only [swapTile, hs, hp]
    refine ⟨fun hlt => ?_, fun hle hdef => ?_, fun hle hdef hprom => ?_⟩
    · simp only [hlt, decide_true, if_true, not_true, and_false, if_false]
      rw [noteMiss_passedTile]
      rfl
    · have hno : ¬ (k.w.deferWg = true ∧ ¬ k.w.promoted = true ∧ ¬ decide (r.passed < (tget k.w.redo r.chain).getD 0) = true) := by
        rintro ⟨h1, h2, -⟩
        obtain hdef | hdef := hdef
        · rw [hdef] at h1
          cases h1
        · exact h2 hdef
      rw [if_neg hno]
      simp only [Nat.not_lt.mpr hle, decide_false, Bool.false_eq_true, if_false]
      rw [noteMiss_passedTile]
      rfl
    · simp only [Nat.not_lt.mpr hle, decide_false, hdef, hprom, Bool.false_eq_true, not_false_iff, and_self, if_true, if_false]
      rw [noteMiss_passedTile]
      rfl
  · have hexec : exec (.chainComplete l g) s = _ := withRun_runs (fun r _ t => toDrain l g r t) h (by simp [hp, hf])
    refine ⟨_, hexec, ?_, ?_, fun q hq => ?_, fun q hq => ?_, rfl, rfl⟩
    · exact (toDrain_drain l g r _ _).trans (if_pos rfl)
    · exact (toDrain_run l g r _ _).trans (if_pos rfl)
    · exact (toDrain_drain l g r _ _).trans (if_neg hq)
    · exact (toDrain_run l g r _ _).trans (if_neg hq)
  · have hx : ctxOf s r.ctx = some k.x := runningOf_ctx hk
    have hexec : exec (.drainComplete l g) s = execDrainComplete l g s := rfl
    rw [hexec]
    simp only [execDrainComplete, hr, hk]
    rw [withRecords_of_noDead _ hx hd]
    refine (gate_of_true _ _ (by simp [hoff, hfail])).trans ?_
    exact congrArg (fun u => Host.Outcome.next (atRest u)) (drainSet_writes hwr)
  · obtain ⟨hx, hid⟩ := h
    have hexec : exec (.vectorGranuleComplete c id granule) s = execVectorGranuleComplete c id granule s := rfl
    rw [hexec]
    simp only [execVectorGranuleComplete, hx, Option.bind_some, hid]
    rw [withRecords_of_noDead _ hx hd]
    refine gate_of_true _ _ ?_
    rw [Bool.and_eq_true, decide_eq_true_eq, List.all_eq_true]
    refine ⟨hne, fun q hq => ?_⟩
    rw [List.mem_filter] at hq
    exact hs q hq.1 (by simpa using hq.2)
  · have hexec : exec (.haloStamp c id stripe done) s = execHaloStamp c id stripe done s := rfl
    rw [hexec, execHaloStamp_due h ht hl hs hn hr ha]
    exact ⟨fun hf => by rw [if_neg hf]; rfl, fun hf => by rw [if_pos hf]⟩
  · rw [exec_stripeSet_accepted h, bodyStripeSet_good ((ctxOf_owe p s _).trans hx) hb]
    simp only [hbound, if_true]
  · rw [exec_stripeSet_accepted h, bodyStripeSet_good ((ctxOf_owe p s _).trans hx) hb]
    simp only [hbound, Bool.false_eq_true, if_false]
  · have hrun : exec (.stripeGet p) s = _ := packetOut_slot (accept := acceptStripeGet) (body := bodyStripeGet p) h rfl rfl
    refine hrun.trans (congrArg Host.Outcome.next (withSlot_congr_of_ctxs fun idx u hu => ?_))
    rw [bodyStripeGet, withCtx_loaded (x := x) _ (by rw [ctxOf, hu, owe_ctxs]; exact hx)]
    simp only [ht, Option.some_or]
  · have hrun : exec (.stripeGet p) s = _ := packetOut_slot (accept := acceptStripeGet) (body := bodyStripeGet p) h rfl rfl
    refine hrun.trans (congrArg Host.Outcome.next (withSlot_congr_of_ctxs fun idx u hu => ?_))
    rw [bodyStripeGet, withCtx_loaded (x := x) _ (by rw [ctxOf, hu, owe_ctxs]; exact hx)]
    simp only [h1, h2, Option.none_or]

end Sys2Proof
end

section
/-! SUPPORT. The step boundary, telemetry, clocks, power and thermal action, ANCHORED and the self-tests, case by case (R102, R158, R338 to R357,
R370 to R372). -/
namespace Sys2Proof.Machine

/-! ### Retunes -/

/-- The fused voltages take free values and change nothing else of the state (log 6). -/
theorem fuseDies_changes (l : List DiePower) (s : State) : Changes [.free] s (fuseDies l s).2 := by
  induction l generalizing s with
  | nil => exact Changes.refl _ s
  | cons d r ih => exact ((freshValue_changes s).andThen (ih (freshValue s).2)).mono (by decide)

/-- The state in which every die runs at the group frequency and held descriptors are released in waves (R341, R342, R349). -/
def retuned (s : State) : State :=
  { (fuseDies s.pow.dies s).2 with
    grp := { s.grp with retune := false, curFreq := s.grp.freq }
    pow := { s.pow with dies := (fuseDies s.pow.dies s).1 }
    bnd := { s.bnd with waves := List.range 16 } }

theorem exec_retuneComplete {s : State} (hr : s.grp.retune = true) (h1 : s.dev.st ≠ .off) (h2 : s.dev.st ≠ .failed) (h3 : s.dev.st ≠ .anchored) :
    exec .retuneComplete s = .next (endStop (retuned s)) := by
  have hf := fuseDies_changes s.pow.dies s
  have hg : (fuseDies s.pow.dies s).2.grp = s.grp := hf .grp (by decide)
  have hp : (fuseDies s.pow.dies s).2.pow = s.pow := hf .pow (by decide)
  have hb : (fuseDies s.pow.dies s).2.bnd = s.bnd := hf .bnd (by decide)
  have hexec : exec .retuneComplete s = execRetuneComplete s := rfl
  rw [hexec, execRetuneComplete, gate_of_true _ _ (by simp [hr, h1, h2, h3])]
  simp only [hg, hp, hb, retuned, allWaves]

theorem retuned_fix (s : State) : (retuned s).fix = s.fix := fuseDies_changes s.pow.dies s .fix (by decide)

/-! ### STEP_REPORT_GET and TELEMETRY_GET -/

theorem bodyTelemetry_eq (p : Packet) (idx : Nat) (t : State) : bodyTelemetry p idx t =
    if telemetryRole (pf p 0 1) t then refuse8 p 0x0700 stROLE none idx t
    else finishSlot p 0x0700 idx (telemetryStatus (pf p 0 1) t) (telemetry (pf p 0 1) (pf p 2 2) (pf p 4 2) t).1
      (telemetry (pf p 0 1) (pf p 2 2) (pf p 4 2) t).2 := rfl

/-! ### Rails, droops and thermal bubbles -/

theorem getElem?_lmod {α : Type} (l : List α) (i k : Nat) (f : α → α) : (lmod l i f)[k]? = if k = i then l[k]?.map f else l[k]? := by
  unfold lmod
  split
  next v hv =>
    split
    next hk =>
      subst hk
      rw [List.getElem?_set_self (List.getElem?_eq_some_iff.mp hv).1, hv, Option.map_some]
    next hk => exact List.getElem?_set_ne (Ne.symm hk)
  next hn =>
    split
    next hk =>
      subst hk
      rw [hn, Option.map_none]
    next => rfl

/-- The state with one die's power record changed. -/
def dieMod (die : Nat) (f : DiePower → DiePower) (s : State) : State := { s with pow := { s.pow with dies := lmod s.pow.dies die f } }

theorem diePower_dieMod_same {die : Nat} {s : State} (f : DiePower → DiePower) (h : die < s.pow.dies.length) :
    diePower (dieMod die f s) die = f (diePower s die) := by
  simp only [diePower, dieMod, getElem?_lmod, if_true, List.getElem?_eq_getElem h, Option.map_some, Option.getD_some]

theorem diePower_dieMod_other {die k : Nat} (s : State) (f : DiePower → DiePower) (h : k ≠ die) : diePower (dieMod die f s) k = diePower s k := by
  simp only [diePower, dieMod, getElem?_lmod, h, if_false]

/-- The power records after 1 ms of thermal decay (R352). -/
def cooled (s : State) : State :=
  { s with pow := { s.pow with dies := s.pow.dies.zipIdx.map (fun e =>
      if dieCool s e.2 ∧ 0 < e.1.tb then { e.1 with tb := e.1.tb - 4, tbFull := 0 } else e.1) } }

theorem diePower_cooled_tb {k : Nat} {s : State} (h : k < s.pow.dies.length) :
    (diePower (cooled s) k).tb = if dieCool s k then (diePower s k).tb - 4 else (diePower s k).tb := by
  have hk : diePower (cooled s) k =
      if dieCool s k ∧ 0 < s.pow.dies[k].tb then { s.pow.dies[k] with tb := s.pow.dies[k].tb - 4, tbFull := 0 } else s.pow.dies[k] := by
    simp [diePower, cooled, List.getElem?_eq_getElem h]
  have hs : diePower s k = s.pow.dies[k] := by simp [diePower, List.getElem?_eq_getElem h]
  rw [hk, hs]
  by_cases hc : dieCool s k = true
  · by_cases ht : 0 < s.pow.dies[k].tb
    · simp [hc, ht]
    · simp [hc, ht]
      omega
  · simp [hc]

/-! ### FREQ_SET, POWER_CAP_SET and samples -/

theorem exec_freqSet_accepted {p : Packet} {s : State} (h : Accepted 0x0711 (chkFreqSet p) p s) :
    exec (.freqSet p) s = .next (bodyFreqSet p (owe p s)) :=
  packetOut_plain (accept := acceptFreqSet) (body := fun _ t => bodyFreqSet p t) h rfl rfl

theorem bodyFreqSet_good {p : Packet} {s : State} (hf : freqOk (pf p 0 2) = true) (hz : pf p 2 2 = 0) :
    bodyFreqSet p s = if inGroup s && !s.grp.manager then completeOpen p 0x0711 stROLE s else completeOk p 0x0711 (setTarget (pf p 0 2) s) := by
  simp [bodyFreqSet, hf, hz]

theorem bodyFreqSet_bad {p : Packet} {s : State} (h : freqOk (pf p 0 2) = false ∨ pf p 2 2 ≠ 0) :
    bodyFreqSet p s = completeWith p 0x0711 stBADPARAM 0x0D01 s := by
  obtain h | h := h <;> simp [bodyFreqSet, h]

theorem exec_powerCapSet_accepted {p : Packet} {s : State} (h : Accepted 0x0710 (chkPowerCap p) p s) :
    exec (.powerCapSet p) s = .next (bodyPowerCap p (owe p s)) :=
  packetOut_plain (accept := acceptPowerCap) (body := fun _ t => bodyPowerCap p t) h rfl rfl

theorem bodyPowerCap_eq (p : Packet) (s : State) : bodyPowerCap p s = if 2000 ≤ pf p 0 2 ∧ pf p 0 2 ≤ 4400 then
    completeOk p 0x0710 { s with pow := { s.pow with capW := pf p 0 2 }, conf := { s.conf with live := s.conf.live.map (recapLive (pf p 0 2)) } }
    else completeWith p 0x0710 stBADPARAM 0x0D02 s := by
  by_cases h : 2000 ≤ pf p 0 2 ∧ pf p 0 2 ≤ 4400
  · simp [bodyPowerCap, within, h]
  · have hw : within 2000 (pf p 0 2) 4400 = false := by
      simp only [within, Bool.and_eq_false_iff, decide_eq_false_iff_not]
      omega
    rw [if_neg h, bodyPowerCap]
    simp only [hw]
    rfl

theorem energyUj_addEnergy {p : PowerSys} (mw : Nat) :
    (addEnergy mw p).energyUj = min (2 ^ 64 - 1) ((1000 * p.energyUj + p.energyRem + 2 * mw) / 1000) := by
  simp only [addEnergy, satAdd]
  omega

/-- The bubble count never exceeds 48 (R345). -/
theorem bubbleCount_le (gain cap power : Nat) : bubbleCount gain cap power ≤ 48 := Nat.min_le_left _ _

/-! ### ANCHORED -/

theorem exec_anchorEnterComplete {p : Packet} {s : State} (ha : s.dev.anchoring = some p) (hd : s.dev.st = .ready) (hu : s.mem.unacked = []) :
    exec .anchorEnterComplete s = .next (enterState .anchored 0 (completeOk p 0x0720 (silencePorts { s with
      dev := { s.dev with anchoring := none }, mem := { s.mem with tlb := [], cache := [] },
      ctxs := s.ctxs.map (fun e => (e.1, emptyStores e.2)) }))) := by
  have hexec : exec .anchorEnterComplete s = execAnchorEnterComplete s := rfl
  rw [hexec]
  simp only [execAnchorEnterComplete, ha]
  exact gate_of_true _ _ (by simp [hd, hu])

/-- Silent ports are down, and a number that names no port is down as well. -/
theorem portOf_silencePorts_up (s : State) (k : Nat) : (portOf (silencePorts s) k).up = false := by
  simp only [portOf, Fabric.port, silencePorts, List.getElem?_map]
  cases s.fab.ports[k]? <;> rfl

theorem exec_anchorExit_accepted {p : Packet} {s : State} (h : Accepted 0x0721 (chkAnchor p) p s) :
    exec (.anchorExit p) s = .next (bodyAnchorExit p (owe p s)) :=
  packetOut_plain (accept := acceptAnchorExit) (body := fun _ t => bodyAnchorExit p t) h rfl rfl

/-- The state that leaves ANCHORED, its rails set, before the exits complete (R356). -/
def unanchored (s : State) : State :=
  { (fuseDies s.pow.dies s).2 with
    pow := { (fuseDies s.pow.dies s).2.pow with dies := (fuseDies s.pow.dies s).1 }
    dev := { (fuseDies s.pow.dies s).2.dev with leaving := [] } }

/-! ### BIST_RUN -/

theorem bistChange_none (s : State) : bistChange [] s = s := rfl

/-- The memory and the tests a BIST without failures leaves, its slot ready (R372). -/
def bistPassed (tested idx classes : Nat) (s : State) : State :=
  finishPending idx 0 0 (bistPayload classes tested []) (wipeMemory { s with test := { s.test with bist := none } })

theorem exec_bistComplete_none {tested idx classes : Nat} {s : State} (hb : s.test.bist = some (idx, classes))
    (hd : s.dev.st = .hold ∨ s.dev.st = .ready) : exec (.bistComplete tested []) s = .next (enterHold 0x0E11
      { bistPassed tested idx classes s with conf := { (bistPassed tested idx classes s).conf with mustCommit := true } }) := by
  have hexec : exec (.bistComplete tested []) s = execBistComplete tested [] s := rfl
  rw [hexec]
  simp only [execBistComplete, hb, bistChange_none]
  exact gate_of_true _ _ (by obtain hd | hd := hd <;> simp [hd])

/-! ### HBM_RECAL -/

theorem exec_hbmRecal_accepted {p : Packet} {s : State} (h : Accepted 0x0803 (chkHbmRecal p (owe p s)) p s) :
    exec (.hbmRecal p) s = .next (bodyHbmRecal p (owe p s)) :=
  packetOut_plain (accept := acceptHbmRecal) (body := fun _ t => bodyHbmRecal p t) h rfl rfl

/-- The state in which a stack has left the queue of those to recalibrate. -/
def stackRecalibrated (stack : Nat) (s : State) : State :=
  { s with mem := { s.mem with recalQueue := s.mem.recalQueue.filter (fun n => n != stack) } }

theorem exec_hbmRecalStack {st : Nat} {p : Packet} {s : State} (hp : s.test.recal = some p) (hh : s.test.recalHeld = false)
    (hf : s.mem.recalQueue.find? (fun n => n / 6 == st / 6) = some st) (hr : s.grp.retune = false) (hd : s.dev.st ≠ .failed) :
    exec (.hbmRecalStackComplete st) s = .next (if (stackRecalibrated st s).mem.recalQueue.isEmpty then
      completeOk p 0x0803 { stackRecalibrated st s with test := { s.test with recal := none } } else stackRecalibrated st s) := by
  have hexec : exec (.hbmRecalStackComplete st) s = execHbmRecalStackComplete st s := rfl
  rw [hexec]
  simp only [execHbmRecalStackComplete, hp]
  exact gate_of_true _ _ (by rw [hh, hf, hr]; simp [hd])

end Sys2Proof.Machine

namespace Sys2Proof
open Sys2Proof.Machine

/-- Settles O47: CLOSE and the release waves by their gates, the watch slots and the retune by their equations, the two queries by their bodies. -/
theorem stepBoundary : Obligations.StepBoundary := by
  unfold Obligations.StepBoundary Claims.close Claims.watchSlotWrite Claims.retuneComplete Claims.releaseWave Claims.stepReportGet
    Claims.telemetryGet
  refine ⟨fun m s h => gate_of_true _ _ h, fun c x s hx hd => ?_, fun s hr h1 h2 h3 => ?_, fun w r s hw hd hr hh hf => ?_, fun p s h => ?_,
    fun p s h => ?_⟩
  · have hexec : exec (.watchSlotWrite c) s = execWatchSlotWrite c s := rfl
    rw [hexec]
    simp only [execWatchSlotWrite, hx]
    exact gate_of_true _ _ hd
  · have hf := fuseDies_changes s.pow.dies s
    refine ⟨retuned s, rfl, rfl, rfl, hf.keeps_mem (by decide), hf.keeps_ctxs (by decide), hf.keeps_dev (by decide), fun hn => ?_, fun hy => ?_⟩
    · rw [exec_retuneComplete hr h1 h2 h3, endStop, retuned_fix, hn]
      rfl
    · rw [exec_retuneComplete hr h1 h2 h3, endStop, retuned_fix, hy]
      rfl
  · have hrun : exec (.descriptorReleaseWave w) s = .next { s with bnd := { s.bnd with waves := s.bnd.waves.tail } } :=
      gate_of_true _ _ (by obtain hd | hd := hd <;> simp [hw, hd, hr, hh, hf])
    rw [hrun, hw, List.tail_cons]
  · exact packetOut_slot (accept := acceptStepReport) (body := fun idx t => finishSlot p 0x0701 idx 0 (stepReportPayload t) t) h rfl rfl
  · have hrun : exec (.telemetryGet p) s = _ := packetOut_slot (accept := acceptTelemetry) (body := bodyTelemetry p) h rfl rfl
    exact hrun.trans (congrArg Host.Outcome.next (withSlot_congr_of_ctxs fun idx t _ => bodyTelemetry_eq p idx t))

/-- Settles O48: each row by its gate, the rails and droops by the record of one die, a sample by the division of the energy. -/
theorem powerAndThermal : Obligations.PowerAndThermal := by
  unfold Obligations.PowerAndThermal Claims.freqSet Claims.powerCapSet Claims.powerSample Claims.avsAdjust Claims.droop Claims.droopEnds
    Claims.heartbeat Claims.thermalReading Claims.thermalDecay Claims.coolantLow
  refine ⟨fun p s h => ⟨fun hf hz hg => ?_, fun hb => ?_, fun hf hz hg => ?_⟩, fun p s h => ⟨fun h1 h2 => ?_, fun hb => ?_⟩,
    fun mw mv ma s ha _ _ => ?_, fun die up s hd hr hl => ?_, fun die s hd hr hs hl => ?_, fun die n s hd hs h1 h2 hl => ?_,
    fun s ha => gate_of_true _ _ ha, fun temps inlet flow s ha hu hn => ?_, fun s ha hl => ?_, fun flow s ha hf => gate_of_true _ _ (by simp [ha, hf])⟩
  · rw [exec_freqSet_accepted h, bodyFreqSet_good hf hz, owe_grp, hg]
    rfl
  · rw [exec_freqSet_accepted h, bodyFreqSet_bad hb]
  · rw [exec_freqSet_accepted h, bodyFreqSet_good hf hz, owe_grp, hg]
    rfl
  · rw [exec_powerCapSet_accepted h, bodyPowerCap_eq, if_pos ⟨h1, h2⟩, owe_pow, owe_conf]
  · rw [exec_powerCapSet_accepted h, bodyPowerCap_eq, if_neg (by omega)]
  · exact ⟨{ s with pow := takeSample mw s, board := { s.board with j1mv := mv, j1ma := ma } }, gate_of_true _ _ ha, rfl, rfl, rfl, rfl,
      energyUj_addEnergy mw, rfl, bubbleCount_le _ _ _, rfl⟩
  · have hdie : die < s.pow.dies.length := by omega
    refine ⟨dieMod die (moveRail up) s, gate_of_true _ _ (by simp [hd, hr]), ?_, fun k hk => diePower_dieMod_other s _ hk, rfl⟩
    rw [diePower_dieMod_same _ hdie]
    rfl
  · have hdie : die < s.pow.dies.length := by omega
    exact ⟨dieMod die (fun d => { d with stretching := true, droop := sat32 d.droop 1 }) s, gate_of_true _ _ (by simp [hd, hr, hs]),
      diePower_dieMod_same _ hdie, fun k hk => diePower_dieMod_other s _ hk⟩
  · have hdie : die < s.pow.dies.length := by omega
    exact ⟨dieMod die (fun d => { d with stretching := false, stretch := sat32 d.stretch n }) s, gate_of_true _ _ (by simp [hd, hs, within, h1, h2]),
      diePower_dieMod_same _ hdie, fun k hk => diePower_dieMod_other s _ hk⟩
  · have hrun : exec (.thermalReading temps inlet flow) s = .next (sensorEvents s (if mustShutDown (throttle (takeReadings temps inlet flow s)) then
        protectiveShutdown (throttle (takeReadings temps inlet flow s)) else throttle (takeReadings temps inlet flow s))) :=
      gate_of_true _ _ (by rw [ha, hu, decide_eq_true hn]; rfl)
    refine ⟨fun hm => ?_, fun hm => ?_⟩
    · rw [hrun, hm]
      rfl
    · rw [hrun, hm]
      rfl
  · exact ⟨cooled s, gate_of_true _ _ ha, fun k hk => diePower_cooled_tb (by omega), rfl⟩

/-- Settles O50: each command by its body, each end of a test by its equation. -/
theorem anchorAndTests : Obligations.AnchorAndTests := by
  unfold Obligations.AnchorAndTests Claims.anchorEntered Claims.anchorExit Claims.anchorExited Claims.bistRun Claims.bistComplete
    Claims.clusterTest Claims.clusterTestResult Claims.marginScan Claims.marginScanComplete Claims.hbmRecal Claims.hbmRecalStack
  refine ⟨fun p s ha hd hu => ?_, fun p s h => ⟨fun hn => ?_, fun hy => ?_⟩, fun s hd hl => ?_, fun p s h => ?_, fun tested idx cl s hb hd => ?_,
    fun p s h => ?_, fun phys pass s hp h1 h2 hr => ?_, fun p s h => ?_, fun eyes idx mask s hm hl hc => ?_,
    fun p s h => ⟨fun hz => ?_, fun hn => ?_⟩, fun st p s hp hh hf hr hd => ?_⟩
  · refine ⟨_, exec_anchorEnterComplete ha hd hu, rfl, rfl, fun e he => ?_, rfl, portOf_silencePorts_up _, rfl⟩
    obtain ⟨e', _, rfl⟩ := List.mem_map.mp he
    exact ⟨rfl, rfl⟩
  · rw [exec_anchorExit_accepted h, bodyAnchorExit, if_neg hn]
  · rw [exec_anchorExit_accepted h, bodyAnchorExit, if_pos hy, owe_dev]
  · refine ⟨unanchored s, _, gate_of_true _ _ (by simp [hd, hl]), rfl, rfl, ?_⟩
    exact (fuseDies_changes s.pow.dies s).keeps_mem (by decide)
  · exact packetOut_slot (accept := acceptBistRun) (body := bodyBistRun p) h rfl rfl
  · refine ⟨_, exec_bistComplete_none hb hd, ?_⟩
    have hm : (bistPassed tested idx cl s).mem = (wipeMemory s).mem := finishPending_mem ..
    have ht : (bistPassed tested idx cl s).test = { s.test with bist := none } := finishPending_test ..
    refine ⟨rfl, (congrArg MemSys.hbm hm).trans rfl, (congrArg MemSys.poison hm).trans rfl, (congrArg SelfTest.bist ht).trans rfl⟩
  · exact packetOut_slot (accept := acceptClusterTest) (body := bodyClusterTest p) h rfl rfl
  · exact gate_of_true _ _ (by simp [hp, h1, h2, hr])
  · exact packetOut_slot (accept := acceptMarginScan) (body := bodyMarginScan p) h rfl rfl
  · have hexec : exec (.marginScanComplete eyes) s = execMarginScanComplete eyes s := rfl
    refine ⟨(eyesBytes mask eyes s).1, (eyesBytes mask eyes s).2, ?_, rfl⟩
    rw [hexec]
    simp only [execMarginScanComplete, hm]
    exact gate_of_true _ _ (by simp [hl, hc])
  · rw [exec_hbmRecal_accepted h, bodyHbmRecal, hz]
    rfl
  · rw [exec_hbmRecal_accepted h, bodyHbmRecal, if_neg (by simpa using hn)]
    exact ⟨_, rfl, rfl, rfl, by simp⟩
  · rw [exec_hbmRecalStack hp hh hf hr hd]
    by_cases he : (stackRecalibrated st s).mem.recalQueue = []
    · exact ⟨{ stackRecalibrated st s with test := { s.test with recal := none } }, rfl, rfl, fun _ => ⟨rfl, by rw [he]; rfl⟩,
        fun hn => absurd he hn⟩
    · exact ⟨stackRecalibrated st s, rfl, rfl, fun hn => absurd hn he, fun _ => ⟨hp, by rw [if_neg (by simpa using he)]⟩⟩

end Sys2Proof
end

section
/-! SUPPORT. Straps, power input, the leak loop, the boot, management over MCTP and packets that arrive as bytes, case by case (R249, R268, R269,
R358 to R361, R374 to R384). -/
namespace Sys2Proof.Machine

/-! ### Straps and the leak loop -/

theorem strapBit_zero_iff (r : StrapRead) : strapBit r = some 0 ↔ 150 ≤ r.up ∧ r.up ≤ 500 ∧ r.down < 150 := by
  unfold strapBit
  split
  next h => simp [h]
  next h => split <;> simp [h]

theorem strapBit_one_iff (r : StrapRead) : strapBit r = some 1 ↔ 3150 < r.up ∧ 2800 ≤ r.down ∧ r.down ≤ 3150 := by
  unfold strapBit
  split
  next h => simp; omega
  next => split <;> simp_all

/-- The state after a sample of the leak loop (R380). -/
def leakSampled (ohms : Nat) (s : State) : State :=
  { s with board := { s.board with
      leak := leakAfter (leakClass ohms) (if leakClass ohms = 0 then s.board.intactRun + 1 else 0) s.board.leak
      leakHeld := if leakClass ohms = 2 then s.board.leakHeld + 1 else 0
      intactRun := if leakClass ohms = 0 then s.board.intactRun + 1 else 0 } }

theorem exec_leakLoopSample (ohms : Nat) {s : State} (ha : s.board.aux = true) :
    exec (.leakLoopSample ohms) s = .next (sensorEvents s (leakSampled ohms s)) := gate_of_true _ _ ha

theorem leakClass_leak {o : Nat} (h : o < 50) : leakClass o = 2 := if_pos h

theorem leakClass_intact {o : Nat} (h : 50 ≤ o) (h2 : o ≤ 2000) : leakClass o = 0 := by
  rw [leakClass, if_neg (by omega), if_pos h2]

theorem leakClass_open {o : Nat} (h : 2000 < o) : leakClass o = 1 := by
  rw [leakClass, if_neg (by omega), if_neg (by omega)]

/-! ### Power -/

theorem getLsbD_raiseEvent (b : Nat) (s : State) (h : b < 32) : (raiseEvent b s).regs.eventCause.getLsbD b = true := by
  rw [raiseEvent_regs, BitVec.getLsbD_or, BitVec.getLsbD_ofNat, Nat.testBit_two_pow_self, decide_eq_true h]
  exact Bool.or_true _

theorem exec_pwrEnRise {mv : Int} {s : State} (ha : s.board.aux = true) (hc : s.board.converters = false)
    (hp : s.board.pwrEn = false ∨ s.board.pwrWaits = true) (hd : s.dev.st = .off ∨ s.dev.st = .failed) :
    exec (.pwrEnRise mv) s = .next (sensorEvents s (if inRange mv then
      sensorEvent 0x10 s.dev.st.code 1 (raiseEvent 2 (powerUp { s with board := { s.board with j1mv := mv } }))
      else { s with board := { s.board with j1mv := mv, pwrEn := true, pwrWaits := true } })) := by
  refine gate_of_true _ _ ?_
  simp only [ha, hc, Bool.not_false, Bool.true_and, Bool.and_eq_true, Bool.or_eq_true, Bool.not_eq_true', beq_iff_eq]
  exact ⟨hp, hd⟩

theorem inRange_iff (mv : Int) : inRange mv = true ↔ 40000 ≤ mv ∧ mv ≤ 60000 := by
  simp [inRange]

end Sys2Proof.Machine

namespace Sys2Proof
open Sys2Proof.Machine

/-- Settles O51: each row by its gate, a strap by its two bands, the leak loop by the class of its resistance. -/
theorem boardPower : Obligations.BoardPower := by
  unfold Obligations.BoardPower Claims.strapRead Claims.strapLevels Claims.pwrEnRise Claims.pwrEnWaits Claims.pwrEnFall Claims.inputPowerLoss
    Claims.auxLoss Claims.auxRise Claims.leakSample Claims.leakTimeout
  refine ⟨fun sl fd s ha hs hf => ?_, fun r => ⟨strapBit_zero_iff r, strapBit_one_iff r⟩, fun mv s ha hc hp hd h1 h2 => ?_,
    fun mv s ha hc hp hd hm => ?_, fun s ha hp => ⟨fun hc => ?_, fun hc => ?_⟩, fun mv s ha hc hm => ?_, fun s ha => ?_,
    fun sl fd s ha hs hf => gate_of_true _ _ (by simp [ha, strapsRead, hs, hf]),
    fun o s ha => ⟨fun h => ?_, fun h1 h2 => ?_, fun h => ?_⟩, fun s ha hh => ⟨fun hc => ?_, fun hc => ?_⟩⟩
  · exact ⟨_, gate_of_true _ _ (by simp [ha, strapsRead, hs, hf]), rfl, rfl, rfl⟩
  · have hr := raiseEvent_changes 2 (powerUp { s with board := { s.board with j1mv := mv } })
    refine ⟨raiseEvent 2 (powerUp { s with board := { s.board with j1mv := mv } }), ?_, ?_⟩
    · rw [exec_pwrEnRise ha hc hp hd, if_pos ((inRange_iff mv).mpr ⟨h1, h2⟩)]
    · rw [hr.keeps_dev (by decide), hr.keeps_ctxs (by decide), hr.keeps_mem (by decide), raiseEvent_hostMem, hr .board (by decide),
        hr .flash (by decide), hr .pow (by decide)]
      exact ⟨rfl, rfl, rfl, rfl, rfl, rfl, rfl, rfl, rfl, getLsbD_raiseEvent 2 _ (by decide)⟩
  · rw [exec_pwrEnRise ha hc hp hd, if_neg (by rw [inRange_iff]; omega)]
  · have hrun : exec .pwrEnFall s = _ := gate_of_true _ _ (by simp [ha, hp])
    rw [hrun, hc]
    rfl
  · have hrun : exec .pwrEnFall s = _ := gate_of_true _ _ (by simp [ha, hp])
    rw [hrun, hc]
    rfl
  · exact gate_of_true _ _ (by simp [ha, hc, hm])
  · exact ⟨_, gate_of_true _ _ ha, rfl, rfl, rfl, rfl, rfl, rfl, rfl, rfl⟩
  · refine ⟨_, exec_leakLoopSample o ha, ?_⟩
    simp [leakSampled, leakClass_leak h, leakAfter]
  · refine ⟨_, exec_leakLoopSample o ha, ?_⟩
    simp only [leakSampled, leakClass_intact h1 h2, leakAfter]
    by_cases hl : s.board.leak = 2 <;> by_cases hr : 100 ≤ s.board.intactRun + 1 <;> simp [hl, hr]
  · refine ⟨_, exec_leakLoopSample o ha, ?_⟩
    by_cases hl : s.board.leak = 2 <;> simp [leakSampled, leakClass_open h, leakAfter, hl]
  · have hrun : exec .leakTimeout s = _ := gate_of_true _ _ (by simp [ha, hh])
    rw [hrun, hc]
    rfl
  · have hrun : exec .leakTimeout s = _ := gate_of_true _ _ (by simp [ha, hh])
    rw [hrun, hc]
    rfl

end Sys2Proof
end

section
/-! SUPPORT. Ingest commands, frames, samples and batches, case by case (R162 to R189). -/
namespace Sys2Proof.Machine

/-! ### Commands -/

theorem exec_ingestSchedule_accepted {p : Packet} {s : State} (h : Accepted 0x0400 (chkIngestSchedule p (owe p s)) p s) :
    exec (.ingestSchedule p) s = .next (bodyIngestSchedule p (owe p s)) :=
  packetOut_plain (accept := acceptIngestSchedule) (body := fun _ t => bodyIngestSchedule p t) h rfl rfl

theorem exec_tokenTableLoad_accepted {p : Packet} {s : State} (h : Accepted 0x0410 (chkTokenTableLoad p (owe p s)) p s) :
    exec (.tokenTableLoad p) s = .next (bodyTokenTableLoad p (owe p s)) :=
  packetOut_plain (accept := acceptTokenTableLoad) (body := fun _ t => bodyTokenTableLoad p t) h rfl rfl

theorem bodyTokenTableLoad_good {p : Packet} {s : State}
    (hc : fieldAt (p.params.take p.paramLen) 20 4 = (crc32c ((p.params.take p.paramLen).drop 32)).toNat)
    (he : (merges (p.params.take p.paramLen)).any (entryBad (p.params.take p.paramLen)) = false)
    (hn : numRepeats ((merges (p.params.take p.paramLen)).map (fun m => m.1 + m.2.1 * 2 ^ 20)) = false) :
    bodyTokenTableLoad p s = completeOk p 0x0410 { s with tokens := p.params.take p.paramLen } := by
  rw [bodyTokenTableLoad, if_neg (by rw [hc]; exact fun h => h rfl), if_neg (by rw [he]; decide), if_neg (by rw [hn]; decide)]

theorem bodyTokenTableLoad_badCrc {p : Packet} {s : State}
    (hc : fieldAt (p.params.take p.paramLen) 20 4 ≠ (crc32c ((p.params.take p.paramLen).drop 32)).toNat) :
    bodyTokenTableLoad p s = completeWith p 0x0410 stBADPARAM 0x0710 s := by
  rw [bodyTokenTableLoad, if_pos hc]

/-! ### Samples -/

theorem rebuilding_iff (g : Ingest) : g.rebuilding = true ↔ g.rebuild ≠ [] := by
  simp [Ingest.rebuilding]

theorem exec_sampleDecodeComplete {c j ticks : Nat} {fields : List Decoded} {s : State} {x : Ctx} {d : Sched} {a : Sample} (hx : ctxOf s c = some x)
    (hd : x.ingest.sched = some d) (ha : inDecode x j = some a) (hr : x.ingest.active = true) (ht : ticks < decodeLimit ∨ x.ingest.rebuild ≠ [])
    (he : ∀ e ∈ a.engines, unitState s e = .healthy ∧ restarts s e = false) :
    exec (.sampleDecodeComplete c j ticks fields) s = .next (finishDecode c x d a ticks fields s) := by
  have hexec : exec (.sampleDecodeComplete c j ticks fields) s = execSampleDecodeComplete c j ticks fields s := rfl
  rw [hexec]
  simp only [execSampleDecodeComplete, hx, hd, ha]
  refine gate_of_true _ _ ?_
  have hall : a.engines.all (fun u => unitState s u == .healthy && !restarts s u) = true :=
    List.all_eq_true.mpr fun e hm => by simp [he e hm]
  rw [hr, hall, Bool.true_and, Bool.and_true, Bool.or_eq_true, rebuilding_iff]
  exact ht.imp_left decide_eq_true

/-- The state in which a finished sample has been marked slow, where R179 has it so. -/
def slowMarked (c : Nat) (x : Ctx) (a : Sample) (ticks : Nat) (s : State) : State :=
  if slowTicks x.ingest < ticks ∧ x.ingest.rebuild = [] ∧ a.slow = false then markSlow c a.stream s else s

theorem finishDecode_eq (c : Nat) (x : Ctx) (d : Sched) (a : Sample) (ticks : Nat) (fields : List Decoded) (s : State) :
    finishDecode c x d a ticks fields s =
      match decodeFields (slowMarked c x a ticks s).tokens (jobSeed (slowMarked c x a ticks s)) a.id (a.stream / d.passLen) 0 d.fields a.values fields with
      | .error r => fillSlots c (sampleMod c a.stream (fun y => { y with corrupt := some r }) (slowMarked c x a ticks s))
      | .ok (o, t) => fillSlots c (sampleMod c a.stream (fun y => { y with decoded := some o, truncated := t })
          (ingMod c (fun g => { g with times := (g.times ++ [ticks]).drop ((g.times.length + 1) - 1023) }) (slowMarked c x a ticks s))) := by
  have hs : (if (decide (ticks > slowTicks x.ingest) && !x.ingest.rebuilding && !a.slow) = true then markSlow c a.stream s else s) =
      slowMarked c x a ticks s := by
    refine if_congr ?_ rfl rfl
    simp [Ingest.rebuilding, and_assoc]
  simp only [finishDecode]
  rw [hs] <;> rfl

theorem exec_sampleSlow {c j ticks : Nat} {s : State} {x : Ctx} {a : Sample} (hx : ctxOf s c = some x) (ha : inDecode x j = some a)
    (hr : x.ingest.active = true) (hs : a.slow = false) (ht : slowTicks x.ingest < ticks) :
    exec (.sampleSlow c j ticks) s = .next (if x.ingest.rebuilding then s else markSlow c j s) := by
  have hexec : exec (.sampleSlow c j ticks) s = execSampleSlow c j ticks s := rfl
  rw [hexec]
  simp only [execSampleSlow, hx, ha]
  exact gate_of_true _ _ (by simp [hr, hs, ht])

theorem exec_decodeTimeout {c j : Nat} {s : State} {x : Ctx} {a : Sample} (hx : ctxOf s c = some x) (ha : inDecode x j = some a)
    (hr : x.ingest.active = true) : exec (.decodeTimeout c j) s =
      .next (if x.ingest.rebuilding then s else fillSlots c (sampleMod c j (fun y => { y with corrupt := some 7 }) s)) := by
  have hexec : exec (.decodeTimeout c j) s = execDecodeTimeout c j s := rfl
  rw [hexec]
  simp only [execDecodeTimeout, hx, ha]
  exact gate_of_true _ _ hr

end Sys2Proof.Machine

namespace Sys2Proof
open Sys2Proof.Machine

/-- Settles O25: each command by its body, on what its check says of the schedule, the table or the batch. -/
theorem ingestCommands : Obligations.IngestCommands := by
  unfold Obligations.IngestCommands Claims.ingestSchedule Claims.ingestScheduleRefused Claims.ingestStart Claims.ingestStop Claims.tokenTableLoad
    Claims.tokenTableBad Claims.manifestGet
  refine ⟨fun p s h hr => ?_, fun p s d h hr => ?_, fun p s x h hx hs hn => ?_, fun p s x h hx => ?_, fun p s h hc he hn => ?_,
    fun p s h hc => ?_, fun p s x d m h hx hd hm => ?_⟩
  · rw [exec_ingestSchedule_accepted h, bodyIngestSchedule, hr]
    rfl
  · rw [exec_ingestSchedule_accepted h, bodyIngestSchedule, hr]
  · have hrun : exec (.ingestStart p) s = _ := packetOut_plain (accept := acceptIngestStart) (body := fun _ t => bodyIngestStart p t) h rfl rfl
    have hbad : ¬ (x.ingest.sched.isNone || x.ingest.needsSchedule) = true := by
      rw [hn, Bool.or_false, Option.isNone_iff_eq_none]
      exact fun h => by simp [h] at hs
    rw [hrun, bodyIngestStart, withCtx_loaded (x := x) _ ((ctxOf_owe p s _).trans hx), if_neg hbad, owe_nextId]
    rfl
  · have hrun : exec (.ingestStop p) s = _ := packetOut_plain (accept := acceptIngestStop) (body := fun _ t => bodyIngestStop p t) h rfl rfl
    rw [hrun, bodyIngestStop, withCtx_loaded (x := x) _ ((ctxOf_owe p s _).trans hx)]
    rfl
  · rw [exec_tokenTableLoad_accepted h, bodyTokenTableLoad_good hc he hn]
  · rw [exec_tokenTableLoad_accepted h, bodyTokenTableLoad_badCrc hc]
  · have hrun : exec (.manifestGet p) s = _ := packetOut_slot (accept := acceptManifestGet) (body := bodyManifestGet p) h rfl rfl
    refine hrun.trans (congrArg Host.Outcome.next (withSlot_congr_of_ctxs fun idx t ht => ?_))
    rw [bodyManifestGet, withCtx_loaded (x := x) _ (by rw [ctxOf, ht, owe_ctxs]; exact hx)]
    simp only [hd, hm]

/-- Settles O26: each event by its gate; the end of a decode by what marking the sample slow leaves. -/
theorem ingestWork : Obligations.IngestWork := by
  unfold Obligations.IngestWork Claims.xrsFrameParse Claims.parsedSample Claims.sampleDecodeComplete Claims.assemblyStart Claims.sampleSlow
    Claims.decodeTimeout
  refine ⟨fun c j engine s x d hx hd ha hm he1 he2 hu hf => ?_, fun c j u d s sh v es t hs hp he => ?_,
    fun c j ticks fields s x d a u hx hd ha hr ht he hu => ⟨fun o t hf => ?_, fun r hf => ?_⟩, fun c s x d hx hd hm => ?_,
    fun c j ticks s x a hx ha hr hs ht => ⟨fun hb => ?_, fun hb => ?_⟩, fun c j s x a hx ha hr => ⟨fun hb => ?_, fun hb => ?_⟩⟩
  · have hexec : exec (.xrsFrameParse c j engine) s = execXrsFrameParse c j engine s := rfl
    rw [hexec]
    simp only [execXrsFrameParse, hx, hd]
    exact gate_of_true _ _ (by simp [ha, hm, he1, he2, hu, hf])
  · simp only [readSample, hs, hp, he]
  · change u = slowMarked c x a ticks s at hu
    rw [hu] at hf ⊢
    rw [exec_sampleDecodeComplete hx hd ha hr ht he, finishDecode_eq]
    simp only [hf]
    rfl
  · change u = slowMarked c x a ticks s at hu
    rw [hu] at hf ⊢
    rw [exec_sampleDecodeComplete hx hd ha hr ht he, finishDecode_eq]
    simp only [hf]
  · have hexec : exec (.assemblyStart c) s = execAssemblyStart c s := rfl
    rw [hexec]
    simp only [execAssemblyStart, hx, hd]
    exact gate_of_true _ _ hm
  · rw [exec_sampleSlow hx ha hr hs ht, Ingest.rebuilding, hb]
    rfl
  · rw [exec_sampleSlow hx ha hr hs ht, if_pos ((rebuilding_iff _).mpr hb)]
  · rw [exec_decodeTimeout hx ha hr, Ingest.rebuilding, hb]
    rfl
  · rw [exec_decodeTimeout hx ha hr, if_pos ((rebuilding_iff _).mpr hb)]

end Sys2Proof
end

section
/-! SUPPORT. Fabric ports: their status, training, lanes, flits, packets and send rates, case by case (R270 to R279, R299). -/
namespace Sys2Proof.Machine

/-! ### PORT_STATUS_GET -/

theorem freeBytes_changes (n : Nat) (s : State) : Changes [.free] s (freeBytes n s).2 := by
  induction n generalizing s with
  | zero => exact Changes.refl _ s
  | succ n ih => exact ((freshValue_changes s).andThen (ih (freshValue s).2)).mono (by decide)

/-- A fold over a list that carries a result and the state changes what its steps change. -/
theorem foldl_snd_changes {α β : Type} {l : List Part} {f : β × State → α → β × State} (hf : ∀ a x, Changes l a.2 (f a x).2) (xs : List α)
    (a : β × State) : Changes l a.2 (xs.foldl f a).2 := by
  induction xs generalizing a with
  | nil => exact Changes.refl _ _
  | cons x xs ih => exact (hf a x).trans (ih (f a x))

theorem measuredPorts_changes (s : State) : Changes [.free] s (measuredPorts s).2 := by
  unfold measuredPorts
  refine foldl_snd_changes (fun a _ => ?_) _ ([], s)
  exact freeBytes_changes 3 a.2

theorem laneSets_changes (live : Bool) (s : State) : Changes [.free] s (laneSets live s).2 := by
  unfold laneSets
  refine foldl_snd_changes (fun a _ => ?_) _ ([], s)
  exact freeBytes_changes 4 a.2

theorem bodyPortStatus_eq (p : Packet) (idx : Nat) (s : State) : bodyPortStatus p idx s =
    finishSlot p 0x0500 idx 0 ((measuredPorts s).1.flatMap portSet ++ (laneSets true (measuredPorts s).2).1) (laneSets true (measuredPorts s).2).2 := by
  unfold bodyPortStatus
  generalize measuredPorts s = ports
  obtain ⟨ps, t⟩ := ports
  dsimp only

/-! ### Training -/

theorem trainOutcome_up {mode n : Nat} {c : Bool} {peer : PeerFound} (h : outcomeUp (trainOutcome mode n c peer) = true) :
    (if mode = 0 then 4 else 8) ≤ n ∧ (peer = .samegroup ∨ peer = .foreign) := by
  cases peer with
  | none => cases h
  | otherMode => cases h
  | self => cases h
  | foreign =>
    refine ⟨Nat.not_lt.mp fun hn => ?_, .inr rfl⟩
    rw [trainOutcome, if_pos hn] at h
    cases h
  | samegroup =>
    refine ⟨Nat.not_lt.mp fun hn => ?_, .inl rfl⟩
    rw [trainOutcome, if_pos hn] at h
    cases h

/-- A training made a correction: a lane inverted, or one that carries another logical lane (R274). -/
def trainingCorrected (good : List (Nat × LaneFound)) : Bool :=
  (good.map (fun e => if e.2.inverted then 2 ^ e.2.logical else 0)).sum != 0 || good.any (fun e => e.1 != e.2.logical)

/-- A port after a training: up with the lanes found, its numbers anew and what was not acknowledged first, or down with its buffers kept (R274). -/
theorem trainedPort_cases (good : List (Nat × LaneFound)) (peer : PeerFound) (x : Port) :
    ∃ c, (trainedPort good peer x).outcome = trainOutcome x.mode good.length c peer ∧
      (trainedPort good peer x).up = outcomeUp (trainedPort good peer x).outcome ∧
      ((outcomeUp (trainOutcome x.mode good.length c peer) = true ∧ (trainedPort good peer x).width = good.length ∧
        (trainedPort good peer x).txSeq = 0 ∧ (trainedPort good peer x).rxSeq = 0 ∧ (trainedPort good peer x).replay = [] ∧
        (trainedPort good peer x).queue = x.replay ++ x.queue) ∨
       (outcomeUp (trainOutcome x.mode good.length c peer) = false ∧ (trainedPort good peer x).width = 0 ∧
        (trainedPort good peer x).active = [] ∧ (trainedPort good peer x).replay = x.replay ∧ (trainedPort good peer x).queue = x.queue)) := by
  refine ⟨trainingCorrected good, ?_⟩
  unfold trainingCorrected
  cases hu : outcomeUp (trainOutcome x.mode good.length ((good.map (fun e => if e.2.inverted then 2 ^ e.2.logical else 0)).sum != 0 ||
      good.any (fun e => e.1 != e.2.logical)) peer) with
  | true =>
    rw [trainedPort, if_pos hu]
    exact ⟨rfl, hu.symm, .inl ⟨rfl, rfl, rfl, rfl, rfl, rfl⟩⟩
  | false =>
    rw [trainedPort, if_neg (ne_true_of_eq_false hu)]
    exact ⟨rfl, hu.symm, .inr ⟨rfl, rfl, rfl, rfl, rfl⟩⟩

/-! ### Flits -/

theorem exec_flitReceive {k : Nat} {b : List Byte} {ok : Bool} {s : State} (hk : k < 6) (hm : (portOf s k).mode = 0) (hu : (portOf s k).up = true)
    (hl : b.length = 256) (hf : flitSound b ok = true → Machine.flitOk (flitOf b) = true) : exec (.flitReceive k ⟨b, ok⟩) s = .next
      (if !flitSound b ok then portMod k (fun x => { x with refusing := true }) s
       else if (flitOf b).seq = (portOf s k).rxSeq then acceptFlit k (flitOf b) (takeAck k (flitOf b).ack s) else takeAck k (flitOf b).ack s) := by
  refine gate_of_true _ _ ?_
  cases hs : flitSound b ok with
  | true => simp [hk, hm, hu, hl, hf hs]
  | false => simp [hk, hm, hu, hl]

end Sys2Proof.Machine

namespace Sys2Proof
open Sys2Proof.Machine

/-- Settles O27: each row by its gate, a training by its outcome, a flit by its CRC, number and destination. -/
theorem ports : Obligations.Ports := by
  unfold Obligations.Ports Claims.portStatusGet Claims.portTraining Claims.portTrainingComplete Claims.trained Claims.narrows Claims.laneFailure
    Claims.laneDownReceive Claims.portDown Claims.flitReceive Claims.flitAccepted Claims.flitReplay Claims.rocePacketReceive Claims.cnpReceive
    Claims.sendRateRise
  refine ⟨fun p s h => ?_, fun k s hk hr hm hu ht hf => ?_, fun k peer lanes s hk ht hf => ?_, fun good peer x => ?_, fun k lane s u hu => ?_,
    fun k lane s h => gate_of_true _ _ h, fun k lane s h => gate_of_true _ _ h, fun k s hk hu => gate_of_true _ _ (by simp [hk, hu]),
    fun k b ok s hk hm hu hl => ⟨fun hs => ?_, fun hs hf hq => ?_, fun hs hf hq => ?_⟩, fun k f s => ?_,
    fun k seq s hk hm hu ha => gate_of_true _ _ (by rw [ha]; simp [hk, hm, hu]), fun k qp op t s he => ⟨fun hs => ?_, fun hs => ?_⟩,
    fun k qp s he => gate_of_true _ _ he, fun k qp s he hr => gate_of_true _ _ (by rw [he, decide_eq_true hr]; rfl)⟩
  · have hrun : exec (.portStatusGet p) s = _ := packetOut_slot (accept := acceptPortStatus) (body := bodyPortStatus p) h rfl rfl
    have hch := (measuredPorts_changes (allocSlot p 1920 (owe p s)).2).andThen
      (laneSets_changes true (measuredPorts (allocSlot p 1920 (owe p s)).2).2)
    rw [hrun, withSlot, bodyPortStatus_eq]
    refine ⟨_, _, _, rfl, ?_, ?_, ?_⟩
    · rw [hch .fab (by decide), allocSlot_fab, owe_fab]
    · rw [hch.keeps_mem (by decide), allocSlot_mem, owe_mem]
    · rw [hch.keeps_chart (by decide), allocSlot_chart, owe_chart]
  · exact ⟨_, gate_of_true _ _ (by simp [hk, hr, hm, hu, ht, hf]), rfl⟩
  · exact ⟨_, gate_of_true _ _ (by simp [hk, ht, hf]), rfl⟩
  · obtain ⟨c, ho, hu, ⟨hup, hw, htx, hrx, hre, hq⟩ | ⟨hdown, hw, ha, hre, hq⟩⟩ := trainedPort_cases good peer x
    · obtain ⟨hn, hp⟩ := trainOutcome_up hup
      exact ⟨⟨c, ho⟩, hu, fun _ => ⟨hw, hn, htx, hrx, hre, hq, hp⟩, fun hd => by rw [hu, ho, hup] at hd; cases hd⟩
    · exact ⟨⟨c, ho⟩, hu, fun hd => (by rw [hu, ho, hdown] at hd; cases hd), fun _ => ⟨hw, ha, hre, hq⟩⟩
  · rw [hu]
    exact ⟨fun hn => if_neg (by omega), fun hn => if_pos hn⟩
  · rw [exec_flitReceive hk hm hu hl (fun h => by rw [hs] at h; cases h), hs]
    rfl
  · rw [exec_flitReceive hk hm hu hl (fun _ => hf), hs, if_neg hq]
    rfl
  · rw [exec_flitReceive hk hm hu hl (fun _ => hf), hs, if_pos hq]
    rfl
  · refine ⟨_, rfl, fun hp hd => ?_, fun hp hd => ?_, fun hp => ?_⟩
    · simp only [acceptFlit, hp, hd]
      rfl
    · simp only [acceptFlit, hp, hd]
      rfl
    · simp only [acceptFlit, hp]
      rfl
  · have hrun : exec (.rocePacketReceive k qp op false t) s = _ := gate_of_true _ _ he
    rw [hrun, hs]
    rfl
  · have hrun : exec (.rocePacketReceive k qp op false t) s = _ := gate_of_true _ _ he
    rw [hrun, hs]
    rfl

end Sys2Proof
end

section
/-! SUPPORT. Collectives: their acceptance, their start, their traffic, epoch aborts and the deadline, case by case (R287, R291 to R297). -/
namespace Sys2Proof.Machine

/-! ### Acceptance and start -/

theorem exec_collectiveSubmit_accepted {p : Packet} {s : State} (h : Accepted 0x0520 (chkColl p) p s) :
    exec (.collectiveSubmit p) s = .next (bodyColl p (owe p s)) :=
  packetOut_plain (accept := acceptColl) (body := fun _ t => bodyColl p t) h rfl rfl

/-- The checks of a collective look at the context table, the chart, the group, the sync cells and the step: not at the counter of work numbers. -/
theorem bodyColl_eq {p : Packet} {s : State} {x : Ctx} (hx : ctxOf s p.ctx = some x) : bodyColl p s =
    match firstBad (collRefusals s p.ctx (collWork p s.nextId)) with
    | some (st, d) => complete p 0x0520 st d none 0xFFFF [] s
    | none => reschedule (ctxMod p.ctx (enqueue { s with nextId := s.nextId + 1 } p.ctx (collWork p s.nextId)) { s with nextId := s.nextId + 1 }) := by
  rw [bodyColl, withCtx_loaded _ hx] <;> rfl

theorem deadFor_of_dead_nil {x : Ctx} (h : x.dead = []) (id : Nat) : deadFor x id = [] := by
  simp [deadFor, h]

theorem collRow_starts {op c id : Nat} {s : State} {x : Ctx} {w : Work} (hx : ctxOf s c = some x) (hw : x.work id = some w) (ho : w.collOp = op)
    (hr : collReady s x w = true) (hroom : collRoom s = true) (hf : fabricServes s = true) (hb : collBefore s w = false) (hd : x.dead = []) :
    collRow op c id s = .next (startColl c w s) := by
  simp only [collRow, hx, hw]
  rw [withRecords_of_noDead _ hx (deadFor_of_dead_nil hd id)]
  exact gate_of_true _ _ (by simp [ho, hr, hroom, hf, hb])

/-! ### Signatures, chunks and results -/

theorem exec_collectiveSignature {rank : Nat} {s : State} (g : CollSig) (hr : rank ∈ collRanks s) (hne : rank ≠ s.grp.rank) :
    exec (.collectiveSignature rank g) s = .next (takeSignature rank g s) :=
  gate_of_true _ _ (by simp [hr, hne])

theorem takeSignature_new {rank : Nat} {g : CollSig} {s : State} (h : s.dev.step ≤ g.step) : takeSignature rank g s =
    if s.colls.sigs.any (fun e => e.sig.collId == g.collId && e.sig.step == g.step && e.sig != g) then
      mismatchColl rank g { s with colls := { s.colls with sigs := s.colls.sigs ++ [⟨rank, s.grp.gen, g⟩] } }
    else settleSig g { s with colls := { s.colls with sigs := s.colls.sigs ++ [⟨rank, s.grp.gen, g⟩] } } := by
  rw [takeSignature, if_neg (by omega)]

theorem exec_collectiveChunkReceive {rank collId step gen k : Nat} {data : List CollElem} {s : State} (hr : rank ≠ s.grp.rank)
    (hg : inGroup s = true) (hl : data.length ≤ chunkElems) (hm : s.grp.recs.any (fun r => r.rank == rank) = true) (hf : rankFailed s rank = false) :
    exec (.collectiveChunkReceive rank collId step gen k data) s = .next (takeChunk rank collId step gen k data s) := by
  have hrun : exec (.collectiveChunkReceive rank collId step gen k data) s =
      .next (if rankFailed s rank then s else takeChunk rank collId step gen k data s) :=
    gate_of_true _ _ (by rw [hm]; simp [hr, hg, hl])
  rw [hrun, hf]
  rfl

theorem byGen_stale {gen : Nat} {s : State} (take : State → State) (h : staleGen s gen = true) : byGen gen take s = countStale s := if_pos h

theorem byGen_refused {gen : Nat} {s : State} (take : State → State) (h : staleGen s gen = false) (hr : refusedGen s gen = true) :
    byGen gen take s = s := by
  rw [byGen, h, hr]
  rfl

theorem byGen_current {gen : Nat} {s : State} (take : State → State) (h : staleGen s gen = false) (hr : refusedGen s gen = false) :
    byGen gen take s = take s := by
  rw [byGen, h, hr]
  rfl

/-- What becomes of a result whose signatures agree. -/
def resultTaken (collId step gen k : Nat) (sums : List (BitVec 32)) (codes : List CollElem) (t : State) : State :=
  if (collId, step) ∈ t.colls.mismatched then t else takeResult ⟨collId, step, gen, k, sums, codes⟩ t

theorem exec_collectiveResultReceive {collId step gen k : Nat} {sums : List (BitVec 32)} {codes : List CollElem} {s : State} (hg : inGroup s = true)
    (h1 : sums.length ≤ chunkElems) (h2 : codes.length ≤ chunkElems) : exec (.collectiveResultReceive collId step gen k sums codes) s =
      .next (byGen gen (resultTaken collId step gen k sums codes) s) :=
  gate_of_true _ _ (by simp [hg, h1, h2])

/-- A result kept for a collective that does not yet run, or whose output faulted. -/
def keptResult (r : CollResult) (s : State) : State := { s with colls := { s.colls with unwritten := s.colls.unwritten ++ [r] } }

theorem takeResult_kept {r : CollResult} {s : State} (h : ∀ c w, ¬ Claims.Writes r.collId r.step s c w) : takeResult r s = keptResult r s := by
  unfold takeResult
  dsimp only
  cases hw : collWorkOf s r.collId r.step with
  | none => rfl
  | some e =>
    obtain ⟨c, w⟩ := e
    refine if_pos ?_
    rw [Bool.not_eq_true', ← Bool.not_eq_true, Bool.and_eq_true, Bool.and_eq_true, beq_iff_eq]
    rintro ⟨⟨h1, h2⟩, h3⟩
    exact h c w ⟨hw, h1, h2, h3⟩

theorem takeResult_writes {r : CollResult} {s : State} {c : Nat} {w : Work} (h : Claims.Writes r.collId r.step s c w) : takeResult r s =
    if r.chunk ∈ w.partsDone then s
    else match writeChunk c w r s with
      | .error e => faultColl c w.id e .write (keptResult r s)
      | .ok (t, counts, fl) => finishColl c w.id (workMod c w.id (fun y => { y with
          partsDone := ninsert y.partsDone r.chunk, held := y.held ++ [⟨r.chunk, w.collOut, counts, BitVec.ofNat 32 fl, none⟩] }) t) := by
  obtain ⟨hw, hst, hfl, hmay⟩ := h
  have hgo : (!(w.st == .issued && (flightOf s c w.id).isSome && mayWrite s w)) = false := by simp [hst, hfl, hmay]
  simp only [takeResult, hw, hgo] <;> rfl

theorem exec_collectiveChunkAck {collId step chunk owner : Nat} {s : State} {f : Coll}
    (hf : s.colls.flight.find? (fun f => f.sig.collId == collId && f.sig.step == step && decide ((chunk, owner) ∈ f.unacked)) = some f) :
    exec (.collectiveChunkAck collId step chunk owner) s = .next (handoverIfOut
      (if f.done && (f.unacked.filter (fun u => u != (chunk, owner))).isEmpty then dropFlight f.ctx f.work s
       else flightMod f.ctx f.work (fun g => { g with unacked := f.unacked.filter (fun u => u != (chunk, owner)) }) s)) := by
  have hexec : exec (.collectiveChunkAck collId step chunk owner) s = execCollectiveChunkAck collId step chunk owner s := rfl
  rw [hexec]
  simp only [execCollectiveChunkAck, hf]

/-! ### DEADLINE_SET -/

theorem exec_deadlineSet_accepted {p : Packet} {s : State} (h : Accepted 0x0530 (chkDeadline p) p s) :
    exec (.deadlineSet p) s = .next (bodyDeadline p (owe p s)) :=
  packetOut_plain (accept := acceptDeadline) (body := fun _ t => bodyDeadline p t) h rfl rfl

/-- The deadline parameters of a packet. -/
def deadlineOf (p : Packet) : Deadline := { mode := pf p 0 1, policy := pf p 1 1, factor := pf p 2 2, absUs := pf p 4 4, limitMs := pf p 8 4 }

theorem bodyDeadline_eq (p : Packet) (s : State) : bodyDeadline p s =
    if s.grp.manager then
      if s.grp.deputy = 0xFFFF then completeOk p 0x0530 { s with grp := { s.grp with newDeadline := some (deadlineOf p) } }
      else completeOk p 0x0530 { sendMsg 1 s.grp.deputy "MIRROR_DEADLINE" (deadlineArgs (deadlineOf p)) s with
        grp := { s.grp with newDeadline := some (deadlineOf p) } }
    else completeOpen p 0x0530 stROLE s := by
  unfold bodyDeadline
  cases s.grp.manager with
  | false => rfl
  | true =>
    by_cases hd : s.grp.deputy = 0xFFFF
    · simp [hd, deadlineOf]
    · simp [hd, deadlineOf]

end Sys2Proof.Machine

namespace Sys2Proof
open Sys2Proof.Machine

/-- Settles O28: the submission by its first failing check, the five starts as one row with the operation of the work item. -/
theorem collectives : Obligations.Collectives := by
  unfold Obligations.Collectives Claims.collectiveSubmit Claims.collectiveRefused Claims.reduce Claims.allReduce Claims.allGather Claims.reduceScatter
    Claims.broadcast
  have hstart : ∀ op c id i, (∀ s, exec i s = collRow op c id s) → Claims.CollStarts op c id i :=
    fun op c id i hi s x w hx hw ho hr hroom hf hb hd => (hi s).trans (collRow_starts hx hw ho hr hroom hf hb hd)
  refine ⟨fun p s x h hx hb => ?_, fun p s x st d h hx hb => ?_, fun c id => hstart _ _ _ _ fun _ => rfl, fun c id => hstart _ _ _ _ fun _ => rfl,
    fun c id => hstart _ _ _ _ fun _ => rfl, fun c id => hstart _ _ _ _ fun _ => rfl, fun c id => hstart _ _ _ _ fun _ => rfl⟩
  · rw [exec_collectiveSubmit_accepted h, bodyColl_eq ((ctxOf_owe p s _).trans hx), owe_nextId, hb]
  · rw [exec_collectiveSubmit_accepted h, bodyColl_eq ((ctxOf_owe p s _).trans hx), owe_nextId, hb]

/-- Settles O29: signatures by their step and agreement, chunks and results by their GEN, acknowledgements by what is left. -/
theorem collectiveTraffic : Obligations.CollectiveTraffic := by
  unfold Obligations.CollectiveTraffic Claims.collectiveSignature Claims.collectiveChunkReceive Claims.collectiveResultReceive
    Claims.collectiveChunkAck Claims.epochAbort Claims.deadlineSet
  refine ⟨fun rank g s hr hne => ⟨fun ho => ?_, fun hn hd => ?_, fun hn hd => ?_⟩,
    fun rank collId step gen k data s hr hg hl hm hf => ⟨fun ho => ?_, fun hn ha => ?_, fun hn ha hs => ?_, fun g hn ha hs => ?_⟩,
    fun collId step gen k sums codes s hg h1 h2 => ⟨fun ho => ?_, fun hn ha => ?_, fun hn ha hm hw => ?_,
      fun c w hn ha hm hw => ⟨fun hk => ?_, fun t counts fl hk hwr => ?_, fun e hk hwr => ?_⟩⟩,
    fun collId step chunk owner s f hf => ⟨fun hl => ?_, fun hd hl => ?_⟩, fun p s h => ?_,
    fun p s h => ⟨fun hm hd => ?_, fun hm hd => ?_, fun hm => ?_⟩⟩
  · rw [exec_collectiveSignature g hr hne, takeSignature, if_pos ho]
  · rw [exec_collectiveSignature g hr hne, takeSignature_new hn, hd]
    rfl
  · rw [exec_collectiveSignature g hr hne, takeSignature_new hn, hd]
    rfl
  · rw [exec_collectiveChunkReceive hr hg hl hm hf, takeChunk, byGen_stale _ ho, countStale]
  · rw [exec_collectiveChunkReceive hr hg hl hm hf, takeChunk, byGen_refused _ hn ha]
  · rw [exec_collectiveChunkReceive hr hg hl hm hf, takeChunk, byGen_current _ hn ha]
    simp only [hs]
  · rw [exec_collectiveChunkReceive hr hg hl hm hf, takeChunk, byGen_current _ hn ha]
    simp only [hs]
  · rw [exec_collectiveResultReceive hg h1 h2, byGen_stale _ ho, countStale]
  · rw [exec_collectiveResultReceive hg h1 h2]
    cases hr : refusedGen s gen with
    | true => rw [byGen_refused _ hn hr]
    | false =>
      have hmis : (collId, step) ∈ s.colls.mismatched := ha.resolve_left (by simp [hr])
      rw [byGen_current _ hn hr, resultTaken, if_pos hmis]
  · rw [exec_collectiveResultReceive hg h1 h2, byGen_current _ hn ha, resultTaken, if_neg hm, takeResult_kept hw, keptResult]
  · rw [exec_collectiveResultReceive hg h1 h2, byGen_current _ hn ha, resultTaken, if_neg hm, takeResult_writes hw, if_pos hk]
  · rw [exec_collectiveResultReceive hg h1 h2, byGen_current _ hn ha, resultTaken, if_neg hm, takeResult_writes hw, if_neg hk]
    simp only [hwr]
  · rw [exec_collectiveResultReceive hg h1 h2, byGen_current _ hn ha, resultTaken, if_neg hm, takeResult_writes hw, if_neg hk]
    simp only [hwr]
    rfl
  · rw [exec_collectiveChunkAck hf, if_neg]
    · rfl
    · rw [Bool.and_eq_true, List.isEmpty_iff]
      rintro ⟨hd, he⟩
      exact hl.elim (fun h => by rw [hd] at h; cases h) (fun h => h he)
  · rw [exec_collectiveChunkAck hf, if_pos (by rw [hd, hl]; rfl)]
  · exact packetOut_plain (accept := acceptEpochAbort) (body := fun _ t => completeOk p 0x0521 (abortEpoch (pf p 0 8) (pf p 8 2) t)) h rfl rfl
  · rw [exec_deadlineSet_accepted h, bodyDeadline_eq, owe_grp, if_pos hm, if_pos hd]
    rfl
  · rw [exec_deadlineSet_accepted h, bodyDeadline_eq, owe_grp, if_pos hm, if_neg hd]
    rfl
  · rw [exec_deadlineSet_accepted h, bodyDeadline_eq, owe_grp, hm]
    rfl

end Sys2Proof
end

section
/-! SUPPORT. PCIe completion errors, translation caches, error correction, armoured writes, the loss of a stack and the rebuild, case by case (R190 to
R214). -/
namespace Sys2Proof.Machine

/-! ### PCIe completion errors -/

theorem pcieTarget_granule {c va id i g : Nat} {acc : Access} {x : Ctx} {w : Work} {d : FaultDetail} {s : State} (hx : ctxOf s c = some x)
    (hw : x.work id = some w) (ho : w.opcode = 0x0210) (hm : mayAccess w acc = true)
    (hr : (w.st = .issued ∧ mayRun s x = true) ∨ (w.st = .waiting ∧ mayIssue s x = true)) (hd : dmaAt w (acc == .write) va = some (i, g))
    (hp : pcieDetail s c va (engineDie s).1 acc = some d) : pcieTarget c va acc id s = .next (faultGranule c w i g d (engineDie s).2) := by
  simp only [pcieTarget, hx, hw, hm, ho, hd, hp]
  exact gate_of_true _ _ (by simpa using hr)

theorem pcieTarget_kernel {c va id : Nat} {acc : Access} {x : Ctx} {w : Work} {d : FaultDetail} {s : State} (hx : ctxOf s c = some x)
    (hw : x.work id = some w) (ho : w.opcode = 0x0300) (hm : mayAccess w acc = true) (hk : kernelRuns w = true) (hr : mayRun s x = true)
    (hp : pcieDetail s c va (someCluster w s).1 acc = some d) : pcieTarget c va acc id s = .next (stopKernel c w d (someCluster w s).2) := by
  simp only [pcieTarget, hx, hw, hm, ho, hp]
  exact gate_of_true _ _ (by rw [hk, hr]; rfl)

/-! ### Translation caches -/

theorem execAddressTranslation_ok {c va unit : Nat} {acc : Access} {s : State} {x : Ctx} {r : Target} (hx : ctxOf s c = some x)
    (ha : accessOk unit acc = true) (hr : mayRun s x = true) (ht : translate (atUnit unit s) c va (acc == .write) = .ok r) :
    execAddressTranslation c va unit acc s = .next (fillTlb unit c va s) := by
  have ht' : translate { s with mem := { s.mem with walker := some unit } } c va (acc == .write) = .ok r := ht
  simp only [execAddressTranslation, hx, ha, hr, ht']
  rfl

theorem execAddressTranslation_fault {c va unit : Nat} {acc : Access} {s t : State} {x : Ctx} {f : TFault} (hx : ctxOf s c = some x)
    (ha : accessOk unit acc = true) (hr : mayRun s x = true) (ht : translate (atUnit unit s) c va (acc == .write) = .error f)
    (hf : translationFault c va unit acc f x s = some t) : execAddressTranslation c va unit acc s = .next t := by
  have ht' : translate { s with mem := { s.mem with walker := some unit } } c va (acc == .write) = .error f := ht
  simp only [execAddressTranslation, hx, ha, hr, ht', hf]
  rfl

theorem fillTlb_cached {unit c va : Nat} {s : State} {e : TlbEntry} (h : tlbFind s unit c va = some e) : fillTlb unit c va s = s := by
  simp only [fillTlb, h]

theorem fillTlb_places {unit c va e sh lv dpa : Nat} {s : State} (h : tlbFind s unit c va = none) (hl : leafOf s c va = .ok (e, sh, lv, dpa)) :
    fillTlb unit c va s = placeTlb ⟨unit, c, va / 2 ^ sh * 2 ^ sh, 2 ^ sh, e, lv, dpa⟩ s := by
  simp only [fillTlb, h, hl]

theorem placeTlb_room {e : TlbEntry} {s : State} (h : (s.mem.tlb.filter (fun t => t.unit == e.unit)).length < tlbSize e.unit) :
    placeTlb e s = { s with mem := { s.mem with tlb := s.mem.tlb ++ [e] } } := if_pos h

theorem placeTlb_none {e : TlbEntry} {s : State} (h : tlbSize e.unit = 0) : placeTlb e s = s := by
  simp only [placeTlb, h, Nat.not_lt_zero, if_false, if_true]

/-- The entries of one unit in a list of cached translations. -/
def tlbOwn (l : List TlbEntry) (u : Nat) : List TlbEntry := l.filter (fun t => t.unit == u)

theorem length_tlbOwn_append (l : List TlbEntry) (e : TlbEntry) (u : Nat) :
    (tlbOwn (l ++ [e]) u).length = (tlbOwn l u).length + if e.unit = u then 1 else 0 := by
  by_cases h : e.unit = u <;> simp [tlbOwn, List.filter_append, h]

theorem length_tlbOwn_filter_le (l : List TlbEntry) (p : TlbEntry → Bool) (u : Nat) : (tlbOwn (l.filter p) u).length ≤ (tlbOwn l u).length := by
  simp only [tlbOwn, List.filter_filter, Bool.and_comm]
  rw [← List.filter_filter]
  exact List.length_filter_le _ _

/-- Dropping an entry that the unit has leaves the unit fewer entries. -/
theorem length_tlbOwn_drop {l : List TlbEntry} {u : Nat} {k : TlbEntry} (hk : k ∈ tlbOwn l u) :
    (tlbOwn (l.filter (fun t => some t != some k)) u).length < (tlbOwn l u).length := by
  have hsub : tlbOwn (l.filter (fun t => some t != some k)) u = (tlbOwn l u).filter (fun t => some t != some k) := by
    simp only [tlbOwn, List.filter_filter, Bool.and_comm]
  rw [hsub]
  exact List.length_filter_lt_length_iff_exists.mpr ⟨k, hk, by simp⟩

/-- An entry that enters a cache keeps every cache within its size: the full one gives an entry up (R197). -/
theorem placeTlb_bound (e : TlbEntry) {s : State} (h : ∀ u, (tlbOwn s.mem.tlb u).length ≤ tlbSize u) (u : Nat) :
    (tlbOwn (placeTlb e s).mem.tlb u).length ≤ tlbSize u := by
  unfold placeTlb
  dsimp only
  split
  next hroom =>
    rw [length_tlbOwn_append]
    split
    next he =>
      subst he
      exact hroom
    next => exact h u
  next hfull =>
    split
    next => exact h u
    next hz =>
      have hlen : 0 < (tlbOwn s.mem.tlb e.unit).length := by
        have : ¬ (tlbOwn s.mem.tlb e.unit).length < tlbSize e.unit := hfull
        omega
      have hi : (freshValue s).1.toNat % (tlbOwn s.mem.tlb e.unit).length < (tlbOwn s.mem.tlb e.unit).length := Nat.mod_lt _ hlen
      have hget : (tlbOwn s.mem.tlb e.unit)[(freshValue s).1.toNat % (tlbOwn s.mem.tlb e.unit).length]? = some _ := List.getElem?_eq_getElem hi
      change (tlbOwn (s.mem.tlb.filter (fun k => some k !=
        (tlbOwn s.mem.tlb e.unit)[(freshValue s).1.toNat % (tlbOwn s.mem.tlb e.unit).length]?) ++ [e]) u).length ≤ tlbSize u
      rw [hget, length_tlbOwn_append]
      split
      next he =>
        subst he
        exact (length_tlbOwn_drop (List.getElem_mem hi)).trans_le (h _)
      next => exact (length_tlbOwn_filter_le _ _ u).trans (h u)

theorem fillTlb_bound (unit c va : Nat) {s : State} (h : ∀ u, (tlbOwn s.mem.tlb u).length ≤ tlbSize u) (u : Nat) :
    (tlbOwn (fillTlb unit c va s).mem.tlb u).length ≤ tlbSize u := by
  unfold fillTlb
  split
  next => exact placeTlb_bound _ h u
  next => exact h u

theorem translationFault_cluster {c va unit : Nat} {acc : Access} {f : TFault} {x : Ctx} {s : State} {w : Work} (hu : unit / 4096 = 1)
    (hw : x.works.find? (fun w => runsOn (countPoison (.tf va f) s) w (unit % 4096) && (acc == .sync || mayAccess w acc)) = some w) :
    translationFault c va unit acc f x s = some (stopKernel c w (accDetail (.tf va f) unit acc) (countPoison (.tf va f) s)) := by
  simp only [translationFault, hu, hw, Option.map_some]

/-! ### Error correction -/

theorem exec_memoryRead {st off : Nat} {f : EccFinding} {access : Option (Nat × Nat)} {k : Bool} {s : State} (ha : stackAnswers s st off = true)
    (hf : findingOk s st off f = true) (hk : readAllocates s st off access = some k) :
    exec (.memoryRead st off ⟨f, access⟩) s = .next (touchLine k false (hbmKey st off / 128) (eccFound true st off f s)) := by
  have hexec : exec (.memoryRead st off ⟨f, access⟩) s = execMemoryRead st off ⟨f, access⟩ s := rfl
  rw [hexec]
  simp only [execMemoryRead, hk]
  exact gate_of_true _ _ (by rw [ha, hf]; rfl)

theorem exec_patrolScrub {st off : Nat} {f : EccFinding} {s : State} (ha : stackAnswers s st off = true) (h1 : f ≠ .lineSingle) (h2 : f ≠ .lineDouble) :
    exec (.patrolScrub st off f) s = .next (eccFound false st off f s) :=
  gate_of_true _ _ (by simp [ha, h1, h2])

/-- A finding that is nothing, or one bit in a cached line, leaves only the count of poison reads (R203, R204). -/
theorem eccFound_sound {f : EccFinding} (hf : f = .clean ∨ f = .lineSingle) (read : Bool) (st off : Nat) (s : State) : eccFound read st off f s =
    if read && blockPoisoned s st off then countMem st (fun m => { m with poison := sat32 m.poison 1 }) s else s := by
  obtain rfl | rfl := hf <;> rfl

theorem eccFound_unpoisoned {read : Bool} {st off : Nat} {s : State} (f : EccFinding) (h : (read && blockPoisoned s st off) = false) :
    eccFound read st off f s = match f with
      | .clean | .lineSingle => s
      | .correctable => noteSoft (countMem st (fun m => { m with ce := sat32 m.ce 1 }) s)
      | .uncorrectable => uncorrectable st off s
      | .lineDouble => match lineAt s st off with
        | some l => lineError l s
        | none => s := by
  cases f <;> simp only [eccFound, h, Bool.false_eq_true, if_false] <;> rfl

theorem inFixCopy_of_stage {s : State} (h : s.fix.stage ≠ .copying) (block : Nat) : inFixCopy s block = false := by
  simp [inFixCopy, h]

/-- What an uncorrectable error does, by the part of the stack it strikes. The definition is unfolded as a function, before it meets its arguments: to
compare the match on `stackPart` itself would evaluate the gibibytes of the stack. -/
theorem uncorrectable_of_part {st off : Nat} {s : State} : ∀ {k : StackPart}, stackPart s st off = k → uncorrectable st off s =
    match k with
    | .plain => escalate (hbmKey st off / 64) false (poisonBlock (hbmKey st off / 64) (countUe st s))
    | .pool r => match poolError st r (countUe st s) with
      | (u, true) => escalate (hbmKey st off / 64) true u
      | (u, false) => u
    | .reserve _ => escalate (hbmKey st off / 64) true (poisonGranule (hbmKey st off) (countUe st s)) := by
  obtain ⟨f, hf⟩ : ∃ f, f = uncorrectable := ⟨_, rfl⟩
  have hbody := hf
  conv at hbody => rhs; whnf
  intro k hp
  rw [← hf, hbody]
  beta_reduce
  rw [hp] <;> rfl

theorem escalate_outside {block : Nat} {s : State} (h : inFixCopy s block = false) : escalate block false s = s := by
  rw [escalate, h]
  rfl

theorem uncorrectable_plain {st off : Nat} {s : State} (hf : s.fix.stage ≠ .copying) (hp : stackPart s st off = .plain) :
    uncorrectable st off s = poisonBlock (hbmKey st off / 64) (countUe st s) := by
  have hu : (poisonBlock (hbmKey st off / 64) (countUe st s)).fix = s.fix := by rw [poisonBlock, countUe, countMem]
  rw [uncorrectable_of_part hp]
  exact escalate_outside (inFixCopy_of_stage (by rw [hu]; exact hf) _)

/-- The other five granules of an INTACT stripe give the sixth (R213). The bytes are kept folded: there are 4,096 of them. -/
theorem poolError_intact {st r : Nat} {l : List Byte} {s : State} (ha : (armourOf s (st / 6)).st = 1)
    (hl : rebuiltBytes s (st / 6) r (survivors (st % 6)) = some l) : poolError st r s =
      (writeGranule (poolKey s (st / 6) r (st % 6) 0) l (countMem st (fun m => { m with recon := sat32 m.recon 1 }) s), false) := by
  rw [poolError, if_pos ha]
  generalize rebuiltBytes s (st / 6) r (survivors (st % 6)) = o at hl
  subst hl
  rfl

theorem uncorrectable_reconstructs {st off r : Nat} {l : List Byte} {s : State} (hp : stackPart s st off = .pool r)
    (ha : (armourOf (countUe st s) (st / 6)).st = 1) (hl : rebuiltBytes (countUe st s) (st / 6) r (survivors (st % 6)) = some l) :
    uncorrectable st off s = writeGranule (poolKey (countUe st s) (st / 6) r (st % 6) 0) l
      (countMem st (fun m => { m with recon := sat32 m.recon 1 }) (countUe st s)) := by
  rw [uncorrectable_of_part hp]
  dsimp only
  rw [poolError_intact ha hl]

/-! ### Armour -/

theorem execArmouredWrite_taken {dpa q r : Nat} {data : List Byte} {s : State} (ho : oneStripe s dpa data.length = some (q, r))
    (ha : (armourOf s q).st ≠ 5) (hb : stripeBusy s q r = false) (hd : s.dev.st ≠ .off) :
    execArmouredWrite dpa data s = .next (devStore dpa data s) := by
  simp only [execArmouredWrite, ho]
  exact gate_of_true _ _ (by simp [ha, hb, hd])

theorem stripeBusy_acked (q r : Nat) (s : State) : stripeBusy { s with mem := { s.mem with
    unacked := s.mem.unacked.filter (fun e => !(e.q == q && e.stripe == r)) } } q r = false := by
  simp only [stripeBusy, List.any_eq_false, List.mem_filter, Bool.not_eq_true']
  rintro e ⟨_, he⟩
  rw [he]
  decide

theorem mem_loseLines_cache {st : Nat} {s : State} {l : Line} : l ∈ (loseLines st s).mem.cache ↔
    ∃ l0 ∈ s.mem.cache, ¬ (lineStack l0.key = st ∧ plainLine s l0.key = true) ∧
      l = if lineStack l0.key = st then { l0 with dirty := false } else l0 := by
  simp only [loseLines, List.mem_map, List.mem_filter, Bool.not_eq_true', Bool.and_eq_false_iff, beq_eq_false_iff_ne, beq_iff_eq]
  constructor
  · rintro ⟨l0, ⟨hm, hn⟩, rfl⟩
    exact ⟨l0, hm, fun h => hn.elim (fun h1 => h1 h.1) (fun h2 => by rw [h.2] at h2; cases h2), rfl⟩
  · rintro ⟨l0, hm, hn, rfl⟩
    refine ⟨l0, ⟨hm, ?_⟩, rfl⟩
    by_cases hs : lineStack l0.key = st
    · exact .inr ((Bool.not_eq_true _).mp fun h => hn ⟨hs, h⟩)
    · exact .inl hs

theorem exec_rebuildStripe {q : Nat} {s : State} (hq : q < 4) (ha : (armourOf s q).st = 3) (hc : (armourOf s q).cursor < poolStripes s q)
    (hb : stripeBusy s q (armourOf s q).cursor = false) (hd : s.dev.st ≠ .off) : exec (.rebuildStripe q none) s = .next (rebuildOne q none s) :=
  gate_of_true _ _ (by simp [hq, ha, hc, hb, hd])

theorem rebuildOne_parity {q : Nat} {s : State} (e : Option Nat) (h : parityJ (armourOf s q).cursor = (armourOf s q).lostJ) :
    rebuildOne q e s = advanceCursor q s := if_pos h

theorem rebuildOne_data {q : Nat} {l : List Byte} {s : State} (h : parityJ (armourOf s q).cursor ≠ (armourOf s q).lostJ)
    (hl : rebuiltBytes s q (armourOf s q).cursor (survivors (armourOf s q).lostJ) = some l) :
    rebuildOne q none s = advanceCursor q (writeGranule (reserveKey s q (armourOf s q).cursor 0 (armourOf s q).lostJ) l s) := by
  rw [rebuildOne, if_neg h]
  generalize rebuiltBytes s q (armourOf s q).cursor (survivors (armourOf s q).lostJ) = o at hl
  subst hl
  rfl

end Sys2Proof.Machine

namespace Sys2Proof
open Sys2Proof.Machine

/-- Settles O30: the errors by what the request was, a translation by its leaf; a full cache gives up an entry before it takes one. -/
theorem pcieAndTranslation : Obligations.PcieAndTranslation := by
  unfold Obligations.PcieAndTranslation Claims.pcieTimeoutSlot Claims.pcieTimeoutParams Claims.pcieTimeoutGranule Claims.pcieTimeoutKernel
    Claims.pcieTimeoutShard Claims.translationFills Claims.tlbBound Claims.translationStopsKernel
  refine ⟨fun q x s hx hs hh hq => ?_, fun op p s hp hf hd => gate_of_true _ _ (by simp [hp, hf, hd]),
    fun c va acc id x w i g d s hx hw ho hm hr hd hp => pcieTarget_granule hx hw ho hm hr hd hp,
    fun c va acc id x w d s hx hw ho hm hk hr hp => pcieTarget_kernel hx hw ho hm hk hr hp, fun c va unit x d s hx hp ha hu hv hz => ?_,
    fun c va unit acc x r s hx ha hr ht => ⟨execAddressTranslation_ok hx ha hr ht, fun e he => fillTlb_cached he,
      fun e sh lv dpa hn hl => ⟨fun hroom => ?_, fun hz => ?_⟩⟩, fun unit c va s h u => fillTlb_bound unit c va h u,
    fun c va unit acc x w f s hx ha hr hu ht hw => execAddressTranslation_fault hx ha hr ht (translationFault_cluster hu hw)⟩
  · have hexec : exec (.pcieCompletionTimeout (.slot q)) s = execPcieCompletionTimeout (.slot q) s := rfl
    rw [hexec]
    simp only [execPcieCompletionTimeout, hx]
    exact gate_of_true _ _ (by simp [hs, hh, hq])
  · have hexec : exec (.pcieCompletionTimeout (.shard c va unit)) s = pcieShard c va unit s := rfl
    rw [hexec]
    simp only [pcieShard, hx, hp]
    exact gate_of_true _ _ (by simp [ha, hu, hv, hz])
  · rw [fillTlb_places hn hl, placeTlb_room hroom]
  · rw [fillTlb_places hn hl, placeTlb_none hz]

/-- Settles O31: each finding by its effect, on whether the block is poisoned and in which part of the stack it lies. -/
theorem errorCorrection : Obligations.ErrorCorrection := by
  unfold Obligations.ErrorCorrection Claims.eccClean Claims.eccCorrectable Claims.eccPlain Claims.eccReconstructs Claims.eccLineDouble
  refine ⟨fun st off f access k s ha hf hk => ?_, fun st off access k s ha hk => ⟨?_, fun hp => ?_⟩, fun st off s ha hf hp => ?_,
    fun st off r l s ha hp h1 h2 hl => ?_, fun st off access k l s ha hl hp hk => ?_⟩
  · have hok : findingOk s st off f = true := by
      obtain rfl | ⟨rfl, hl⟩ := hf
      · rfl
      · exact hl
    have hsound : f = .clean ∨ f = .lineSingle := hf.imp_right And.left
    refine ⟨?_, fun hp => ?_, fun hp => ?_⟩
    · rw [exec_patrolScrub ha (by decide) (by decide)]
      rfl
    · rw [exec_memoryRead ha hok hk, eccFound_sound hsound, hp]
      rfl
    · rw [exec_memoryRead ha hok hk, eccFound_sound hsound, hp]
      rfl
  · rw [exec_patrolScrub ha (by decide) (by decide)]
    rfl
  · rw [exec_memoryRead ha rfl hk, eccFound_unpoisoned _ (by rw [hp]; rfl)]
  · rw [exec_patrolScrub ha (by decide) (by decide), eccFound_unpoisoned _ rfl]
    exact congrArg Host.Outcome.next (uncorrectable_plain hf hp)
  · rw [exec_patrolScrub ha (by decide) (by decide), eccFound_unpoisoned _ rfl]
    exact congrArg Host.Outcome.next (uncorrectable_reconstructs hp h2 hl)
  · rw [exec_memoryRead ha (by simp [findingOk, hl]) hk, eccFound_unpoisoned _ (by rw [hp]; rfl)]
    simp only [hl, lineError]

/-- Settles O32: writes and acknowledgements by the stripe buffer, losses by the armour and the lines, the rebuild by what the lost granule was. -/
theorem armour : Obligations.Armour := by
  unfold Obligations.Armour Claims.armouredWrite Claims.armouredWriteAck Claims.stackLoss Claims.armourAfterLoss Claims.linesAfterLoss
    Claims.rebuildParity Claims.rebuildData
  refine ⟨fun dpa data q r s ho ha hb hd => ⟨_, rfl, execArmouredWrite_taken ho ha hb hd⟩,
    fun q r s hb => ⟨_, gate_of_true _ _ hb, stripeBusy_acked q r s, fun e he => ?_, rfl⟩,
    fun st s h1 h2 h3 h4 => gate_of_true _ _ (by simp [h1, h2, h3, h4]), fun a j => ⟨fun h => if_pos h, fun h => ?_⟩,
    fun st s => ⟨rfl, fun l hl hs => ?_, fun l hs => ?_, rfl⟩, fun q s hq ha hc hb hd hp => ?_, fun q l s hq ha hc hb hd hp hl => ?_⟩
  · simp only [List.mem_filter, Bool.not_eq_true', Bool.and_eq_false_iff, beq_eq_false_iff_ne, and_iff_left_iff_imp]
    exact fun _ => not_and_or.mp he
  · rw [armourLoss, if_neg (by omega), if_pos h]
  · obtain ⟨l0, _, hn, rfl⟩ := mem_loseLines_cache.mp hl
    by_cases h0 : lineStack l0.key = st
    · rw [if_pos h0]
      exact ⟨rfl, (Bool.not_eq_true _).mp fun h => hn ⟨h0, h⟩⟩
    · rw [if_neg h0] at hs
      exact absurd hs h0
  · rw [mem_loseLines_cache]
    constructor
    · rintro ⟨l0, hm, _, rfl⟩
      by_cases h0 : lineStack l0.key = st
      · rw [if_pos h0] at hs
        exact absurd h0 hs
      · rw [if_neg h0]
        exact hm
    · exact fun hm => ⟨l, hm, fun h => hs h.1, (if_neg hs).symm⟩
  · rw [exec_rebuildStripe hq ha hc hb hd, rebuildOne_parity _ hp, advanceCursor]
  · rw [exec_rebuildStripe hq ha hc hb hd, rebuildOne_data hp hl]

end Sys2Proof
end

section
/-! SUPPORT. Fault records and their resolution, slices, saves and restores of contexts, case by case (R223 to R235). -/
namespace Sys2Proof.Machine

/-! ### Resolving a record -/

theorem exec_faultResolve_accepted {p : Packet} {s : State} (h : Accepted 0x0601 (chkFaultResolve p) p s) :
    exec (.faultResolve p) s = .next (bodyFaultResolve p (owe p s)) :=
  packetOut_plain (accept := acceptFaultResolve) (body := fun _ t => bodyFaultResolve p t) h rfl rfl

/-- The resolution of a record by the number of its action (R232). -/
def resolved (c i : Nat) (s : State) : Nat → State
  | 0 => doRetry c i s
  | 1 => doAbort c i s
  | _ => doAbortContext c i s

theorem bodyFaultResolve_resolves {p : Packet} {s : State} {x : Ctx} {f : FaultRec} (hx : ctxOf s p.ctx = some x)
    (hf : tget x.faults (pf p 0 1) = some f) (ho : pf p 1 1 = 0 → f.cls ≠ 4) : bodyFaultResolve p s = completeOk p 0x0601
      (resolved p.ctx (pf p 0 1) s ((replayedAbort s p.ctx f.step f.hostTag).getD (pf p 1 1))) := by
  have hn : ¬ (pf p 1 1 = 0 ∧ f.cls = 4) := fun h => ho h.1 h.2
  rw [bodyFaultResolve, withCtx_loaded _ hx]
  simp only [hf, hn, if_false]
  rfl

theorem bodyFaultResolve_empty {p : Packet} {s : State} {x : Ctx} (hx : ctxOf s p.ctx = some x) (hf : tget x.faults (pf p 0 1) = none) :
    bodyFaultResolve p s = completeWith p 0x0601 stBADPARAM 0x0904 s := by
  rw [bodyFaultResolve, withCtx_loaded _ hx]
  simp only [hf]

theorem bodyFaultResolve_overrun {p : Packet} {s : State} {x : Ctx} {f : FaultRec} (hx : ctxOf s p.ctx = some x)
    (hf : tget x.faults (pf p 0 1) = some f) (ha : pf p 1 1 = 0) (hc : f.cls = 4) :
    bodyFaultResolve p s = completeWith p 0x0601 stBADPARAM 0x0905 s := by
  rw [bodyFaultResolve, withCtx_loaded _ hx]
  simp only [hf, ha, hc, and_self, if_true]

theorem doRetry_resumes {c i id : Nat} {s : State} {f : FaultRec} {w : Work} {x : Ctx} (hf : pendingRecord s c i = some f) (hi : f.work = some id)
    (hx : ctxOf (freeRecordSlot c i s) c = some x) (hw : x.work id = some w) :
    doRetry c i s = reschedule (resumeWork c f w (freeRecordSlot c i s)) := by
  have hf' : (ctxOf s c).bind (fun x => tget x.faults i) = some f := hf
  simp only [doRetry, hf', hi, hx, Option.bind_some, hw]

theorem doAbort_aborts {c i id : Nat} {s : State} {f : FaultRec} {w : Work} {x : Ctx} (hf : pendingRecord s c i = some f) (hi : f.work = some id)
    (hx : ctxOf (freeRecordSlot c i (abortRecord c 1 f s)) c = some x) (hw : x.work id = some w) :
    doAbort c i s = abortWork c w none (freeRecordSlot c i (abortRecord c 1 f s)) := by
  have hf' : (ctxOf s c).bind (fun x => tget x.faults i) = some f := hf
  simp only [doAbort, hf', hi, hx, Option.bind_some, hw]

/-! ### Saves and restores -/

theorem mem_of_tget {α : Type} {t : Table α} {k : Nat} {v : α} (h : tget t k = some v) : (k, v) ∈ t := by
  induction t with
  | nil => cases h
  | cons e r ih =>
    rw [tget_cons] at h
    split at h
    next hk =>
      subst hk
      cases h
      exact List.mem_cons_self
    next => exact List.mem_cons_of_mem _ (ih h)

/-- The areas in use, one by one (R226). -/
theorem mem_savedAreas {x : Ctx} {a : Nat × Nat} : a ∈ savedAreas x ↔ a = (0x40, 4032) ∨ (∃ e ∈ x.faults, a = (0x1000 + 64 * e.1, 64)) ∨
    a = (0x2000, 1024) ∨ a = (0x4000, 32 + 32 * x.works.length) ∨ a = (0x14000, 16 * (x.works.filter (fun w => w.st == .deferred)).length) ∨
    (∃ e ∈ x.stripes, a = (0x18000 + 1024 * e.1, 1024)) ∨ a = (0x100000, 512 * x.scales.length) := by
  simp only [savedAreas, List.mem_append, List.mem_cons, List.not_mem_nil, or_false, List.mem_map, or_assoc, eq_comm]

theorem execContextSaveComplete_saved {c : Nat} {x : Ctx} {s t0 t : State} {l h : List Byte} (hx : ctxOf s c = some x) (hs : x.saving = true)
    (hn : sparingUnder x s = false) (hl : saveAreas c x (savedAreas x) s = (l, t0)) (hh : saveHeader t0 = (h, t)) :
    execContextSaveComplete c s = .next (reschedule (ctxMod c (fun y => { y with
      resident := false, saving := false, savedOut := true, savedHeader := h, savedUse := savedAreas x, savedCrc := crc32c l
      savedRegs := blockRegs s.dev.step x, saveCount := y.saveCount + 1, waitSince := (moduleWrite c x.saveVa h t).nextId })
      (moduleWrite c x.saveVa h t))) := by
  simp only [execContextSaveComplete, hx, hl, hh]
  exact gate_of_true _ _ (by rw [hs, hn]; rfl)

theorem execContextRestore_next {c : Nat} {x : Ctx} {s : State} (hx : ctxOf s c = some x) (hs : x.savedOut = true) (hr : x.resident = false)
    (hrun : x.runnable = true) (hf : fits (x :: residentsBut s c) = true) (hn : comesNext s c = true) :
    execContextRestore c s = .next (restoreContext c x s) := by
  simp only [execContextRestore, hx]
  exact gate_of_true _ _ (by simp [hs, hr, hrun, hf, hn])

/-- The record of a restore that fails: it names no descriptor, its resume point is all ones (R226, R235). -/
theorem restoreFault_eq (c : Nat) (d : FaultDetail) (s : State) : ∃ f t, restoreFault c d s = reschedule (addFault c f true t) ∧
    f.resume = 2 ^ 64 - 1 ∧ f.work = none ∧ f.detail = d ∧ t.ctxs = s.ctxs ∧ t.mem = s.mem :=
  ⟨_, _, rfl, rfl, rfl, rfl, rfl, rfl⟩

end Sys2Proof.Machine

namespace Sys2Proof
open Sys2Proof.Machine

/-- Settles O33: the resolutions by the record they name, a slice by its contention, saves and restores by the bytes of the area. -/
theorem contextFaults : Obligations.ContextFaults := by
  unfold Obligations.ContextFaults Claims.faultGet Claims.faultResolve Claims.faultResolveRefused Claims.retry Claims.abortDescriptor
    Claims.abortContext Claims.sliceExpiry Claims.contextSave Claims.saveLayout Claims.contextRestore Claims.contextRestoreDamaged
  refine ⟨fun p s x h hx => ?_, fun p s x f h hx hf ho act hact => ⟨fun ha => ?_, fun ha => ?_, fun ha => ?_⟩,
    fun p s x h hx => ⟨fun hf => ?_, fun f hf ha hc => ?_⟩, fun c i f id w x s hf hc hr hi hx hw => ?_, fun c i f id w x s hf hi hx hw => ?_,
    fun c i f s hf => gate_of_true _ _ (by simp [hf]), fun c x s hx hr hs hg => ⟨fun hc => ?_, fun hc => ?_⟩,
    fun c x s l h t0 t hx hs hn hl hh => execContextSaveComplete_saved hx hs hn hl hh, fun x => ⟨fun i f hf => ?_, fun hf hs hw hc a ha => ?_⟩,
    fun c x h l s hx hs hr hrun hf hn hrd hh hcrc => ?_, fun c x h l s hx hs hr hrun hf hn hrd hbad => ?_⟩
  · exact packetOut_slot (accept := acceptFaultGet)
      (body := fun idx t => withCtx p 0x0600 idx t (fun x => finishSlot p 0x0600 idx 0 (faultPayload p.ctx x) t)) h rfl rfl
  · rw [exec_faultResolve_accepted h, bodyFaultResolve_resolves ((ctxOf_owe p s _).trans hx) hf ho, ← hact, ha]
    rfl
  · rw [exec_faultResolve_accepted h, bodyFaultResolve_resolves ((ctxOf_owe p s _).trans hx) hf ho, ← hact, ha]
    rfl
  · rw [exec_faultResolve_accepted h, bodyFaultResolve_resolves ((ctxOf_owe p s _).trans hx) hf ho, ← hact, ha]
    rfl
  · rw [exec_faultResolve_accepted h, bodyFaultResolve_empty ((ctxOf_owe p s _).trans hx) hf]
  · rw [exec_faultResolve_accepted h, bodyFaultResolve_overrun ((ctxOf_owe p s _).trans hx) hf ha hc]
  · have hrun : exec (.retry c i) s = .next (doRetry c i s) := gate_of_true _ _ (by simp [hf, hc, hr])
    rw [hrun, doRetry_resumes hf hi hx hw]
  · have hrun : exec (.abortDescriptor c i) s = .next (doAbort c i s) := gate_of_true _ _ (by simp [hf])
    rw [hrun, doAbort_aborts hf hi hx hw]
  · have hexec : exec (.sliceExpiry c) s = execSliceExpiry c s := rfl
    rw [hexec]
    simp only [execSliceExpiry, hx, hc]
    exact gate_of_true _ _ (by rw [hr, hs, hg]; rfl)
  · have hexec : exec (.sliceExpiry c) s = execSliceExpiry c s := rfl
    rw [hexec]
    simp only [execSliceExpiry, hx, hc]
    exact gate_of_true _ _ (by rw [hr, hs, hg]; rfl)
  · exact mem_savedAreas.mpr (.inr (.inl ⟨(i, f), mem_of_tget hf, rfl⟩))
  · have hdef : (x.works.filter (fun w => w.st == .deferred)).length ≤ x.works.length := List.length_filter_le _ _
    obtain rfl | ⟨e, he, rfl⟩ | rfl | rfl | rfl | ⟨e, he, rfl⟩ | rfl := mem_savedAreas.mp ha
    · omega
    · have := hf e he
      omega
    · omega
    · omega
    · omega
    · have := hs e he
      omega
    · omega
  · have hexec : exec (.contextRestore c) s = execContextRestore c s := rfl
    rw [hexec, execContextRestore_next hx hs hr hrun hf hn]
    simp only [restoreContext, hrd, hh, hcrc, and_self, if_true]
  · have hexec : exec (.contextRestore c) s = execContextRestore c s := rfl
    have hno : ¬ (h = x.savedHeader ∧ crc32c l = x.savedCrc) := fun hg => hbad.elim (fun h1 => h1 hg.1) (fun h2 => h2 hg.2)
    rw [hexec, execContextRestore_next hx hs hr hrun hf hn]
    simp only [restoreContext, hrd, hno, if_false]
    obtain ⟨f, t, he, h1, h2, h3, h4, h5⟩ := restoreFault_eq c (.memory (match translate s c x.saveVa false with
      | .ok (.dev a _) => a
      | _ => 0xFFFFFFFFFFFFFFFF) (binnacleUnit s) 1) s
    exact ⟨_, f, t, congrArg Host.Outcome.next he, h1, h2, h3, h4, h5⟩

end Sys2Proof
end

section
/-! SUPPORT. The chart: faults of clusters and engines, planned moves and orders, supervisors and Binnacles, publications and skews, case by case (R21 to
R33, R302 to R308, R334, R370). -/
namespace Sys2Proof.Machine

/-! ### Faults of clusters -/

theorem exec_clusterFault {phys : Nat} {arr : Option Nat} {perm : Bool} {s : State} (hp : phys < 832) (ha : ∀ a, arr = some a → a < 4)
    (hu : unitState s (uCluster phys) = .healthy ∨ unitState s (uCluster phys) = .spare ∨ unitState s (uCluster phys) = .testing)
    (hl : leaving s (uCluster phys) = false) (hd : s.dev.st ≠ .off) :
    exec (.clusterFault phys arr perm) s = .next (clusterFaulted phys perm (noteArray phys arr s)) := by
  have harr : arr.all (fun a => decide (a < 4)) = true := by
    cases arr with
    | none => rfl
    | some a => exact decide_eq_true (ha a rfl)
  refine gate_of_true _ _ ?_
  rw [decide_eq_true hp, harr, hl]
  simpa [hd] using hu

theorem clusterFaulted_spared {phys : Nat} {perm : Bool} {s : State} {m : List (Nat × Nat)}
    (hh : unitState (foreseen (abortFix 1 s)) (uCluster phys) = .healthy)
    (hm : movesFrom (foreseen (abortFix 1 s)) phys (identities (foreseen (abortFix 1 s)) phys) [] = some m) : clusterFaulted phys perm s =
      if healthyAfter (foreseen (abortFix 1 s)) phys m < 25 then moduleLoss (Claims.Spared phys perm m (abortFix 1 s))
      else settleTests {} (dropTest phys (Claims.Spared phys perm m (abortFix 1 s))) := by
  simp only [clusterFaulted, hh, hm, if_true]
  rfl

theorem clusterFaulted_noTaker {phys : Nat} {perm : Bool} {s : State}
    (hh : unitState (foreseen (abortFix 1 s)) (uCluster phys) = .healthy)
    (hm : movesFrom (foreseen (abortFix 1 s)) phys (identities (foreseen (abortFix 1 s)) phys) [] = none) : clusterFaulted phys perm s =
      moduleLoss (decideLeaving { units := [(uCluster phys, faultState perm)] } (abortFix 1 s)) := by
  simp only [clusterFaulted, hh, hm, if_true]

theorem clusterFaulted_idle {phys : Nat} {perm : Bool} {s : State} (hh : unitState (foreseen (abortFix 1 s)) (uCluster phys) ≠ .healthy) :
    clusterFaulted phys perm s = endTest phys false (noteFault (uCluster phys) perm
      (decideLeaving { units := [(uCluster phys, faultState perm)] } (abortFix 1 s))) := by
  simp only [clusterFaulted, hh, if_false]

theorem exec_clusterWatchdog {l : Nat} {s : State} (hl : l < 800) (hw : holdsWork s l = true) (hs : clusterServes s l = true) :
    exec (.clusterWatchdog l) s = .next (clusterFaulted (carrier s l) false s) :=
  gate_of_true _ _ (by rw [decide_eq_true hl, hw, hs]; rfl)

theorem exec_mediaEngineFault {u : Nat} {s : State} (hv : unitValid u = true) (hk : u / 4096 = 5)
    (hu : unitState s u = .healthy ∨ unitState s u = .testing) (hl : leaving s u = false) (hd : s.dev.st ≠ .off) : exec (.mediaEngineFault u) s =
      .next (if unitState s u = .healthy then
        (if (sameEngines s [] u).isEmpty then moduleLoss (noteFault u false (decideLeaving { units := [(u, .quarantined)] } s))
         else noteAbsorbed (noteFault u false (decideLeaving { units := [(u, .quarantined)] } s)))
        else noteFault u false (decideLeaving { units := [(u, .quarantined)] } s)) :=
  gate_of_true _ _ (by obtain hu | hu := hu <;> simp [hv, hk, hu, hl, hd])

/-! ### UNIT_STATE_SET and the rolling test -/

theorem exec_unitStateSet_accepted {p : Packet} {s : State} (h : Accepted 0x0602 (chkUnitState p) p s) :
    exec (.unitStateSet p) s = .next (bodyUnitState p (owe p s)) :=
  packetOut_plain (accept := acceptUnitState) (body := fun _ t => bodyUnitState p t) h rfl rfl

theorem bodyUnitState_kind {p : Packet} {s : State} {st : UnitState} (hs : unitStateOf (pf p 2 1) = some st)
    (hk : pf p 0 2 / 4096 = 2 ∨ kindHas (pf p 0 2 / 4096) st = false) : bodyUnitState p s = completeWith p 0x0602 stBADPARAM 0x0C20 s := by
  have hbad : pf p 0 2 / 4096 = 2 ∨ ¬ kindHas (pf p 0 2 / 4096) st = true := hk.imp_right fun h => by rw [h]; decide
  simp only [bodyUnitState, hs, hbad, if_true]

theorem bodyUnitState_refused {p : Packet} {s : State} {st : UnitState} (hs : unitStateOf (pf p 2 1) = some st) (hk : pf p 0 2 / 4096 ≠ 2)
    (hh : kindHas (pf p 0 2 / 4096) st = true) (ht : transitionOk (pf p 0 2 / 4096) (unitState (foreseen s) (pf p 0 2)) st = false) :
    bodyUnitState p s = completeOpen p 0x0602 stBADPARAM s := by
  simp [bodyUnitState, hs, hk, hh, ht]

theorem bodyUnitState_decided {p : Packet} {s : State} {st : UnitState} (hs : unitStateOf (pf p 2 1) = some st) (h1 : pf p 0 2 / 4096 ≠ 1)
    (hk : pf p 0 2 / 4096 ≠ 2) (hh : kindHas (pf p 0 2 / 4096) st = true)
    (ht : transitionOk (pf p 0 2 / 4096) (unitState (foreseen s) (pf p 0 2)) st = true) :
    bodyUnitState p s = completeOk p 0x0602 (decideLeaving { units := [(pf p 0 2, st)] } s) := by
  simp [bodyUnitState, hs, h1, hk, hh, ht]

theorem bodyUnitState_ordersOut {p : Packet} {s : State} {st : UnitState} (hs : unitStateOf (pf p 2 1) = some st) (h1 : pf p 0 2 / 4096 = 1)
    (hh : kindHas 1 st = true) (hu : unitState (foreseen s) (pf p 0 2) = .healthy) (ht : transitionOk 1 .healthy st = true) :
    bodyUnitState p s = orderOut p (pf p 0 2 % 4096) st s := by
  simp [bodyUnitState, hs, h1, hh, hu, ht]

theorem bodyUnitState_ordersIn {p : Packet} {s : State} (hs : unitStateOf (pf p 2 1) = some .healthy) (h1 : pf p 0 2 / 4096 = 1)
    (hu : unitState (foreseen s) (pf p 0 2) = .spare) : bodyUnitState p s =
      match doubledOf (foreseen s) (pf p 0 2 % 4096 / 52) with
      | none => completeWith p 0x0602 stBADPARAM 0x0C22 s
      | some l => completeOk p 0x0602 (planTake l (pf p 0 2 % 4096) s) := by
  have hh : kindHas 1 .healthy = true := rfl
  have ht : transitionOk 1 .spare .healthy = true := rfl
  simp [bodyUnitState, hs, h1, hh, hu, ht] <;> rfl

theorem rollOne_cluster {u : Nat} {s : State} (h1 : u / 4096 = 1) (hu : unitState s u = .healthy) : rollOne u s = planMove (u % 4096) .testing s :=
  if_pos ⟨h1, hu⟩

theorem rollOne_group {u : Nat} (s : State) (h : u / 4096 = 2) : rollOne u s = s := by
  rw [rollOne, if_neg (by omega), if_pos h]

theorem rollOne_decides {u : Nat} {s : State} (h1 : ¬ (u / 4096 = 1 ∧ unitState s u = .healthy)) (h2 : u / 4096 ≠ 2) :
    rollOne u s = decideLeaving { units := [(u, .testing)] } s := by
  rw [rollOne, if_neg h1, if_neg h2]

end Sys2Proof.Machine

namespace Sys2Proof
open Sys2Proof.Machine

/-- Settles O34: a cluster's fault by what the chart foresees of it after the abort, an engine's by the engines of its function. -/
theorem hardwareFaults : Obligations.HardwareFaults := by
  unfold Obligations.HardwareFaults Claims.clusterFault Claims.clusterFaultLoss Claims.clusterFaultIdle Claims.clusterWatchdog Claims.engineFault
    Claims.engineFaultTesting
  refine ⟨fun phys arr perm m s t hp ha hu hl hd ht hf hm hn => ?_, fun phys arr perm s t hp ha hu hl hd ht hf => ⟨fun m hm hn => ?_, fun hm => ?_⟩,
    fun phys arr perm s t hp ha hu hl hd ht hf => ?_, fun l m s hl hw hs hf hm hn => ?_,
    fun u s hv hk hu hl hd => ⟨fun he => ?_, fun he => ?_⟩, fun u s hv hk hu hl hd => ?_⟩
  · subst ht
    rw [exec_clusterFault hp ha (.inl hu) hl hd, clusterFaulted_spared hf hm, if_neg (Nat.not_lt.mpr hn)]
  · subst ht
    rw [exec_clusterFault hp ha (.inl hu) hl hd, clusterFaulted_spared hf hm, if_pos hn]
  · subst ht
    rw [exec_clusterFault hp ha (.inl hu) hl hd, clusterFaulted_noTaker hf hm, faultState]
  · subst ht
    rw [exec_clusterFault hp ha (.inr hu) hl hd, clusterFaulted_idle hf, faultState]
  · rw [exec_clusterWatchdog hl hw hs, clusterFaulted_spared hf hm, if_neg (Nat.not_lt.mpr hn)]
  · rw [exec_mediaEngineFault hv hk (.inl hu) hl hd, if_pos hu, if_neg (by simpa using he)]
  · rw [exec_mediaEngineFault hv hk (.inl hu) hl hd, if_pos hu, if_pos (by simp [he])]
  · rw [exec_mediaEngineFault hv hk (.inr hu) hl hd, if_neg (by rw [hu]; decide)]

/-- Settles O35: a planned move by its gate, UNIT_STATE_SET by the kind and the foreseen state of the unit, the rolling test by its unit's kind. -/
theorem unitOrders : Obligations.UnitOrders := by
  unfold Obligations.UnitOrders Claims.plannedMove Claims.unitStateSet Claims.unitStateSetKind Claims.unitStateSetSpare Claims.unitStateSetCluster
    Claims.rollingTest Claims.rollingTestIdle
  refine ⟨fun l phys st m s hm hp hl hi hu => ?_, fun p s st h hs h1 h2 hk => ⟨fun ht => ?_, fun ht => ?_⟩, fun p s st h hs hk => ?_,
    fun p s h hs h1 hu => ⟨fun l hd => ?_, fun hd => ?_⟩, fun p s st h hs h1 hk hu ht => ?_,
    fun u k s hv h1 h2 hk hu hf hi hp hl hc => ?_, fun u s hv h1 h2 hf => ⟨fun hk => ?_, fun hk hc => ?_⟩⟩
  · have hexec : exec (.plannedMove l phys st) s = execPlannedMove l phys st s := rfl
    rw [hexec]
    simp only [execPlannedMove, hm]
    exact gate_of_true _ _ (by rw [hp, decide_eq_true hl, hi]; exact hu)
  · rw [exec_unitStateSet_accepted h, bodyUnitState_decided hs h1 h2 hk ht]
  · rw [exec_unitStateSet_accepted h, bodyUnitState_refused hs h2 hk ht]
  · rw [exec_unitStateSet_accepted h, bodyUnitState_kind hs hk]
  · rw [exec_unitStateSet_accepted h, bodyUnitState_ordersIn hs h1 hu, hd]
  · rw [exec_unitStateSet_accepted h, bodyUnitState_ordersIn hs h1 hu, hd]
  · rw [exec_unitStateSet_accepted h, bodyUnitState_ordersOut hs h1 hk hu ht]
  · have hrun : exec (.rollingTest u (some k)) s = .next (rollOne u s) := gate_of_true _ _ (by simp [hv, h1, h2, hk, hu, hf, hi, hp, hl, hc])
    rw [hrun, rollOne_cluster hk hu]
  · have hrun : exec (.rollingTest u none) s = .next (rollOne u s) := by
      refine gate_of_true _ _ ?_
      obtain ⟨hk, hu | hu⟩ | ⟨hk, hu | ⟨hu, he⟩⟩ | ⟨hk, hu | hu⟩ := hk
      · simp [hv, h1, h2, hk, hu, hf]
      · simp [hv, h1, h2, hk, hu, hf]
      · simp [hv, h1, h2, hk, hu, hf]
      · simp [hv, h1, h2, hk, hu, hf, he]
      · simp [hv, h1, h2, hk, hu, hf]
      · simp [hv, h1, h2, hk, hu, hf]
    have hno : ¬ (u / 4096 = 1 ∧ unitState s u = .healthy) := by
      rintro ⟨h, hu⟩
      obtain ⟨_, hs | hs⟩ | ⟨hk, _⟩ | ⟨hk, _⟩ := hk
      · rw [hu] at hs
        cases hs
      · rw [hu] at hs
        cases hs
      · omega
      · omega
    rw [hrun, rollOne_decides hno (by omega)]
  · have hrun : exec (.rollingTest u none) s = .next (rollOne u s) := gate_of_true _ _ (by simp [hv, h1, h2, hk, hc, hf])
    rw [hrun, rollOne_group s hk]

/-- Settles O36: a missed heartbeat by whether the supervisor has faulted before, a takeover by its standby, its end by the publication it meets. -/
theorem supervisorsAndBinnacles : Obligations.SupervisorsAndBinnacles := by
  unfold Obligations.SupervisorsAndBinnacles Claims.supervisorMiss Claims.supervisorMissAgain Claims.supervisorRestart Claims.takeover
    Claims.takeoverEnd
  refine ⟨fun sup s hs hu hr hl hd hf => ?_, fun sup s hs hu hr hl hd hf => ?_, fun sup s hs => gate_of_true _ _ (decide_eq_true hs),
    fun s h1 h2 ht => ⟨fun hb => ?_, fun hb => ?_⟩, fun s t ht hp => ?_⟩
  · have hrun : exec (.supervisorHeartbeatMiss sup) s = .next (supervisorFault sup s) := gate_of_true _ _ (by simp [hs, hu, hr, hl, hd])
    refine ⟨_, ?_, rfl⟩
    rw [hrun, supervisorFault, if_neg hf]
  · have hrun : exec (.supervisorHeartbeatMiss sup) s = .next (supervisorFault sup s) := gate_of_true _ _ (by simp [hs, hu, hr, hl, hd])
    rw [hrun, supervisorFault, if_pos hf]
  · have hrun : exec .binnacleTakeover s = _ := gate_of_true _ _ (by simp [h1, h2, ht])
    rw [hrun, hb]
    exact ⟨_, rfl, rfl, rfl⟩
  · have hrun : exec .binnacleTakeover s = _ := gate_of_true _ _ (by simp [h1, h2, ht])
    rw [hrun, hb]
    rfl
  · have hrun : exec .binnacleTakeoverEnd s = _ := gate_of_true _ _ ht
    rw [hrun]
    cases hb : s.chart.pub with
    | none =>
      simp only [hb] at hp ⊢
      rw [hp]
    | some b =>
      simp only [hb] at hp ⊢
      rw [hp]

/-- Settles O37: each step of a publication by its gate, a skew by whether it has been logged. -/
theorem publication : Obligations.Publication := by
  unfold Obligations.Publication Claims.chartDecision Claims.fenceAck Claims.applyAck Claims.mirrorAck Claims.fencedOutput Claims.stateMismatch
    Claims.staleReport
  refine ⟨fun us ms s h1 h2 ht hn hc => ?_, fun b s hp hf ht => ?_, fun b s hp hf ha ht => ⟨fun hb => ?_, fun hb => ?_⟩,
    fun b s hp ha hb ht => ?_, fun die unit epoch s hu hd => ⟨fun hm => ?_, fun hm => ?_⟩,
    fun u rep epoch s hv hk hr hd => ⟨_, gate_of_true _ _ (by simp [hv, hk, hr, hd]), rfl⟩,
    fun u epoch s hv hk he => gate_of_true _ _ (by simp [hv, hk, he])⟩
  · refine gate_of_true _ _ ?_
    rw [hc, ht]
    obtain hn | hn := hn <;> simp [h1, h2, hn]
  · have hexec : exec .fenceAck s = execFenceAck s := rfl
    rw [hexec]
    simp only [execFenceAck, hp]
    exact gate_of_true _ _ (by rw [hf, ht]; rfl)
  · have hexec : exec .supervisorApplyAck s = execSupervisorApplyAck s := rfl
    rw [hexec]
    simp only [execSupervisorApplyAck, hp, hb, if_true, setPub, Option.map_some]
    exact gate_of_true _ _ (by rw [hf, ha, ht]; rfl)
  · have hexec : exec .supervisorApplyAck s = execSupervisorApplyAck s := rfl
    rw [hexec]
    simp only [execSupervisorApplyAck, hp, hb, Bool.false_eq_true, if_false]
    exact gate_of_true _ _ (by rw [hf, ha, ht]; rfl)
  · have hexec : exec .binnacleMirrorAck s = execBinnacleMirrorAck s := rfl
    rw [hexec]
    simp only [execBinnacleMirrorAck, hp]
    exact gate_of_true _ _ (by rw [ha, hb, ht]; rfl)
  · have hrun : exec (.fencedOutputDiscard die unit epoch) s = _ := gate_of_true _ _ (by obtain hd | hd := hd <;> simp [hu, within, hd])
    rw [hrun, if_pos hm]
  · have hrun : exec (.fencedOutputDiscard die unit epoch) s = _ := gate_of_true _ _ (by obtain hd | hd := hd <;> simp [hu, within, hd])
    rw [hrun, if_neg hm]

end Sys2Proof
end


section
/-! SUPPORT. The choice of a firmware image, the end of the boot, management over MCTP and packets of opcodes that are not defined (R247, R268,
R269, R359 to R361, R382 to R384). -/
namespace Sys2Proof.Machine

/-! ### The choice of an image -/

theorem exec_firmwareImageSelect (ok : Bool) (a b : ImageFound) {s : State} (hd : s.dev.st = .boot) (hs : s.flash.selected = false)
    (hk : s.flash.stuck = false) : exec (.firmwareImageSelect ok a b) s = .next (match chosenImage s.flash.preferB a b with
     | none => chooseBinnacle false { s with flash := { s.flash with stuck := true } }
     | some b => chooseBinnacle ok { s with flash := { s.flash with selected := true, runningB := b } }) :=
  gate_of_true _ _ (by simp [hd, hs, hk])

theorem chosenImage_none {a b : ImageFound} (p : Bool) (ha : imageGood a = false) (hb : imageGood b = false) : chosenImage p a b = none := by
  cases p <;> simp [chosenImage, ha, hb]

theorem chosenImage_some {a b : ImageFound} (p : Bool) (h : (imageGood a || imageGood b) = true) : ∃ c, chosenImage p a b = some c := by
  cases p <;> cases ha : imageGood a <;> cases hb : imageGood b <;> simp_all [chosenImage]

theorem chosenImage_first {a b first second : ImageFound} {p : Bool} (hp : (first, second) = (if p then (b, a) else (a, b)))
    (h : imageGood first = true) : chosenImage p a b = some p := by
  cases p <;> simp_all [chosenImage]

theorem chosenImage_second {a b first second : ImageFound} {p : Bool} (hp : (first, second) = (if p then (b, a) else (a, b)))
    (h : imageGood first = false) (h2 : imageGood second = true) : chosenImage p a b = some (!p) := by
  cases p <;> simp_all [chosenImage]

/-- After a failed choice or self-check of BA the chart has BA FAILED and BB HEALTHY (R359). -/
theorem unitState_chooseBinnacle_false (s : State) :
    unitState (chooseBinnacle false s) 0x8000 = .failed ∧ unitState (chooseBinnacle false s) 0x8001 = .healthy := by
  simp [chooseBinnacle, unitState, unitRec, tget_tset]

/-! ### Management -/

theorem managed_of_aux {s : State} (ha : s.board.aux = true) (t : State) : managed s t = .next t := gate_of_true _ _ ha

theorem execSetEndpointId_of_aux (e : Nat) {s : State} (ha : s.board.aux = true) : execSetEndpointId e s = .next (if within 8 e 254 then
    sendReply (.control 0 [e]) { s with mgmt := { s.mgmt with eid := e } } else sendReply (.control ccInvalidData []) s) := managed_of_aux ha _

theorem within_iff (a n b : Nat) : within a n b = true ↔ a ≤ n ∧ n ≤ b := by simp [within]

theorem execGetMctpVersionSupport_of_aux (ty : Nat) {s : State} (ha : s.board.aux = true) : execGetMctpVersionSupport ty s = .next
    (if ty ∈ messageTypes ∨ ty = 0xFF then sendReply (.control 0 ((openBytes (0x0400 + ty) 4).map BitVec.toNat)) s
    else sendReply (.control ccTypeUnsupported []) s) := managed_of_aux ha _

theorem writeImage_of_runningB (l : List Byte) {s : State} (h : s.flash.runningB = true) : writeImage l s =
    { s with free := s.free + 1, flash := { s.flash with imgA := { version := (Config.freeValue s.free).setWidth 32, bytes := l } } } := by
  simp [writeImage, freshValue, h]

theorem writeImage_of_runningA (l : List Byte) {s : State} (h : s.flash.runningB = false) : writeImage l s =
    { s with free := s.free + 1, flash := { s.flash with imgB := { version := (Config.freeValue s.free).setWidth 32, bytes := l } } } := by
  simp [writeImage, freshValue, h]

/-- The end of an update whose checks pass: the state whose reply says so (R360, R384). -/
theorem endTransfer_passes {l : List Byte} (s : State) (h : imageMagic l = true) : endTransfer l true s =
    sendReply (.pldm 0 []) (let t := writeImage l { s with flash := { s.flash with transfer := none } }
      { t with flash := { t.flash with verified := true, preferB := !t.flash.runningB } }) := by
  rw [endTransfer, h]
  rfl

/-! ### Opcodes -/

theorem acceptGroup0_of_undefined {op : Nat} (h : opRow op = none) : acceptGroup0 op = none := by
  unfold acceptGroup0
  split
  on_goal -1 => rfl
  all_goals exact absurd h (by decide)

theorem acceptGroup1_of_undefined {op : Nat} (h : opRow op = none) : acceptGroup1 op = none := by
  unfold acceptGroup1
  split
  on_goal -1 => rfl
  all_goals exact absurd h (by decide)

theorem acceptGroups24_of_undefined {op : Nat} (h : opRow op = none) : acceptGroups24 op = none := by
  unfold acceptGroups24
  split
  on_goal -1 => rfl
  all_goals exact absurd h (by decide)

theorem acceptGroups56_of_undefined {op : Nat} (h : opRow op = none) : acceptGroups56 op = none := by
  unfold acceptGroups56
  split
  on_goal -1 => rfl
  all_goals exact absurd h (by decide)

theorem acceptGroups78_of_undefined {op : Nat} (h : opRow op = none) : acceptGroups78 op = none := by
  unfold acceptGroups78
  split
  on_goal -1 => rfl
  all_goals exact absurd h (by decide)

theorem acceptOp_of_undefined {op : Nat} (h : opRow op = none) : acceptOp op = acceptPacket op { lenOk := true } (fun _ t => t) := by
  rw [acceptOp, acceptGroup0_of_undefined h, acceptGroup1_of_undefined h, acceptGroups24_of_undefined h, acceptGroups56_of_undefined h,
    acceptGroups78_of_undefined h]
  rfl

theorem acceptance_of_undefined {op : Nat} {p : Packet} (c : Checks) (s : State) (h : opRow op = none) (hc : p.crc = packetCrc op p) :
    acceptance s op c p = some (stBADOPCODE, none) := by
  simp [acceptance, hc, h]

end Sys2Proof.Machine

namespace Sys2Proof
open Sys2Proof.Machine

/-- Settles O52: the choice of an image by the goodness of both, each row of management by its gate, a packet by its opcode's row. -/
theorem bootAndManagement : Obligations.BootAndManagement := by
  unfold Obligations.BootAndManagement Claims.firmwareSelect Claims.firmwareSelectBB Claims.firmwareNone Claims.bootComplete Claims.bootEpoch
    Claims.setEndpointId Claims.mctpControl Claims.mctpVersion Claims.pldmData Claims.sensorReading Claims.stateReadings Claims.eventReceiver
    Claims.firmwareUpdate Claims.firmwareUpdateEnds Claims.activateFirmware Claims.packetsArrive Claims.undefinedOpcode
  refine ⟨fun a b s hd hs hk first second hp => ⟨fun h => ?_, fun h h2 => ?_⟩, fun a b s hd hs hk h => ?_, fun ok a b s hd hs hk ha hb => ?_,
    fun q tf ff ports s hd hs hq hqn hf hfn hl hp => ?_, fun q ff s => rfl, fun e s ha => ⟨fun h1 h2 => ?_, fun h => ?_⟩,
    fun s ha => ⟨managed_of_aux ha _, managed_of_aux ha _, managed_of_aux ha _, fun c hc => gate_of_true _ _ (by simp [ha, hc])⟩,
    fun ty s ha => ⟨fun h => ?_, fun h => ?_⟩, fun s ha => ⟨fun c => ⟨_, managed_of_aux ha _⟩, _, managed_of_aux ha _⟩,
    fun s ha => ⟨managed_of_aux ha _, managed_of_aux ha _, managed_of_aux ha _, managed_of_aux ha _⟩,
    fun s ha => ⟨managed_of_aux ha _, managed_of_aux ha _, managed_of_aux ha _, managed_of_aux ha _, managed_of_aux ha _⟩,
    fun en e s ha => managed_of_aux ha _, fun b ok s ha => ⟨fun h => ?_, fun l h => ?_, fun h => ?_⟩, fun b l s ha hl hm => ?_,
    fun s ha => ⟨fun h => ?_, fun h => ?_⟩, fun n bytes s hd hl => ⟨gate_of_true _ _ (by simp [hd, hl]), fun ha => gate_of_true _ _ (by simp [ha, hd, hl])⟩,
    fun op p s h hc => ?_⟩
  · rw [exec_firmwareImageSelect true a b hd hs hk, chosenImage_first hp h]
    rfl
  · rw [exec_firmwareImageSelect true a b hd hs hk, chosenImage_second hp h h2]
    rfl
  · obtain ⟨c, hc⟩ := chosenImage_some s.flash.preferB h
    refine ⟨chooseBinnacle false { s with flash := { s.flash with selected := true, runningB := c } }, ?_, rfl, rfl, rfl,
      unitState_chooseBinnacle_false _⟩
    rw [exec_firmwareImageSelect false a b hd hs hk, hc]
  · rw [exec_firmwareImageSelect ok a b hd hs hk, chosenImage_none _ ha hb]
    rfl
  · have hrun : exec (.bootComplete q tf ff ports) s = .next (if bootFails q tf ff then moduleLoss (bootChart q ff s)
        else enterState .hold 0 (bootPorts ports (bootChart q ff s))) := by
      refine gate_of_true _ _ ?_
      simp only [hd, hs, hqn, hfn, hl, Bool.and_eq_true, beq_iff_eq, List.all_eq_true, decide_eq_true_eq, and_self, true_and, and_true]
      exact ⟨⟨hq, hf⟩, hp⟩
    rw [hrun]
    exact ⟨fun h => by rw [if_pos h], fun h => by rw [if_neg (by simp [h])]⟩
  · exact (execSetEndpointId_of_aux e ha).trans (by rw [if_pos ((within_iff 8 e 254).mpr ⟨h1, h2⟩)])
  · refine (execSetEndpointId_of_aux e ha).trans ?_
    rw [if_neg (by rw [within_iff]; omega)]
    rfl
  · refine ⟨_, ?_, (execGetMctpVersionSupport_of_aux ty ha).trans (by rw [if_pos (by simpa [messageTypes, or_assoc] using h)])⟩
    simp [openBytes]
  · refine (execGetMctpVersionSupport_of_aux ty ha).trans ?_
    rw [if_neg (by simpa [messageTypes, or_assoc, and_assoc] using h)]
    rfl
  · refine (managed_of_aux ha _).trans ?_
    rw [h]
    rfl
  · refine (managed_of_aux ha _).trans ?_
    rw [h]
    rfl
  · refine (managed_of_aux ha _).trans ?_
    rw [h]
    rfl
  · have hrun : exec (.pldmFirmwareUpdate false b true true) s = .next (endTransfer (l ++ b) true s) := by
      refine (managed_of_aux ha _).trans ?_
      rw [hl]
      rfl
    refine ⟨_, by rw [hrun, endTransfer_passes s hm], rfl, ?_⟩
    cases hr : s.flash.runningB with
    | true => simp [writeImage_of_runningB, hr]
    | false => simp [writeImage_of_runningA, hr]
  · refine (managed_of_aux ha _).trans ?_
    rw [if_pos h]
  · refine (managed_of_aux ha _).trans ?_
    rw [if_neg (by simp [h])]
    rfl
  · rw [acceptOp_of_undefined h, acceptPacket, acceptance_of_undefined _ s h hc]

end Sys2Proof
end


section
/-! SUPPORT. FIX_REQUEST, FIX_EXPORT and FIX_RESTORE by what a module's role allows and the image it finds (R313, R326, R329, R332 to R335). -/
namespace Sys2Proof.Machine

theorem exec_fixRequest_accepted {p : Packet} {s : State} (h : Accepted 0x0610 (chkFixRequest p) p s) :
    exec (.fixRequest p) s = .next (bodyFixRequest p (owe p s)) :=
  packetOut_plain (accept := acceptFixRequest) (body := fun _ t => bodyFixRequest p t) h rfl rfl

theorem bodyFixRequest_barred {p : Packet} {s : State} (h : roleBars s p = true) : bodyFixRequest p s = completeOpen p 0x0610 stROLE s := if_pos h

theorem bodyFixRequest_allowed {p : Packet} {s : State} (h : roleBars s p = false) : bodyFixRequest p s =
    completeOpen p 0x0610 (if unpairedFeed s then stSHAREDFEED else 0) { s with fix := { s.fix with requested := true } } :=
  if_neg (by simp [h])

theorem execFixExportComplete_exporting {s : State} {p : Packet} {idx : Nat} {i : FixImage} (hx : s.fix.exporting = some (p, idx))
    (hi : (s.fix.recoveryStep.bind (slotOf s)).bind (slotImage s) = some i) : execFixExportComplete s = .next (finishPending idx 0 0
      (fixHeader s.flash.serial i) { exportImage (pf p 0 8) i s with fix := { (exportImage (pf p 0 8) i s).fix with exporting := none } }) := by
  simp only [execFixExportComplete, hx, hi]

theorem exec_fixRestore_accepted {p : Packet} {s t : State} {idx : Nat} (h : Accepted 0x0613 (chkFixRestore p) p s)
    (ha : (idx, t) = allocSlot p 0 (owe p s)) : exec (.fixRestore p) s = .next (bodyFixRestore p idx t) := by
  have hrun : exec (.fixRestore p) s = .next (withSlot p 0 (owe p s) (bodyFixRestore p)) :=
    packetOut_slot (accept := acceptFixRestore) (body := bodyFixRestore p) h rfl rfl
  rw [hrun, withSlot, ← ha]

/-- Whether FIX_RESTORE is barred, as its effect tests it (R329, R334). -/
theorem orderAllowed_iff (p : Packet) (t : State) :
    Claims.orderAllowed p t ↔ (roleBars t p && !(pf p 0 1 == 1 && t.fix.checkpoint)) = false := by
  unfold Claims.orderAllowed
  cases roleBars t p <;> simp

theorem bodyFixRestore_barred {p : Packet} {idx : Nat} {t : State} (h : ¬ Claims.orderAllowed p t) :
    bodyFixRestore p idx t = refuse8 p 0x0613 stROLE none idx t :=
  if_pos (eq_true_of_ne_false (fun hf => h ((orderAllowed_iff p t).mpr hf)))

theorem bodyFixRestore_noImage {p : Packet} {idx d : Nat} {t : State} (h : Claims.orderAllowed p t) (hi : restoreImage p t = .error d) :
    bodyFixRestore p idx t = refuse8 p 0x0613 stBADPARAM (some d) idx t := by
  rw [bodyFixRestore, (orderAllowed_iff p t).mp h, hi]
  rfl

theorem bodyFixRestore_otherLevel {p : Packet} {idx : Nat} {i : FixImage} {t : State} (h : Claims.orderAllowed p t) (hi : restoreImage p t = .ok i)
    (hl : i.level ≠ t.dev.level) : bodyFixRestore p idx t = refuse8 p 0x0613 stLEVEL none idx t := by
  rw [bodyFixRestore, (orderAllowed_iff p t).mp h, hi]
  exact if_pos hl

theorem bodyFixRestore_begins {p : Packet} {idx : Nat} {i : FixImage} {t u : State} (h : Claims.orderAllowed p t) (hi : restoreImage p t = .ok i)
    (hl : i.level = t.dev.level) (hu : u = complete p 0x0613 stPENDING none none idx [] t) : bodyFixRestore p idx t =
      if isHost p.src && inGroup t && t.grp.manager && pf p 0 1 == 0 then runRecovery u.grp.recs [] [] [] p idx (pf p 8 8) (pf p 16 8) u
      else beginRestore ⟨p, 0x0613, pf p 0 1, pf p 8 8, pf p 16 8, pf p 2 2, idx, some i⟩ u := by
  rw [bodyFixRestore, (orderAllowed_iff p t).mp h, hi, hu]
  exact if_neg (not_not.mpr hl)

end Sys2Proof.Machine

namespace Sys2Proof
open Sys2Proof.Machine

/-- Settles O40: each command by its role's right to it and the image it names. -/
theorem fixCommands : Obligations.FixCommands := by
  unfold Obligations.FixCommands Claims.fixRequest Claims.fixRequestRole Claims.fixStatusGet Claims.fixExport Claims.fixExportComplete
    Claims.fixRestore Claims.fixRestoreRefused
  refine ⟨fun p s h hr => ?_, fun p s h hr => ?_,
    fun p s h => packetOut_slot (accept := acceptFixStatus) h rfl rfl,
    fun p s h _ => packetOut_slot (accept := acceptFixExport) (body := bodyFixExport p) h rfl rfl,
    fun p idx i s hx hi => execFixExportComplete_exporting hx hi,
    fun p s i idx t u h ha ho hi hl hu => ⟨fun hm => ?_, fun hm => ?_⟩,
    fun p s idx t h ha => ⟨fun ho => ?_, fun d ho hi => ?_, fun i ho hi hl => ?_⟩⟩
  · rw [exec_fixRequest_accepted h, bodyFixRequest_allowed hr, owe_fix]
  · rw [exec_fixRequest_accepted h, bodyFixRequest_barred hr]
  · rw [exec_fixRestore_accepted h ha, bodyFixRestore_begins ho hi hl hu, if_pos hm]
  · rw [exec_fixRestore_accepted h ha, bodyFixRestore_begins ho hi hl hu, if_neg (by rw [hm]; exact Bool.false_ne_true)]
  · rw [exec_fixRestore_accepted h ha, bodyFixRestore_barred ho]
  · rw [exec_fixRestore_accepted h ha, bodyFixRestore_noImage ho hi]
  · rw [exec_fixRestore_accepted h ha, bodyFixRestore_otherLevel ho hi hl]

end Sys2Proof
end


section
/-! SUPPORT. The stages of a Fix stop and of its stream: what each row does where its gate holds, and what of the state it leaves (R310 to R319,
R388). -/
namespace Sys2Proof.Machine

/-! ### The stop -/

theorem exec_fixQuiesceComplete {s : State} (hs : s.fix.stage = .quiesce) (hm : stillMoving s = false) :
    exec .fixQuiesceComplete s = .next (if s.fix.abortDue then abortFix 1 s else match regionFault (undouble (writeBackRegions s)) with
     | some c => abortFix c (undouble (writeBackRegions s))
     | none => { openSlot (nextSlot (undouble (writeBackRegions s))) (undouble (writeBackRegions s)) with
         fix := { (openSlot (nextSlot (undouble (writeBackRegions s))) (undouble (writeBackRegions s))).fix with stage := .copying } }) := by
  have hrun : exec .fixQuiesceComplete s = _ := gate_of_true _ _ (by simp [hs, hm])
  rw [hrun] <;> rfl

theorem exec_fixCopyComplete {s : State} (hs : s.fix.stage = .copying) : exec .fixCopyComplete s =
    .next (if s.fix.abortDue then abortFix 1 s else match readRegions s (fixRegions s) with
     | .error (.tf c f) => if f.reason = 6 then rollBack (abortFix 2 (countPoison (.tf c f) s)) else abortFix 1 s
     | .error (.mem d) => rollBack (abortFix 2 (countPoison (.mem d) s))
     | .ok l => { (takeImage l (storeRegions (nextSlot s) l s)).2 with
         fix := { (takeImage l (storeRegions (nextSlot s) l s)).2.fix with stage := .header, draft := some (takeImage l (storeRegions (nextSlot s) l s)).1 } }) :=
  gate_of_true _ _ (by simp [hs])

/-- The state once a Fix's header stands in its slot, before RUN resumes (R315). -/
def headerWritten (timeUs : Nat) (d : FixImage) (s : State) : State :=
  let t := storeHeader (nextSlot s) (setSlot (nextSlot s) (some { d with complete := true }) (orFree none s).2)
  { t with fix := { t.fix with
         stage := .none, draft := none, triggered := false, taken := sat32 t.fix.taken 1, lastFixStep := some d.step, stepsSince := 0
         lastStopEndUs := timeUs, lastStopUs := (orFree none s).1 } }

theorem exec_fixHeaderAck (us : Nat) {d : FixImage} {s : State} (hd : s.fix.draft = some d) (hs : s.fix.stage = .header) :
    exec (.fixHeaderAck us) s = .next (if s.fix.abortDue then abortFix 1 s
      else if (consortOf (resumeRun (headerWritten us d s))).isSome then
        startStream { d with complete := true } (some (us / 1000)) (resumeRun (headerWritten us d s))
      else sealOwn d.step (resumeRun (headerWritten us d s))) := by
  have hexec : exec (.fixHeaderAck us) s = execFixHeaderAck us s := rfl
  rw [hexec, execFixHeaderAck, hd]
  exact gate_of_true _ _ (by simp [hs])

theorem slotImage_setSlot (n : Nat) (i : Option FixImage) (s : State) : slotImage (setSlot n i s) n = i := by
  unfold slotImage setSlot
  by_cases h : n = 0 <;> simp [h]

theorem setSlot_taken (n : Nat) (i : Option FixImage) (s : State) : (setSlot n i s).fix.taken = s.fix.taken := by
  unfold setSlot
  split <;> rfl

theorem headerWritten_slotImage (us : Nat) (d : FixImage) (s : State) :
    slotImage (headerWritten us d s) (nextSlot s) = some { d with complete := true } := by
  have hk : (headerWritten us d s).fix.slot0 = (setSlot (nextSlot s) (some { d with complete := true }) (orFree none s).2).fix.slot0 ∧
      (headerWritten us d s).fix.slot1 = (setSlot (nextSlot s) (some { d with complete := true }) (orFree none s).2).fix.slot1 := by
    simp [headerWritten]
  have hs := slotImage_setSlot (nextSlot s) (some { d with complete := true }) (orFree none s).2
  rw [slotImage, hk.1, hk.2]
  exact hs

/-! ### The stream -/

theorem exec_fixStreamChunkReceive_partner {ch k : Nat} {bytes : List Byte} {crc : Word} {s : State} (ha : s.fix.assume = none)
    (hk : partnerOf s = some k) (hl : (fixLayout s).isSome = true) (hb : bytes.length ≤ 64 * 2 ^ 20) (hc : ch * 64 * 2 ^ 20 + bytes.length ≤ 129 * gib) :
    exec (.fixStreamChunkReceive ch bytes crc) s = .next (if crc32c bytes == crc then sealCopy k (sendMsg 5 k "FIX_CHUNK_ACK" [ch, 1] (putChunk ch bytes s))
      else sendMsg 5 k "FIX_CHUNK_ACK" [ch, 0] s) := by
  have hexec : exec (.fixStreamChunkReceive ch bytes crc) s = execFixStreamChunkReceive ch bytes crc s := rfl
  rw [hexec, execFixStreamChunkReceive]
  simp only [ha, hk, Option.isSome_none, Bool.false_eq_true, if_false]
  rw [gate_of_true _ _ (by rw [hl, decide_eq_true hb, decide_eq_true hc]; rfl)]
  cases crc32c bytes == crc <;> simp only [Bool.false_eq_true, if_false, if_true, Bool.not_false, Bool.and_true]

theorem exec_fixStreamChunkReceive_pull {ch : Nat} {bytes : List Byte} {crc : Word} {r : Restore} {s : State} (ha : s.fix.assume = some r)
    (hl : (fixLayout s).isSome = true) (hb : bytes.length ≤ 64 * 2 ^ 20) (hc : ch * 64 * 2 ^ 20 + bytes.length ≤ 129 * gib) :
    exec (.fixStreamChunkReceive ch bytes crc) s = .next (if crc32c bytes == crc then putChunk ch bytes s else s) := by
  have hexec : exec (.fixStreamChunkReceive ch bytes crc) s = execFixStreamChunkReceive ch bytes crc s := rfl
  rw [hexec, execFixStreamChunkReceive]
  simp only [ha, Option.isSome_some, if_true]
  rw [gate_of_true _ _ (by rw [hl, decide_eq_true hb, decide_eq_true hc]; rfl)]
  cases crc32c bytes == crc <;> simp only [Bool.false_eq_true, if_false, if_true, Bool.not_true, Bool.and_false]

/-- Where the Fix in stream lies does not depend on the chunks that failed. -/
theorem streamBase_fails (f : Table Nat) (s : State) : streamBase { s with fix := { s.fix with fails := f } } = streamBase s := rfl

theorem exec_fixChunkAck {ch : Nat} {i : FixImage} {s : State} (ok : Bool) (hs : s.fix.stage = .stream) (hi : streamImage s = some i)
    (hc : ch < fixChunks i) (ha : ch ∉ s.fix.acks) : exec (.fixChunkAck ch ok) s =
      .next (if ok then { s with fix := { s.fix with acks := ninsert s.fix.acks ch } }
        else if (tget s.fix.fails ch).getD 0 + 1 ≥ 3 then abandonStream s
        else sendChunk64 s.grp.consort i (streamBase s) ch
          { s with fix := { s.fix with fails := tset s.fix.fails ch ((tget s.fix.fails ch).getD 0 + 1) } }) := by
  have hrun : exec (.fixChunkAck ch ok) s = _ := gate_of_true _ _ (by rw [hs, hi, Option.any_some, decide_eq_true hc, decide_eq_true ha]; rfl)
  rw [hrun]
  simp only [hi, streamBase_fails]

theorem abandonStream_eq (s : State) : ∃ v n, abandonStream s = { s with free := n, fix := { s.fix with
    stage := .none, acks := [], fails := [], uncoveredMs := sat32 s.fix.uncoveredMs v } } := ⟨_, _, rfl⟩

theorem exec_sealAck {ms : Nat} {i : FixImage} {s : State} (hi : streamImage s = some i) (hs : s.fix.stage = .stream)
    (ha : ∀ c, c < fixChunks i → c ∈ s.fix.acks) (hm : s.fix.streamStartMs.getD 0 ≤ ms) : ∃ free len v : Nat, exec (.sealAck ms) s =
      .next (sealOwn i.step { s with free := free, fix := { s.fix with
        stage := .none, acks := [], fails := [], lastStreamMs := len, uncoveredMs := sat32 s.fix.uncoveredMs (len + v) } }) ∧
      (∀ b, s.fix.streamStartMs = some b → len = ms - b) := by
  have hexec : exec (.sealAck ms) s = execSealAck ms s := rfl
  rw [hexec, execSealAck, hi]
  have hg : ((s.fix.stage == FixStage.stream) && (List.range (fixChunks i)).all (fun c => decide (c ∈ s.fix.acks)) &&
      decide (s.fix.streamStartMs.getD 0 ≤ ms)) = true := by
    simp only [hs, hm, beq_self_eq_true, decide_true, Bool.true_and, Bool.and_true, List.all_eq_true, List.mem_range, decide_eq_true_eq]
    exact ha
  refine ⟨_, _, _, gate_of_true _ _ hg, fun b hb => ?_⟩
  simp only [hb]

end Sys2Proof.Machine

namespace Sys2Proof
open Sys2Proof.Machine

/-- Settles O41: each stage of the stop by whether a context fault struck, each row of the stream by what came. -/
theorem fixStop : Obligations.FixStop := by
  unfold Obligations.FixStop Claims.fixQuiesce Claims.fixCopy Claims.fixCopyPoison Claims.fixHeaderAck Claims.fixChunkReceive Claims.fixChunkAck
    Claims.sealAck Claims.fixSealReport Claims.fixPull
  refine ⟨fun s t hs hm ht => ⟨fun ha => ?_, fun ha hr => ?_, fun c ha hr => ?_⟩, fun l s hs ha hl => ?_,
    fun s hs => ⟨fun ha => ?_, fun d ha hr => ?_, fun c f ha hr => ?_⟩, fun us d s hd hs => ⟨fun ha => ?_, fun ha => ?_⟩,
    fun ch bytes crc k s ha hk hl hb hc => ⟨fun h => ?_, fun h => ?_⟩,
    fun ch i s hs hi hc ha => ⟨exec_fixChunkAck true hs hi hc ha, fun hn => ?_, fun hn => ?_⟩, fun ms i s hi hs ha hm => ?_,
    fun r st s hm hr => gate_of_true _ _ (by simp [hm, hr]), fun r st up i s hi hst hse => ⟨_, rfl, ?_⟩⟩
  · rw [exec_fixQuiesceComplete hs hm, if_pos ha]
  · rw [exec_fixQuiesceComplete hs hm, if_neg (by simp [ha]), ← ht, hr]
  · rw [exec_fixQuiesceComplete hs hm, if_neg (by simp [ha]), ← ht, hr]
  · have hrun := exec_fixCopyComplete hs
    rw [if_neg (by simp [ha]), hl] at hrun
    refine ⟨_, _, hrun, rfl, rfl, ?_⟩
    simp [takeImage, freshValue]
  · rw [exec_fixCopyComplete hs, if_pos ha]
  · rw [exec_fixCopyComplete hs, if_neg (by simp [ha]), hr]
  · rw [exec_fixCopyComplete hs, if_neg (by simp [ha]), hr]
  · rw [exec_fixHeaderAck us hd hs, if_pos ha]
  · refine ⟨headerWritten us d s, ⟨rfl, rfl, rfl, ?_, rfl, rfl, headerWritten_slotImage us d s, rfl⟩, ?_⟩
    · simp only [headerWritten, storeHeader_fix, setSlot_taken]
      rfl
    · rw [exec_fixHeaderAck us hd hs, if_neg (by simp [ha])]
  · rw [exec_fixStreamChunkReceive_partner ha hk hl hb hc, if_pos (beq_iff_eq.mpr h)]
  · rw [exec_fixStreamChunkReceive_partner ha hk hl hb hc, if_neg (fun e => h (beq_iff_eq.mp e))]
  · obtain ⟨v, n, hv⟩ := abandonStream_eq s
    have hrun := exec_fixChunkAck false hs hi hc ha
    rw [if_neg Bool.false_ne_true, if_pos (by omega), hv] at hrun
    exact ⟨_, v, hrun, rfl, rfl, rfl⟩
  · rw [exec_fixChunkAck false hs hi hc ha, if_neg Bool.false_ne_true, if_neg (by omega)]
  · have hms : s.fix.streamStartMs.getD 0 ≤ ms := by
      cases hb : s.fix.streamStartMs with
      | none => exact Nat.zero_le ms
      | some b => exact hm b hb
    obtain ⟨free, len, v, he, hlen⟩ := exec_sealAck hi hs ha hms
    refine ⟨_, ?_, ?_, ?_, ?_, he⟩
    · rfl
    · exact hlen
    · rfl
    · rfl
  · have hexec : exec (.fixPullRequest r st up) s = execFixPullRequest r st up s := rfl
    rw [hexec, execFixPullRequest, hi]
    exact gate_of_true _ _ (by simp [hst, hse])

end Sys2Proof
end


section
/-! SUPPORT. The ends of restores and pulls, the standby's place and step manifests, by what their rows find (R186, R320, R321, R329 to R332). -/
namespace Sys2Proof.Machine

/-! ### Restores -/

theorem exec_fixRestoreComplete {r : Restore} {i : FixImage} {s : State} (hr : s.fix.restore = some r) (hi : r.image = some i)
    (hd : s.dev.st = .fixing ∨ s.dev.st = .standby) : exec .fixRestoreComplete s = .next (if !ingestAgrees s r.step i then refuseRestore r s
        else
          let t := if r.opcode = 0x0621 then { s with fix := { s.fix with home := none } } else { s with grp := { s.grp with gen := r.gen } }
          let t1 := applyRestore i r.step r.replayTo (restoreLog r t) t
          restoreDone t1.grp.rank (restoreEnds r t1)) := by
  have hexec : exec .fixRestoreComplete s = execFixRestoreComplete s := rfl
  rw [hexec, execFixRestoreComplete, hr]
  simp only [hi]
  exact gate_of_true _ _ (by simp [hd])

/-! ### The standby -/

theorem exec_standbyAssume_accepted {p : Packet} {s : State} (h : Accepted 0x0621 (chkAssume p) p s) :
    exec (.standbyAssume p) s = .next (bodyAssume p (allocSlot p 0 (owe p s)).1 (allocSlot p 0 (owe p s)).2) := by
  have hrun : exec (.standbyAssume p) s = .next (withSlot p 0 (owe p s) (bodyAssume p)) :=
    packetOut_slot (accept := acceptAssume) (body := bodyAssume p) h rfl rfl
  rw [hrun, withSlot]

/-- The state of a standby that has taken a lost member's place, its pull under way (R330). -/
def placeTaken (p : Packet) (idx : Nat) (s : State) : State :=
  let t := takePlace p (complete p 0x0621 stPENDING none none idx [] s)
  { t with fix := { t.fix with assume := some ⟨p, 0x0621, 2, pf p 8 8, 0, pf p 4 2, idx, none⟩, consortChunks := [], replayLog := [] } }

theorem bodyAssume_standby {p : Packet} {idx : Nat} {s : State} (h : s.dev.st = .standby) :
    bodyAssume p idx s = sendMsg 5 (pf p 2 2) "FIX_PULL" [ownRank (placeTaken p idx s), pf p 8 8] (placeTaken p idx s) :=
  if_neg (not_not.mpr h)

/-- A standby that takes its first place keeps its own rank for its beats and replies (R330). -/
theorem ownRank_placeTaken {p : Packet} {idx : Nat} {s : State} (h : s.fix.home = none) : ownRank (placeTaken p idx s) = s.grp.rank := by
  simp [ownRank, placeTaken, takePlace, h]

theorem exec_stepManifestReceive_pull (bytes : List Byte) {r : Restore} {s : State} (ha : s.fix.assume = some r) :
    exec (.stepManifestReceive bytes) s = .next { s with fix := { s.fix with replayLog := s.fix.replayLog ++ [parseManifest bytes] } } := by
  have hexec : exec (.stepManifestReceive bytes) s = execStepManifestReceive bytes s := rfl
  simp only [hexec, execStepManifestReceive, ha]

/-! ### Manifests -/

theorem exec_manifestFinalise {s : State} (hm : (ownManifest s s.dev.step).any (fun m => !m.final) = true) (hw : stepWorkDone s = true)
    (hd : decisionIn s = true) (hl : logRoom s = true) (hc : s.fix.checkpoint = false) : exec .manifestFinalise s = .next
      (if digestDiffers s then replayMismatch s.dev.step (finalise s)
      else match consortOf (finalise s) with
       | some k => sendMsg 5 k "MANIFEST" ((((ownManifest (finalise s) (finalise s).dev.step).map manBytes).getD []).map BitVec.toNat) (finalise s)
       | none => enterMuster (finalise s)) := by
  have hrun : exec .manifestFinalise s = _ := gate_of_true _ _ (by simp [hm, hw, hd, hl, hc])
  rw [hrun] <;> rfl

end Sys2Proof.Machine

namespace Sys2Proof
open Sys2Proof.Machine

/-- Settles O42: a restore's end by whether its batches agree, a standby's rows by its pull, a manifest by the consort it has. -/
theorem restoresAndManifests : Obligations.RestoresAndManifests := by
  unfold Obligations.RestoresAndManifests Claims.fixRestoreComplete Claims.fixRestoreDisagrees Claims.standbyAssume Claims.standbyTakes
    Claims.standbyPull Claims.stepManifestGet Claims.manifestFinalise Claims.manifestReceive Claims.manifestAck
  refine ⟨fun r i s u hr hi hd ha hu => ⟨_, rfl, ?_⟩, fun r i s hr hi hd ha => ?_, fun p s h => ⟨fun _ hd => ?_, fun hd => ?_⟩,
    fun ch bytes crc r s ha => ⟨fun hl hb hc => ?_, exec_stepManifestReceive_pull bytes ha⟩, fun r h s ha hh hc hk hs => ?_,
    fun p s h => packetOut_slot (accept := acceptManifest) (body := bodyManifest p) h rfl rfl,
    fun s hm hw hd hl hc => ⟨fun hg k hk => ?_, fun hg hk => ?_, fun hg => ?_⟩, fun bytes k s t ha hk ht => ?_,
    fun s hm hk hc => gate_of_true _ _ (by simp [hm, hk, hc])⟩
  · rw [exec_fixRestoreComplete hr hi hd, ha, hu]
    rfl
  · rw [exec_fixRestoreComplete hr hi hd, ha]
    rfl
  · refine ⟨placeTaken p (allocSlot p 0 (owe p s)).1 (allocSlot p 0 (owe p s)).2, ?_, rfl, rfl, rfl, rfl, rfl, fun hn => ?_⟩
    · rw [exec_standbyAssume_accepted h, bodyAssume_standby hd]
    · rw [ownRank_placeTaken (by simpa using hn)]
      simp
  · rw [exec_standbyAssume_accepted h]
    exact congrArg Host.Outcome.next (if_pos hd)
  · simpa only [beq_iff_eq] using exec_fixStreamChunkReceive_pull ha hl hb hc
  · have hexec : exec .standbyPullComplete s = execStandbyPullComplete s := rfl
    rw [hexec, execStandbyPullComplete, ha]
    simp only [hh]
    exact gate_of_true _ _ (by rw [hc, hk, hs]; simp)
  · rw [exec_manifestFinalise hm hw hd hl hc, if_neg (by simp [hg]), hk]
  · rw [exec_manifestFinalise hm hw hd hl hc, if_neg (by simp [hg]), hk]
  · rw [exec_manifestFinalise hm hw hd hl hc, if_pos hg]
  · have hexec : exec (.stepManifestReceive bytes) s = execStepManifestReceive bytes s := rfl
    simp only [hexec, execStepManifestReceive, ha, hk, ht] <;> rfl

end Sys2Proof
end


section
/-! SUPPORT. The group: its membership and chart, beats and losses, and what manager and members exchange before a step closes (R5, R215, R219,
R280 to R290, R298, R324 to R329). -/
namespace Sys2Proof.Machine

/-! ### Membership -/

theorem exec_feedOverride_accepted {p : Packet} {s : State} (h : Accepted 0x0622 (chkFeedOverride p) p s) :
    exec (.feedOverride p) s = .next (bodyFeedOverride p (owe p s)) :=
  packetOut_plain (accept := acceptFeedOverride) (body := fun _ t => bodyFeedOverride p t) h rfl rfl

theorem exec_roleSet_accepted {p : Packet} {s : State} (h : Accepted 0x0620 (chkRoleSet p) p s) :
    exec (.roleSet p) s = .next (bodyRoleSet p (owe p s)) :=
  packetOut_plain (accept := acceptRoleSet) (body := fun _ t => bodyRoleSet p t) h rfl rfl

theorem bodyGroupJoin_otherGroup {p : Packet} {s : State} (hl : pf p 5 1 = s.dev.level) (hg : pf p 0 4 ≠ s.grp.groupId) :
    bodyGroupJoin p s = completeWith p 0x0510 stBADPARAM 0x0B21 s := by
  rw [bodyGroupJoin, if_neg (not_not.mpr hl), if_pos hg]

theorem bodyGroupJoin_noRank {p : Packet} {s : State} (hl : pf p 5 1 = s.dev.level) (hg : pf p 0 4 = s.grp.groupId)
    (hr : freeRank s (pf p 4 1 == 1) = none) : bodyGroupJoin p s = completeWith p 0x0510 stBUSY 0x0B22 s := by
  rw [bodyGroupJoin, if_neg (not_not.mpr hl), if_neg (not_not.mpr hg), hr]

theorem bodyGroupJoin_inJob {p : Packet} {s : State} {r : Nat} (hl : pf p 5 1 = s.dev.level) (hg : pf p 0 4 = s.grp.groupId)
    (hr : freeRank s (pf p 4 1 == 1) = some r) (hm : pf p 4 1 = 0) (hj : s.dev.jobRunning = true) :
    bodyGroupJoin p s = completeWith p 0x0510 stBUSY 0x0B23 s := by
  rw [bodyGroupJoin, if_neg (not_not.mpr hl), if_neg (not_not.mpr hg), hr]
  exact if_pos ⟨hm, hj⟩

/-- The VALUE of a join: the rank in its low 16 bits, the rest free (R283). -/
def joinValue (r : Nat) (s : State) : BitVec 64 := BitVec.ofNat 64 (r + (freshValue s).1.toNat / 2 ^ 16 * 2 ^ 16)

theorem joinValue_low {r : Nat} (s : State) (h : r < 65536) : (joinValue r s).toNat % 65536 = r := by
  have hv := (freshValue s).1.isLt
  simp only [joinValue, BitVec.toNat_ofNat]
  omega

theorem bodyGroupJoin_joins {p : Packet} {s : State} {r : Nat} (hl : pf p 5 1 = s.dev.level) (hg : pf p 0 4 = s.grp.groupId)
    (hr : freeRank s (pf p 4 1 == 1) = some r) (hj : s.dev.jobRunning = false) : bodyGroupJoin p s =
      changeChart (insertRec { rank := r, state := 1, level := pf p 5 1, feed := pf p 6 1, serialLow := BitVec.ofNat 32 (pf p 12 4) } s.grp.recs)
        (complete p 0x0510 0 none (some (joinValue r s)) 0xFFFF [] (freshValue s).2) := by
  rw [bodyGroupJoin, if_neg (not_not.mpr hl), if_neg (not_not.mpr hg), hr]
  exact if_neg (by simp [hj])

theorem freeRank_owe (p : Packet) (s : State) (b : Bool) : freeRank (owe p s) b = freeRank s b := by
  simp [freeRank, groupRec]

theorem roleSet_mayTake {s : State} (hg : inGroup s = false) (hd : s.dev.st = .hold ∨ s.dev.st = .ready) :
    ¬ (inGroup s || !(s.dev.st == .hold || s.dev.st == .ready)) = true := by
  rcases hd with hd | hd <;> simp [hg, hd]

/-! ### The chart and its routes -/

theorem emit_routes (f : Flit) (b : Fabric) : (b.emit f).routes = b.routes := by
  unfold Fabric.emit
  split
  · split <;> rfl
  · rfl

theorem retry_routes (b : Fabric) : (Fabric.retry b).routes = b.routes :=
  foldl_keeps (fun c f => Fabric.emit f c) Fabric.routes (fun c f => emit_routes f c) b.waiting { b with waiting := [] }

theorem exec_groupChartChange {recs : List GroupRec} {routes : List (Nat × List Nat)} {s : State} (hm : s.grp.manager = true)
    (hr : recsOk recs = true) (ho : routesOk routes = true) (hs : recs.any (fun r => r.rank == s.grp.rank && r.state == 0) = true) :
    exec (.groupChartChange recs routes) s = .next (let u := changeChart (recs.foldr insertRec []) (takeRoutes routes s)
     let t := if presentRanks u = presentRanks s then u else { u with grp := { u.grp with pairingDue := true } }
     sendAll 1 "ROUTES" (routes.flatMap (fun e => e.1 :: e.2.length :: e.2)) (chartReaders t) t) :=
  gate_of_true _ _ (by simp only [hm, hr, ho, hs, Bool.and_self])

/-! ### Beats, losses, replies -/

theorem ownRank_home_none {s : State} (h : s.fix.home = none) : ownRank s = s.grp.rank := by simp [ownRank, h]

theorem ownRank_home_some {s : State} {x : Home} (h : s.fix.home = some x) : ownRank s = x.rank := by simp [ownRank, h]

theorem declareLost_marked {rank : Nat} {r : GroupRec} {s : State} (hr : groupRec s rank = some r) (hk : r.role ≠ 3)
    (hs : r.state = 1 ∨ (s.dev.jobRunning = false ∧ s.fix.recovering = none)) : declareLost rank s = markFailed rank s := by
  simp only [declareLost, hr, hk, if_false]
  rcases hs with h1 | ⟨hj, hv⟩
  · rw [if_pos h1]
  · simp [hj, hv]

theorem markFailed_of_member {rank : Nat} {r : GroupRec} {s : State} (hr : groupRec s rank = some r) (hk : r.role ≠ 3) : markFailed rank s =
    if r.state = 0 then { changeChart (failedRecs rank s) s with grp := { (changeChart (failedRecs rank s) s).grp with pairingDue := true } }
    else changeChart (failedRecs rank s) s := by
  by_cases h : r.state = 0 <;> simp [markFailed, hr, hk, h]

theorem joinGroup_grp (m n : Nat) (s : State) : (joinGroup m n s).grp = { s.grp with joined := true, rank := n, managerRank := m } := by
  unfold joinGroup
  dsimp only
  split
  · exact enterState_grp _ _ _
  · rfl

theorem exec_ilzanReplyReceive_sent {m op st : Nat} {v : BitVec 64} {s : State} (hd : s.dev.st ≠ .off) (ho : (opRow op).any (fun r => r.fabric) = true) :
    exec (.ilzanReplyReceive m op st v) s = .next
    (if op = 0x0510 ∧ st = 0 ∧ ¬ inGroup s ∧ ¬ s.grp.manager ∧ admitState s ≠ .anchored then joinGroup m (v.toNat % 65536) s
     else if op = 0x0140 ∧ st ≠ 0 ∧ s.grp.manager ∧ mayLose s m then declareLost m s
     else if (op = 0x0613 ∨ op = 0x0621) ∧ s.fix.recovering.isSome then recoveryReply m op st s
     else s) := gate_of_true _ _ (by simp [hd, ho])

/-! ### Before a step closes -/

theorem exec_remoteSyncOperation {r cell : Nat} (act : SyncAct) {s : State} (hg : inGroup s = true) (hr : r ≠ s.grp.rank) (hc : cell < 65536) :
    exec (.remoteSyncOperation r cell act) s = .next (remoteOp r cell act s) := gate_of_true _ _ (by simp [hg, hr, hc])

theorem musterArrival_of_arrive {s : State} {r cell : Nat} (v t : Word) (hm : s.grp.manager = true) (hc : reservedCell cell = true)
    (hp : r ∈ presentRanks s) : musterArrival s r cell (.arrive v t) = true := by
  simp [musterArrival, hm, hc, hp]

theorem exec_deadlineExpiry {s : State} (hm : s.grp.manager = true) (hg : inGroup s = true) (hj : s.dev.jobRunning = true)
    (hd : decisionOut s = false) (hl : hasDeadline s = true) : exec (.deadlineExpiry s.dev.step) s =
      .next (if replaying s then s else sendDecision (deadlineEntries s) s) := gate_of_true _ _ (by simp [hm, hg, hj, hd, hl])

theorem exec_decision {l : List LateEntry} {s : State} (hg : inGroup s = true) (hj : s.dev.jobRunning = true) (hd : decidedNow s = false)
    (hk : ∀ e, e ∈ l → 1 ≤ e.kind ∧ e.kind ≤ 3) (hm : s.grp.manager = false) : exec (.decision s.dev.step l) s = .next (takeDecision l s) := by
  have hk' : l.all (fun e => within 1 e.kind 3) = true := by
    rw [List.all_eq_true]
    exact fun e he => (within_iff 1 e.kind 3).mpr (hk e he)
  exact gate_of_true _ _ (by simp [hg, hj, hd, hk', hm])

end Sys2Proof.Machine

namespace Sys2Proof
open Sys2Proof.Machine

/-- Settles O44: each command by the role and state that allow it, a chart by the gate that takes it, a reply by the command it answers. -/
theorem groupMembership : Obligations.GroupMembership := by
  unfold Obligations.GroupMembership Claims.feedOverride Claims.roleSet Claims.groupJoin Claims.groupJoinRefused Claims.groupChartGet
    Claims.groupChartChange Claims.groupChartPublication Claims.ilzanReplyJoin Claims.jobStartReply
  refine ⟨fun p s h => ⟨fun hm => ?_, fun hm => ?_⟩, fun p s h => ⟨fun hg hd => ?_, fun hg => ?_⟩, fun p s r h hl hg hj hr hf => ?_,
    fun p s h => ⟨fun hl => ?_, fun hl hg => ?_, fun hl hg hf => ?_, fun hl hg r hf hw hj => ?_⟩,
    fun p s h => packetOut_slot (accept := acceptGroupChart) h rfl rfl,
    fun recs routes s hm hr ho hs => ⟨retry_routes _, _, _, rfl, rfl, exec_groupChartChange hm hr ho hs⟩,
    fun ep gen m d recs routes s hm hj hr ho hn => ?_, fun m v s hd hg hm ha => ?_, fun r st v s hd hm hl => ?_⟩
  · rw [exec_feedOverride_accepted h, bodyFeedOverride, if_neg (by simp [hm]), owe_grp]
  · rw [exec_feedOverride_accepted h, bodyFeedOverride, if_pos (by simp [hm])]
  · rw [exec_roleSet_accepted h, bodyRoleSet, if_neg (roleSet_mayTake ((inGroup_owe p s).trans hg) (by simpa using hd))]
  · rw [exec_roleSet_accepted h, bodyRoleSet, if_pos (by simp [hg])]
  · refine ⟨complete p 0x0510 0 none (some (joinValue r (owe p s))) 0xFFFF [] (freshValue (owe p s)).2, joinValue r (owe p s), ?_, rfl,
      joinValue_low _ hr⟩
    rw [exec_groupJoin_accepted h, bodyGroupJoin_joins (by simpa using hl) (by simpa using hg) hf (by simpa using hj), complete_grp]
    rfl
  · rw [exec_groupJoin_accepted h, bodyGroupJoin_otherLevel (by simpa using hl)]
  · rw [exec_groupJoin_accepted h, bodyGroupJoin_otherGroup (by simpa using hl) (by simpa using hg)]
  · rw [exec_groupJoin_accepted h, bodyGroupJoin_noRank (by simpa using hl) (by simpa using hg) hf]
  · rw [exec_groupJoin_accepted h, bodyGroupJoin_inJob (by simpa using hl) (by simpa using hg) hf hw (by simpa using hj)]
  · refine ⟨_, gate_of_true _ _ ?_, rfl, rfl, rfl, rfl, rfl, rfl⟩
    rcases hn with hn | hn <;> simp [hm, hj, hr, ho, hn]
  · rw [joinGroup_grp]
    refine ⟨?_, rfl, rfl, rfl⟩
    rw [exec_ilzanReplyReceive_sent hd rfl, if_pos ⟨rfl, rfl, by simp [hg], by simp [hm], ha⟩]
  · rw [exec_ilzanReplyReceive_sent hd rfl, if_neg (by simp)]
    by_cases h0 : st = 0
    · rw [if_neg (by simp [h0]), if_neg (by simp), if_pos h0]
    · rw [if_pos ⟨rfl, h0, hm, hl⟩, if_neg h0]

/-- Settles O45: each row by its gate, a loss by the record of the rank. -/
theorem groupLosses : Obligations.GroupLosses := by
  unfold Obligations.GroupLosses Claims.heartbeatSend Claims.heartbeatReceive Claims.heartbeatTimeout Claims.probeTimeout Claims.probeReceive
    Claims.failedNotice Claims.musterLimit Claims.lossMarked
  refine ⟨fun s hg hf ho hm => ⟨?_, ownRank_home_none, fun x hx => ownRank_home_some hx⟩, fun r sea hi th s hg hr hn hs => ?_,
    fun r s hg hw => ?_, fun r b s hg hw hb ht => ⟨fun hm => ?_, fun hm => ?_⟩,
    fun r k s hk hu hg hr => gate_of_true _ _ (by simp [hk, hu, hg, hr]), fun r s hm hl => gate_of_true _ _ (by simp [hm, hl]),
    fun r s hm hj hl hp ha => gate_of_true _ _ (by simp [hm, hj, hl, hp, ha]), fun rank r s hr hk hs => ⟨_, rfl, ?_⟩⟩
  · have hrun : exec .groupHeartbeatSend s = _ := gate_of_true _ _ (by simp [hg, hf, ho])
    rw [hrun]
    simp only [hm, Bool.false_eq_true, if_false]
  · exact ⟨_, gate_of_true _ _ (by simp [hg, hr, hn, hs]), tget_tset_same _ _ _, rfl⟩
  · exact ⟨_, gate_of_true _ _ (by simp [hg, hw]), tget_tset_same _ _ _⟩
  · have hrun : exec (.probeTimeout r) s = _ := gate_of_true _ _ (by simp [hg, hw, hb, ht])
    rw [hrun, if_pos hm]
  · have hrun : exec (.probeTimeout r) s = _ := gate_of_true _ _ (by simp [hg, hw, hb, ht])
    rw [hrun, if_neg (by simp [hm]), takeOver]
  · rw [declareLost_marked hr hk hs, markFailed_of_member hr hk, failedRecs]

/-- Settles O46: a remote operation by its rank and cell, a HANDOVER by its step, a DECISION by whether it lists this member. -/
theorem groupSteps : Obligations.GroupSteps := by
  unfold Obligations.GroupSteps Claims.remoteSync Claims.musterArrive Claims.handover Claims.deadlineExpiry Claims.decisionUnlisted
    Claims.decisionDeferred
  refine ⟨fun r cell act s hg hr hc => ⟨fun hf => ?_, fun hf hm hx => ?_, fun hf hm hx => ?_⟩, fun r cell v t s hg hr hc hf hm hx hp => ?_,
    fun r st s hm hg hj hp => ⟨fun hs hh => ?_, fun hs ho hd => ?_⟩, fun s hm hg hj hd hl => ⟨fun hr => ?_, fun hr => ?_⟩,
    fun l s hg hj hd hk hm ho => ?_, fun l s hg hj hd hk hm ho hr hw => ⟨_, rfl, ?_⟩⟩
  · rw [exec_remoteSyncOperation act hg hr hc, remoteOp, if_pos hf]
  · rw [exec_remoteSyncOperation act hg hr hc, remoteOp, if_neg (by simp [hf]), if_neg (by simp [hm]), if_pos hx]
  · rw [exec_remoteSyncOperation act hg hr hc, remoteOp, if_neg (by simp [hf]), if_neg (by simp [hm]), if_neg (by simp [hx]), refuseRemote]
  · rw [exec_remoteSyncOperation _ hg hr hc, remoteOp, if_neg (by simp [hf]), if_pos (musterArrival_of_arrive v t hm hx hp)]
  · have hl : (st + 1 == s.dev.step && decide (r ∈ s.grp.owing) && !decisionOut s) = false := by simp [hs]
    have hrun : exec (.handover r st) s = _ := gate_of_true _ _ (by simp [hm, hg, hj, hp, hs, hh])
    rw [hrun, if_neg (by rw [hl]; exact Bool.false_ne_true)]
  · have hl : (st + 1 == s.dev.step && decide (r ∈ s.grp.owing) && !decisionOut s) = true := by simp [hs, ho, hd]
    have hrun : exec (.handover r st) s = _ := gate_of_true _ _ (by simp [hm, hg, hj, hp, hs, ho, hd])
    rw [hrun, if_pos hl, lateHandover]
  · rw [exec_deadlineExpiry hm hg hj hd hl, if_pos hr]
  · rw [exec_deadlineExpiry hm hg hj hd hl, if_neg (by simp [hr]), deadlineEntries]
  · rw [exec_decision hg hj hd hk hm, takeDecision]
    simp only [hm, ho, Bool.false_eq_true, if_false, Bool.false_and]
  · rw [exec_decision hg hj hd hk hm, takeDecision]
    simp only [hm, ho, hr, hw, Bool.false_eq_true, if_false, Bool.not_false, Bool.and_self, if_true]

end Sys2Proof
end


section
/-! SUPPORT. Epochs, the states of a published change, the windows it empties and the transitions it keeps (R20 to R25, R29, R32, R138). -/
namespace Sys2Proof.Machine

/-! ### Epochs -/

theorem epochNext_of_ne {e : Word} (h : e ≠ 0xFFFFFFFF) : epochNext e = e + 1 := if_neg h

theorem epochNext_ne_zero (e : Word) : epochNext e ≠ 0 := by
  unfold epochNext
  split
  · decide
  · bv_omega

theorem epochOlder_iff (x y : Word) : epochOlder x y = true ↔ 1 ≤ (y - x).toNat ∧ (y - x).toNat ≤ 2 ^ 31 - 1 := by
  simp [epochOlder]

theorem epochOlder_next (e : Word) : epochOlder e (epochNext e) = true := by
  rw [epochOlder_iff]
  by_cases h : e = 0xFFFFFFFF
  · subst h
    decide
  · rw [epochNext_of_ne h]
    bv_omega

theorem epochOlder_self (e : Word) : epochOlder e e = false := by
  simp [epochOlder]

theorem epochOlder_asymm {x y : Word} (h : epochOlder x y = true) : epochOlder y x = false := by
  rw [epochOlder_iff] at h
  rw [Bool.eq_false_iff, Ne, epochOlder_iff]
  bv_omega

/-! ### The states of a published change -/

theorem changedRec_st (s : State) (e : Word) (u : Nat) (st : UnitState) (moved : Bool) : (changedRec s e u st moved).st = st := by
  unfold changedRec
  split
  next h => exact h.1
  next => rfl

theorem unitState_publishChange_of_mem {c : Change} {s : State} (e : Word) {u : Nat} {st : UnitState} (hnd : ((fullUnits s c).map Prod.fst).Nodup)
    (h : (u, st) ∈ fullUnits s c) : unitState (publishChange c e s) u = st := by
  rw [unitState, unitRec_publishChange_of_mem e hnd h, changedRec_st]

theorem unitState_publishChange_of_other {c : Change} {s : State} (e : Word) {u : Nat} (hn : u ∉ (fullUnits s c).map Prod.fst) :
    unitState (publishChange c e s) u = unitState s u := by
  by_cases hm : u ∈ (movedPhys s c).map uCluster
  · rw [unitState, unitRec_publishChange_of_moved e hn hm]
  · rw [unitState, unitRec_publishChange_of_other e hn hm, unitState]

theorem mem_fullUnits_of_units {c : Change} {s : State} {u : Nat × UnitState} (h : u ∈ c.units) : u ∈ fullUnits s c :=
  List.mem_append_left _ (List.mem_append_left _ h)

theorem mem_fullUnits_of_restate {c : Change} {s : State} {u : Nat} (h : u ∈ c.restate) (hn : u ∉ c.units.map Prod.fst) :
    (u, unitState s u) ∈ fullUnits s c := by
  refine List.mem_append_right _ (List.mem_map.mpr ⟨u, List.mem_filter.mpr ⟨h, decide_eq_true hn⟩, rfl⟩)

/-- The array groups of a cluster that a change makes TESTING are TESTING by it (R20, R85). -/
theorem mem_fullUnits_of_group {c : Change} {s : State} {p a : Nat} (hp : p < 832) (ha : a < 4) (h : (uCluster p, UnitState.testing) ∈ c.units) :
    (0x2000 + 4 * p + a, UnitState.testing) ∈ fullUnits s c := by
  refine List.mem_append_left _ (List.mem_append_right _ (List.mem_flatMap.mpr ⟨_, h, ?_⟩))
  have h1 : uCluster p / 4096 = 1 := by simp only [uCluster]; omega
  have h2 : uCluster p % 4096 = p := by simp only [uCluster]; omega
  simp only [groupStates, h1, h2, if_true, arrayGroups, List.map_map, List.mem_map, List.mem_range]
  exact ⟨a, ha, rfl⟩

theorem mem_fence_publishChange (c : Change) (e : Word) (s : State) (u : Nat) :
    u ∈ (publishChange c e s).chart.fence ↔ u ∈ s.chart.fence ∧ (u, UnitState.healthy) ∉ fullUnits s c := by
  simp [publishChange]

/-! ### Windows and lawful changes -/

/-- A table whose values are mapped under their keys gives each key its mapped value. -/
theorem tget_map_value {α : Type} (f : α → α) (t : Table α) (k : Nat) : tget (t.map (fun e => (e.1, f e.2))) k = (tget t k).map f := by
  induction t with
  | nil => rfl
  | cons e t ih => by_cases hk : k = e.1 <;> simp [tget_cons, ih, hk]

/-- What a change does to the windows of a context (R138). -/
def emptiedHeld (ls : List Nat) (x : Ctx) : Ctx := { x with astk := { x.astk with held := x.astk.held.filter (fun h => decide (h.1 ∉ ls)) } }

theorem publishChange_ctxs (c : Change) (e : Word) (s : State) :
    (publishChange c e s).ctxs = s.ctxs.map (fun x => (x.1, emptiedHeld (c.moves.map Prod.fst) x.2)) := rfl

theorem tget_emptiedHeld (ls : List Nat) (x : Ctx) (l : Nat) : tget (emptiedHeld ls x).astk.held l = if l ∈ ls then none else tget x.astk.held l := by
  have h := tget_filter_key (fun k => decide (k ∉ ls)) x.astk.held l
  by_cases hl : l ∈ ls <;> simpa [emptiedHeld, hl] using h

theorem ctxOf_publishChange (c : Change) (e : Word) (s : State) (i : Nat) :
    ctxOf (publishChange c e s) i = (ctxOf s i).map (emptiedHeld (c.moves.map Prod.fst)) := by
  rw [ctxOf, publishChange_ctxs, tget_map_value, ctxOf]

theorem mem_lawful_units (c : Change) (s : State) (u : Nat) (st : UnitState) :
    (u, st) ∈ (lawful s c).units ↔ (u, st) ∈ c.units ∧ (st = unitState s u ∨ transitionOk (u / 4096) (unitState s u) st = true) := by
  simp [lawful, permits]

/-! ### Transitions -/

theorem transitionOk_quarantined_testing (k : Nat) : transitionOk k .quarantined .testing = true ↔ k ∈ [1, 2, 5, 7] := by
  simp [transitionOk, or_assoc]

theorem transitionOk_testing {k : Nat} {st : UnitState} (h : transitionOk k st .testing = true) : k ∈ [1, 2, 5, 7] := by
  cases st <;> simp_all [transitionOk, or_assoc]

theorem transitionOk_failed (k : Nat) {st : UnitState} (h1 : st ≠ .failed) (h2 : st ≠ .absent) : transitionOk k st .failed = true := by
  cases st <;> simp_all [transitionOk]

end Sys2Proof.Machine

namespace Sys2Proof
open Sys2Proof.Machine

/-- Settles O39: epochs by their difference modulo 2^32, a published change by the units it gives a state, windows by the identities it moves. -/
theorem epochs : Obligations.Epochs := by
  unfold Obligations.Epochs Claims.epochs Claims.publication Claims.transitions Claims.windowsEmpty Claims.changesLawful
  refine ⟨⟨epochNext_ne_zero, fun e => epochNext_of_ne, rfl, epochOlder_next, epochOlder_self, epochOlder_iff, fun x y => epochOlder_asymm⟩,
    fun c e s hnd => ⟨rfl, rfl, fun u st h => unitState_publishChange_of_mem e hnd h, fun u st h => mem_fullUnits_of_units h,
      fun u h hn => mem_fullUnits_of_restate h hn, fun p a hp ha h => mem_fullUnits_of_group hp ha h,
      fun u hn => unitState_publishChange_of_other e hn, mem_fence_publishChange c e s⟩,
    fun k st => ⟨rfl, rfl, rfl, rfl, rfl, rfl, transitionOk_quarantined_testing k, transitionOk_testing, transitionOk_failed k, rfl⟩,
    fun c e s l => ⟨fun x hx hl => ?_, fun i x y hx hy hl => ?_⟩, mem_lawful_units⟩
  · rw [publishChange_ctxs] at hx
    obtain ⟨y, -, rfl⟩ := List.mem_map.mp hx
    exact (tget_emptiedHeld _ y.2 l).trans (if_pos hl)
  · rw [ctxOf_publishChange, hx] at hy
    cases hy
    exact (tget_emptiedHeld _ x l).trans (if_neg hl)

end Sys2Proof
end


section
/-! SUPPORT. Why balancing keeps a stripe set legal, and the energy counter exact (R121, R127, R351). -/
namespace Sys2Proof.Machine

/-! ### Balancing -/

/-- Each value leaves room under the height for MIN_ROWS of its own stripe and of every later one. -/
def LeavesRoom (minRows height : Nat) : List Nat → Prop
  | [] => True
  | v :: r => v + (r.length + 1) * minRows ≤ height ∧ LeavesRoom minRows height r

theorem pushBounds_length (m p : Nat) (vs : List Nat) : (pushBounds m p vs).length = vs.length := by
  induction vs generalizing p with
  | nil => rfl
  | cons v r ih => simp [pushBounds, ih]

theorem moveBounds_length (t : StripeSet) (rates : List Nat) (total k i acc : Nat) : (moveBounds t rates total k i acc).length = k := by
  induction k generalizing i acc with
  | zero => rfl
  | succ k ih => simp [moveBounds, ih]

/-- Values that leave room stay legal boundaries when they are pushed up for MIN_ROWS. -/
theorem boundsAscend_pushBounds {m h : Nat} {vs : List Nat} {p : Nat} (hp : p + (vs.length + 1) * m ≤ h) (hv : LeavesRoom m h vs) :
    boundsAscend m (p :: (pushBounds m p vs ++ [h])) = true := by
  induction vs generalizing p with
  | nil =>
    simp only [List.length_nil] at hp
    simp only [pushBounds, List.nil_append, boundsAscend, Bool.and_true, decide_eq_true_eq]
    omega
  | cons v r ih =>
    obtain ⟨hv1, hvr⟩ := hv
    simp only [List.length_cons, Nat.add_mul, Nat.one_mul] at hp hv1
    have hnext : max v (p + m) + (r.length + 1) * m ≤ h := by
      rw [Nat.add_mul, Nat.one_mul]
      omega
    simp only [pushBounds, List.cons_append, boundsAscend, ih hnext hvr, Bool.and_true, decide_eq_true_eq]
    exact le_max_right _ _

/-- A moved boundary leaves room: it is bounded by HEIGHT less MIN_ROWS of the stripes from it on (R127). -/
theorem moveBounds_leavesRoom {t : StripeSet} (rates : List Nat) (total : Nat) {k i : Nat} (acc : Nat) (hk : i + k = t.clusters.length)
    (hh : t.clusters.length * t.minRows ≤ t.height) : LeavesRoom t.minRows t.height (moveBounds t rates total k i acc) := by
  induction k generalizing i acc with
  | zero => trivial
  | succ k ih =>
    refine ⟨?_, ih _ (by omega)⟩
    rw [moveBounds_length, show t.clusters.length - i = k + 1 by omega]
    have hroom : (k + 1) * t.minRows ≤ t.height := le_trans (Nat.mul_le_mul_right _ (by omega)) hh
    generalize (k + 1) * t.minRows = room at hroom ⊢
    omega

/-- Boundaries that ascend to the height leave room for every stripe. -/
theorem room_of_boundsAscend {m h b : Nat} {bs : List Nat} (hb : boundsAscend m (b :: (bs ++ [h])) = true) : b + (bs.length + 1) * m ≤ h := by
  induction bs generalizing b with
  | nil => simpa [boundsAscend] using hb
  | cons c bs ih =>
    simp only [List.cons_append, boundsAscend, Bool.and_eq_true, decide_eq_true_eq] at hb
    have hc := ih hb.2
    simp only [List.length_cons, Nat.add_mul, Nat.one_mul] at hc ⊢
    omega

theorem legalSet_room {t : StripeSet} (ht : Claims.LegalSet t) : t.clusters.length * t.minRows ≤ t.height := by
  obtain ⟨hn, hl, -, hb⟩ := ht
  cases hbs : t.bound with
  | nil =>
    rw [hbs] at hl
    simp only [List.length_nil] at hl
    omega
  | cons b bs =>
    rw [hbs] at hl hb
    have hr := room_of_boundsAscend hb
    rw [← hl]
    exact le_trans (Nat.le_add_left _ _) hr

theorem balance_of_unbalanced {t : StripeSet} (h : bitAt t.flags 0 = false) : balance t = t.bound := if_pos (.inl (by simp [h]))

/-- The boundaries of a balanced set: those in force, or 0 and the moved ones pushed up (R127). -/
theorem balance_cases (t : StripeSet) : balance t = t.bound ∨
    ∃ rates total, balance t = 0 :: pushBounds t.minRows 0 (moveBounds t rates total (t.clusters.length - 1) 1 0) := by
  unfold balance
  dsimp only
  split
  · exact .inl rfl
  · exact .inr ⟨_, _, rfl⟩

theorem balance_legal {t : StripeSet} (ht : Claims.LegalSet t) : Claims.LegalSet { t with bound := balance t } := by
  obtain ⟨hn, hl, hz, hb⟩ := id ht
  rcases balance_cases t with he | ⟨rates, total, he⟩
  · rw [he]
    exact ht
  · have hlen : (moveBounds t rates total (t.clusters.length - 1) 1 0).length + 1 = t.clusters.length := by
      rw [moveBounds_length]
      omega
    refine ⟨hn, ?_, ?_, ?_⟩
    · show (balance t).length = t.clusters.length
      rw [he, List.length_cons, pushBounds_length, hlen]
    · show (balance t).headD 1 = 0
      rw [he]
      rfl
    · show boundsAscend t.minRows (balance t ++ [t.height]) = true
      rw [he]
      refine boundsAscend_pushBounds ?_ (moveBounds_leavesRoom rates total 0 (by omega) (legalSet_room ht))
      rw [hlen, Nat.zero_add]
      exact legalSet_room ht

/-! ### Energy -/

theorem satAdd_of_lt {n a b : Nat} (h : a + b < 2 ^ n) : satAdd n a b = a + b := by
  unfold satAdd
  omega

/-- A sample's energy is added exactly while the counter has room (R351). -/
theorem addEnergy_exact {w : Nat} {p : PowerSys} (h : Claims.energyNj p + 2 * w < 1000 * 2 ^ 64) :
    Claims.energyNj (addEnergy w p) = Claims.energyNj p + 2 * w ∧ (addEnergy w p).energyRem < 1000 := by
  simp only [Claims.energyNj] at h
  have hsat : satAdd 64 p.energyUj ((p.energyRem + 2 * w) / 1000) = p.energyUj + (p.energyRem + 2 * w) / 1000 := satAdd_of_lt (by omega)
  refine ⟨?_, Nat.mod_lt _ (by decide)⟩
  simp only [Claims.energyNj, addEnergy, hsat]
  omega

theorem foldl_addEnergy_exact {ws : List Nat} {p : PowerSys} (hr : p.energyRem < 1000) (h : Claims.energyNj p + 2 * ws.sum < 1000 * 2 ^ 64) :
    Claims.energyNj (ws.foldl (fun t w => addEnergy w t) p) = Claims.energyNj p + 2 * ws.sum ∧
    (ws.foldl (fun t w => addEnergy w t) p).energyRem < 1000 := by
  induction ws generalizing p with
  | nil => exact ⟨rfl, hr⟩
  | cons w ws ih =>
    simp only [List.sum_cons] at h ⊢
    obtain ⟨he, hlt⟩ := addEnergy_exact (w := w) (p := p) (by omega)
    obtain ⟨he2, hlt2⟩ := ih hlt (by omega)
    exact ⟨by rw [List.foldl_cons, he2, he]; omega, hlt2⟩

end Sys2Proof.Machine

namespace Sys2Proof
open Sys2Proof.Machine

/-- Settles O57: moved boundaries leave room for every later stripe and stay legal when pushed up; the counter by induction over the samples. -/
theorem balanceAndEnergy : Obligations.BalanceAndEnergy := by
  unfold Obligations.BalanceAndEnergy Claims.balanceLegal Claims.balanceOff Claims.energyExact
  exact ⟨fun t ht => balance_legal ht, fun t ht => balance_of_unbalanced ht, fun ws p hr h => foldl_addEnergy_exact hr h⟩

end Sys2Proof
end


section
/-! SUPPORT. The tables of powers of two rise strictly between their entries, so that the floor search finds a code's own entry, and a code rounds to
itself; the range check that ends a rounding; the place of a scale (R34, R38, R44, R97). -/
namespace Sys2Proof.Machine

/-! ### The search for a table entry -/

theorem tableFits_iff (m n t : Nat) : tableFits m n t = true ↔ (2 * t - 1) ^ m ≤ 2 ^ (24 * m + n) := decide_eq_true_iff

theorem tableFits_of_le {m n t u : Nat} (h : t ≤ u) (hu : tableFits m n u = true) : tableFits m n t = true := by
  rw [tableFits_iff] at hu ⊢
  exact le_trans (Nat.pow_le_pow_left (by omega) m) hu

/-- The search finds the largest number in its range that fits. -/
theorem tableGo_spec {m n t : Nat} (i : Nat) (ht : tableFits m n t = true) : tableFits m n (tableGo m n i t) = true ∧
    tableGo m n i t < t + 2 ^ i ∧ ∀ u, tableFits m n u = true → u < t + 2 ^ i → u ≤ tableGo m n i t := by
  induction i generalizing t with
  | zero => exact ⟨ht, by simp [tableGo], fun u _ hu => by simp [tableGo]; omega⟩
  | succ i ih =>
    have hpow : t + 2 ^ (i + 1) = t + 2 ^ i + 2 ^ i := by rw [pow_succ]; omega
    rw [tableGo, hpow]
    split
    next h => exact ih h
    next h =>
      obtain ⟨h1, h2, h3⟩ := ih ht
      refine ⟨h1, lt_of_lt_of_le h2 (Nat.le_add_right _ _), fun u hu _ => h3 u hu ?_⟩
      by_contra hge
      exact h (tableFits_of_le (by omega) hu)

theorem tableFits_zero {m : Nat} (n : Nat) (hm : 0 < m) : tableFits m n 0 = true := by
  rw [tableFits_iff, show 2 * 0 - 1 = 0 from rfl, Nat.zero_pow hm]
  exact Nat.zero_le _

/-- Half octaves twice as fine ask the same of a number. -/
theorem tableFits_double (m n t : Nat) : tableFits (2 * m) (2 * n) t = tableFits m n t := by
  have hl : (2 * t - 1) ^ (2 * m) = ((2 * t - 1) ^ m) ^ 2 := by rw [Nat.mul_comm 2 m, pow_mul]
  have hr : 2 ^ (24 * (2 * m) + 2 * n) = (2 ^ (24 * m + n)) ^ 2 := by rw [← pow_mul]; congr 1; ring
  rw [Bool.eq_iff_iff, tableFits_iff, tableFits_iff, hl, hr, Nat.pow_le_pow_iff_left (by decide)]

theorem tableGo_double (m n i t : Nat) : tableGo (2 * m) (2 * n) i t = tableGo m n i t := by
  induction i generalizing t with
  | zero => rfl
  | succ i ih => rw [tableGo, tableGo, tableFits_double, ih, ih]

/-- A step of 2 does not double the power of a large number (Bernoulli). -/
theorem add_two_pow_le {m x : Nat} (hm : m ≤ 512) (hx : 2 ^ 23 ≤ x) : (x + 2) ^ m ≤ 2 * x ^ m := by
  have hpos : (0 : ℚ) < x + 2 := by positivity
  have hxq : (2 ^ 23 : ℚ) ≤ x := by exact_mod_cast hx
  have hmq : (m : ℚ) ≤ 512 := by exact_mod_cast hm
  have hstep : (1 + -2 / ((x : ℚ) + 2)) = x / (x + 2) := by field_simp; ring
  have hsmall : (2 : ℚ) / (x + 2) ≤ 1 / 2 ^ 22 := by
    rw [div_le_div_iff₀ hpos (by positivity)]
    linarith
  have hbern := one_add_mul_le_pow (a := -2 / ((x : ℚ) + 2)) (by rw [neg_div]; linarith) m
  have hhalf : (1 : ℚ) / 2 ≤ 1 + m * (-2 / ((x : ℚ) + 2)) := by
    have hmul : (m : ℚ) * (2 / (x + 2)) ≤ 512 * (1 / 2 ^ 22) := mul_le_mul hmq hsmall (by positivity) (by positivity)
    rw [neg_div, mul_neg]
    linarith
  rw [hstep, div_pow] at hbern
  have hq : ((x : ℚ) + 2) ^ m ≤ 2 * (x : ℚ) ^ m := by
    have h := le_trans hhalf hbern
    rw [div_le_div_iff₀ (by norm_num) (by positivity)] at h
    linarith
  exact_mod_cast hq

/-- A table's number of entry 23 or more octaves lies at 2^23 or above. -/
theorem tableGo_ge {m : Nat} (n : Nat) (hm : 0 < m) : 2 ^ 23 ≤ tableGo m n 24 0 := by
  refine (tableGo_spec 24 (tableFits_zero n hm)).2.2 _ ?_ (by decide)
  rw [tableFits_iff]
  calc (2 * 2 ^ 23 - 1) ^ m ≤ (2 ^ 24) ^ m := Nat.pow_le_pow_left (by decide) m
    _ = 2 ^ (24 * m) := by rw [← pow_mul]
    _ ≤ 2 ^ (24 * m + n) := Nat.pow_le_pow_right (by decide) (Nat.le_add_right _ _)

theorem tableGo_lt {m : Nat} (n : Nat) (hm : 0 < m) : tableGo m n 24 0 < 2 ^ 24 := by
  simpa using (tableGo_spec 24 (tableFits_zero n hm)).2.1

/-- Each finer entry lies above the one before it. -/
theorem tableGo_lt_succ {m n : Nat} (hm : m ≤ 512) (hn : n + 1 < m) : tableGo m n 24 0 < tableGo m (n + 1) 24 0 := by
  have hm0 : 0 < m := by omega
  have hge := tableGo_ge n hm0
  have hlt := tableGo_lt n hm0
  have hfit : tableFits m (n + 1) (tableGo m n 24 0 + 1) = true := by
    have h := (tableGo_spec 24 (tableFits_zero n hm0)).1
    generalize tableGo m n 24 0 = g at h hge
    rw [tableFits_iff] at h ⊢
    calc (2 * (g + 1) - 1) ^ m = (2 * g - 1 + 2) ^ m := by congr 1; omega
      _ ≤ 2 * (2 * g - 1) ^ m := add_two_pow_le hm (by omega)
      _ ≤ 2 * 2 ^ (24 * m + n) := Nat.mul_le_mul_left 2 h
      _ = 2 ^ (24 * m + (n + 1)) := by rw [← Nat.add_assoc, pow_succ, Nat.mul_comm]
  refine (tableGo_spec 24 (tableFits_zero (n + 1) hm0)).2.2 _ hfit ?_
  by_contra htop
  rw [show tableGo m n 24 0 + 1 = 2 ^ 24 by omega, tableFits_iff] at hfit
  have hle : (2 ^ 25 - 1 + 2) ^ m ≤ (2 ^ 25) ^ m :=
    calc (2 ^ 25 - 1 + 2) ^ m ≤ 2 * (2 ^ 25 - 1) ^ m := add_two_pow_le hm (by decide)
      _ ≤ 2 * 2 ^ (24 * m + (n + 1)) := Nat.mul_le_mul_left 2 hfit
      _ = 2 ^ (24 * m + (n + 1) + 1) := by rw [pow_succ, Nat.mul_comm]
      _ ≤ 2 ^ (25 * m) := Nat.pow_le_pow_right (by decide) (by omega)
      _ = (2 ^ 25) ^ m := by rw [← pow_mul]
  exact absurd (Nat.pow_lt_pow_left (show 2 ^ 25 < 2 ^ 25 - 1 + 2 by decide) (by omega)) (not_lt.mpr hle)

/-! ### The tables of a format -/

theorem tabT_eq {F f : Nat} (h : f < F) : tabT F f = tableGo (2 * F) (2 * f) 24 0 := by
  rw [tableGo_double, tabT, tableEntry, if_neg (by omega)]

theorem tabU_eq (F f : Nat) : tabU F f = tableGo (2 * F) (2 * f + 1) 24 0 := by
  rw [tabU, tableEntry, if_neg (by omega)]

section
variable {F : Nat} (hF : F ≤ 256)
include hF

theorem tabT_lt_tabU {f : Nat} (h : f < F) : tabT F f < tabU F f := by
  rw [tabT_eq h, tabU_eq]
  exact tableGo_lt_succ (by omega) (by omega)

theorem tabT_lt_succ {f : Nat} (h : f + 1 < F) : tabT F f < tabT F (f + 1) := by
  refine lt_trans (tabT_lt_tabU hF (by omega)) ?_
  rw [tabU_eq, tabT_eq h]
  exact tableGo_lt_succ (by omega) (by omega)

theorem tabT_lt {f g : Nat} (hfg : f < g) (hg : g < F) : tabT F f < tabT F g := by
  induction g, hfg using Nat.le_induction with
  | base => exact tabT_lt_succ hF hg
  | succ g _ ih => exact lt_trans (ih (by omega)) (tabT_lt_succ hF hg)

theorem tabT_le_iff {f g : Nat} (hf : f < F) (hg : g < F) : tabT F g ≤ tabT F f ↔ g ≤ f :=
  ⟨fun h => not_lt.mp (fun hlt => absurd h (not_le.mpr (tabT_lt hF hlt hg))),
    fun h => (Nat.lt_or_eq_of_le h).elim (fun hlt => (tabT_lt hF hlt hf).le) (fun he => he ▸ le_refl _)⟩

/-- The floor search finds a table entry's own place (R44). -/
theorem floorGo_tabT {f lo i : Nat} (hf : f < F) (h1 : lo ≤ f) (h2 : f < lo + 2 ^ i) : floorGo F (tabT F f) 23 i lo = f := by
  induction i generalizing lo with
  | zero => simp only [floorGo]; omega
  | succ i ih =>
    have hpow : lo + 2 ^ (i + 1) = lo + 2 ^ i + 2 ^ i := by rw [pow_succ]; omega
    rw [floorGo]
    split
    next h =>
      refine ih ?_ (by omega)
      exact (tabT_le_iff hF hf h.1).mp (Nat.le_of_mul_le_mul_right h.2 (by decide))
    next h =>
      refine ih h1 ?_
      by_contra hge
      exact h ⟨by omega, Nat.mul_le_mul_right _ ((tabT_le_iff hF hf (by omega)).mpr (by omega))⟩

end

theorem tabT_ge {F f : Nat} (h : f < F) : 2 ^ 23 ≤ tabT F f := by
  rw [tabT_eq h]
  exact tableGo_ge _ (by omega)

theorem ilog_tabT {F f : Nat} (h : f < F) : ilog (tabT F f) = 23 := by
  have hge := tabT_ge h
  rw [ilog, Nat.log2_eq_iff (by omega)]
  refine ⟨hge, ?_⟩
  rw [tabT_eq h]
  exact tableGo_lt _ (by omega)

/-! ### Codes -/

theorem Kl.steps_pos (k : Kl) : 0 < k.steps := by cases k <;> decide
theorem Kl.steps_le (k : Kl) : k.steps ≤ 256 := by cases k <;> decide

theorem Kl.emax_lt (k : Kl) (level : Nat) : k.emax level < 2 ^ (k.width - 1) := by
  cases k
  · exact (by decide : 0x7E < 2 ^ 7)
  · exact (by decide : 0x7E < 2 ^ 7)
  · simp only [Kl.emax, Kl.width]
    split <;> decide

theorem Kl.emax_lt_nan {k : Kl} {level : Nat} (h : ¬ (k = .w ∧ level = 1)) : k.emax level < k.nan := by
  cases k
  · exact (by decide : 0x7E < 0x7F)
  · exact (by decide : 0x7E < 0x7F)
  · simp only [true_and] at h
    simp [Kl.emax, Kl.nan, h]

theorem signBit_add_mod (k : Kl) (g : Bool) {e : Nat} (h : e < 2 ^ (k.width - 1)) : (k.signBit g + e) % 2 ^ (k.width - 1) = e := by
  cases g
  · simp [Kl.signBit, Nat.mod_eq_of_lt h]
  · simp [Kl.signBit, Nat.mod_eq_of_lt h]

theorem bitAt_signBit_add (k : Kl) (g : Bool) {e : Nat} (h : e < 2 ^ (k.width - 1)) : bitAt (k.signBit g + e) (k.width - 1) = g := by
  have hpos : 0 < 2 ^ (k.width - 1) := Nat.pos_of_ne_zero (by positivity)
  cases g
  · simp [bitAt, Kl.signBit, Nat.div_eq_of_lt h]
  · simp [bitAt, Kl.signBit, Nat.add_div_left _ hpos, Nat.div_eq_of_lt h]

/-- A code from 1 to the largest finite one is a number (R34, R35, R61). -/
theorem decode_num (k : Kl) {level e : Nat} (g : Bool) (h1 : 1 ≤ e) (h2 : e ≤ k.emax level) : k.decode level (k.signBit g + e) = .num g e := by
  have hlt := lt_of_le_of_lt h2 (k.emax_lt level)
  unfold Kl.decode
  simp only [signBit_add_mod k g hlt, bitAt_signBit_add k g hlt]
  rw [if_neg (by omega)]
  split
  next => rfl
  next hw =>
    have hnan := Kl.emax_lt_nan hw
    rw [if_neg (by omega), if_neg]
    rintro ⟨rfl, rfl⟩
    simp only [Kl.nan] at hnan
    omega

/-- What the rounding writes once floor and fraction are those of a table entry: that entry's code (R44). -/
theorem round_tabT (k : Kl) (r : Round) (level u : Nat) (scale : Int) (g : Bool) {f : Nat} (q : Int) (hf : f < k.steps) :
    k.round level r u scale g (tabT k.steps f) (q - 23) = k.place level g ((k.bias : Int) + k.steps * (q - scale) + f) := by
  have hlo : floorGo k.steps (tabT k.steps f) 23 8 0 = f := floorGo_tabT k.steps_le hf (Nat.zero_le f) (lt_of_lt_of_le hf (by simpa using k.steps_le))
  have hne : ¬ f = k.steps := by omega
  have hU : tabT k.steps f * 2 ^ 23 < tabU k.steps f * 2 ^ 23 := Nat.mul_lt_mul_of_pos_right (tabT_lt_tabU k.steps_le hf) (by decide)
  have hoct : ((23 : Nat) : Int) + (q - 23) = q := by omega
  unfold Kl.round
  simp only [ilog_tabT hf, hlo, hoct]
  cases r
  · simp only [if_neg (not_lt.mpr hU.le), if_pos hU, if_neg hne]
  · simp only [if_neg hne]
  · simp only [Nat.sub_self, Nat.zero_mul, Nat.zero_div, Nat.not_lt_zero, if_false, if_neg hne]

/-- A code's value rounds to the code (R34, R38, R44). -/
theorem round_value (k : Kl) (r : Round) (level u : Nat) (scale : Int) (g : Bool) {e : Nat} (h1 : 1 ≤ e) (h2 : e ≤ k.emax level) :
    ∃ m x, k.value level scale (k.signBit g + e) = .fin g m x ∧ 0 < m ∧ k.round level r u scale g m x = ⟨k.signBit g + e, false, false⟩ := by
  have hpos : (0 : Int) < k.steps := by exact_mod_cast k.steps_pos
  generalize hp : (e : Int) - k.bias + k.steps * scale = p
  have hmod := Int.emod_nonneg p (ne_of_gt hpos)
  have hf : offsetF k.steps p < k.steps := by
    have := Int.emod_lt_of_pos p hpos
    unfold offsetF
    omega
  have hcode : (k.bias : Int) + k.steps * (offsetQ k.steps p - scale) + offsetF k.steps p = e := by
    have hdiv := Int.mul_ediv_add_emod p k.steps
    rw [offsetQ, offsetF, Int.toNat_of_nonneg hmod, Int.mul_sub]
    linarith
  refine ⟨tabT k.steps (offsetF k.steps p), offsetQ k.steps p - 23, ?_, lt_of_lt_of_le (by decide) (tabT_ge hf), ?_⟩
  · simp only [Kl.value, decode_num k g h1 h2, hp]
  · rw [round_tabT k r level u scale g _ hf, hcode, Kl.place, if_neg (by omega), if_neg (by omega), Int.toNat_natCast]

theorem place_inRange (k : Kl) (level : Nat) (s : Bool) (e : Int) : (k.place level s e).code % 2 ^ (k.width - 1) ≤ k.emax level := by
  have hlt := k.emax_lt level
  unfold Kl.place
  split
  · rw [signBit_add_mod k s hlt]
  · split
    · have h := signBit_add_mod k s (e := 0) (Nat.pos_of_ne_zero (by positivity))
      rw [Nat.add_zero] at h
      rw [h]
      exact Nat.zero_le _
    · rw [signBit_add_mod k s (by omega)]
      omega

/-! ### Scales -/

theorem placeScale_of_entry {r : ScaleRec} {k : Int} (hr : ¬ (r.fmt = 3 ∧ r.grad = false))
    (hk : (((r.shadow.maxk :: r.hist).take 4)[r.delay - 1]?).join = some k) : placeScale r =
      ({ r with hist := (r.shadow.maxk :: r.hist).take 4, ts := max (-8192) (min 8191 (k + 1 + r.margin - recordTop r)) },
        if max (-8192) (min 8191 (k + 1 + r.margin - recordTop r)) = k + 1 + r.margin - recordTop r then 0 else 1) := by
  have hr' : ¬ (r.fmt = 3 ∧ ¬ r.grad = true) := by simpa using hr
  simp only [placeScale, if_neg hr', hk]

end Sys2Proof.Machine

namespace Sys2Proof
open Sys2Proof.Machine

/-- Settles O56: a code's value is its table entry, which the floor search finds again; the range check bounds every code; TS is clamped. -/
theorem kyonexAndScales : Obligations.KyonexAndScales := by
  unfold Obligations.KyonexAndScales Claims.kyonexRoundTrip Claims.kyonexInRange Claims.scalePlacement
  refine ⟨fun k r level u scale g e h1 h2 => ⟨decode_num k g h1 h2, round_value k r level u scale g h1 h2⟩,
    fun k r level u scale s m x _ => place_inRange k level s _, fun r k hr hk => ?_⟩
  rw [placeScale_of_entry hr hk]
  dsimp only
  generalize k + 1 + r.margin - recordTop r = raw
  refine ⟨by omega, by omega, ?_, rfl⟩
  split <;> simp_all

end Sys2Proof
end


section
/-! SUPPORT. Fields laid out one after another read back: the 64-byte header of a packet and the 256 bytes of a flit (R244, R271). -/
namespace Sys2Proof.Machine

/-! ### Fields one after another -/

/-- The first field of a layout. -/
theorem fieldAt_first (n v : Nat) (b : List Byte) : fieldAt (leBytes n v ++ b) 0 n = v % 256 ^ n := by
  rw [fieldAt, List.drop_zero, List.take_left' (leBytes_length n v), leNat_leBytes]

/-- A field past the first one lies that much nearer in what follows it. -/
theorem fieldAt_after {a : List Byte} (b : List Byte) {off : Nat} (n : Nat) (h : a.length ≤ off) :
    fieldAt (a ++ b) off n = fieldAt b (off - a.length) n := by
  rw [fieldAt, fieldAt, List.drop_append, List.drop_eq_nil_of_le h, List.nil_append]

theorem fieldAt_skip (k v : Nat) (b : List Byte) {off : Nat} (n : Nat) (h : k ≤ off) :
    fieldAt (leBytes k v ++ b) off n = fieldAt b (off - k) n := by
  rw [fieldAt_after b n (by simpa using h), leBytes_length]

theorem fieldAt_last (n v : Nat) : fieldAt (leBytes n v) 0 n = v % 256 ^ n := by
  rw [← List.append_nil (leBytes n v), fieldAt_first]

/-! ### Packets -/

section
variable (op : Nat) (p : Packet) (rest : List Byte)

/-- The first 60 bytes of a header as fields from the left (R244). -/
theorem headerBytes_append : headerBytes op p ++ rest = leBytes 2 op ++ (leBytes 2 p.flags ++ (leBytes 1 p.ctx ++ (leBytes 3 p.resv5 ++
    (leBytes 4 p.hostTag.toNat ++ (leBytes 4 p.paramLen ++ (leBytes 4 p.epoch.toNat ++ (leBytes 4 p.resv20 ++ (leBytes 8 p.paramAddr ++
    (leBytes 28 p.resv32 ++ rest))))))))) := by
  simp only [headerBytes, List.append_assoc]

end

theorem ofNat_toNat_mod (w : Word) : BitVec.ofNat 32 (w.toNat % 256 ^ 4) = w := by
  rw [show (256 : Nat) ^ 4 = 2 ^ 32 by decide, Nat.mod_eq_of_lt w.isLt, BitVec.ofNat_toNat, BitVec.setWidth_eq]

/-- A field that fits its bytes is not cut (R244). -/
theorem mod_of_lt_bits {n k v : Nat} (hk : 256 ^ n = 2 ^ k) (h : v < 2 ^ k) : v % 256 ^ n = v := by
  rw [hk, Nat.mod_eq_of_lt h]

theorem parsePacket_header {op : Nat} {p : Packet} (hf : p.flags < 2 ^ 16) (hc : p.ctx < 2 ^ 8) (h5 : p.resv5 < 2 ^ 24)
    (hl : p.paramLen < 2 ^ 32) (h20 : p.resv20 < 2 ^ 32) (ha : p.paramAddr < 2 ^ 64) (h32 : p.resv32 < 2 ^ 224) :
    parsePacket p.src (headerBytes op p ++ leBytes 4 p.crc.toNat) p.params = p := by
  simp only [parsePacket, headerBytes_append, fieldAt_skip, fieldAt_first, fieldAt_last, Nat.reduceLeDiff, Nat.reduceSub, ofNat_toNat_mod,
    mod_of_lt_bits (k := 16) (n := 2) (by decide) hf, mod_of_lt_bits (k := 8) (n := 1) (by decide) hc, mod_of_lt_bits (k := 24) (n := 3) (by decide) h5,
    mod_of_lt_bits (k := 32) (n := 4) (by decide) hl, mod_of_lt_bits (k := 32) (n := 4) (by decide) h20,
    mod_of_lt_bits (k := 64) (n := 8) (by decide) ha, mod_of_lt_bits (k := 224) (n := 28) (by decide) h32]

theorem fieldAt_header_opcode {op : Nat} (p : Packet) (h : op < 2 ^ 16) : fieldAt (headerBytes op p ++ leBytes 4 p.crc.toNat) 0 2 = op := by
  rw [headerBytes_append, fieldAt_first, mod_of_lt_bits (k := 16) (by decide) h]

/-! ### Flits -/

/-- The 252 bytes of a flit that its CRC covers (R271). -/
def flitBody (f : Flit) : List Byte :=
  leBytes 1 f.cls ++ (leBytes 1 (if f.transit then 1 else 0) ++ (leBytes 2 f.dest ++ (leBytes 2 f.src ++ (leBytes 2 f.seq ++ (leBytes 2 f.ack ++
    (leBytes 1 f.len ++ (zeros 1 ++ f.payload)))))))

theorem flitBytes_eq (f : Flit) : flitBytes f = flitBody f ++ leBytes 4 (crc32c (flitBody f)).toNat := by
  simp only [flitBytes, flitBody, List.append_assoc]

theorem flitBody_length {f : Flit} (h : f.payload.length = 240) : (flitBody f).length = 252 := by
  simp [flitBody, zeros, h]

theorem flitSound_flitBytes {f : Flit} (h : f.payload.length = 240) : flitSound (flitBytes f) true = true := by
  have hl := flitBody_length h
  rw [flitSound, flitBytes_eq, List.take_left' hl, fieldAt_after _ 4 (by omega), hl, Nat.sub_self, fieldAt_last, ofNat_toNat_mod]
  simp

theorem flitBody_payload (f : Flit) : (flitBody f).drop 12 = f.payload := by
  simp [flitBody, zeros, List.drop_append, List.drop_eq_nil_of_le]

theorem flitOf_flitBytes {f : Flit} (hc : f.cls < 256) (hd : f.dest < 65536) (hs : f.src < 65536) (hq : f.seq < 65536) (ha : f.ack < 65536)
    (hn : f.len < 256) (hp : f.payload.length = 240) : flitOf (flitBytes f) = f := by
  have hpay : ((flitBytes f).drop 12).take 240 = f.payload := by
    rw [flitBytes_eq, List.drop_append_of_le_length (by rw [flitBody_length hp]; decide), flitBody_payload, List.take_left' hp]
  have hbit : bitAt ((if f.transit then 1 else 0) % 256 ^ 1) 0 = f.transit := by cases f.transit <;> rfl
  rw [flitOf, hpay, flitBytes_eq]
  simp only [flitBody, List.append_assoc, fieldAt_skip, fieldAt_first, Nat.reduceLeDiff, Nat.reduceSub, hbit,
    mod_of_lt_bits (k := 8) (n := 1) (by decide) hc, mod_of_lt_bits (k := 16) (n := 2) (by decide) hd, mod_of_lt_bits (k := 16) (n := 2) (by decide) hs,
    mod_of_lt_bits (k := 16) (n := 2) (by decide) hq, mod_of_lt_bits (k := 16) (n := 2) (by decide) ha, mod_of_lt_bits (k := 8) (n := 1) (by decide) hn]

end Sys2Proof.Machine

namespace Sys2Proof
open Sys2Proof.Machine

/-- Settles O4: each field of a layout reads back, because it lies at its offset and fits its bytes. -/
theorem headerParses : Obligations.HeaderParses := by
  unfold Obligations.HeaderParses Claims.headerParses Claims.flitCoding
  refine ⟨fun op p ho hf hc h5 hl h20 ha h32 => ⟨parsePacket_header hf hc h5 hl h20 ha h32, fieldAt_header_opcode p ho⟩,
    fun f hc hd hs hq ha hn hp => ⟨?_, flitSound_flitBytes hp, flitOf_flitBytes hc hd hs hq ha hn hp⟩⟩
  rw [flitBytes_eq, List.length_append, flitBody_length hp, leBytes_length]

end Sys2Proof
end


section
/-! SUPPORT. Every packet's row accepts its packet by the checks of its own layout, the order of these checks, and what a completion changes (R230,
R242, R247, R248, R259). -/
namespace Sys2Proof.Machine

/-! ### Rows that are one packet -/

/-- A row that is one Ilzan packet accepts it by the checks of its own layout. -/
theorem exec_of_packetRow {i : Instr} {op : Nat} {p : Packet} {c : State → Checks} (h : Claims.packetRow i = some (op, p, c)) :
    ∃ (accept : Packet → State → State) (body : Nat → State → State),
      (∀ s, exec i s = packetOut op accept p s) ∧ ∀ s, accept p s = acceptPacket op (c s) body p s := by
  unfold Claims.packetRow at h
  split at h
  on_goal -1 => cases h
  all_goals
    cases h
    exact ⟨_, _, fun _ => rfl, fun _ => rfl⟩

theorem packetOut_noPower {op : Nat} {accept : Packet → State → State} {p : Packet} {s : State} (h : s.dev.st = .off) :
    packetOut op accept p s = .refused (.notEnabled "no power") := by
  simp [packetOut, gate, h]

theorem packetOut_held {op : Nat} {accept : Packet → State → State} {p : Packet} {s : State} (h : s.dev.st ≠ .off)
    (hw : (behindHeld (owe p s) p || mustWait (owe p s) op p) = true) : packetOut op accept p s = .next (holdCommand op p (owe p s)) := by
  rw [packetOut_next h]
  simp only [runPacket, hw, if_true]

/-- Either form of SCALE_SET is the same packet, taken by the row its ACTION names (R252). -/
theorem exec_scaleSet (p : Packet) (s : State) :
    exec (if pf p 0 1 = 1 then Instr.scaleSetDelete p else .scaleSetCreateReplace p) s = packetOut 0x0120 acceptScaleSet p s := by
  split
  next h => exact if_pos h
  next h => exact if_neg h

/-! ### The order of the checks -/

theorem acceptance_of_row {s : State} {op : Nat} {c : Checks} {p : Packet} {row : OpRow} (hcrc : p.crc = packetCrc op p) (hrow : opRow op = some row) :
    acceptance s op c p = (sourceRefusal s row op p).or ((stateRefusal s op p.src).or ((paramRefusal row c p).or
        ((epochRefusal s op c p).or (busyRefusal s c p)))) := by
  simp [acceptance, hcrc, hrow]

theorem sourceRefusal_notPermitted {s : State} {row : OpRow} {op : Nat} {p : Packet} (h : row.permits p.src = false) :
    sourceRefusal s row op p = some (stNOTPERMITTED, none) := if_neg (by simp [h])

theorem epochRefusal_noEpoch {s : State} {op : Nat} {c : Checks} {p : Packet} (h : p.epoch = 0) (hop : op / 256 ∉ [0, 7, 8]) :
    epochRefusal s op c p = some (stCHARTSTALE, none) := by
  have hop' : ¬ (op / 256 = 0 ∨ op / 256 = 7 ∨ op / 256 = 8) := by simpa using hop
  rw [epochRefusal, if_pos h, if_neg hop']

theorem busyRefusal_noSlot {s : State} {c : Checks} {p : Packet} {n : Nat} (hc : c.charge = some n) (hf : slotFree n s = false) :
    ∃ d, busyRefusal s c p = some (stBUSY, d) := by
  unfold busyRefusal
  extract_lets full
  cases full
  · exact ⟨some 0x0A06, by simp [hc, hf]⟩
  · exact ⟨some 0x0A40, rfl⟩

/-! ### Completions -/

theorem complete_ready {p : Packet} {q : Nat} (op st d : Nat) (v : BitVec 64) (slot : Nat) {s : State} {x : Queue} (hp : p.src = .host q)
    (hq : tget s.queues.q q = some x) : tget (complete p op st (some d) (some v) slot [] s).queues.q q =
      some { x with ready := x.ready ++ [{ hostTag := p.hostTag, opcode := op, status := st, slot := slot, detail := d, value := v }] } := by
  simp [complete, orFree, valueOrFree, postTo, hp, tget_tmod, hq]

end Sys2Proof.Machine

namespace Sys2Proof
open Sys2Proof.Machine

/-- Settles O3: each row is one packet with the checks of its layout; the first check that fails, the waiting and the start after a Fix stop are
then what a packet's row does. -/
theorem packetChecks : Obligations.PacketChecks := by
  unfold Obligations.PacketChecks Claims.packetsAnswer Claims.packetsNeedPower Claims.packetsRefused Claims.packetsWait Claims.packetsStartLater
    Claims.checkOrder Claims.completionFrame Claims.completionPosted
  refine ⟨fun i op p c s hi hd => ?_, fun i op p c s hi hd => ?_, fun i op p c s st d hi hd hb hw hr => ?_, fun i op p c s hi hd hw => ?_,
    ⟨fun i op p c s hi hp hw hf => ?_, fun p s hp hf i hi => ?_⟩,
    fun s op c p => ⟨fun h => ?_, fun hc hr => acceptance_of_undefined c s hr hc, fun row hc hr => ⟨fun hp => ?_, fun r hs ht => ?_, fun hs ht hl => ?_,
      fun hs ht hp he hop => ?_, fun n hs ht hp he hn hf => ?_, fun hs ht hp he hb => ?_⟩⟩,
    fun p op st d v slot data s => ?_, fun p op st d v slot s q x hp hq => complete_ready op st d v slot hp hq⟩
  · obtain ⟨accept, body, he, -⟩ := exec_of_packetRow hi
    exact ⟨_, (he s).trans (packetOut_next hd)⟩
  · obtain ⟨accept, body, he, -⟩ := exec_of_packetRow hi
    exact (he s).trans (packetOut_noPower hd)
  · obtain ⟨accept, body, he, ha⟩ := exec_of_packetRow hi
    exact (he s).trans (packetOut_refused hd hb hw (ha _) hr)
  · obtain ⟨accept, body, he, -⟩ := exec_of_packetRow hi
    exact (he s).trans (packetOut_held hd hw)
  · obtain ⟨accept, body, he, ha⟩ := exec_of_packetRow hi
    rw [he, packetOut_later hp (ha _) hw hf, owe_dev]
  · rw [hi, exec_scaleSet, packetOut_later (accept := acceptScaleSet) (body := fun _ t => bodyScaleSet p t) hp rfl rfl hf, owe_dev]
  · exact if_pos h
  · rw [acceptance_of_row hc hr, sourceRefusal_notPermitted hp]
    rfl
  · rw [acceptance_of_row hc hr, hs, ht]
    rfl
  · obtain ⟨d, hd⟩ := paramRefusal_of_badLength row p hl
    exact ⟨d, acceptance_of_paramRefusal hc hr hs ht hd⟩
  · rw [acceptance_of_row hc hr, hs, ht, hp, epochRefusal_noEpoch he hop]
    rfl
  · obtain ⟨d, hd⟩ := busyRefusal_noSlot (p := p) hn hf
    refine ⟨d, ?_⟩
    rw [acceptance_of_row hc hr, hs, ht, hp, he, hd]
    rfl
  · rw [acceptance_of_row hc hr, hs, ht, hp, he, hb]
    rfl
  · simp

end Sys2Proof
end

section
/-! SUPPORT. The partner's step log in the armoured view of a rebuilt quadrant: bytes of the lost stack stand in the reserve of another stack
(R211, R212), which is no place of their stripe, and so the command writes outside the places that the frame of the step log names. -/
namespace Sys2Proof.Machine

/-- A Fix layout that R310 allows: CLOG_DPA is the first byte of the armoured view of quadrant 0, the slots and LOG_DPA lie behind it (R309). -/
def armouredLogLayout : List Byte :=
  leBytes 8 (2 ^ 39 + 2 ^ 30) ++ leBytes 8 (2 ^ 39 + 2 * 2 ^ 30) ++ leBytes 8 (2 ^ 39 + 3 * 2 ^ 30) ++ leBytes 2 1 ++ zeros 6 ++
    leBytes 8 (2 ^ 39 + 4 * 2 ^ 30) ++ leBytes 8 (2 ^ 39) ++ leBytes 2 1 ++ zeros 14

/-- Manager 0 with partner 1, quadrant 0 of 5 GiB of armour REBUILT after the loss of stack 0, the partner's log in its armoured view. -/
def rebuiltLog : State := { State.reset with
  dev := { st := .ready }
  grp := { recs := [{ rank := 0 }, { rank := 1, role := 1, consort := 0 }] }
  conf := { sections := [(3, [1, 0, 0, 0] ++ zeros 60), (6, armouredLogLayout)] }
  mem := { armour := [{ st := 4, lostJ := 0 }, {}, {}, {}], lost := [0] } }

/-- Where byte 0 of stripe 0 stands after the rebuild: the reserve of stack 1. -/
def reservePlace : Nat := 95 * 2 ^ 30

theorem exec_stepManifestReceive_rebuiltLog : ∃ t, exec (.stepManifestReceive [1]) rebuiltLog = .next t ∧ Memory.get t.mem.hbm reservePlace = 1 := by
  refine ⟨_, rfl, ?_⟩
  decide +kernel

theorem get_reservePlace_rebuiltLog : Memory.get rebuiltLog.mem.hbm reservePlace = 0 := rfl

theorem plainGib_rebuiltLog : plainGib rebuiltLog 0 = 42 := by decide +kernel

/-- A byte of the armoured view has the places of its stripe, or none (R190, R208). -/
theorem keysOf_of_armouredView {s : State} {d : Nat} (hview : bitAt d 39 = true) : Claims.keysOf s d = [] ∨
    Claims.keysOf s d = (List.range 6).map (fun j => poolKey s (d / 2 ^ 40) (d % 2 ^ 39 / 20480) j (d % 2 ^ 39 % 4096)) := by
  unfold Claims.keysOf locate
  dsimp only
  rw [if_pos hview]
  split_ifs
  · exact .inl rfl
  · exact .inr rfl
  · exact .inl rfl

/-- The pools of quadrant 0 hold nothing that high before the places of stack 2 begin. -/
theorem reservePlace_ne_poolKey {stripe j b : Nat} (hs : stripe < 2 ^ 8) (hb : b < 4096) : reservePlace ≠ poolKey rebuiltLog 0 stripe j b := by
  simp only [reservePlace, poolKey, hbmKey, gib, plainGib_rebuiltLog]
  omega

/-- No byte of the log has the reserve among its places: they are the pools of its stripe. -/
theorem reservePlace_notMem_keysOf {d : Nat} (h : 2 ^ 39 ≤ d) (h' : d < 2 ^ 39 + 2 ^ 20) : reservePlace ∉ Claims.keysOf rebuiltLog d := by
  have hquad : d / 2 ^ 40 = 0 := by omega
  have hhalf : d / 2 ^ 39 = 1 := by omega
  have hview : bitAt d 39 = true := by rw [bitAt, hhalf]; rfl
  obtain he | he := keysOf_of_armouredView (s := rebuiltLog) hview
  · rw [he]
    exact List.not_mem_nil
  · rw [he, hquad, List.mem_map]
    rintro ⟨j, -, hj⟩
    exact reservePlace_ne_poolKey (by omega) (Nat.mod_lt _ (by decide)) hj.symm

theorem fixLayout_rebuiltLog : fixLayout rebuiltLog = some armouredLogLayout := rfl

theorem clogDpa_armouredLogLayout : fieldAt armouredLogLayout 40 8 = 2 ^ 39 := by decide +kernel

theorem logSize_rebuiltLog : logSize rebuiltLog = 2 ^ 20 := by decide +kernel

end Sys2Proof.Machine

namespace Sys2Proof
open Sys2Proof.Machine

/-- Refutes O54: a manifest of the partner whose log lies in the armoured view of a REBUILT quadrant goes to the reserve of a surviving stack,
outside the places that `keysOf` gives for the log (R212, R320, R321). -/
theorem not_machineFrames : ¬ Obligations.MachineFrames := by
  unfold Obligations.MachineFrames
  rintro ⟨-, -, -, -, -, -, ⟨-, -, -, -, -, hring⟩, -, -⟩
  obtain ⟨t, hexec, hget⟩ := exec_stepManifestReceive_rebuiltLog
  have houtside : ∀ b d, fixLayout rebuiltLog = some b → fieldAt b 40 8 ≤ d → d < fieldAt b 40 8 + logSize rebuiltLog →
      reservePlace ∉ Claims.keysOf rebuiltLog d := by
    intro b d hb hlo hhi
    obtain rfl : armouredLogLayout = b := Option.some.inj (fixLayout_rebuiltLog.symm.trans hb)
    rw [clogDpa_armouredLogLayout] at hlo hhi
    rw [logSize_rebuiltLog] at hhi
    exact reservePlace_notMem_keysOf hlo hhi
  have hsame := hring [1] rebuiltLog t hexec rfl reservePlace houtside
  rw [hget, get_reservePlace_rebuiltLog] at hsame
  exact absurd hsame (by decide)

end Sys2Proof
end

section
/-! SUPPORT. What each command that is one packet may change (00, 05 to 10): the frame of a packet's row, whatever its acceptance decides. -/
namespace Sys2Proof.Machine

/-- What completing a command changes. -/
def completionParts : List Part := [.free, .nextId, .queues, .slots, .fab, .mgmt]

/-! ### Completions and result slots -/

theorem orFree_changes {v : Option Nat} {s : State} : Changes [.free] s (orFree v s).2 := by
  cases v with
  | some n => exact Changes.refl _ s
  | none => exact freshValue_changes s

theorem valueOrFree_changes {v : Option (BitVec 64)} {s : State} : Changes [.free] s (valueOrFree v s).2 := by
  cases v with
  | some n => exact Changes.refl _ s
  | none => exact freshValue_changes s

theorem complete_changes {p : Packet} {op st : Nat} {d : Option Nat} {v : Option (BitVec 64)} {slot : Nat} {b : List Byte} {s : State} :
    Changes completionParts s (complete p op st d v slot b s) :=
  (((orFree_changes).trans valueOrFree_changes).andThen (postTo_changes p.src _ b _)).mono (by decide)

theorem completeWith_changes {p : Packet} {op st d : Nat} {s : State} : Changes completionParts s (completeWith p op st d s) :=
  complete_changes

theorem completeOpen_changes {p : Packet} {op st : Nat} {s : State} : Changes completionParts s (completeOpen p op st s) :=
  complete_changes

theorem completeOk_changes {p : Packet} {op : Nat} {s : State} : Changes completionParts s (completeOk p op s) :=
  complete_changes

theorem slotDrop_changes {idx : Nat} {s : State} : Changes [.slots] s (slotDrop idx s) := by
  intro q hq
  cases q <;> simp [slotDrop] at hq ⊢

theorem slotReady_changes {idx st d : Nat} {b : List Byte} {s : State} : Changes [.slots] s (slotReady idx st d b s) := by
  intro q hq
  cases q <;> simp at hq ⊢

theorem finishSlot_changes {p : Packet} {op idx st : Nat} {b : List Byte} {s : State} :
    Changes completionParts s (finishSlot p op idx st b s) := by
  have hready : Changes [.free, .slots] s (slotReady idx st (orFree none s).1 b (orFree none s).2) := ((orFree_changes).andThen slotReady_changes).mono (by decide)
  exact (hready.andThen (complete_changes (p := p) (op := op) (st := st) (d := some (orFree none s).1) (v := none) (slot := idx) (b := []))).mono (by decide)

theorem refuse8_changes {p : Packet} {op st : Nat} {d : Option Nat} {idx : Nat} {s : State} : Changes completionParts s (refuse8 p op st d idx s) := by
  unfold refuse8
  split
  · exact complete_changes
  · exact ((slotDrop_changes).andThen complete_changes).mono (by decide)

theorem allocSlot_changes {p : Packet} {n : Nat} {s : State} : Changes [.slots] s (allocSlot p n s).2 := by
  unfold allocSlot
  split
  · exact Changes.refl _ s
  · intro q hq
    cases q <;> simp at hq ⊢

theorem owe_changes {p : Packet} {s : State} : Changes [.queues, .mgmt] s (owe p s) := by
  intro q hq
  cases q <;> simp at hq ⊢

theorem holdCommand_changes {op : Nat} {p : Packet} {s : State} : Changes [.nextId, .queues] s (holdCommand op p s) := by
  intro q hq
  unfold holdCommand
  split <;> cases q <;> simp at hq ⊢

/-- A command on a loaded context changes what its effect on the context changes, or is refused. -/
theorem withCtx_changes {l : List Part} {p : Packet} {op idx : Nat} {s : State} {body : Ctx → State} (h : ∀ x, Changes l s (body x))
    (hl : completionParts ⊆ l) : Changes l s (withCtx p op idx s body) := by
  unfold withCtx
  split
  · exact h _
  · exact refuse8_changes.mono hl

/-! ### A packet's row -/

/-- The acceptance of a packet changes what its body changes beside what a completion does; where it may be put off to the end of a Fix stop,
the commands that wait for that end. -/
theorem acceptPacket_changes {l : List Part} {op : Nat} {c : Checks} {body : Nat → State → State} {p : Packet} {s : State}
    (hbody : ∀ idx u, Changes l u (body idx u)) (hl : completionParts ⊆ l) (hstop : waitsForStop op = true → Part.dev ∈ l) :
    Changes l s (acceptPacket op c body p s) := by
  obtain ⟨st, d, -, he⟩ | ⟨-, hw, -, he⟩ | ⟨-, n, -, he⟩ | ⟨-, -, he⟩ := acceptPacket_cases op c body p s
  · rw [he]
    exact (complete_changes).mono hl
  · rw [he]
    intro q hq
    cases q <;> simp at hq ⊢
    exact absurd (hstop hw) hq
  · rw [he]
    exact ((allocSlot_changes).mono (fun _ hx => hl (by simp at hx; simp [hx, completionParts]))).trans (hbody _ _)
  · rw [he]
    exact hbody _ s

/-- A packet's row changes what its acceptance changes. -/
theorem changes_of_packetOut {l : List Part} {op : Nat} {accept : Packet → State → State} {p : Packet} {s t : State}
    (h : packetOut op accept p s = .next t) (ha : ∀ u, Changes l u (accept p u)) (hl : completionParts ⊆ l) : Changes l s t := by
  have howe : Changes l s (owe p s) := (owe_changes).mono (fun _ hx => hl (by revert hx; decide +revert))
  obtain ⟨-, rfl⟩ | ⟨-, rfl⟩ := packetOut_next_cases h
  · exact howe.trans ((holdCommand_changes).mono (fun _ hx => hl (by revert hx; decide +revert)))
  · exact howe.trans (ha _)

/-- The same for the row of a command whose acceptance runs a body; where it may wait for the end of a Fix stop, it joins the commands that do. -/
theorem changes_of_row {l : List Part} {op : Nat} {accept : Packet → State → State} {c : State → Checks} {body : Nat → State → State} {p : Packet}
    {s t : State} (h : packetOut op accept p s = .next t) (ha : ∀ u, accept p u = acceptPacket op (c u) body p u)
    (hbody : ∀ idx u, Changes l u (body idx u)) (hstop : waitsForStop op = true → Part.dev ∈ l)
    (hl : completionParts ⊆ l) : Changes l s t :=
  changes_of_packetOut h (fun u => ha u ▸ acceptPacket_changes hbody hl hstop) hl

end Sys2Proof.Machine
end

section
/-! SUPPORT. The commands that only read, and those that change queues and result slots alone: what they may change (10, R239, R251 to R257). -/
namespace Sys2Proof.Machine

theorem bodyQueueCreate_changes {p : Packet} {s : State} : Changes completionParts s (bodyQueueCreate p s) := by
  unfold bodyQueueCreate
  dsimp only
  split_ifs
  · exact completeWith_changes
  · exact completeWith_changes
  · exact completeWith_changes
  · refine Changes.trans ?_ completeOk_changes
    intro q hq
    cases q <;> simp [completionParts] at hq ⊢

theorem bodyQueueDelete_changes {p : Packet} {s : State} : Changes completionParts s (bodyQueueDelete p s) := by
  unfold bodyQueueDelete
  dsimp only
  split
  · exact completeWith_changes
  · split_ifs
    · exact completeOpen_changes
    · refine Changes.trans ?_ completeOk_changes
      intro q hq
      cases q <;> simp [completionParts] at hq ⊢

theorem bodyResultRelease_changes {p : Packet} {s : State} : Changes completionParts s (bodyResultRelease p s) := by
  unfold bodyResultRelease
  dsimp only
  split
  · exact completeWith_changes
  · refine Changes.trans ?_ completeOk_changes
    split_ifs
    · exact (slotDrop_changes).mono (by decide)
    · intro q hq
      cases q <;> simp [completionParts] at hq ⊢

theorem bodyConfigRead_changes {p : Packet} {idx : Nat} {s : State} : Changes completionParts s (bodyConfigRead p idx s) := by
  unfold bodyConfigRead
  split
  · exact refuse8_changes
  · exact finishSlot_changes

theorem bodyContextGet_changes {p : Packet} {idx : Nat} {s : State} : Changes completionParts s (bodyContextGet p idx s) :=
  withCtx_changes (fun _ => finishSlot_changes) (by decide)

theorem bodyScaleGet_changes {p : Packet} {idx : Nat} {s : State} : Changes completionParts s (bodyScaleGet p idx s) := by
  refine withCtx_changes (fun x => ?_) (by decide)
  split
  · exact refuse8_changes
  · exact finishSlot_changes

theorem bodyStripeGet_changes {p : Packet} {idx : Nat} {s : State} : Changes completionParts s (bodyStripeGet p idx s) := by
  refine withCtx_changes (fun x => ?_) (by decide)
  split
  · exact refuse8_changes
  · exact finishSlot_changes

theorem bodyManifestGet_changes {p : Packet} {idx : Nat} {s : State} : Changes completionParts s (bodyManifestGet p idx s) := by
  refine withCtx_changes (fun x => ?_) (by decide)
  split
  · exact finishSlot_changes
  · exact refuse8_changes

theorem bodyPortStatus_changes {p : Packet} {idx : Nat} {s : State} : Changes completionParts s (bodyPortStatus p idx s) := by
  rw [bodyPortStatus_eq]
  exact (((measuredPorts_changes s).trans (laneSets_changes true _)).andThen finishSlot_changes).mono (by decide)

theorem bodyManifest_changes {p : Packet} {idx : Nat} {s : State} : Changes completionParts s (bodyManifest p idx s) := by
  unfold bodyManifest
  dsimp only
  split
  · exact refuse8_changes
  · exact finishSlot_changes

theorem setLate_changes {s : State} : Changes [.free] s (setLate s).2 :=
  (orFree_changes (v := medianTime s)).trans (orFree_changes (v := (orFree (medianTime s) s).2.grp.lastD))

theorem sensorBytes_changes (u : Nat) (s : State) : Changes [.free] s (sensorBytes u s).2 := by
  unfold sensorBytes
  split
  · exact Changes.refl _ s
  · exact freshValue_changes s

theorem setThermal_changes {s : State} : Changes [.free] s (setThermal s).2 := by
  unfold setThermal
  generalize sensorUnits = units
  refine foldl_snd_changes (fun a u => ?_) units (_, s)
  exact sensorBytes_changes u a.2

theorem telemetry_changes (set first count : Nat) (s : State) : Changes [.free] s (telemetry set first count s).2 := by
  unfold telemetry
  split
  on_goal 5 => exact laneSets_changes false s
  on_goal 6 => exact setLate_changes
  on_goal 8 => exact setThermal_changes
  all_goals exact Changes.refl _ s

theorem bodyTelemetry_changes {p : Packet} {idx : Nat} {s : State} : Changes completionParts s (bodyTelemetry p idx s) := by
  unfold bodyTelemetry
  dsimp only
  split_ifs
  · exact refuse8_changes
  · exact ((telemetry_changes (pf p 0 1) (pf p 2 2) (pf p 4 2) s).andThen finishSlot_changes).mono (by decide)

/-- What completions alone change leaves all that `queriesFrame` names. -/
theorem queriesKept_of_changes {s t : State} (h : Changes completionParts s t) : Claims.queriesKept t = Claims.queriesKept s :=
  Prod.ext (h .host (by decide)) <| Prod.ext (h .regs (by decide)) <| Prod.ext (h .dev (by decide)) <| Prod.ext (h .chart (by decide)) <|
  Prod.ext (h .conf (by decide)) <| Prod.ext (h .mem (by decide)) <| Prod.ext (h .sync (by decide)) <| Prod.ext (h .ctxs (by decide)) <|
  Prod.ext (h .arrays (by decide)) <| Prod.ext (h .tokens (by decide)) <| Prod.ext (h .grp (by decide)) <| Prod.ext (h .colls (by decide)) <|
  Prod.ext (h .fix (by decide)) <| Prod.ext (h .pow (by decide)) <| Prod.ext (h .board (by decide)) <| Prod.ext (h .flash (by decide)) <|
  Prod.ext (h .test (by decide)) (h .bnd (by decide))

theorem queriesFrame_holds : Claims.queriesFrame := by
  unfold Claims.queriesFrame Claims.Keeps
  refine ⟨?_, ?_, ?_, ?_, ?_, ?_, ?_, ?_, ?_, ?_, ?_, ?_, ?_, ?_, ?_, ?_, ?_, ?_, ?_, ?_⟩ <;> intro p s t h
  · exact queriesKept_of_changes (changes_of_row (accept := acceptNop) h (fun _ => rfl) (fun _ _ => completeOk_changes) (by decide) (by decide))
  · exact queriesKept_of_changes (changes_of_row (accept := acceptIdentify) h (fun _ => rfl) (fun _ _ => finishSlot_changes) (by decide) (by decide))
  · exact queriesKept_of_changes (changes_of_row (accept := acceptQueueCreate) h (fun _ => rfl) (fun _ _ => bodyQueueCreate_changes) (by decide) (by decide))
  · exact queriesKept_of_changes (changes_of_row (accept := acceptQueueDelete) h (fun _ => rfl) (fun _ _ => bodyQueueDelete_changes) (by decide) (by decide))
  · exact queriesKept_of_changes (changes_of_row (accept := acceptResultRelease) h (fun _ => rfl) (fun _ _ => bodyResultRelease_changes) (by decide) (by decide))
  · exact queriesKept_of_changes (changes_of_row (accept := acceptChartGet) h (fun _ => rfl) (fun _ _ => finishSlot_changes) (by decide) (by decide))
  · exact queriesKept_of_changes (changes_of_row (accept := acceptSkewLogGet) h (fun _ => rfl) (fun _ _ => finishSlot_changes) (by decide) (by decide))
  · exact queriesKept_of_changes (changes_of_row (accept := acceptStatusGet) h (fun _ => rfl) (fun _ _ => complete_changes) (by decide) (by decide))
  · exact queriesKept_of_changes (changes_of_row (accept := acceptConfigRead) h (fun _ => rfl) (fun _ _ => bodyConfigRead_changes) (by decide) (by decide))
  · exact queriesKept_of_changes (changes_of_row (accept := acceptContextGet) h (fun _ => rfl) (fun _ _ => bodyContextGet_changes) (by decide) (by decide))
  · exact queriesKept_of_changes (changes_of_row (accept := acceptScaleGet) h (fun _ => rfl) (fun _ _ => bodyScaleGet_changes) (by decide) (by decide))
  · exact queriesKept_of_changes (changes_of_row (accept := acceptStripeGet) h (fun _ => rfl) (fun _ _ => bodyStripeGet_changes) (by decide) (by decide))
  · exact queriesKept_of_changes (changes_of_row (accept := acceptManifestGet) h (fun _ => rfl) (fun _ _ => bodyManifestGet_changes) (by decide) (by decide))
  · exact queriesKept_of_changes (changes_of_row (accept := acceptPortStatus) h (fun _ => rfl) (fun _ _ => bodyPortStatus_changes) (by decide) (by decide))
  · exact queriesKept_of_changes (changes_of_row (accept := acceptGroupChart) h (fun _ => rfl) (fun _ _ => finishSlot_changes) (by decide) (by decide))
  · exact queriesKept_of_changes (changes_of_row (accept := acceptFaultGet) h (fun _ => rfl) (fun _ _ => withCtx_changes (fun _ => finishSlot_changes) (by decide)) (by decide) (by decide))
  · exact queriesKept_of_changes (changes_of_row (accept := acceptFixStatus) h (fun _ => rfl) (fun _ _ => finishSlot_changes) (by decide) (by decide))
  · exact queriesKept_of_changes (changes_of_row (accept := acceptManifest) h (fun _ => rfl) (fun _ _ => bodyManifest_changes) (by decide) (by decide))
  · exact queriesKept_of_changes (changes_of_row (accept := acceptTelemetry) h (fun _ => rfl) (fun _ _ => bodyTelemetry_changes) (by decide) (by decide))
  · exact queriesKept_of_changes (changes_of_row (accept := acceptStepReport) h (fun _ => rfl) (fun _ _ => finishSlot_changes) (by decide) (by decide))

end Sys2Proof.Machine
end

section
/-! SUPPORT. What the configuration commands change before a commit takes force (14, R363 to R369). -/
namespace Sys2Proof.Machine

/-- What the configuration commands may change: DEVICE_STATE, the ports and values that follow it, the configuration. -/
def configParts : List Part :=
  [.free, .nextId, .host, .regs, .dev, .devRest, .queues, .slots, .conf, .fab, .grp, .pow, .mgmt]

theorem changes_conf {c : Conf} {s : State} : Changes [.conf] s { s with conf := c } := by
  intro q hq
  cases q <;> simp at hq ⊢

theorem idlePorts_changes {s : State} : Changes [.fab] s (idlePorts s) := by
  intro q hq
  cases q <;> simp [idlePorts] at hq ⊢

theorem resumePorts_changes {s : State} : Changes [.fab] s (resumePorts s) := by
  intro q hq
  cases q <;> simp [resumePorts] at hq ⊢

theorem enterHold_changes {d : Nat} {s : State} : Changes configParts s (enterHold d s) :=
  ((idlePorts_changes).andThen (enterState_changes .hold d _)).mono (by decide)

theorem stayInHold_changes {code : Nat} {s : State} : Changes configParts s (stayInHold code s) := by
  unfold stayInHold
  split_ifs
  · exact (enterState_changes _ _ _).mono (by decide)
  · exact Changes.refl _ s

theorem applyLive_changes {x : LiveSection} {s : State} : Changes [.conf, .grp, .pow] s (applyLive x s) := by
  unfold applyLive
  dsimp only
  split_ifs
  · refine (Changes.andThen (l := [.conf, .pow]) ?_ (setTarget_changes _ _)).mono (by decide)
    intro q hq
    cases q <;> simp at hq ⊢
  · exact (changes_conf).mono (by decide)

theorem bodyConfigBegin_changes {p : Packet} {s : State} : Changes configParts s (bodyConfigBegin p s) := by
  unfold bodyConfigBegin
  dsimp only
  split_ifs
  · exact (completeWith_changes).mono (by decide)
  · exact (((changes_conf).andThen enterHold_changes).andThen completeOk_changes).mono (by decide)
  · exact ((changes_conf).andThen completeOk_changes).mono (by decide)

theorem bodyConfigWrite_changes {p : Packet} {s : State} : Changes configParts s (bodyConfigWrite p s) := by
  unfold bodyConfigWrite
  split
  · exact (completeWith_changes).mono (by decide)
  · dsimp only
    split_ifs
    · exact (completeWith_changes).mono (by decide)
    · exact ((changes_conf).andThen completeOk_changes).mono (by decide)

theorem bodyConfigAbort_changes {p : Packet} {s : State} : Changes configParts s (bodyConfigAbort p s) := by
  unfold bodyConfigAbort
  dsimp only
  refine (Changes.andThen (l := configParts) ?_ completeOk_changes).mono (by decide)
  split_ifs
  · exact (changes_conf).mono (by decide)
  · exact (((changes_conf).andThen resumePorts_changes).andThen (enterState_changes _ _ _)).mono (by decide)
  · exact ((changes_conf).andThen (enterState_changes _ _ _)).mono (by decide)

theorem bodyConfigCommit_changes {p : Packet} {idx : Nat} {s : State} : Changes configParts s (bodyConfigCommit p idx s) := by
  unfold bodyConfigCommit
  split
  · exact refuse8_changes.mono (by decide)
  · split
    · exact (((stayInHold_changes).andThen slotReady_changes).andThen complete_changes).mono (by decide)
    · exact ((changes_conf).andThen complete_changes).mono (by decide)

theorem bodyLiveSet_changes {p : Packet} {s : State} : Changes configParts s (bodyLiveSet p s) := by
  unfold bodyLiveSet
  dsimp only
  split_ifs
  · exact (completeWith_changes).mono (by decide)
  · refine (Changes.andThen (l := [.conf, .nextId]) ?_ completeOk_changes).mono (by decide)
    intro q hq
    cases q <;> simp at hq ⊢
  · exact ((applyLive_changes).andThen completeOk_changes).mono (by decide)
  · exact (completeWith_changes).mono (by decide)

theorem configKept_of_changes {s t : State} (h : Changes configParts s t) : Claims.configKept t = Claims.configKept s :=
  Prod.ext (h .chart (by decide)) <| Prod.ext (h .mem (by decide)) <| Prod.ext (h .sync (by decide)) <| Prod.ext (h .ctxs (by decide)) <|
  Prod.ext (h .arrays (by decide)) <| Prod.ext (h .tokens (by decide)) <| Prod.ext (h .colls (by decide)) <|
  Prod.ext (h .fix (by decide)) <| Prod.ext (h .board (by decide)) <| Prod.ext (h .flash (by decide)) <|
  Prod.ext (h .test (by decide)) <| Prod.ext (h .bnd (by decide)) <|
  Prod.ext (h .hbm (by decide)) <| Prod.ext (h .hostMem (by decide)) (h .cxlMem (by decide))

theorem configFrame_holds : Claims.configFrame :=
  ⟨fun p s _ h => configKept_of_changes (changes_of_row (accept := acceptConfigBegin) h (fun _ => rfl) (fun _ _ => bodyConfigBegin_changes) (by decide) (by decide)),
    fun p s _ h => configKept_of_changes (changes_of_row (accept := acceptConfigWrite) h (fun _ => rfl) (fun _ _ => bodyConfigWrite_changes) (by decide) (by decide)),
    fun p s _ h => configKept_of_changes (changes_of_row (accept := acceptConfigCommit) h (fun _ => rfl) (fun _ _ => bodyConfigCommit_changes) (by decide) (by decide)),
    fun p s _ h => configKept_of_changes (changes_of_row (accept := acceptConfigAbort) h (fun _ => rfl) (fun _ _ => bodyConfigAbort_changes) (by decide) (by decide)),
    fun p s _ h => configKept_of_changes (changes_of_row (accept := acceptLiveSet) h (fun _ => rfl) (fun _ _ => bodyLiveSet_changes) (by decide) (by decide))⟩

end Sys2Proof.Machine
end

section
/-! SUPPORT. What the commands that set up contexts, page tables and jobs change (06, 07, 08). -/
namespace Sys2Proof.Machine

/-- What they may change: contexts and their waits, translations, DEVICE_STATE's order to stop, beside what a completion does. -/
def contextParts : List Part := [.free, .nextId, .dev, .devRest, .queues, .slots, .mem, .sync, .ctxs, .fab, .mgmt]

theorem settleIngest_changes {s : State} : Changes [.nextId, .sync, .ctxs] s (settleIngest s) := by
  have hadmit : ∀ (n : Nat) (u : State), Changes [.ctxs] u (admitRings n u) := by
    intro n
    induction n with
    | zero => exact fun u => Changes.refl _ u
    | succ n ih =>
      intro u
      unfold admitRings
      split
      · exact Changes.refl _ u
      · exact (ctxMod_changes _ _ u).trans (ih _)
  exact ((hadmit 16 s).andThen (reschedule_changes _)).mono (by decide)

theorem bodyContextSet_changes {p : Packet} {s : State} : Changes contextParts s (bodyContextSet p s) := by
  unfold bodyContextSet
  dsimp only
  split_ifs
  · exact (completeWith_changes).mono (by decide)
  · exact (completeWith_changes).mono (by decide)
  · exact (completeWith_changes).mono (by decide)
  · exact (completeWith_changes).mono (by decide)
  · refine (Changes.andThen (l := [.ctxs, .mem]) ?_ completeOk_changes).mono (by decide)
    intro q hq
    cases q <;> simp at hq ⊢

theorem bodyContextClear_changes {p : Packet} {s : State} : Changes contextParts s (bodyContextClear p s) := by
  refine withCtx_changes (fun x => ?_) (by decide)
  split_ifs
  · exact (completeOpen_changes).mono (by decide)
  · exact (completeWith_changes).mono (by decide)
  · have hdrop : Changes [.ctxs] s { s with ctxs := tdel s.ctxs p.ctx } := by
      intro q hq
      cases q <;> simp at hq ⊢
    exact ((hdrop.andThen settleIngest_changes).andThen completeOk_changes).mono (by decide)

theorem bodyGroupSet_changes {p : Packet} {s : State} : Changes contextParts s (bodyGroupSet p s) := by
  refine withCtx_changes (fun x => ?_) (by decide)
  refine (Changes.andThen (l := [.nextId, .ctxs]) ?_ completeOk_changes).mono (by decide)
  intro q hq
  cases q <;> simp at hq ⊢

theorem bodyAstkSet_changes {p : Packet} {s : State} : Changes contextParts s (bodyAstkSet p s) :=
  withCtx_changes (fun _ => ((ctxMod_changes p.ctx _ s).andThen completeOk_changes).mono (by decide)) (by decide)

theorem bodyPtRootSet_changes {p : Packet} {s : State} : Changes contextParts s (bodyPtRootSet p s) := by
  refine withCtx_changes (fun x => ?_) (by decide)
  split_ifs
  · exact (completeOpen_changes).mono (by decide)
  · exact (completeWith_changes).mono (by decide)
  · exact ((ctxMod_changes p.ctx _ s).andThen completeOk_changes).mono (by decide)

theorem bodyJobStop_changes {p : Packet} {s : State} : Changes contextParts s (bodyJobStop p s) := by
  unfold bodyJobStop
  split_ifs
  · exact (completeOpen_changes).mono (by decide)
  · exact ((changes_dev _ s).andThen completeOk_changes).mono (by decide)
  · exact (completeOk_changes).mono (by decide)

theorem bodyStripeSet_changes {p : Packet} {s : State} : Changes contextParts s (bodyStripeSet p s) := by
  refine withCtx_changes (fun x => ?_) (by decide)
  split_ifs
  · exact (completeWith_changes).mono (by decide)
  · exact ((ctxMod_changes p.ctx _ s).andThen completeOk_changes).mono (by decide)
  · exact ((ctxMod_changes p.ctx _ s).andThen completeOk_changes).mono (by decide)

theorem settledIngMod_changes {c : Nat} {f : Ingest → Ingest} {s : State} : Changes [.nextId, .sync, .ctxs] s (settleIngest (ingMod c f s)) :=
  ((ctxMod_changes c _ s).andThen settleIngest_changes).mono (by decide)

theorem bodyIngestSchedule_changes {p : Packet} {s : State} : Changes contextParts s (bodyIngestSchedule p s) := by
  unfold bodyIngestSchedule
  split
  · exact (completeWith_changes).mono (by decide)
  · exact ((settledIngMod_changes).andThen completeOk_changes).mono (by decide)

theorem bodyIngestStart_changes {p : Packet} {s : State} : Changes contextParts s (bodyIngestStart p s) := by
  refine withCtx_changes (fun x => ?_) (by decide)
  split_ifs
  · exact (completeOpen_changes).mono (by decide)
  · exact ((settledIngMod_changes).andThen completeOk_changes).mono (by decide)

theorem bodyIngestStop_changes {p : Packet} {s : State} : Changes contextParts s (bodyIngestStop p s) :=
  withCtx_changes (fun _ => ((settledIngMod_changes).andThen completeOk_changes).mono (by decide)) (by decide)

theorem execScaleRecordRemove_changes {c tensor : Nat} {s t : State} (h : execScaleRecordRemove c tensor s = .next t) : Changes contextParts s t := by
  unfold execScaleRecordRemove at h
  split at h
  · cases h
  · split at h
    · cases h
    · unfold gate at h
      split at h
      · cases h
        exact (ctxMod_changes c _ s).mono (by decide)
      · cases h

theorem contextKept_of_changes {s t : State} (h : Changes contextParts s t) : Claims.contextKept t = Claims.contextKept s := by
  have hmem : memPart t = memPart s := h .memRest (by decide)
  simp only [memPart, Prod.mk.injEq] at hmem
  obtain ⟨hpoison, harmour, hlost, hcache, hunacked, hcounts⟩ := hmem
  have hsync : cellPart t = cellPart s := h .cells (by decide)
  simp only [cellPart, Prod.mk.injEq] at hsync
  obtain ⟨hcells, hranges, hheld, hwaits⟩ := hsync
  exact Prod.ext (h .host (by decide)) <| Prod.ext (h .regs (by decide)) <| Prod.ext (h .chart (by decide)) <| Prod.ext (h .conf (by decide)) <|
    Prod.ext (Prod.ext (h .hbm (by decide)) <| Prod.ext (h .hostMem (by decide)) (h .cxlMem (by decide))) <|
    Prod.ext hpoison <| Prod.ext harmour <| Prod.ext hlost <| Prod.ext hcache <| Prod.ext hunacked <| Prod.ext hcounts <|
    Prod.ext hcells <| Prod.ext hranges <| Prod.ext hheld <| Prod.ext hwaits <|
    Prod.ext (h .arrays (by decide)) <| Prod.ext (h .tokens (by decide)) <| Prod.ext (h .grp (by decide)) <| Prod.ext (h .colls (by decide)) <|
    Prod.ext (h .fix (by decide)) <| Prod.ext (h .pow (by decide)) <| Prod.ext (h .board (by decide)) <| Prod.ext (h .flash (by decide)) <|
    Prod.ext (h .test (by decide)) (h .bnd (by decide))

theorem contextFrame_holds : Claims.contextFrame :=
  ⟨fun p s _ h => contextKept_of_changes (changes_of_row (accept := acceptContextSet) h (fun _ => rfl) (fun _ _ => bodyContextSet_changes) (by decide) (by decide)),
    fun p s _ h => contextKept_of_changes (changes_of_row (accept := acceptContextClear) h (fun _ => rfl) (fun _ _ => bodyContextClear_changes) (by decide) (by decide)),
    fun p s _ h => contextKept_of_changes (changes_of_row (accept := acceptGroupSet) h (fun _ => rfl) (fun _ _ => bodyGroupSet_changes) (by decide) (by decide)),
    fun p s _ h => contextKept_of_changes (changes_of_row (accept := acceptAstkSet) h (fun _ => rfl) (fun _ _ => bodyAstkSet_changes) (by decide) (by decide)),
    fun p s _ h => contextKept_of_changes (changes_of_row (accept := acceptPtRootSet) h (fun _ => rfl) (fun _ _ => bodyPtRootSet_changes) (by decide) (by decide)),
    fun p s _ h => contextKept_of_changes (changes_of_row (accept := acceptJobStop) h (fun _ => rfl) (fun _ _ => bodyJobStop_changes) (by decide) (by decide)),
    fun p s _ h => contextKept_of_changes (changes_of_row (accept := acceptStripeSet) h (fun _ => rfl) (fun _ _ => bodyStripeSet_changes) (by decide) (by decide)),
    fun p s _ h => contextKept_of_changes (changes_of_row (accept := acceptIngestSchedule) h (fun _ => rfl) (fun _ _ => bodyIngestSchedule_changes) (by decide) (by decide)),
    fun p s _ h => contextKept_of_changes (changes_of_row (accept := acceptIngestStart) h (fun _ => rfl) (fun _ _ => bodyIngestStart_changes) (by decide) (by decide)),
    fun p s _ h => contextKept_of_changes (changes_of_row (accept := acceptIngestStop) h (fun _ => rfl) (fun _ _ => bodyIngestStop_changes) (by decide) (by decide)),
    fun _ _ _ _ h => contextKept_of_changes (execScaleRecordRemove_changes h)⟩

end Sys2Proof.Machine
end

section
/-! SUPPORT. What the sync-cell operations change, and what submitting work changes (06, 08, 10). -/
namespace Sys2Proof.Machine

/-- What a sync-cell operation may change: cells and waits, contexts, updates noted at the boundary, the commands behind a Fix stop, beside what a
completion does. -/
def syncParts : List Part := [.free, .nextId, .dev, .queues, .slots, .sync, .cells, .ctxs, .fab, .mgmt, .bnd, .bndRest]

theorem syncApply_changes {r : Requester} {cell : Nat} {a : SyncAct} {s : State} : Changes syncParts s (syncApply r cell a s) := by
  intro q hq
  cases q <;> simp [syncParts] at hq ⊢

theorem deliver_changes {r : Requester} {v : Word} {s : State} : Changes syncParts s (deliver r v s) := by
  intro q hq
  cases q <;> simp [syncParts] at hq ⊢

theorem changes_sync {x : SyncSys} {s : State} : Changes [.sync, .cells] s { s with sync := x } := by
  intro q hq
  cases q <;> simp at hq ⊢

theorem sendRemote_changes {r : Requester} {rank cell : Nat} {a : SyncAct} {s : State} : Changes syncParts s (sendRemote r rank cell a s) :=
  ((changes_sync).andThen (sendMsg_changes _ _ _ _ _)).mono (by decide)

/-- The work of a command enters its context under the next number. -/
theorem reschedule_enter_changes {c : Nat} {f : Ctx → Ctx} {n : Nat} {s : State} :
    Changes [.nextId, .sync, .ctxs] s (reschedule (ctxMod c f { s with nextId := n })) := by
  intro q hq
  cases q <;> simp [reschedule] at hq ⊢

theorem bodySyncOp_changes {p : Packet} {s : State} : Changes syncParts s (bodySyncOp p s) := by
  refine withCtx_changes (fun x => ?_) (by decide)
  dsimp only
  split_ifs
  · exact (completeWith_changes).mono (by decide)
  · exact ((reschedule_enter_changes).andThen syncApply_changes).mono (by decide)
  · exact ((reschedule_enter_changes).andThen sendRemote_changes).mono (by decide)

theorem deliverAll_changes (l : List Release) (s : State) : Changes syncParts s (deliverAll l s) := by
  induction l generalizing s with
  | nil => exact Changes.refl _ s
  | cons r rs ih => exact (deliver_changes).trans (ih _)

theorem presentHeld_changes {w : Wait} {s : State} : Changes syncParts s (presentHeld w s) := by
  unfold presentHeld
  dsimp only
  split
  · exact ((changes_sync).andThen deliver_changes).mono (by decide)
  · split
    · exact (changes_sync).mono (by decide)
    · exact Changes.refl _ s

theorem syncKept_of_changes {s t : State} (h : Changes syncParts s t) : Claims.syncKept t = Claims.syncKept s := by
  have hdev : devPart t = devPart s := h .devRest (by decide)
  exact Prod.ext (h .host (by decide)) <| Prod.ext (h .regs (by decide)) <|
    Prod.ext (congrArg Device.st hdev :) <| Prod.ext (congrArg Device.detail hdev :) <| Prod.ext (congrArg Device.step hdev :) <|
    Prod.ext (congrArg Device.jobRunning hdev :) <| Prod.ext (congrArg Device.stopAsked hdev :) <|
    Prod.ext (h .chart (by decide)) <| Prod.ext (h .conf (by decide)) <| Prod.ext (h .mem (by decide)) <|
    Prod.ext (h .arrays (by decide)) <| Prod.ext (h .tokens (by decide)) <| Prod.ext (h .grp (by decide)) <| Prod.ext (h .colls (by decide)) <|
    Prod.ext (h .fix (by decide)) <| Prod.ext (h .pow (by decide)) <| Prod.ext (h .board (by decide)) <| Prod.ext (h .flash (by decide)) <|
    h .test (by decide)

theorem changes_of_gate {l : List Part} {b : Bool} {why : String} {s t u : State} (h : gate b why u = .next t) (hu : Changes l s u) :
    Changes l s t := by
  unfold gate at h
  split at h
  · cases h
    exact hu
  · cases h

theorem execWaitReleaseWave_changes {wave : Nat} {s t : State} (h : execWaitReleaseWave wave s = .next t) : Changes syncParts s t := by
  unfold execWaitReleaseWave at h
  split at h
  · cases h
  · cases h
    exact ((changes_sync).andThen (deliverAll_changes _ _)).mono (by decide)

theorem execWaitEntryFree_changes {die : Nat} {s t : State} (h : execWaitEntryFree die s = .next t) : Changes syncParts s t := by
  unfold execWaitEntryFree at h
  split at h
  · cases h
  · cases h
    exact presentHeld_changes

theorem execRemoteSyncReply_changes {seq : Nat} {v : Word} {s t : State} (h : execRemoteSyncReply seq v s = .next t) : Changes syncParts s t := by
  unfold execRemoteSyncReply at h
  split at h
  · cases h
  · cases h
    exact ((changes_sync).andThen deliver_changes).mono (by decide)

/-- Every operation of the table is `syncApply` behind a gate. -/
theorem syncKept_of_gate {b : Bool} {why : String} {r : Requester} {cell : Nat} {a : SyncAct} {s t : State}
    (h : gate b why (syncApply r cell a s) = .next t) : Claims.syncKept t = Claims.syncKept s :=
  syncKept_of_changes (changes_of_gate h syncApply_changes)

theorem syncFrame_holds : Claims.syncFrame :=
  ⟨fun p s _ h => syncKept_of_changes (changes_of_row (accept := acceptSyncOp) h (fun _ => rfl) (fun _ _ => bodySyncOp_changes) (by decide) (by decide)),
    fun _ _ _ _ h => syncKept_of_gate h, fun _ _ _ _ _ h => syncKept_of_gate h, fun _ _ _ _ _ h => syncKept_of_gate h,
    fun _ _ _ _ _ _ h => syncKept_of_gate h, fun _ _ _ _ _ h => syncKept_of_gate h, fun _ _ _ _ _ h => syncKept_of_gate h,
    fun _ _ _ _ _ _ h => syncKept_of_gate h, fun _ _ _ h => syncKept_of_changes (execWaitReleaseWave_changes h),
    fun _ _ _ h => syncKept_of_changes (execWaitEntryFree_changes h), fun _ _ _ _ h => syncKept_of_changes (execRemoteSyncReply_changes h)⟩

end Sys2Proof.Machine
end

section
/-! SUPPORT. What submitting work changes (06, 08, 10). -/
namespace Sys2Proof.Machine

/-- What a submission may change: contexts and their waits, the chart-skew log, the backward descriptors seen, beside what a completion does. -/
def submitParts : List Part := [.free, .nextId, .host, .regs, .chart, .queues, .slots, .sync, .ctxs, .fab, .mgmt, .bnd]

theorem bodyDmaSubmit_changes {p : Packet} {s : State} : Changes submitParts s (bodyDmaSubmit p s) := by
  refine withCtx_changes (fun x => ?_) (by decide)
  split
  next k st d hf =>
    have hlog : Changes [.host, .regs, .chart, .bnd] s (if st = stCHARTSTALE then
        logStale (staleDies s (dmaBytes p.params k)) (BitVec.ofNat 32 (fieldAt (dmaBytes p.params k) 4 4)) s else s) := by
      split
      · exact logStale_changes _ _ s
      · exact Changes.refl _ s
    exact ((hlog.andThen (value16_changes k _)).andThen complete_changes).mono (by decide)
  · exact (reschedule_enter_changes).mono (by decide)

/-- A fault of the activation stack marks no Fix stop: only a translation or memory fault does (R235). -/
theorem addFault_stack_changes {c : Nat} {f : FaultRec} {b : Bool} {s : State} (hf : 2 < f.cls) :
    Changes [.free, .host, .regs, .queues, .ctxs, .fab, .mgmt] s (addFault c f b s) := by
  have hdue : (s.fix.abortDue || (decide (s.fix.stage ∈ [.quiesce, .copying, .header]) && decide (f.cls ≤ 2))) = s.fix.abortDue := by
    rw [decide_eq_false (by omega : ¬ f.cls ≤ 2), Bool.and_false, Bool.or_false]
  unfold addFault
  split
  · exact Changes.refl _ s
  · dsimp only
    rw [hdue]
    split
    · exact (ctxMod_changes c _ s).mono (by decide)
    · split
      · exact ((ctxMod_changes c _ s).andThen (raiseEvent_changes 4 _)).mono (by decide)
      · exact (((ctxMod_changes c _ s).andThen (raiseEvent_changes 4 _)).andThen (postTo_changes _ _ _ _)).mono (by decide)

/-- What the activation stack refuses is a fault of the stack (R143 to R145). -/
theorem astkStep_error {s : State} {c : Nat} {x : Ctx} {w : Work} {d : FaultDetail} (h : astkStep s c x w = .error d) : d.cls = 3 := by
  unfold astkStep at h
  dsimp only at h
  split at h
  · cases h
  · split_ifs at h
    cases h
    rfl
  · split at h
    · cases h
      rfl
    · split_ifs at h
      cases h
      rfl

theorem noteBack_changes {c : Nat} {x : Ctx} {w : Work} {s : State} : Changes [.bnd] s (noteBack c x w s) := by
  unfold noteBack
  split
  · intro q hq
    cases q <;> simp at hq ⊢
  · exact Changes.refl _ s

theorem placeKernel_changes {c : Nat} {w : Work} {s : State} : Changes submitParts s (placeKernel c w s) := by
  unfold placeKernel
  split
  · exact Changes.refl _ s
  · dsimp only
    split
    next d hd =>
      have hcls : 2 < d.cls := by rw [astkStep_error hd]; decide
      have hfault {f : FaultRec} {u : State} (hf : f.cls = d.cls) :
          Changes [.free, .host, .regs, .queues, .ctxs, .fab, .mgmt] u (addFault c f true u) := addFault_stack_changes (hf ▸ hcls)
      exact ((((ctxMod_changes c _ s).trans (ctxMod_changes c _ _)).andThen (hfault rfl)).andThen (reschedule_changes _)).mono (by decide)
    next a w2 hd => exact (((ctxMod_changes c _ s).andThen (reschedule_changes _)).andThen noteBack_changes).mono (by decide)

theorem bodyKernel_changes {p : Packet} {s : State} : Changes submitParts s (bodyKernel p s) := by
  refine withCtx_changes (fun x => ?_) (by decide)
  have hnext : Changes [.nextId] s { s with nextId := s.nextId + 1 } := by
    intro q hq
    cases q <;> simp at hq ⊢
  dsimp only [freshId]
  split
  · exact (complete_changes).mono (by decide)
  · exact (hnext.andThen placeKernel_changes).mono (by decide)

theorem bodyColl_changes {p : Packet} {s : State} : Changes submitParts s (bodyColl p s) := by
  refine withCtx_changes (fun x => ?_) (by decide)
  dsimp only [freshId]
  split
  · exact (complete_changes).mono (by decide)
  · exact (reschedule_enter_changes).mono (by decide)

theorem submitKept_of_changes {s t : State} (h : Changes submitParts s t) : Claims.submitKept t = Claims.submitKept s := by
  have hsync : cellPart t = cellPart s := h .cells (by decide)
  simp only [cellPart, Prod.mk.injEq] at hsync
  obtain ⟨hcells, hranges, hheld, hwaits⟩ := hsync
  have hbnd : bndPart t = bndPart s := h .bndRest (by decide)
  simp only [bndPart, Prod.mk.injEq] at hbnd
  obtain ⟨hcut, hentered, hupdated, hwaves⟩ := hbnd
  exact Prod.ext (h .dev (by decide)) <| Prod.ext (h .conf (by decide)) <| Prod.ext (h .mem (by decide)) <|
    Prod.ext hcells <| Prod.ext hranges <| Prod.ext hheld <| Prod.ext hwaits <|
    Prod.ext (h .arrays (by decide)) <| Prod.ext (h .tokens (by decide)) <| Prod.ext (h .grp (by decide)) <| Prod.ext (h .colls (by decide)) <|
    Prod.ext (h .fix (by decide)) <| Prod.ext (h .pow (by decide)) <| Prod.ext (h .board (by decide)) <| Prod.ext (h .flash (by decide)) <|
    Prod.ext (h .test (by decide)) <| Prod.ext hcut <| Prod.ext hentered <| Prod.ext hupdated <| Prod.ext hwaves <|
    Prod.ext (h .hbm (by decide)) <| Prod.ext (h .hostMem (by decide)) (h .cxlMem (by decide))

theorem submitFrame_holds : Claims.submitFrame :=
  ⟨fun p s _ h => submitKept_of_changes (changes_of_row (accept := acceptDmaSubmit) h (fun _ => rfl) (fun _ _ => bodyDmaSubmit_changes) (by decide) (by decide)),
    fun p s _ h => submitKept_of_changes (changes_of_row (accept := acceptKernel) h (fun _ => rfl) (fun _ _ => bodyKernel_changes) (by decide) (by decide)),
    fun p s _ h => submitKept_of_changes (changes_of_row (accept := acceptColl) h (fun _ => rfl) (fun _ _ => bodyColl_changes) (by decide) (by decide))⟩

end Sys2Proof.Machine

namespace Sys2Proof
open Sys2Proof.Machine

/-- Settles O53: a packet's row changes what its body and its completion do, and each body names the parts it may change. -/
theorem commandFrames : Obligations.CommandFrames :=
  ⟨queriesFrame_holds, configFrame_holds, contextFrame_holds, syncFrame_holds, submitFrame_holds⟩

end Sys2Proof
end

section
/-! SUPPORT. The invariants of every step (O60): the memories in canonical form and the fixed sizes, carried from a state to all that is computed
from it. One lemma for each function of the model says that it carries them; a function's lemma is the chain of the lemmas of those it calls. -/
namespace Sys2Proof.Machine

/-- The three memories are in canonical form. -/
def Canonical (s : State) : Prop :=
  Memory.wf s.mem.hbm = true ∧ Memory.wf s.host.mem = true ∧ Memory.wf s.host.cxlMem = true

/-- What held of `z`, canonical memories or the fixed sizes, holds of `s`. -/
def Kept (z s : State) : Prop := (Canonical z → Canonical s) ∧ (Claims.Sized z → Claims.Sized s)

theorem Kept.refl (s : State) : Kept s s := ⟨id, id⟩

/-- It holds of the next state, if there is one. -/
def OutKept (z : State) (o : Out) : Prop := ∀ t, o = .next t → Kept z t

/-- It holds of the state that a fallible access leaves. -/
def OkKept {ε : Type} (z : State) (r : Except ε State) : Prop := ∀ t, r = .ok t → Kept z t

/-- It holds of the state that a fallible access leaves with a result. -/
def OkFstKept {ε α : Type} (z : State) (r : Except ε (State × α)) : Prop := ∀ t, r = .ok t → Kept z t.1

/-- It holds of the state that an operation of a kernel image leaves. -/
def VecKept (z : State) (r : VecEnd) : Prop := ∀ t fl, r = .ok t fl → Kept z t

/-- Where an opcode has a row, its acceptance keeps it. -/
def AcceptKept (z : State) (o : Option (Packet → State → State)) : Prop := ∀ f, o = some f → ∀ p t, Kept z t → Kept z (f p t)

/-- The sizes that the invariant fixes or bounds. -/
def sizes (s : State) : Nat × Nat × Nat × Nat × Nat :=
  (s.fab.ports.length, s.flash.modes.length, s.mem.armour.length, s.pow.dies.length, s.chart.skews.length)

section
variable {z s t u : State}

/-- A state that the memories make canonical where they were, with the same sizes. -/
theorem kept_of_canonical (h : Kept z s) (hc : Canonical s → Canonical t) (hs : sizes t = sizes s) : Kept z t := by
  refine ⟨fun hz => hc (h.1 hz), fun hz => ?_⟩
  obtain ⟨hports, hmodes, harmour, hdies, hskews⟩ := h.2 hz
  simp only [sizes, Prod.mk.injEq] at hs
  obtain ⟨eports, emodes, earmour, edies, eskews⟩ := hs
  exact ⟨eports.trans hports, emodes.trans hmodes, earmour.trans harmour, edies.trans hdies, eskews.le.trans hskews⟩

/-- A state with the same bytes and the same sizes. -/
theorem kept_of_sizes (h : Kept z s) (hb : Claims.bytes t = Claims.bytes s) (hs : sizes t = sizes s) : Kept z t := by
  refine kept_of_canonical h (fun hc => ?_) hs
  simp only [Claims.bytes, Prod.mk.injEq] at hb
  obtain ⟨ehbm, ehost, ecxl⟩ := hb
  rw [Canonical, ehbm, ehost, ecxl]
  exact hc

/-! ### A part of the state that holds neither memory nor a fixed size -/

theorem with_arrays_kept {x : Arrays} (h : Kept z s) : Kept z { s with arrays := x } := kept_of_sizes h rfl rfl

theorem with_bnd_kept {x : Boundary} (h : Kept z s) : Kept z { s with bnd := x } := kept_of_sizes h rfl rfl

theorem with_board_kept {x : Board} (h : Kept z s) : Kept z { s with board := x } := kept_of_sizes h rfl rfl

theorem with_colls_kept {x : Colls} (h : Kept z s) : Kept z { s with colls := x } := kept_of_sizes h rfl rfl

theorem with_conf_kept {x : Conf} (h : Kept z s) : Kept z { s with conf := x } := kept_of_sizes h rfl rfl

theorem with_ctxs_kept {x : Table Ctx} (h : Kept z s) : Kept z { s with ctxs := x } := kept_of_sizes h rfl rfl

theorem with_fix_kept {x : FixSys} (h : Kept z s) : Kept z { s with fix := x } := kept_of_sizes h rfl rfl

theorem with_grp_kept {x : Group} (h : Kept z s) : Kept z { s with grp := x } := kept_of_sizes h rfl rfl

theorem with_regs_kept {x : Regs} (h : Kept z s) : Kept z { s with regs := x } := kept_of_sizes h rfl rfl

theorem with_slots_kept {x : Slots} (h : Kept z s) : Kept z { s with slots := x } := kept_of_sizes h rfl rfl

theorem with_test_kept {x : SelfTest} (h : Kept z s) : Kept z { s with test := x } := kept_of_sizes h rfl rfl

theorem ctxMod_kept {c : Nat} {f : Ctx → Ctx} (h : Kept z s) : Kept z (ctxMod c f s) := kept_of_sizes h rfl rfl

/-! ### Branches, folds and outcomes -/

theorem ite_kept {c : Prop} [Decidable c] (ht : Kept z t) (hu : Kept z u) : Kept z (if c then t else u) := by
  split
  · exact ht
  · exact hu

theorem when_kept {c : Prop} [Decidable c] {f : State → State} (hf : ∀ v, Kept z v → Kept z (f v)) (h : Kept z s) :
    Kept z (if c then f s else s) :=
  ite_kept (hf s h) h

theorem fst_kept {α : Type} {b : α} {p : State × α} (he : p = (t, b)) (h : Kept z p.1) : Kept z t := by
  subst he
  exact h

theorem snd_kept {α : Type} {a : α} {p : α × State} (he : p = (a, t)) (h : Kept z p.2) : Kept z t := by
  subst he
  exact h

theorem foldl_kept {α : Type} {f : State → α → State} (hf : ∀ v a, Kept z v → Kept z (f v a)) {l : List α} (h : Kept z s) :
    Kept z (l.foldl f s) := by
  induction l generalizing s with
  | nil => exact h
  | cons a l ih => exact ih (hf s a h)

theorem foldl_snd_kept {α β : Type} {f : β × State → α → β × State} (hf : ∀ v a, Kept z v.2 → Kept z (f v a).2) {l : List α} {p : β × State}
    (h : Kept z p.2) : Kept z (l.foldl f p).2 := by
  induction l generalizing p with
  | nil => exact h
  | cons a l ih => exact ih (hf p a h)

theorem next_kept (h : Kept z t) : OutKept z (.next t) := by
  rintro v ⟨⟩
  exact h

theorem refused_kept {r : Refusal} : OutKept z (.refused r) := fun _ h => nomatch h

theorem ite_outKept {c : Prop} [Decidable c] {o q : Out} (ho : OutKept z o) (hq : OutKept z q) : OutKept z (if c then o else q) := by
  split
  · exact ho
  · exact hq

theorem ok_kept {ε : Type} (h : Kept z t) : OkKept z (.ok t : Except ε State) := by
  rintro v ⟨⟩
  exact h

theorem error_kept {ε : Type} {e : ε} : OkKept z (.error e : Except ε State) := fun _ h => nomatch h

theorem ite_okKept {ε : Type} {c : Prop} [Decidable c] {o q : Except ε State} (ho : OkKept z o) (hq : OkKept z q) :
    OkKept z (if c then o else q) := by
  split
  · exact ho
  · exact hq

theorem okFst_kept {ε α : Type} {a : α} (h : Kept z t) : OkFstKept z (.ok (t, a) : Except ε (State × α)) := by
  rintro v ⟨⟩
  exact h

theorem errorFst_kept {ε α : Type} {e : ε} : OkFstKept z (.error e : Except ε (State × α)) := fun _ h => nomatch h

theorem vecOk_kept {fl : Nat} (h : Kept z t) : VecKept z (.ok t fl) := by
  rintro v _ ⟨⟩
  exact h

theorem vecFault_kept {e : AccErr} {a : Access} : VecKept z (.fault e a) := fun _ _ h => nomatch h

theorem vecBad_kept {d : Option Nat} : VecKept z (.bad d) := fun _ _ h => nomatch h

theorem some_acceptKept {f : Packet → State → State} (h : ∀ p t, Kept z t → Kept z (f p t)) : AcceptKept z (some f) := by
  rintro g ⟨⟩
  exact h

theorem none_acceptKept : AcceptKept z none := fun _ h => nomatch h

theorem or_acceptKept {o q : Option (Packet → State → State)} (ho : AcceptKept z o) (hq : AcceptKept z q) : AcceptKept z (o.or q) := by
  cases o with
  | none => exact hq
  | some f => exact ho

theorem ite_okFstKept {ε α : Type} {c : Prop} [Decidable c] {o q : Except ε (State × α)} (ho : OkFstKept z o) (hq : OkFstKept z q) :
    OkFstKept z (if c then o else q) := by
  split
  · exact ho
  · exact hq

/-- Two fallible accesses in turn. -/
theorem bind_okKept {ε α : Type} {r : Except ε (State × α)} {g : State × α → Except ε State} (hr : OkFstKept z r)
    (hg : ∀ a, Kept z a.1 → OkKept z (g a)) : OkKept z (r.bind g) := by
  cases r with
  | error e => exact error_kept
  | ok a => exact hg a (hr a rfl)

/-- A gate lets a state through; its condition may be used to show that the state is kept. -/
theorem gate_kept_of {c : Bool} {why : String} (h : c = true → Kept z t) : OutKept z (gate c why t) := by
  unfold gate
  split
  next hc => exact next_kept (h hc)
  · exact refused_kept

end

end Sys2Proof.Machine
end

section
/-! SUPPORT. Sending over the fabric keeps the number of ports (R271, R278). -/
namespace Sys2Proof.Machine

@[simp] theorem pump_ports_length (k : Nat) (b : Fabric) : (Fabric.pump k b).ports.length = b.ports.length := by
  unfold Fabric.pump
  exact lmod_length _ _ _

@[simp] theorem sendOn_ports_length (k : Nat) (f : Flit) (b : Fabric) : (Fabric.sendOn k f b).ports.length = b.ports.length := by
  simp [Fabric.sendOn]

@[simp] theorem emit_ports_length (f : Flit) (b : Fabric) : (Fabric.emit f b).ports.length = b.ports.length := by
  unfold Fabric.emit
  split
  · split
    · exact sendOn_ports_length _ f b
    · rfl
  · rfl

/-- Flits sent one after another. -/
theorem foldl_emit_ports_length {α : Type} (g : α → Flit) (l : List α) (b : Fabric) :
    (l.foldl (fun c a => Fabric.emit (g a) c) b).ports.length = b.ports.length := by
  induction l generalizing b with
  | nil => rfl
  | cons a l ih => exact (ih (Fabric.emit (g a) b)).trans (emit_ports_length (g a) b)

@[simp] theorem retry_ports_length (b : Fabric) : (Fabric.retry b).ports.length = b.ports.length :=
  foldl_emit_ports_length id b.waiting { b with waiting := [] }

@[simp] theorem sendBytes_ports_length (cls dest src : Nat) (l : List Byte) (b : Fabric) :
    (Fabric.sendBytes cls dest src l b).ports.length = b.ports.length :=
  foldl_emit_ports_length _ (flitPieces l.length l) b

end Sys2Proof.Machine
end

section
/-! SUPPORT. What carries the invariants of every step through the shared operations, address spaces, sync cells and acceptance (10, 08). -/
namespace Sys2Proof.Machine

section
variable {z : State}

theorem gate_kept {c : Bool} {why : String} {t : State} (h : Kept z t) : OutKept z (gate c why t) :=
  gate_kept_of (fun _ => h)

theorem sendMsix_kept {n : Nat} {s : State} (h : Kept z s) : Kept z (sendMsix n s) :=
  ite_kept h h

theorem raiseEvent_kept {bit : Nat} {s : State} (h : Kept z s) : Kept z (raiseEvent bit s) :=
  ite_kept (sendMsix_kept h) h

theorem sensorEvent_kept {sensor old new : Nat} {s : State} (h : Kept z s) : Kept z (sensorEvent sensor old new s) :=
  ite_kept h h

theorem enterState_kept {st : DevState} {detail : Nat} {s : State} (h : Kept z s) : Kept z (enterState st detail s) :=
  ite_kept h (sensorEvent_kept (raiseEvent_kept h))

theorem idlePorts_kept {s : State} (h : Kept z s) : Kept z (idlePorts s) :=
  kept_of_sizes h rfl (by simp [sizes, idlePorts])

theorem resumePorts_kept {s : State} (h : Kept z s) : Kept z (resumePorts s) :=
  kept_of_sizes h rfl (by simp [sizes, resumePorts])

theorem enterHold_kept {detail : Nat} {s : State} (h : Kept z s) : Kept z (enterHold detail s) :=
  enterState_kept (idlePorts_kept h)

theorem noteSoft_kept {s : State} (h : Kept z s) : Kept z (noteSoft s) :=
  kept_of_sizes h rfl rfl

theorem sendMsg_kept {cls dest : Nat} {name : String} {args : List Nat} {s : State} (h : Kept z s) :
    Kept z (sendMsg cls dest name args s) := by
  refine kept_of_sizes h rfl ?_
  simp only [sizes, sendMsg]
  split
  · rfl
  · rw [sendBytes_ports_length]

theorem decideChange_kept {c : Change} {s : State} (h : Kept z s) : Kept z (decideChange c s) := by
  unfold decideChange
  dsimp only
  split
  · exact h
  · exact h

/-- The skew log keeps at most its bound of records (R33). -/
theorem logSkew_kept {unit cause reporter : Nat} {carried : Word} {s : State} (h : Kept z s) :
    Kept z (logSkew unit cause reporter carried s) := by
  refine raiseEvent_kept ⟨h.1, fun hz => ?_⟩
  obtain ⟨hports, hmodes, harmour, hdies, -⟩ := h.2 hz
  refine ⟨hports, hmodes, harmour, hdies, ?_⟩
  dsimp only
  split
  · rw [List.length_drop]
    omega
  · omega

theorem setArmour_kept {q : Nat} {a : Armour} {s : State} (h : Kept z s) : Kept z (setArmour q a s) := by
  have hset : Kept z { s with mem := { s.mem with armour := lset s.mem.armour q a } } :=
    kept_of_sizes h rfl (by simp [sizes, lset])
  exact ite_kept hset (raiseEvent_kept hset)

theorem rawSet_kept {key : Nat} {v : Byte} {s : State} (h : Kept z s) : Kept z (rawSet key v s) :=
  kept_of_canonical h (fun hc => ⟨Memory.wf_set hc.1, hc.2⟩) rfl

theorem armourSet_kept {q stripe granule byte : Nat} {v : Byte} {s : State} (h : Kept z s) : Kept z (armourSet q stripe granule byte v s) :=
  ite_kept h (ite_kept (ite_kept (rawSet_kept h) (rawSet_kept h)) (ite_kept (rawSet_kept h) (ite_kept (rawSet_kept h) (rawSet_kept (rawSet_kept h)))))

theorem devSet_kept {dpa : Nat} {v : Byte} {s : State} (h : Kept z s) : Kept z (devSet dpa v s) := by
  unfold devSet
  split
  · exact h
  · exact ite_kept h (rawSet_kept h)
  · exact armourSet_kept h

theorem devSetN_kept {dpa : Nat} {l : List Byte} {s : State} (h : Kept z s) : Kept z (devSetN dpa l s) := by
  induction l generalizing dpa s with
  | nil => exact h
  | cons b r ih => exact ih (devSet_kept h)

theorem placeLine_kept {key : Nat} {dirty : Bool} {s : State} (h : Kept z s) : Kept z (placeLine key dirty s) :=
  ite_kept h h

theorem touchLine_kept {alloc write : Bool} {key : Nat} {s : State} (h : Kept z s) : Kept z (touchLine alloc write key s) :=
  ite_kept (ite_kept h h) (ite_kept (placeLine_kept h) h)

theorem touchLines_kept {alloc write : Bool} {dpa n : Nat} {s : State} (h : Kept z s) : Kept z (touchLines alloc write dpa n s) :=
  ite_kept (foldl_kept (fun _ _ hu => touchLine_kept hu) h) h

theorem devWrite_kept {dpa : Nat} {l : List Byte} {s : State} (h : Kept z s) : Kept z (devWrite dpa l s) :=
  devSetN_kept h

theorem devPut_kept {alloc : Bool} {dpa : Nat} {l : List Byte} {s : State} (h : Kept z s) : Kept z (devPut alloc dpa l s) :=
  touchLines_kept (devWrite_kept h)

theorem devStore_kept {dpa : Nat} {l : List Byte} {s : State} (h : Kept z s) : Kept z (devStore dpa l s) :=
  devPut_kept h

theorem hostWrite_kept {addr : Nat} {l : List Byte} {s : State} (h : Kept z s) : Kept z (hostWrite addr l s) :=
  kept_of_canonical h (fun hc => ⟨hc.1, Memory.wf_setN hc.2.1, hc.2.2⟩) rfl

theorem postTo_kept {src : Source} {c : Completion} {data : List Byte} {s : State} (h : Kept z s) : Kept z (postTo src c data s) := by
  unfold postTo
  split
  · exact h
  · refine kept_of_sizes h rfl ?_
    simp only [sizes, sendBytes_ports_length]
    rfl
  · exact h

theorem owe_kept {p : Packet} {s : State} (h : Kept z s) : Kept z (owe p s) := by
  unfold owe
  dsimp only
  split
  · exact h
  · exact h
  · exact h

theorem orFree_kept {v : Option Nat} {s : State} (h : Kept z s) : Kept z (orFree v s).2 := by
  unfold orFree
  split
  · exact h
  · exact h

theorem valueOrFree_kept {v : Option (BitVec 64)} {s : State} (h : Kept z s) : Kept z (valueOrFree v s).2 := by
  unfold valueOrFree
  split
  · exact h
  · exact h

theorem complete_kept {p : Packet} {opcode status : Nat} {detail : Option Nat} {value : Option (BitVec 64)} {slot : Nat} {data : List Byte}
    {s : State} (h : Kept z s) :
    Kept z (complete p opcode status detail value slot data s) :=
  postTo_kept (valueOrFree_kept (orFree_kept h))

theorem completeWith_kept {p : Packet} {opcode status detail : Nat} {s : State} (h : Kept z s) : Kept z (completeWith p opcode status detail s) :=
  complete_kept h

theorem completeOpen_kept {p : Packet} {opcode status : Nat} {s : State} (h : Kept z s) : Kept z (completeOpen p opcode status s) :=
  complete_kept h

theorem completeOk_kept {p : Packet} {opcode : Nat} {s : State} (h : Kept z s) : Kept z (completeOk p opcode s) :=
  completeOpen_kept h

theorem queueError_kept {q code : Nat} {s : State} (h : Kept z s) : Kept z (queueError q code s) :=
  raiseEvent_kept h

theorem allocSlot_kept {p : Packet} {bytes : Nat} {s : State} (h : Kept z s) : Kept z (allocSlot p bytes s).2 := by
  unfold allocSlot
  dsimp only
  split
  · exact h
  · exact h

theorem slotReady_kept {idx status detail : Nat} {payload : List Byte} {s : State} (h : Kept z s) :
    Kept z (slotReady idx status detail payload s) := by
  unfold slotReady
  dsimp only
  split
  · exact h
  · exact ite_kept h h

theorem finishSlot_kept {p : Packet} {opcode idx status : Nat} {payload : List Byte} {s : State} (h : Kept z s) :
    Kept z (finishSlot p opcode idx status payload s) :=
  complete_kept (slotReady_kept (orFree_kept (v := none) h))

theorem finishPending_kept {idx status detail : Nat} {payload : List Byte} {s : State} (h : Kept z s) :
    Kept z (finishPending idx status detail payload s) :=
  raiseEvent_kept (slotReady_kept h)

theorem noteUpdate_kept {c : Nat} {w : Work} {s : State} (h : Kept z s) : Kept z (noteUpdate c w s) :=
  ite_kept h h

theorem doomAll_kept {c : Nat} {w : Work} {s : State} (h : Kept z s) : Kept z (doomAll c w s) :=
  ite_kept h h

theorem finishWork_kept {c : Nat} {w : Work} {status : Nat} {detail : Option Nat} {value : Option (BitVec 64)} {s : State} (h : Kept z s) :
    Kept z (finishWork c w status detail value s) :=
  doomAll_kept (postTo_kept (valueOrFree_kept (orFree_kept (ite_kept (noteUpdate_kept h) h))))

theorem admitRings_kept {n : Nat} {s : State} (h : Kept z s) : Kept z (admitRings n s) := by
  induction n generalizing s with
  | zero => exact h
  | succ n ih =>
    unfold admitRings
    split
    · exact h
    · exact ih h

theorem settleIngest_kept {s : State} (h : Kept z s) : Kept z (settleIngest s) :=
  admitRings_kept h

theorem addFault_kept {c : Nat} {f : FaultRec} {park : Bool} {s0 : State} (h : Kept z s0) : Kept z (addFault c f park s0) := by
  unfold addFault
  dsimp only
  split
  · exact h
  · split
    · exact h
    · split
      · exact raiseEvent_kept h
      · exact postTo_kept (raiseEvent_kept h)

theorem faultWork_kept {c : Nat} {w : Work} {d : FaultDetail} {resume : Nat} {s : State} (h : Kept z s) : Kept z (faultWork c w d resume s) :=
  addFault_kept h

theorem deliver_kept {r : Requester} {v : Word} {s : State} (h : Kept z s) : Kept z (deliver r v s) := by
  unfold deliver
  dsimp only
  split
  · exact sendMsg_kept h
  · split
    · split
      · exact ite_kept (finishWork_kept h) h
      · exact h
    · exact h

theorem presentWait_kept {w : Wait} {s : State} (h : Kept z s) : Kept z (presentWait w s) := by
  refine ite_kept h (ite_kept (deliver_kept h) ?_)
  split
  · exact h
  · exact h

theorem syncApply_kept {r : Requester} {cell : Nat} {act : SyncAct} {s : State} (h : Kept z s) : Kept z (syncApply r cell act s) := by
  unfold syncApply
  dsimp only
  split
  · exact deliver_kept h
  · exact deliver_kept h
  · exact deliver_kept h
  · exact deliver_kept (ite_kept h h)
  · exact presentWait_kept h
  · exact presentWait_kept h
  · exact presentWait_kept h

theorem asUnit_kept {u : Nat} {f : State → State} {s : State} (hf : ∀ t, Kept z t → Kept z (f t)) (h : Kept z s) : Kept z (asUnit u f s) :=
  hf _ h

theorem writePiece_kept {ctx va : Nat} {l : List Byte} {s : State} (h : Kept z s) : OkKept z (writePiece ctx va l s) := by
  unfold writePiece
  split
  · exact error_kept
  · exact ok_kept (hostWrite_kept h)
  · exact ok_kept (kept_of_canonical h (fun hc => ⟨hc.1, hc.2.1, Memory.wf_setN hc.2.2⟩) rfl)
  · exact ok_kept (devPut_kept h)

theorem writePieces_kept {ctx : Nat} {ps : List (Nat × Nat)} {l : List Byte} {s : State} (h : Kept z s) : OkKept z (writePieces ctx ps l s) := by
  induction ps generalizing l s with
  | nil => exact ok_kept h
  | cons p ps ih =>
    unfold writePieces
    split
    · exact error_kept
    next t he => exact ih (writePiece_kept h _ he)

theorem vaWrite_kept {ctx va : Nat} {l : List Byte} {s : State} (h : Kept z s) : OkKept z (vaWrite ctx va l s) :=
  writePieces_kept h

theorem poisonRead_kept {dpa : Nat} {s : State} (h : Kept z s) : Kept z (poisonRead dpa s) := by
  unfold poisonRead
  split
  · exact h
  · exact h

theorem countPoison_kept {e : AccErr} {s : State} (h : Kept z s) : Kept z (countPoison e s) := by
  unfold countPoison
  split
  · exact poisonRead_kept h
  · exact ite_kept (poisonRead_kept h) h

theorem withRecords_kept {c work : Nat} {f : State → State} {s : State} (hf : ∀ t, Kept z t → Kept z (f t)) (h : Kept z s) :
    Kept z (withRecords c work f s) := by
  unfold withRecords
  split
  · exact hf s h
  · split
    · exact hf s h
    · exact hf _ h

theorem acceptPacket_kept {op : Nat} {c : Checks} {body : Nat → State → State} {p : Packet} {s : State}
    (hf : ∀ idx t, Kept z t → Kept z (body idx t)) (h : Kept z s) : Kept z (acceptPacket op c body p s) := by
  obtain ⟨st, d, -, he⟩ | ⟨-, -, -, he⟩ | ⟨-, n, -, he⟩ | ⟨-, -, he⟩ := acceptPacket_cases op c body p s
  · rw [he]
    exact complete_kept h
  · rw [he]
    exact h
  · rw [he]
    exact hf _ _ (allocSlot_kept h)
  · rw [he]
    exact hf _ s h

theorem holdCommand_kept {op : Nat} {p : Packet} {s : State} (h : Kept z s) : Kept z (holdCommand op p s) := by
  unfold holdCommand
  dsimp only
  split
  · exact h
  · exact h

theorem refuse8_kept {p : Packet} {op st : Nat} {detail : Option Nat} {idx : Nat} {s : State} (h : Kept z s) :
    Kept z (refuse8 p op st detail idx s) :=
  complete_kept (ite_kept h h)

theorem runPacket_kept {op : Nat} {accept : Packet → State → State} {p : Packet} {s : State} (hf : ∀ y0 y1, Kept z y1 → Kept z (accept y0 y1))
    (h : Kept z s) :
    Kept z (runPacket op accept p s) :=
  ite_kept (holdCommand_kept (owe_kept h)) (hf _ _ (owe_kept h))

theorem packetOut_kept {op : Nat} {accept : Packet → State → State} {p : Packet} {s : State} (hf : ∀ t, Kept z t → Kept z (accept p t))
    (h : Kept z s) : OutKept z (packetOut op accept p s) := by
  refine fun t ht => ?_
  obtain ⟨-, rfl⟩ | ⟨-, rfl⟩ := packetOut_next_cases ht
  · exact holdCommand_kept (owe_kept h)
  · exact hf _ (owe_kept h)

theorem withCtx_kept {p : Packet} {op idx : Nat} {s : State} {body : Ctx → State} (h : Kept z s) (hf : ∀ x, Kept z (body x)) :
    Kept z (withCtx p op idx s body) := by
  unfold withCtx
  split
  · exact hf _
  · exact refuse8_kept h

theorem touchBlock_kept {c : Nat} {r : ScaleRec} {b step : Nat} {s : State} (h : Kept z s) : OkFstKept z (touchBlock c r b step s) := by
  unfold touchBlock
  split
  · exact errorFst_kept
  · refine ite_okFstKept (okFst_kept h) ?_
    split
    dsimp only
    split
    · exact errorFst_kept
    next t he =>
      have ht : Kept z t := vaWrite_kept h _ he
      exact okFst_kept ht

theorem orByte_kept {c va v : Nat} {s : State} (h : Kept z s) : OkKept z (orByte c va v s) := by
  unfold orByte
  split
  · exact error_kept
  · exact vaWrite_kept h

theorem markOverflow_kept {c : Nat} {r : ScaleRec} {b step : Nat} {s : State} (h : Kept z s) : OkKept z (markOverflow c r b step s) := by
  unfold markOverflow
  split
  · exact error_kept
  next t he =>
    have ht := orByte_kept h _ he
    exact orByte_kept ht

theorem moduleFault_kept {c : Nat} {e : AccErr} {acc : Access} {s : State} (h : Kept z s) : Kept z (moduleFault c e acc s) :=
  addFault_kept (countPoison_kept h)

theorem markBlocks_kept {c step : Nat} {r : ScaleRec} {l : List Nat} {s : State} (h : Kept z s) : Kept z (markBlocks c step r l s) := by
  refine foldl_kept (fun _ _ hu => ?_) h
  split
  next t he =>
    have ht := markOverflow_kept hu _ he
    exact ht
  · exact moduleFault_kept hu

theorem mergeHeld_kept {c id : Nat} {tag : Word} {step : Nat} {h : Held} {s : State} (hs : Kept z s) : Kept z (mergeHeld c id tag step h s) := by
  unfold mergeHeld
  dsimp only
  split
  · exact hs
  · exact markBlocks_kept hs

theorem putElem_kept {c : Nat} {o : OutSpec} {fmt : Nat} {pair : Bool} {step i : Nat} {emit : Int → Written} {st : State × WatchLive × Nat}
    (h : Kept z st.1) : OkFstKept z (putElem c o fmt pair step i emit st) := by
  unfold putElem
  obtain ⟨s, l, f⟩ := st
  dsimp only
  split
  · split
    · exact errorFst_kept
    next t he =>
      have ht : Kept z t := vaWrite_kept h _ he
      exact okFst_kept ht
  · split
    · exact errorFst_kept
    next s1 held he =>
      split
      · exact errorFst_kept
      next s2 he2 =>
        split
        · exact errorFst_kept
        · exact okFst_kept (vaWrite_kept (touchBlock_kept h _ he) _ he2)

theorem writeElem_kept {c : Nat} {o : OutSpec} {step origin i : Nat} {v : OutVal} {st : State × WatchLive × Nat} (h : Kept z st.1) :
    OkFstKept z (writeElem c o step origin i v st) := by
  unfold writeElem
  split
  exact putElem_kept h

theorem writeEach_kept {c : Nat} {o : OutSpec} {step origin : Nat} {l : List (Nat × OutVal)} {st : State × WatchLive × Nat} (h : Kept z st.1) :
    OkFstKept z (writeEach c o step origin l st) := by
  induction l generalizing st with
  | nil => exact okFst_kept h
  | cons e r ih =>
    unfold writeEach
    split
    · exact errorFst_kept
    next t he => exact ih (writeElem_kept h _ he)

theorem cleanBlock_kept {c : Nat} {s : State} {b : Nat} (h : Kept z s) : Kept z (cleanBlock c s b) := by
  unfold cleanBlock
  dsimp only
  split
  · exact h
  · exact h

theorem cleanWritten_kept {c : Nat} {o : OutSpec} {ids : List Nat} {s : State} (h : Kept z s) : Kept z (cleanWritten c o ids s) :=
  ite_kept h (foldl_kept (fun _ _ hu => cleanBlock_kept hu) h)

theorem writeElems_kept {c : Nat} {o : OutSpec} {step origin : Nat} {l : List (Nat × OutVal)} {st : State × WatchLive × Nat} (h : Kept z st.1) :
    OkFstKept z (writeElems c o step origin l st) := by
  unfold writeElems
  split
  · exact errorFst_kept
  next t _ _ he =>
    have ht := writeEach_kept h _ he
    exact okFst_kept (cleanWritten_kept ht)

theorem initBlocks_kept {c : Nat} {r : ScaleRec} {s : State} (h : Kept z s) : OkKept z (initBlocks c r s) := by
  unfold initBlocks
  dsimp only
  split
  · exact error_kept
  next t he =>
    have ht := vaWrite_kept h _ he
    split
    · exact error_kept
    next t he =>
      have ht := vaWrite_kept ht _ he
      exact vaWrite_kept ht

end

end Sys2Proof.Machine
end

section
/-! SUPPORT. What carries the invariants of every step through queries, configuration, contexts, scale records, sync and DMA commands (10, 14, 06, 08). -/
namespace Sys2Proof.Machine

section
variable {z : State}

theorem readReg_kept {off : Nat} {s : State} (h : Kept z s) : Kept z (readReg off s).2 :=
  ite_kept h h

theorem acceptNop_kept {p : Packet} {s : State} (h : Kept z s) : Kept z (acceptNop p s) :=
  acceptPacket_kept (fun _ _ hv => completeOk_kept hv) h

theorem execNop_kept {p : Packet} {s : State} (h : Kept z s) : OutKept z (execNop p s) :=
  packetOut_kept (fun _ => acceptNop_kept) h

theorem acceptIdentify_kept {p : Packet} {s : State} (h : Kept z s) : Kept z (acceptIdentify p s) :=
  acceptPacket_kept (fun _ _ hv => finishSlot_kept hv) h

theorem execIdentify_kept {p : Packet} {s : State} (h : Kept z s) : OutKept z (execIdentify p s) :=
  packetOut_kept (fun _ => acceptIdentify_kept) h

theorem acceptStatusGet_kept {p : Packet} {s : State} (h : Kept z s) : Kept z (acceptStatusGet p s) :=
  acceptPacket_kept (fun _ _ hv => complete_kept hv) h

theorem execStatusGet_kept {p : Packet} {s : State} (h : Kept z s) : OutKept z (execStatusGet p s) :=
  packetOut_kept (fun _ => acceptStatusGet_kept) h

theorem bodyRegRead_kept {p : Packet} {s : State} (h : Kept z s) : Kept z (bodyRegRead p s) :=
  complete_kept (readReg_kept h)

theorem acceptRegRead_kept {p : Packet} {s : State} (h : Kept z s) : Kept z (acceptRegRead p s) :=
  acceptPacket_kept (fun _ _ hv => bodyRegRead_kept hv) h

theorem execRegRead_kept {p : Packet} {s : State} (h : Kept z s) : OutKept z (execRegRead p s) :=
  packetOut_kept (fun _ => acceptRegRead_kept) h

theorem acceptChartGet_kept {p : Packet} {s : State} (h : Kept z s) : Kept z (acceptChartGet p s) :=
  acceptPacket_kept (fun _ _ hv => finishSlot_kept hv) h

theorem execChartGet_kept {p : Packet} {s : State} (h : Kept z s) : OutKept z (execChartGet p s) :=
  packetOut_kept (fun _ => acceptChartGet_kept) h

theorem acceptSkewLogGet_kept {p : Packet} {s : State} (h : Kept z s) : Kept z (acceptSkewLogGet p s) :=
  acceptPacket_kept (fun _ _ hv => finishSlot_kept hv) h

theorem execSkewLogGet_kept {p : Packet} {s : State} (h : Kept z s) : OutKept z (execSkewLogGet p s) :=
  packetOut_kept (fun _ => acceptSkewLogGet_kept) h

theorem readSlot_kept {p : Packet} {idx : Nat} {sl : Slot} {s : State} (h : Kept z s) : Kept z (readSlot p idx sl s) :=
  complete_kept (ite_kept (ite_kept (hostWrite_kept h) h) (with_slots_kept (ite_kept (hostWrite_kept h) h)))

theorem bodyResultRead_kept {p : Packet} {s : State} (h : Kept z s) : Kept z (bodyResultRead p s) := by
  refine ite_kept (completeWith_kept h) ?_
  split
  · exact completeWith_kept h
  · exact ite_kept (completeOpen_kept h) (ite_kept (completeWith_kept h) (readSlot_kept h))

theorem acceptResultRead_kept {p : Packet} {s : State} (h : Kept z s) : Kept z (acceptResultRead p s) :=
  acceptPacket_kept (fun _ _ hv => bodyResultRead_kept hv) h

theorem execResultRead_kept {p : Packet} {s : State} (h : Kept z s) : OutKept z (execResultRead p s) :=
  packetOut_kept (fun _ => acceptResultRead_kept) h

theorem bodyResultRelease_kept {p : Packet} {s : State} (h : Kept z s) : Kept z (bodyResultRelease p s) := by
  unfold bodyResultRelease
  dsimp only
  split
  · exact completeWith_kept h
  · exact completeOk_kept (ite_kept h h)

theorem acceptResultRelease_kept {p : Packet} {s : State} (h : Kept z s) : Kept z (acceptResultRelease p s) :=
  acceptPacket_kept (fun _ _ hv => bodyResultRelease_kept hv) h

theorem execResultRelease_kept {p : Packet} {s : State} (h : Kept z s) : OutKept z (execResultRelease p s) :=
  packetOut_kept (fun _ => acceptResultRelease_kept) h

theorem bodyConfigBegin_kept {p : Packet} {s : State} (h : Kept z s) : Kept z (bodyConfigBegin p s) :=
  ite_kept (completeWith_kept h) (completeOk_kept (ite_kept (enterHold_kept h) h))

theorem acceptConfigBegin_kept {p : Packet} {s : State} (h : Kept z s) : Kept z (acceptConfigBegin p s) :=
  acceptPacket_kept (fun _ _ hv => bodyConfigBegin_kept hv) h

theorem execConfigBegin_kept {p : Packet} {s : State} (h : Kept z s) : OutKept z (execConfigBegin p s) :=
  packetOut_kept (fun _ => acceptConfigBegin_kept) h

theorem bodyConfigWrite_kept {p : Packet} {s : State} (h : Kept z s) : Kept z (bodyConfigWrite p s) := by
  unfold bodyConfigWrite
  dsimp only
  split
  · exact completeWith_kept h
  · exact ite_kept (completeWith_kept h) (completeOk_kept h)

theorem acceptConfigWrite_kept {p : Packet} {s : State} (h : Kept z s) : Kept z (acceptConfigWrite p s) :=
  acceptPacket_kept (fun _ _ hv => bodyConfigWrite_kept hv) h

theorem execConfigWrite_kept {p : Packet} {s : State} (h : Kept z s) : OutKept z (execConfigWrite p s) :=
  packetOut_kept (fun _ => acceptConfigWrite_kept) h

theorem bodyConfigAbort_kept {p : Packet} {s : State} (h : Kept z s) : Kept z (bodyConfigAbort p s) :=
  completeOk_kept (ite_kept h (ite_kept (enterState_kept (resumePorts_kept h)) (enterState_kept h)))

theorem acceptConfigAbort_kept {p : Packet} {s : State} (h : Kept z s) : Kept z (acceptConfigAbort p s) :=
  acceptPacket_kept (fun _ _ hv => bodyConfigAbort_kept hv) h

theorem execConfigAbort_kept {p : Packet} {s : State} (h : Kept z s) : OutKept z (execConfigAbort p s) :=
  packetOut_kept (fun _ => acceptConfigAbort_kept) h

theorem bodyConfigRead_kept {p : Packet} {idx : Nat} {s : State} (h : Kept z s) : Kept z (bodyConfigRead p idx s) := by
  unfold bodyConfigRead
  split
  · exact refuse8_kept h
  · exact finishSlot_kept h

theorem acceptConfigRead_kept {p : Packet} {s : State} (h : Kept z s) : Kept z (acceptConfigRead p s) :=
  acceptPacket_kept (fun _ _ hv => bodyConfigRead_kept hv) h

theorem execConfigRead_kept {p : Packet} {s : State} (h : Kept z s) : OutKept z (execConfigRead p s) :=
  packetOut_kept (fun _ => acceptConfigRead_kept) h

theorem stayInHold_kept {code : Nat} {s : State} (h : Kept z s) : Kept z (stayInHold code s) :=
  ite_kept (enterState_kept h) h

theorem bodyConfigCommit_kept {p : Packet} {idx : Nat} {s : State} (h : Kept z s) : Kept z (bodyConfigCommit p idx s) := by
  unfold bodyConfigCommit
  dsimp only
  split
  · exact refuse8_kept h
  · split
    · exact complete_kept (slotReady_kept (stayInHold_kept h))
    · exact complete_kept h

theorem acceptConfigCommit_kept {p : Packet} {s : State} (h : Kept z s) : Kept z (acceptConfigCommit p s) :=
  acceptPacket_kept (fun _ _ hv => bodyConfigCommit_kept hv) h

theorem execConfigCommit_kept {p : Packet} {s : State} (h : Kept z s) : OutKept z (execConfigCommit p s) :=
  packetOut_kept (fun _ => acceptConfigCommit_kept) h

theorem setTarget_kept {mhz : Nat} {s : State} (h : Kept z s) : Kept z (setTarget mhz s) :=
  ite_kept h h

theorem applyLive_kept {x : LiveSection} {s : State} (h : Kept z s) : Kept z (applyLive x s) :=
  ite_kept (setTarget_kept h) h

theorem askJoin_kept {gid : Nat} {s : State} (h : Kept z s) : Kept z (askJoin gid s) :=
  sendMsg_kept h

theorem takeRole_kept {role : Bool} {gid : Nat} {s : State} (h : Kept z s) : Kept z (takeRole role gid s) :=
  ite_kept (ite_kept h h) (askJoin_kept h)

/-- An event raised under a condition alone. -/
theorem raiseUnless_kept {c : Prop} [Decidable c] {bit : Nat} {s : State} (h : Kept z s) : Kept z (if c then s else raiseEvent bit s) :=
  ite_kept h (raiseEvent_kept h)

/-- The image that a commit applies: memory is erased or stays, the armour of four quadrants, the modes and ports of six (R3, R366). -/
theorem applyImage_kept {img : List Byte} {l : List Sec} {s : State} (h : Kept z s) : Kept z (applyImage img l s) := by
  refine setTarget_kept (enterState_kept (takeRole_kept (raiseUnless_kept ⟨fun hz => ?_, fun hz => ?_⟩)))
  · obtain ⟨hhbm, hhost⟩ := h.1 hz
    refine ⟨?_, hhost⟩
    dsimp only
    split
    · rfl
    · exact hhbm
  · obtain ⟨hports, hmodes, harmour, hdies, hskews⟩ := h.2 hz
    refine ⟨by simp, ?_, ?_, hdies, hskews⟩
    · dsimp only
      split
      · simp
      · exact hmodes
    · dsimp only
      split
      · simp
      · exact harmour

theorem execConfigCommitApplied_kept {s : State} (h : Kept z s) : OutKept z (execConfigCommitApplied s) := by
  unfold execConfigCommitApplied
  dsimp only
  split
  · split
    · exact gate_kept (finishPending_kept (applyImage_kept h))
    · exact gate_kept (finishPending_kept (stayInHold_kept h))
  · exact refused_kept

theorem bodyLiveSet_kept {p : Packet} {s : State} (h : Kept z s) : Kept z (bodyLiveSet p s) :=
  ite_kept (completeWith_kept h) (ite_kept (completeWith_kept h) (completeOk_kept (ite_kept h (applyLive_kept h))))

theorem acceptLiveSet_kept {p : Packet} {s : State} (h : Kept z s) : Kept z (acceptLiveSet p s) :=
  acceptPacket_kept (fun _ _ hv => bodyLiveSet_kept hv) h

theorem execLiveSet_kept {p : Packet} {s : State} (h : Kept z s) : OutKept z (execLiveSet p s) :=
  packetOut_kept (fun _ => acceptLiveSet_kept) h

theorem sendAll_kept {cls : Nat} {name : String} {args ranks : List Nat} {s : State} (h : Kept z s) : Kept z (sendAll cls name args ranks s) :=
  foldl_kept (fun _ _ hu => sendMsg_kept hu) h

theorem changeGroup_kept {recs : List GroupRec} {s : State} (h : Kept z s) : Kept z (changeGroup recs s) :=
  sendAll_kept (ite_kept h (sendMsg_kept h))

theorem settleJoins_kept {s : State} (h : Kept z s) : Kept z (settleJoins s) :=
  ite_kept (ite_kept (with_grp_kept (changeGroup_kept h)) (changeGroup_kept h)) h

theorem storeRing_kept {base size at' : Nat} {l : List Byte} {s : State} (h : Kept z s) : Kept z (storeRing base size at' l s) :=
  devStore_kept (devStore_kept h)

theorem storeManifest_kept {step : Nat} {s : State} (h : Kept z s) : Kept z (storeManifest step s) := by
  unfold storeManifest
  split
  · exact storeRing_kept h
  · exact h

theorem manRecord_kept {step type : Nat} {body : List Byte} {s : State} (h : Kept z s) : Kept z (manRecord step type body s) :=
  storeManifest_kept h

theorem moduleWrite_kept {c va : Nat} {l : List Byte} {s : State} (h : Kept z s) : Kept z (moduleWrite c va l s) := by
  unfold moduleWrite
  split
  next t he =>
    have ht := vaWrite_kept h _ he
    exact ht
  · exact moduleFault_kept h

theorem commitBatch_kept {step c : Nat} {s : State} (h : Kept z s) : Kept z (commitBatch step c s) := by
  unfold commitBatch
  dsimp only
  split
  · exact h
  · split
    · exact manRecord_kept (ctxMod_kept (moduleWrite_kept h))
    · exact h

theorem openStepWith_kept {recs : List ManRec} {step : Nat} {s : State} (h : Kept z s) : Kept z (openStepWith recs step s) :=
  foldl_kept (fun _ _ hu => commitBatch_kept hu) (storeManifest_kept h)

theorem openStep_kept {step : Nat} {s : State} (h : Kept z s) : Kept z (openStep step s) :=
  openStepWith_kept h

theorem bodyContextSet_kept {p : Packet} {s : State} (h : Kept z s) : Kept z (bodyContextSet p s) :=
  ite_kept (completeWith_kept h) (ite_kept (completeWith_kept h) (ite_kept (completeWith_kept h) (ite_kept (completeWith_kept h)
      (completeOk_kept h))))

theorem acceptContextSet_kept {p : Packet} {s : State} (h : Kept z s) : Kept z (acceptContextSet p s) :=
  acceptPacket_kept (fun _ _ hv => bodyContextSet_kept hv) h

theorem execContextSet_kept {p : Packet} {s : State} (h : Kept z s) : OutKept z (execContextSet p s) :=
  packetOut_kept (fun _ => acceptContextSet_kept) h

theorem bodyContextGet_kept {p : Packet} {idx : Nat} {s : State} (h : Kept z s) : Kept z (bodyContextGet p idx s) :=
  withCtx_kept h (fun _ => finishSlot_kept h)

theorem acceptContextGet_kept {p : Packet} {s : State} (h : Kept z s) : Kept z (acceptContextGet p s) :=
  acceptPacket_kept (fun _ _ hv => bodyContextGet_kept hv) h

theorem execContextGet_kept {p : Packet} {s : State} (h : Kept z s) : OutKept z (execContextGet p s) :=
  packetOut_kept (fun _ => acceptContextGet_kept) h

theorem bodyContextClear_kept {p : Packet} {s : State} (h : Kept z s) : Kept z (bodyContextClear p s) :=
  withCtx_kept h (fun _ => ite_kept (completeOpen_kept h) (ite_kept (completeWith_kept h) (completeOk_kept (settleIngest_kept h))))

theorem acceptContextClear_kept {p : Packet} {s : State} (h : Kept z s) : Kept z (acceptContextClear p s) :=
  acceptPacket_kept (fun _ _ hv => bodyContextClear_kept hv) h

theorem execContextClear_kept {p : Packet} {s : State} (h : Kept z s) : OutKept z (execContextClear p s) :=
  packetOut_kept (fun _ => acceptContextClear_kept) h

theorem applyScale_kept {c : Nat} {b : List Byte} {s : State} (h : Kept z s) : OkKept z (applyScale c b s) := by
  unfold applyScale
  dsimp only
  split
  · exact ite_okKept (ok_kept h) (initBlocks_kept h)
  · exact initBlocks_kept h

theorem faultScale_kept {p : Packet} {e : AccErr} {s : State} (h : Kept z s) : Kept z (faultScale p e s) :=
  faultWork_kept (countPoison_kept h)

theorem bodyScaleCreate_kept {p : Packet} {s : State} (h : Kept z s) : Kept z (bodyScaleCreate p s) := by
  refine withCtx_kept h (fun _ => ite_kept (completeWith_kept h) (ite_kept (completeWith_kept h) (ite_kept (completeWith_kept h)
      (ite_kept (completeOk_kept h) ?_))))
  split
  next t he =>
    have ht := applyScale_kept h _ he
    exact completeOk_kept ht
  · exact faultScale_kept h

theorem bodyScaleDelete_kept {p : Packet} {s : State} (h : Kept z s) : Kept z (bodyScaleDelete p s) := by
  refine withCtx_kept h (fun x => ?_)
  dsimp only
  split
  · exact completeWith_kept h
  · exact completeOk_kept (ctxMod_kept h)

theorem bodyScaleSet_kept {p : Packet} {s : State} (h : Kept z s) : Kept z (bodyScaleSet p s) :=
  ite_kept (bodyScaleDelete_kept h) (bodyScaleCreate_kept h)

theorem acceptScaleSet_kept {p : Packet} {s : State} (h : Kept z s) : Kept z (acceptScaleSet p s) :=
  acceptPacket_kept (fun _ _ hv => bodyScaleSet_kept hv) h

theorem execScaleSetCreateReplace_kept {p : Packet} {s : State} (h : Kept z s) : OutKept z (execScaleSetCreateReplace p s) :=
  ite_outKept refused_kept (packetOut_kept (fun _ => acceptScaleSet_kept) h)

theorem execScaleSetDelete_kept {p : Packet} {s : State} (h : Kept z s) : OutKept z (execScaleSetDelete p s) :=
  ite_outKept (packetOut_kept (fun _ => acceptScaleSet_kept) h) refused_kept

theorem execScaleRecordRemove_kept {c tensor : Nat} {s : State} (h : Kept z s) : OutKept z (execScaleRecordRemove c tensor s) := by
  unfold execScaleRecordRemove
  split
  · exact refused_kept
  · split
    · exact refused_kept
    · exact gate_kept h

theorem bodyScaleGet_kept {p : Packet} {idx : Nat} {s : State} (h : Kept z s) : Kept z (bodyScaleGet p idx s) := by
  refine withCtx_kept h (fun _ => ?_)
  split
  · exact refuse8_kept h
  · exact finishSlot_kept h

theorem acceptScaleGet_kept {p : Packet} {s : State} (h : Kept z s) : Kept z (acceptScaleGet p s) :=
  acceptPacket_kept (fun _ _ hv => bodyScaleGet_kept hv) h

theorem execScaleGet_kept {p : Packet} {s : State} (h : Kept z s) : OutKept z (execScaleGet p s) :=
  packetOut_kept (fun _ => acceptScaleGet_kept) h

theorem bodyGroupSet_kept {p : Packet} {s : State} (h : Kept z s) : Kept z (bodyGroupSet p s) :=
  withCtx_kept h (fun _ => completeOk_kept h)

theorem acceptGroupSet_kept {p : Packet} {s : State} (h : Kept z s) : Kept z (acceptGroupSet p s) :=
  acceptPacket_kept (fun _ _ hv => bodyGroupSet_kept hv) h

theorem execGroupSet_kept {p : Packet} {s : State} (h : Kept z s) : OutKept z (execGroupSet p s) :=
  packetOut_kept (fun _ => acceptGroupSet_kept) h

theorem bodyAstkSet_kept {p : Packet} {s : State} (h : Kept z s) : Kept z (bodyAstkSet p s) :=
  withCtx_kept h (fun _ => completeOk_kept h)

theorem acceptAstkSet_kept {p : Packet} {s : State} (h : Kept z s) : Kept z (acceptAstkSet p s) :=
  acceptPacket_kept (fun _ _ hv => bodyAstkSet_kept hv) h

theorem execAstkSet_kept {p : Packet} {s : State} (h : Kept z s) : OutKept z (execAstkSet p s) :=
  packetOut_kept (fun _ => acceptAstkSet_kept) h

theorem startJob_kept {step : Nat} {s : State} (h : Kept z s) : Kept z (startJob step s) :=
  openStep_kept (enterState_kept h)

theorem bodyJobStart_kept {p : Packet} {s : State} (h : Kept z s) : Kept z (bodyJobStart p s) :=
  ite_kept (completeOpen_kept h) (ite_kept (completeOpen_kept h) (ite_kept (completeWith_kept h)
      (completeOk_kept (startJob_kept (ite_kept (sendAll_kept (ite_kept (settleJoins_kept h) h)) (ite_kept (settleJoins_kept h) h))))))

theorem acceptJobStart_kept {p : Packet} {s : State} (h : Kept z s) : Kept z (acceptJobStart p s) :=
  acceptPacket_kept (fun _ _ hv => bodyJobStart_kept hv) h

theorem execJobStart_kept {p : Packet} {s : State} (h : Kept z s) : OutKept z (execJobStart p s) :=
  packetOut_kept (fun _ => acceptJobStart_kept) h

theorem bodyJobStop_kept {p : Packet} {s : State} (h : Kept z s) : Kept z (bodyJobStop p s) :=
  ite_kept (completeOpen_kept h) (ite_kept (completeOk_kept h) (completeOk_kept h))

theorem acceptJobStop_kept {p : Packet} {s : State} (h : Kept z s) : Kept z (acceptJobStop p s) :=
  acceptPacket_kept (fun _ _ hv => bodyJobStop_kept hv) h

theorem execJobStop_kept {p : Packet} {s : State} (h : Kept z s) : OutKept z (execJobStop p s) :=
  packetOut_kept (fun _ => acceptJobStop_kept) h

theorem bodyPtRootSet_kept {p : Packet} {s : State} (h : Kept z s) : Kept z (bodyPtRootSet p s) :=
  withCtx_kept h (fun _ => ite_kept (completeOpen_kept h) (ite_kept (completeWith_kept h) (completeOk_kept h)))

theorem acceptPtRootSet_kept {p : Packet} {s : State} (h : Kept z s) : Kept z (acceptPtRootSet p s) :=
  acceptPacket_kept (fun _ _ hv => bodyPtRootSet_kept hv) h

theorem execPtRootSet_kept {p : Packet} {s : State} (h : Kept z s) : OutKept z (execPtRootSet p s) :=
  packetOut_kept (fun _ => acceptPtRootSet_kept) h

theorem bodyTlbInvalidate_kept {p : Packet} {s : State} (h : Kept z s) : Kept z (bodyTlbInvalidate p s) :=
  withCtx_kept h (fun _ => h)

theorem acceptTlbInvalidate_kept {p : Packet} {s : State} (h : Kept z s) : Kept z (acceptTlbInvalidate p s) :=
  acceptPacket_kept (fun _ _ hv => bodyTlbInvalidate_kept hv) h

theorem execTlbInvalidate_kept {p : Packet} {s : State} (h : Kept z s) : OutKept z (execTlbInvalidate p s) :=
  packetOut_kept (fun _ => acceptTlbInvalidate_kept) h

theorem execTlbInvalidateComplete_kept {s : State} (h : Kept z s) : OutKept z (execTlbInvalidateComplete s) := by
  unfold execTlbInvalidateComplete
  dsimp only
  split
  · exact refused_kept
  · exact gate_kept (completeOk_kept h)

theorem bodySyncAlloc_kept {p : Packet} {s : State} (h : Kept z s) : Kept z (bodySyncAlloc p s) :=
  withCtx_kept h (fun _ => ite_kept (completeWith_kept h) (completeOk_kept h))

theorem acceptSyncAlloc_kept {p : Packet} {s : State} (h : Kept z s) : Kept z (acceptSyncAlloc p s) :=
  acceptPacket_kept (fun _ _ hv => bodySyncAlloc_kept hv) h

theorem execSyncAlloc_kept {p : Packet} {s : State} (h : Kept z s) : OutKept z (execSyncAlloc p s) :=
  packetOut_kept (fun _ => acceptSyncAlloc_kept) h

theorem bodySyncFree_kept {p : Packet} {s : State} (h : Kept z s) : Kept z (bodySyncFree p s) :=
  withCtx_kept h (fun _ => ite_kept (completeWith_kept h) (ite_kept (completeWith_kept h) (completeOk_kept h)))

theorem acceptSyncFree_kept {p : Packet} {s : State} (h : Kept z s) : Kept z (acceptSyncFree p s) :=
  acceptPacket_kept (fun _ _ hv => bodySyncFree_kept hv) h

theorem execSyncFree_kept {p : Packet} {s : State} (h : Kept z s) : OutKept z (execSyncFree p s) :=
  packetOut_kept (fun _ => acceptSyncFree_kept) h

theorem sendRemote_kept {r : Requester} {rank cell : Nat} {act : SyncAct} {s : State} (h : Kept z s) : Kept z (sendRemote r rank cell act s) :=
  sendMsg_kept h

theorem bodySyncOp_kept {p : Packet} {s : State} (h : Kept z s) : Kept z (bodySyncOp p s) :=
  withCtx_kept h (fun _ => ite_kept (completeWith_kept h) (ite_kept (syncApply_kept h) (sendRemote_kept h)))

theorem acceptSyncOp_kept {p : Packet} {s : State} (h : Kept z s) : Kept z (acceptSyncOp p s) :=
  acceptPacket_kept (fun _ _ hv => bodySyncOp_kept hv) h

theorem execSyncOp_kept {p : Packet} {s : State} (h : Kept z s) : OutKept z (execSyncOp p s) :=
  packetOut_kept (fun _ => acceptSyncOp_kept) h

theorem execRead_kept {r : Requester} {cell : Nat} {s : State} (h : Kept z s) : OutKept z (execRead r cell s) :=
  gate_kept (syncApply_kept h)

theorem execWrite_kept {r : Requester} {cell : Nat} {v : Word} {s : State} (h : Kept z s) : OutKept z (execWrite r cell v s) :=
  gate_kept (syncApply_kept h)

theorem execAdd_kept {r : Requester} {cell : Nat} {v : Word} {s : State} (h : Kept z s) : OutKept z (execAdd r cell v s) :=
  gate_kept (syncApply_kept h)

theorem execCas_kept {r : Requester} {cell : Nat} {c v : Word} {s : State} (h : Kept z s) : OutKept z (execCas r cell c v s) :=
  gate_kept (syncApply_kept h)

theorem execWaitEq_kept {r : Requester} {cell : Nat} {v : Word} {s : State} (h : Kept z s) : OutKept z (execWaitEq r cell v s) :=
  gate_kept (syncApply_kept h)

theorem execWaitGe_kept {r : Requester} {cell : Nat} {v : Word} {s : State} (h : Kept z s) : OutKept z (execWaitGe r cell v s) :=
  gate_kept (syncApply_kept h)

theorem execArrive_kept {r : Requester} {cell : Nat} {v t : Word} {s : State} (h : Kept z s) : OutKept z (execArrive r cell v t s) :=
  gate_kept (syncApply_kept h)

theorem deliverAll_kept {l : List Release} {s : State} (h : Kept z s) : Kept z (deliverAll l s) := by
  induction l generalizing s with
  | nil => exact h
  | cons r rs ih => exact ih (deliver_kept h)

theorem execWaitReleaseWave_kept {wave : Nat} {s : State} (h : Kept z s) : OutKept z (execWaitReleaseWave wave s) := by
  unfold execWaitReleaseWave
  dsimp only
  split
  · exact refused_kept
  · exact next_kept (deliverAll_kept h)

theorem presentHeld_kept {w : Wait} {s : State} (h : Kept z s) : Kept z (presentHeld w s) := by
  refine ite_kept (deliver_kept h) ?_
  split
  · exact h
  · exact h

theorem execWaitEntryFree_kept {die : Nat} {s : State} (h : Kept z s) : OutKept z (execWaitEntryFree die s) := by
  unfold execWaitEntryFree
  split
  · exact refused_kept
  · exact next_kept (presentHeld_kept h)

theorem execRemoteSyncReply_kept {seq : Nat} {value : Word} {s : State} (h : Kept z s) : OutKept z (execRemoteSyncReply seq value s) := by
  unfold execRemoteSyncReply
  dsimp only
  split
  · exact refused_kept
  · exact next_kept (deliver_kept h)

theorem recordStragglers_kept {step : Nat} {l : List LateEntry} {s : State} (h : Kept z s) : Kept z (recordStragglers step l s) :=
  manRecord_kept h

theorem sendDecision_kept {l : List LateEntry} {s : State} (h : Kept z s) : Kept z (sendDecision l s) :=
  sendAll_kept (ite_kept (with_grp_kept (recordStragglers_kept h)) (sendMsg_kept (with_grp_kept (recordStragglers_kept h))))

theorem decideIfReady_kept {s : State} (h : Kept z s) : Kept z (decideIfReady s) :=
  ite_kept (sendDecision_kept h) h

theorem takeHandover_kept {rank : Nat} {s : State} (h : Kept z s) : Kept z (takeHandover rank s) :=
  decideIfReady_kept h

theorem sendHandover_kept {s : State} (h : Kept z s) : Kept z (sendHandover s) :=
  ite_kept (takeHandover_kept h) (sendMsg_kept h)

theorem handoverIfOut_kept {s : State} (h : Kept z s) : Kept z (handoverIfOut s) :=
  ite_kept (sendHandover_kept h) h

theorem offerHandover_kept {s : State} (h : Kept z s) : Kept z (offerHandover s) :=
  ite_kept (sendHandover_kept h) h

theorem enterMuster_kept {s : State} (h : Kept z s) : Kept z (enterMuster s) :=
  ite_kept h (sendMsg_kept h)

theorem offerMuster_kept {s : State} (h : Kept z s) : Kept z (offerMuster s) :=
  ite_kept (enterMuster_kept h) h

theorem logStale_kept {us : List Nat} {e : Word} {s : State} (h : Kept z s) : Kept z (logStale us e s) :=
  foldl_kept (fun _ _ hu => logSkew_kept hu) h

theorem bodyDmaSubmit_kept {p : Packet} {s : State} (h : Kept z s) : Kept z (bodyDmaSubmit p s) := by
  refine withCtx_kept h (fun _ => ?_)
  split
  · exact complete_kept (ite_kept (logStale_kept h) h)
  · exact h

theorem acceptDmaSubmit_kept {p : Packet} {s : State} (h : Kept z s) : Kept z (acceptDmaSubmit p s) :=
  acceptPacket_kept (fun _ _ hv => bodyDmaSubmit_kept hv) h

theorem execDmaSubmit_kept {p : Packet} {s : State} (h : Kept z s) : OutKept z (execDmaSubmit p s) :=
  packetOut_kept (fun _ => acceptDmaSubmit_kept) h

theorem moveGranule_kept {c : Nat} {d : List Byte} {g : Granule} {s : State} (h : Kept z s) : OkKept z (moveGranule c d g s) := by
  refine ite_okKept ?_ ?_
  · split
    next t he =>
      have ht := vaWrite_kept h _ he
      exact ok_kept ht
    · exact error_kept
  · split
    · exact error_kept
    · split
      next t he =>
        have ht := vaWrite_kept h _ he
        exact ok_kept ht
      · exact error_kept

theorem moveGranules_kept {c : Nat} {d : List Byte} {gs : List Granule} {s : State} (h : Kept z s) : Kept z (moveGranules c d gs s).1 := by
  induction gs generalizing s with
  | nil => exact h
  | cons g r ih =>
    unfold moveGranules
    split
    · exact h
    · split
      · exact h
      next t he => exact ih (moveGranule_kept h _ he)

theorem runGranulesOn_kept {u c : Nat} {w : Work} {index count : Nat} {s : State} (h : Kept z s) : Kept z (runGranulesOn u c w index count s) := by
  unfold runGranulesOn
  dsimp only
  have hm := moveGranules_kept (c := c) (d := dmaBytes w.raw index)
    (gs := ((dmaGranules (dmaBytes w.raw index)).drop (((w.dma[index]?).map DmaRun.written).getD 0)).take count) h
  split
  · exact ctxMod_kept hm
  · split
    · exact faultWork_kept (countPoison_kept (ctxMod_kept hm))
    · exact countPoison_kept (ctxMod_kept hm)

theorem runDma_kept {c : Nat} {w : Work} {index count : Nat} {s : State} (h : Kept z s) : Kept z (runDma c w index count s) :=
  asUnit_kept (fun _ hv => runGranulesOn_kept hv) h

theorem dmaRow_kept {op c id index count : Nat} {s : State} (h : Kept z s) : OutKept z (dmaRow op c id index count s) := by
  unfold dmaRow
  dsimp only
  split
  · exact refused_kept
  · split
    · exact refused_kept
    · exact gate_kept (runDma_kept h)

theorem execCopy_kept {c id : Nat} {p : DmaPart} {s : State} (h : Kept z s) : OutKept z (execCopy c id p s) :=
  dmaRow_kept h

theorem execFill_kept {c id : Nat} {p : DmaPart} {s : State} (h : Kept z s) : OutKept z (execFill c id p s) :=
  dmaRow_kept h

theorem execCopy2d_kept {c id : Nat} {p : DmaPart} {s : State} (h : Kept z s) : OutKept z (execCopy2d c id p s) :=
  dmaRow_kept h

theorem finishDma_kept {c : Nat} {w : Work} {index : Nat} {s : State} (h : Kept z s) : Kept z (finishDma c w index s) :=
  ite_kept (finishWork_kept (ite_kept h h)) (ite_kept h h)

theorem execDmaGranuleWriteAck_kept {c id index granule : Nat} {s : State} (h : Kept z s) :
    OutKept z (execDmaGranuleWriteAck c id index granule s) := by
  unfold execDmaGranuleWriteAck
  dsimp only
  split
  · exact refused_kept
  · split
    · exact refused_kept
    · exact ite_outKept (next_kept (ite_kept (finishDma_kept h) h)) refused_kept

end

end Sys2Proof.Machine
end

section
/-! SUPPORT. What carries the invariants of every step through kernels and matrix arrays (06, 03). -/
namespace Sys2Proof.Machine

section
variable {z : State}

theorem noteMiss_kept {c l : Nat} {x : Ctx} {w : Work} {s : State} (h : Kept z s) : Kept z (noteMiss c l x w s) :=
  ite_kept h h

theorem noteBack_kept {c : Nat} {x : Ctx} {w : Work} {s : State} (h : Kept z s) : Kept z (noteBack c x w s) :=
  ite_kept h h

theorem placeKernel_kept {c : Nat} {w : Work} {s : State} (h : Kept z s) : Kept z (placeKernel c w s) := by
  unfold placeKernel
  dsimp only
  split
  · exact h
  · split
    · exact faultWork_kept h
    · exact noteBack_kept h

theorem bodyKernel_kept {p : Packet} {s : State} (h : Kept z s) : Kept z (bodyKernel p s) := by
  refine withCtx_kept h (fun x => ?_)
  dsimp only
  split
  · exact complete_kept h
  · exact placeKernel_kept h

theorem acceptKernel_kept {p : Packet} {s : State} (h : Kept z s) : Kept z (acceptKernel p s) :=
  acceptPacket_kept (fun _ _ hv => bodyKernel_kept hv) h

theorem execKernelDispatch_kept {p : Packet} {s : State} (h : Kept z s) : OutKept z (execKernelDispatch p s) :=
  packetOut_kept (fun _ => acceptKernel_kept) h

theorem logStaleClusters_kept {l : List (Nat × Nat)} {e : Word} {s : State} (h : Kept z s) : Kept z (logStaleClusters l e s) :=
  foldl_kept (fun _ _ hu => logSkew_kept hu) h

theorem endWork_kept {c : Nat} {w : Work} {status : Nat} {detail : Option Nat} {s : State} (h : Kept z s) : Kept z (endWork c w status detail s) :=
  offerMuster_kept (offerHandover_kept (finishWork_kept h))

theorem noteBegun_kept {x : Ctx} {w : Work} {s : State} (h : Kept z s) : Kept z (noteBegun x w s) :=
  ite_kept h (ite_kept h h)

theorem noteStripes_kept {c : Nat} {w : Work} {s : State} (h : Kept z s) : Kept z (noteStripes c w s) :=
  ite_kept h h

theorem issueWork_kept {c : Nat} {x : Ctx} {w : Work} {s : State} (h : Kept z s) : Kept z (issueWork c x w s) := by
  unfold issueWork
  dsimp only
  split
  · exact endWork_kept (logStaleClusters_kept h)
  · exact noteBegun_kept (noteStripes_kept h)

theorem execDescriptorIssue_kept {c id : Nat} {s : State} (h : Kept z s) : OutKept z (execDescriptorIssue c id s) := by
  unfold execDescriptorIssue
  split
  · exact refused_kept
  · split
    · exact refused_kept
    · exact gate_kept (issueWork_kept h)

theorem execDeferredIdleIssue_kept {c id : Nat} {s : State} (h : Kept z s) : OutKept z (execDeferredIdleIssue c id s) := by
  unfold execDeferredIdleIssue
  split
  · exact refused_kept
  · split
    · exact refused_kept
    · exact gate_kept (issueWork_kept h)

theorem completeKernel_kept {c : Nat} {w : Work} {s : State} (h : Kept z s) : Kept z (completeKernel c w s) :=
  endWork_kept (ite_kept h h)

theorem execKernelComplete_kept {c id : Nat} {s : State} (h : Kept z s) : OutKept z (execKernelComplete c id s) := by
  unfold execKernelComplete
  split
  · exact refused_kept
  · split
    · exact refused_kept
    · exact gate_kept (completeKernel_kept h)

theorem faultAt_kept {c id unit resume : Nat} {e : AccErr} {acc : Access} {s : State} (h : Kept z s) : Kept z (faultAt c id unit resume e acc s) := by
  unfold faultAt
  dsimp only
  split
  · exact faultWork_kept (countPoison_kept h)
  · exact countPoison_kept h

theorem onCluster_kept {w : Work} {f : State → State} {s : State} (hf : ∀ y0, Kept z y0 → Kept z (f y0)) (h : Kept z s) : Kept z (onCluster w f s) :=
  asUnit_kept (fun _ hv => hf _ hv) h

theorem faultKernel_kept {c : Nat} {w : Work} {resume : Nat} {e : AccErr} {acc : Access} {s : State} (h : Kept z s) :
    Kept z (faultKernel c w resume e acc s) := by
  unfold faultKernel
  split
  · exact faultAt_kept h
  · exact faultAt_kept h

theorem writeFrame_kept {c : Nat} {x : Ctx} {w : Work} {s : State} (h : Kept z s) : OkKept z (writeFrame c x w s) := by
  refine ite_okKept ?_ (ok_kept h)
  split
  · exact vaWrite_kept h
  · exact ok_kept h

theorem startArrays_kept {c : Nat} {x : Ctx} {w : Work} {s : State} (h : Kept z s) : Kept z (startArrays c x w s) := by
  unfold startArrays
  split
  · exact faultKernel_kept h
  next t he =>
    have ht := writeFrame_kept h _ he
    split
    · exact faultKernel_kept ht
    · exact ht

theorem kernelRow_kept {op c id : Nat} {run : Ctx → Work → State → State} {s : State} (hf : ∀ y0 y1 y2, Kept z y2 → Kept z (run y0 y1 y2))
    (h : Kept z s) :
    OutKept z (kernelRow op c id run s) := by
  unfold kernelRow
  split
  · exact refused_kept
  · split
    · exact refused_kept
    · exact gate_kept (withRecords_kept (fun _ hv => onCluster_kept (fun _ hv => hf _ _ _ hv) hv) h)

theorem execMatmul_kept {c id : Nat} {s : State} (h : Kept z s) : OutKept z (execMatmul c id s) :=
  kernelRow_kept (fun _ _ _ hv => startArrays_kept hv) h

theorem execConv_kept {c id : Nat} {s : State} (h : Kept z s) : OutKept z (execConv c id s) :=
  kernelRow_kept (fun _ _ _ hv => startArrays_kept hv) h

theorem execConvT_kept {c id : Nat} {s : State} (h : Kept z s) : OutKept z (execConvT c id s) :=
  kernelRow_kept (fun _ _ _ hv => startArrays_kept hv) h

theorem startChain_kept {c : Nat} {x : Ctx} {w : Work} {chain l g : Nat} {s : State} (h : Kept z s) : Kept z (startChain c x w chain l g s) :=
  ite_kept h h

theorem execChainStart_kept {c id chain l g : Nat} {s : State} (h : Kept z s) : OutKept z (execChainStart c id chain l g s) := by
  unfold execChainStart
  split
  · exact refused_kept
  · split
    · exact refused_kept
    · exact gate_kept (startChain_kept h)

theorem withRun_kept {l g : Nat} {s : State} {ok : ChainRun → Running → Bool} {f : ChainRun → Running → State → State} (h : Kept z s) (hf : ∀ y0 y1
    y2, Kept z y2 → Kept z (f y0 y1 y2)) :
    OutKept z (withRun l g s ok f) := by
  unfold withRun
  split
  · exact refused_kept
  · split
    · exact refused_kept
    · exact gate_kept (withRecords_kept (fun _ hv => asUnit_kept (fun _ hv => hf _ _ _ hv) hv) h)

theorem faultChain_kept {l : Nat} {r : ChainRun} {e : AccErr} {acc : Access} {s : State} (h : Kept z s) : Kept z (faultChain l r e acc s) :=
  faultAt_kept h

theorem loadTile_kept {l g : Nat} {r : ChainRun} {k : Running} {s : State} (h : Kept z s) : Kept z (loadTile l g r k s) := by
  unfold loadTile
  dsimp only
  split
  · exact faultChain_kept h
  · exact h

theorem execShadowLoadComplete_kept {l g : Nat} {s : State} (h : Kept z s) : OutKept z (execShadowLoadComplete l g s) :=
  withRun_kept h (fun _ _ _ hv => loadTile_kept hv)

theorem swapTile_kept {l g : Nat} {r : ChainRun} {k : Running} {s : State} (h : Kept z s) : Kept z (swapTile l g r k s) := by
  unfold swapTile
  dsimp only
  split
  · exact h
  · split
    · exact faultChain_kept h
    · exact ite_kept (noteMiss_kept h) (noteMiss_kept h)

theorem execSwapToken_kept {l g : Nat} {s : State} (h : Kept z s) : OutKept z (execSwapToken l g s) :=
  withRun_kept h (fun _ _ _ hv => swapTile_kept hv)

theorem execChainComplete_kept {l g : Nat} {s : State} (h : Kept z s) : OutKept z (execChainComplete l g s) :=
  withRun_kept h (fun _ _ _ hv => hv)

theorem partDone_kept {c : Nat} {w : Work} {part : Nat} {h : Held} {s : State} (hs : Kept z s) : Kept z (partDone c w part h s) :=
  mergeHeld_kept hs

theorem drainSet_kept {l g : Nat} {r : ChainRun} {k : Running} {s : State} (h : Kept z s) : Kept z (drainSet l g r k s) := by
  unfold drainSet
  dsimp only
  split
  · exact faultChain_kept h
  next t _ _ he =>
    have ht := writeElems_kept h _ he
    exact partDone_kept (ite_kept ht ht)

theorem execDrainComplete_kept {l g : Nat} {s : State} (h : Kept z s) : OutKept z (execDrainComplete l g s) := by
  unfold execDrainComplete
  split
  · exact refused_kept
  · split
    · exact refused_kept
    · exact gate_kept (withRecords_kept (fun _ hv => asUnit_kept (fun _ hv => drainSet_kept hv) hv) h)

theorem discardRun_kept {l g : Nat} {s : State} (h : Kept z s) : Kept z (discardRun l g s) := by
  unfold discardRun
  split
  · exact h
  · exact h

theorem discardDrain_kept {l g : Nat} {s : State} (h : Kept z s) : Kept z (discardDrain l g s) := by
  unfold discardDrain
  split
  · exact h
  · exact h

theorem noteAbandoned_kept {l : Nat} {r : Option ChainRun} {s : State} (h : Kept z s) : Kept z (noteAbandoned l r s) := by
  unfold noteAbandoned
  split
  · exact h
  · exact h

theorem abandonGang_kept {l g : Nat} {s : State} (h : Kept z s) : Kept z (abandonGang l g s) :=
  noteAbandoned_kept (noteAbandoned_kept (discardDrain_kept (discardRun_kept h)))

theorem discardCluster_kept {l : Nat} {s : State} (h : Kept z s) : Kept z (discardCluster l s) :=
  foldl_kept (fun _ _ hu => abandonGang_kept hu) h

theorem abandonCluster_kept {p : Nat} {s : State} (h : Kept z s) : Kept z (abandonCluster p s) :=
  foldl_kept (fun _ _ hu => discardCluster_kept hu) h

theorem stopGangs_kept {c : Nat} {s : State} (h : Kept z s) : Kept z (stopGangs c s) := by
  refine foldl_kept (fun _ _ hu => discardRun_kept hu) (foldl_kept (fun _ _ hu => ?_) h)
  split
  · exact hu
  · split
    · exact hu
    · exact withRecords_kept (fun _ hv => drainSet_kept hv) hu

theorem execHaloStamp_kept {c id stripe : Nat} {done : Bool} {s : State} (h : Kept z s) : OutKept z (execHaloStamp c id stripe done s) := by
  unfold execHaloStamp
  dsimp only
  split
  · exact refused_kept
  · split
    · exact refused_kept
    · split
      · exact refused_kept
      · exact gate_kept (ite_kept h h)

end

end Sys2Proof.Machine
end

section
/-! SUPPORT. What carries the invariants of every step through fabric ports, vector granules and collectives (11, 05). -/
namespace Sys2Proof.Machine

section
variable {z : State}

theorem freeBytes_kept {n : Nat} {s : State} (h : Kept z s) : Kept z (freeBytes n s).2 := by
  induction n generalizing s with
  | zero => exact h
  | succ n ih => exact ih h

theorem portMod_kept {k : Nat} {f : Port → Port} {s : State} (h : Kept z s) : Kept z (portMod k f s) :=
  kept_of_sizes h rfl (by simp [sizes, portMod])

theorem laneSets_kept {live : Bool} {s : State} (h : Kept z s) : Kept z (laneSets live s).2 := by
  refine foldl_snd_kept (fun a kl ha => ?_) h
  dsimp only
  exact freeBytes_kept ha

theorem laneCounts_kept {s : State} (h : Kept z s) : Kept z (laneCounts s).2 := by
  refine foldl_snd_kept (fun a kl ha => ?_) h
  dsimp only
  exact freeBytes_kept ha

theorem measuredPorts_kept {s : State} (h : Kept z s) : Kept z (measuredPorts s).2 := by
  refine foldl_snd_kept (fun a p ha => ?_) h
  dsimp only
  exact freeBytes_kept ha

theorem latchPorts_kept {s : State} (h : Kept z s) : Kept z (latchPorts s) :=
  kept_of_sizes (laneCounts_kept (measuredPorts_kept h)) rfl (by simp [sizes, latchPorts])

theorem bodyPortStatus_kept {p : Packet} {idx : Nat} {s : State} (h : Kept z s) : Kept z (bodyPortStatus p idx s) :=
  finishSlot_kept (laneSets_kept (measuredPorts_kept h))

theorem acceptPortStatus_kept {p : Packet} {s : State} (h : Kept z s) : Kept z (acceptPortStatus p s) :=
  acceptPacket_kept (fun _ _ hv => bodyPortStatus_kept hv) h

theorem execPortStatusGet_kept {p : Packet} {s : State} (h : Kept z s) : OutKept z (execPortStatusGet p s) :=
  packetOut_kept (fun _ => acceptPortStatus_kept) h

theorem decideUnits_kept {l : List (Nat × UnitState)} {s : State} (h : Kept z s) : Kept z (decideUnits l s) :=
  ite_kept h (decideChange_kept h)

theorem reportPort_kept {k : Nat} {s : State} (h : Kept z s) : Kept z (reportPort k s) :=
  ite_kept (sendMsg_kept h) h

theorem execPortTraining_kept {k : Nat} {s : State} (h : Kept z s) : OutKept z (execPortTraining k s) :=
  gate_kept (ite_kept (decideUnits_kept (portMod_kept h)) (portMod_kept h))

theorem sendQueued_kept {k : Nat} {s : State} (h : Kept z s) : Kept z (sendQueued k s) :=
  kept_of_sizes h rfl (by simp [sizes, sendQueued])

theorem execPortTrainingComplete_kept {k : Nat} {peer : PeerFound} {lanes : List LaneFound} {s : State} (h : Kept z s) :
    OutKept z (execPortTrainingComplete k peer lanes s) :=
  gate_kept (reportPort_kept (decideUnits_kept (sendQueued_kept (portMod_kept h))))

theorem replayAll_kept {k : Nat} {s : State} (h : Kept z s) : Kept z (replayAll k s) := by
  unfold replayAll
  split
  · exact h
  · exact h

theorem portGoesDown_kept {k : Nat} {s : State} (h : Kept z s) : Kept z (portGoesDown k s) := by
  refine reportPort_kept (kept_of_sizes h rfl ?_)
  simp only [sizes, portMod]
  rw [foldl_emit_ports_length (fun f => f), lmod_length]

theorem narrowPort_kept {k lane : Nat} {s : State} (h : Kept z s) : Kept z (narrowPort k lane s) :=
  ite_kept (portGoesDown_kept (portMod_kept h)) (replayAll_kept (portMod_kept (portMod_kept h)))

theorem execLaneFailure_kept {k lane : Nat} {s : State} (h : Kept z s) : OutKept z (execLaneFailure k lane s) :=
  gate_kept (narrowPort_kept (decideUnits_kept (sendMsg_kept h)))

theorem execLaneDownReceive_kept {k lane : Nat} {s : State} (h : Kept z s) : OutKept z (execLaneDownReceive k lane s) :=
  gate_kept (narrowPort_kept h)

theorem execPortDown_kept {k : Nat} {s : State} (h : Kept z s) : OutKept z (execPortDown k s) :=
  gate_kept (portGoesDown_kept (noteSoft_kept h))

theorem acceptFlit_kept {k : Nat} {f : Flit} {s : State} (h : Kept z s) : Kept z (acceptFlit k f s) := by
  have hp := portMod_kept (k := k) (f := fun x => { x with rxSeq := (x.rxSeq + 1) % 65536, refusing := false }) h
  exact ite_kept hp (ite_kept (kept_of_sizes hp rfl (by simp [sizes])) hp)

theorem takeAck_kept {k ack : Nat} {s : State} (h : Kept z s) : Kept z (takeAck k ack s) :=
  kept_of_sizes h rfl (by simp [sizes, takeAck, portMod])

theorem execFlitReceive_kept {k : Nat} {i : FlitIn} {s : State} (h : Kept z s) : OutKept z (execFlitReceive k i s) :=
  gate_kept (ite_kept (portMod_kept h) (ite_kept (acceptFlit_kept (takeAck_kept h)) (takeAck_kept h)))

theorem execFlitReplay_kept {k seq : Nat} {s : State} (h : Kept z s) : OutKept z (execFlitReplay k seq s) :=
  gate_kept (portMod_kept (noteSoft_kept h))

theorem execRocePacketReceive_kept {k qp : Nat} {op : RoceOp} {ecnCe : Bool} {timeUs : Nat} {s : State} (h : Kept z s) :
    OutKept z (execRocePacketReceive k qp op ecnCe timeUs s) :=
  gate_kept (ite_kept (sendMsg_kept (portMod_kept (ite_kept h (sendMsg_kept (portMod_kept h))))) (ite_kept h (sendMsg_kept (portMod_kept h))))

theorem execCnpReceive_kept {k qp : Nat} {s : State} (h : Kept z s) : OutKept z (execCnpReceive k qp s) :=
  gate_kept (portMod_kept h)

theorem execSendRateRise_kept {k qp : Nat} {s : State} (h : Kept z s) : OutKept z (execSendRateRise k qp s) :=
  gate_kept (portMod_kept h)

theorem runGranule_kept {c : Nat} {w : Work} {o : OutSpec} {f : State → Nat → Except AccErr (OutVal × Nat)} {g : Nat} {ids : List Nat} {s : State}
    (h : Kept z s) :
    OkKept z (runGranule c w o f g ids s) := by
  unfold runGranule
  split
  · exact error_kept
  · split
    · exact error_kept
    next t _ _ he =>
      have ht := writeElems_kept h _ he
      exact ok_kept ht

theorem runGranules_kept {c : Nat} {w : Work} {o : OutSpec} {f : State → Nat → Except AccErr (OutVal × Nat)} {total per n g : Nat} {s : State}
    (h : Kept z s) : Kept z (runGranules c w o f total per n g s).1 := by
  induction n generalizing g s with
  | zero => exact h
  | succ n ih =>
    unfold runGranules
    split
    · exact h
    next t he => exact ih (runGranule_kept h _ he)

theorem runVector_kept {c : Nat} {x : Ctx} {w : Work} {o : OutSpec} {total : Nat} {f : State → Nat → Except AccErr (OutVal × Nat)} {s : State}
    (h : Kept z s) :
    Kept z (runVector c x w o total f s) := by
  unfold runVector
  dsimp only
  split
  · exact faultKernel_kept h
  next t he =>
    have ht := writeFrame_kept h _ he
    split
    next t he =>
      have ht := fst_kept he (runGranules_kept ht)
      exact ht
    next t _ _ _ he =>
      have ht := fst_kept he (runGranules_kept ht)
      exact faultKernel_kept ht

theorem keepGranule_kept {c : Nat} {w : Work} {mine : List Held} {s : State} (h : Kept z s) : Kept z (keepGranule c w mine s) :=
  ite_kept h h

theorem execVectorGranuleComplete_kept {c id granule : Nat} {s : State} (h : Kept z s) : OutKept z (execVectorGranuleComplete c id granule s) := by
  unfold execVectorGranuleComplete
  dsimp only
  split
  · exact refused_kept
  · exact gate_kept (withRecords_kept (fun _ hv => foldl_kept (fun _ _ hu => mergeHeld_kept hu) (keepGranule_kept hv)) h)

theorem runList_kept {one : Nat → List Nat → State → Except (AccErr × Access) State} {l : List (Nat × Nat × List Nat)} {s : State}
    (hf : ∀ g ids t, Kept z t → OkKept z (one g ids t)) (h : Kept z s) : Kept z (runList one l s).1 := by
  induction l generalizing s with
  | nil => exact h
  | cons e r ih =>
    unfold runList
    split
    · exact h
    next t he => exact ih (hf _ _ _ h _ he)

theorem runStripes_kept {c : Nat} {x : Ctx} {w : Work} {planes per : Nat} {one : Nat → List Nat → State → Except (AccErr × Access) State}
    {s : State} (hf : ∀ g ids t, Kept z t → OkKept z (one g ids t)) (h : Kept z s) : Kept z (runStripes c x w planes per one s) := by
  unfold runStripes
  split
  · exact faultKernel_kept h
  next t he =>
    have ht : Kept z t := ite_okKept (ok_kept h) (writeFrame_kept h) _ he
    dsimp only
    split
    next u hu => exact ctxMod_kept (fst_kept hu (runList_kept hf ht))
    next u g e a hu => exact faultKernel_kept (ctxMod_kept (fst_kept hu (runList_kept hf ht)))

theorem slidingRow_kept {op c id : Nat} {run : Ctx → Work → State → State} {s : State} (hf : ∀ y0 y1 y2, Kept z y2 → Kept z (run y0 y1 y2))
    (h : Kept z s) :
    OutKept z (slidingRow op c id run s) := by
  unfold slidingRow
  split
  · exact refused_kept
  · split
    · exact refused_kept
    · exact gate_kept (withRecords_kept (fun _ hv => onCluster_kept (fun _ hv => hf _ _ _ hv) hv) h)

theorem runPool_kept {f : State → Nat → Except AccErr (OutVal × Nat)} {c : Nat} {x : Ctx} {w : Work} {s : State} (h : Kept z s) :
    Kept z (runPool f c x w s) :=
  runStripes_kept (fun _ _ _ hv => runGranule_kept hv) h

theorem execPoolMax_kept {c id : Nat} {s : State} (h : Kept z s) : OutKept z (execPoolMax c id s) :=
  slidingRow_kept (fun _ _ _ hv => runPool_kept hv) h

theorem execPoolAvg_kept {c id : Nat} {s : State} (h : Kept z s) : OutKept z (execPoolAvg c id s) :=
  slidingRow_kept (fun _ _ _ hv => runPool_kept hv) h

theorem argmaxWrite_kept {c : Nat} {w : Work} {l : List Nat} {fl : Nat} {s : State} (h : Kept z s) : OkFstKept z (argmaxWrite c w l fl s) := by
  induction l generalizing fl s with
  | nil => exact okFst_kept h
  | cons i r ih =>
    unfold argmaxWrite
    split
    · exact errorFst_kept
    · split
      · exact errorFst_kept
      next t he => exact ih (vaWrite_kept h _ he)

theorem argmaxGranule_kept {c : Nat} {w : Work} {g : Nat} {ids : List Nat} {s : State} (h : Kept z s) : OkKept z (argmaxGranule c w g ids s) := by
  unfold argmaxGranule
  split
  · exact error_kept
  next t _ he =>
    have ht := argmaxWrite_kept h _ he
    exact ok_kept ht

theorem runArgmax_kept {c : Nat} {x : Ctx} {w : Work} {s : State} (h : Kept z s) : Kept z (runArgmax c x w s) :=
  runStripes_kept (fun _ _ _ hv => argmaxGranule_kept hv) h

theorem execArgmaxC_kept {c id : Nat} {s : State} (h : Kept z s) : OutKept z (execArgmaxC c id s) :=
  slidingRow_kept (fun _ _ _ hv => runArgmax_kept hv) h

theorem runGather_kept {c : Nat} {x : Ctx} {w : Work} {s : State} (h : Kept z s) : Kept z (runGather c x w s) :=
  ite_kept (endWork_kept h) (runVector_kept h)

theorem execGatherSum_kept {c id : Nat} {s : State} (h : Kept z s) : OutKept z (execGatherSum c id s) :=
  kernelRow_kept (fun _ _ _ hv => runGather_kept hv) h

theorem bodyColl_kept {p : Packet} {s : State} (h : Kept z s) : Kept z (bodyColl p s) := by
  refine withCtx_kept h (fun x => ?_)
  dsimp only
  split
  · exact complete_kept h
  · exact h

theorem acceptColl_kept {p : Packet} {s : State} (h : Kept z s) : Kept z (acceptColl p s) :=
  acceptPacket_kept (fun _ _ hv => bodyColl_kept hv) h

theorem execCollectiveSubmit_kept {p : Packet} {s : State} (h : Kept z s) : OutKept z (execCollectiveSubmit p s) :=
  packetOut_kept (fun _ => acceptColl_kept) h

theorem copyCodes_kept {c : Nat} {w : Work} {s : State} {v : WatchLive} {l : List (Nat × CollElem)} (h : Kept z s) :
    OkFstKept z (copyCodes c w s v l) := by
  induction l generalizing s v with
  | nil => exact okFst_kept h
  | cons e r ih =>
    unfold copyCodes
    split
    · exact errorFst_kept
    next t he =>
      have ht : Kept z t := vaWrite_kept h _ he
      split
      · exact ih ht
      · split
        · exact errorFst_kept
        next u hu =>
          exact ih (bind_okKept (touchBlock_kept ht) (fun _ ha => vaWrite_kept ha) _ hu)

theorem writeChunk_kept {c : Nat} {w : Work} {r : CollResult} {s : State} (h : Kept z s) : OkFstKept z (writeChunk c w r s) := by
  refine ite_okFstKept ?_ (writeElems_kept h)
  split
  · exact errorFst_kept
  next t _ he =>
    have ht := copyCodes_kept h _ he
    exact okFst_kept ht

theorem holdColl_kept {c gen : Nat} {w : Work} {s : State} (h : Kept z s) : Kept z (holdColl c gen w s) := by
  refine foldl_kept (fun u e hu => ?_) h
  exact kept_of_sizes hu rfl rfl

theorem commitHeld_kept {s : State} {u : Uncommitted} (h : Kept z s) : Kept z (commitHeld s u) :=
  mergeHeld_kept h

theorem commitCounts_kept {step : Nat} {s : State} (h : Kept z s) : Kept z (commitCounts step s) :=
  foldl_kept (fun _ _ hu => commitHeld_kept hu) h

theorem leaveFlight_kept {c id : Nat} {f : Coll} {s : State} (h : Kept z s) : Kept z (leaveFlight c id f s) :=
  ite_kept h h

theorem finishColl_kept {c id : Nat} {s : State} (h : Kept z s) : Kept z (finishColl c id s) := by
  unfold finishColl
  dsimp only
  split
  · exact ite_kept (endWork_kept (ite_kept (leaveFlight_kept (holdColl_kept h)) (with_colls_kept (leaveFlight_kept (holdColl_kept h))))) h
  · exact h

theorem faultColl_kept {c id : Nat} {e : AccErr} {acc : Access} {s : State} (h : Kept z s) : Kept z (faultColl c id e acc s) :=
  faultAt_kept h

theorem takeResult_keeps {r : CollResult} {s : State} (h : Kept z s) : Kept z (takeResult r s) := by
  unfold takeResult
  dsimp only
  split
  · exact h
  · refine ite_kept h (ite_kept h ?_)
    split
    · exact faultColl_kept h
    next t _ _ he =>
      have ht := writeChunk_kept h _ he
      exact finishColl_kept ht

theorem takeKept_kept {collId step : Nat} {s : State} (h : Kept z s) : Kept z (takeKept collId step s) :=
  foldl_kept (fun _ _ hu => takeResult_keeps hu) h

theorem sendResult_kept {r : CollResult} {s : State} {rank : Nat} (h : Kept z s) : Kept z (sendResult r s rank) :=
  ite_kept (takeResult_keeps h) (sendMsg_kept h)

theorem raiseColl_kept {collId step f : Nat} {s : State} (h : Kept z s) : Kept z (raiseColl collId step f s) := by
  unfold raiseColl
  split
  · exact h
  · exact h

theorem formChunk_kept {g : CollSig} {s : State} {k : Nat} (h : Kept z s) : Kept z (formChunk g s k) := by
  refine ite_kept h ?_
  split
  · exact h
  · exact foldl_kept (fun _ _ hu => sendResult_kept hu) (raiseColl_kept h)

theorem formChunks_kept {g : CollSig} {s : State} (h : Kept z s) : Kept z (formChunks g s) :=
  ite_kept h (foldl_kept (fun _ _ hu => formChunk_kept hu) h)

theorem formAll_kept {s : State} (h : Kept z s) : Kept z (formAll s) :=
  foldl_kept (fun _ _ hu => formChunks_kept hu) h

theorem enterChunk_kept {rank collId step gen k : Nat} {data : List CollElem} {s : State} (h : Kept z s) :
    Kept z (enterChunk rank collId step gen k data s) := by
  unfold enterChunk
  dsimp only
  split
  · exact h
  · exact h
  · exact h

theorem sendChunk_kept {c : Nat} {w : Work} {ranks : List Nat} {s : State} {e : Nat × List CollElem} (h : Kept z s) :
    Kept z (sendChunk c w ranks s e) :=
  ite_kept (foldl_kept (fun _ _ hu => sendResult_kept hu) h) (ite_kept (enterChunk_kept h) (sendMsg_kept h))

theorem sendSlices_kept {collId step : Nat} {s : State} (h : Kept z s) : Kept z (sendSlices collId step s) := by
  unfold sendSlices
  split
  · exact h
  · split
    · refine ite_kept h ?_
      split
      · exact faultColl_kept h
      · exact foldl_kept (fun _ _ hu => sendChunk_kept hu) h
    · exact h

theorem goOn_kept {collId step : Nat} {s : State} (h : Kept z s) : Kept z (goOn collId step s) :=
  takeKept_kept (sendSlices_kept h)

theorem endMismatched_kept {c : Nat} {w : Work} {s : State} (h : Kept z s) : Kept z (endMismatched c w s) :=
  endWork_kept h

theorem mismatchColl_kept {rank : Nat} {g : CollSig} {s : State} (h : Kept z s) : Kept z (mismatchColl rank g s) := by
  refine ite_kept h ?_
  dsimp only
  split
  · exact endMismatched_kept (sendAll_kept h)
  · exact sendAll_kept h

theorem settleSig_kept {g : CollSig} {s : State} (h : Kept z s) : Kept z (settleSig g s) :=
  goOn_kept (formChunks_kept h)

theorem takeSignature_kept {rank : Nat} {g : CollSig} {s : State} (h : Kept z s) : Kept z (takeSignature rank g s) :=
  ite_kept h (ite_kept (mismatchColl_kept h) (settleSig_kept h))

theorem execCollectiveSignature_kept {rank : Nat} {sig : CollSig} {s : State} (h : Kept z s) : OutKept z (execCollectiveSignature rank sig s) :=
  gate_kept (takeSignature_kept h)

theorem startColl_kept {c : Nat} {w : Work} {s : State} (h : Kept z s) : Kept z (startColl c w s) := by
  unfold startColl
  dsimp only
  split
  · exact endWork_kept (foldl_kept (fun _ _ hu => logSkew_kept hu) h)
  · refine ite_kept (endMismatched_kept h) ?_
    split
    · exact endWork_kept h
    · split
      · exact faultColl_kept h
      · exact ite_kept (takeSignature_kept (sendAll_kept h))
          (handoverIfOut_kept (finishColl_kept (takeKept_kept (formChunks_kept (ite_kept (takeSignature_kept (sendAll_kept h))
          (foldl_kept (fun _ _ hu => sendChunk_kept hu) (takeSignature_kept (sendAll_kept h))))))))

theorem collRow_kept {op c id : Nat} {s : State} (h : Kept z s) : OutKept z (collRow op c id s) := by
  unfold collRow
  split
  · exact refused_kept
  · split
    · exact refused_kept
    · exact gate_kept (withRecords_kept (fun _ hv => startColl_kept hv) h)

theorem execReduce_kept {c id : Nat} {s : State} (h : Kept z s) : OutKept z (execReduce c id s) :=
  collRow_kept h

theorem execAllReduce_kept {c id : Nat} {s : State} (h : Kept z s) : OutKept z (execAllReduce c id s) :=
  collRow_kept h

theorem execAllGather_kept {c id : Nat} {s : State} (h : Kept z s) : OutKept z (execAllGather c id s) :=
  collRow_kept h

theorem execReduceScatter_kept {c id : Nat} {s : State} (h : Kept z s) : OutKept z (execReduceScatter c id s) :=
  collRow_kept h

theorem execBroadcast_kept {c id : Nat} {s : State} (h : Kept z s) : OutKept z (execBroadcast c id s) :=
  collRow_kept h

theorem byGen_kept {gen : Nat} {take : State → State} {s : State} (hf : ∀ y0, Kept z y0 → Kept z (take y0)) (h : Kept z s) :
    Kept z (byGen gen take s) :=
  ite_kept h (ite_kept h (hf _ h))

theorem takeChunk_kept {rank collId step gen k : Nat} {data : List CollElem} {x6 : State} (h : Kept z x6) :
    Kept z (takeChunk rank collId step gen k data x6) := by
  refine byGen_kept (fun _ hv => ?_) h
  split
  · exact formChunks_kept (enterChunk_kept (sendMsg_kept hv))
  · exact formAll_kept (enterChunk_kept (sendMsg_kept hv))

theorem execCollectiveChunkReceive_kept {rank collId step gen chunk : Nat} {data : List CollElem} {s : State} (h : Kept z s) :
    OutKept z (execCollectiveChunkReceive rank collId step gen chunk data s) :=
  gate_kept (ite_kept h (takeChunk_kept h))

theorem execCollectiveResultReceive_kept {collId step gen chunk : Nat} {sums : List (BitVec 32)} {codes : List CollElem} {s : State} (h : Kept z s) :
    OutKept z (execCollectiveResultReceive collId step gen chunk sums codes s) :=
  gate_kept (byGen_kept (fun _ hv => ite_kept hv (takeResult_keeps hv)) h)

theorem execCollectiveChunkAck_kept {collId step chunk owner : Nat} {s : State} (h : Kept z s) :
    OutKept z (execCollectiveChunkAck collId step chunk owner s) := by
  unfold execCollectiveChunkAck
  dsimp only
  split
  · exact refused_kept
  · exact next_kept (handoverIfOut_kept (ite_kept h h))

theorem settleDecision_kept {step : Nat} {l : List LateEntry} {s : State} (h : Kept z s) : Kept z (settleDecision step l s) :=
  formAll_kept h

theorem abortEpoch_kept {step gen : Nat} {s : State} (h : Kept z s) : Kept z (abortEpoch step gen s) :=
  foldl_kept (fun _ _ hu => endWork_kept hu) h

theorem acceptEpochAbort_kept {p : Packet} {s : State} (h : Kept z s) : Kept z (acceptEpochAbort p s) :=
  acceptPacket_kept (fun _ _ hv => completeOk_kept (abortEpoch_kept hv)) h

theorem execEpochAbort_kept {p : Packet} {s : State} (h : Kept z s) : OutKept z (execEpochAbort p s) :=
  packetOut_kept (fun _ => acceptEpochAbort_kept) h

theorem bodyDeadline_kept {p : Packet} {s : State} (h : Kept z s) : Kept z (bodyDeadline p s) :=
  ite_kept (completeOpen_kept h) (completeOk_kept (with_grp_kept (ite_kept h (sendMsg_kept h))))

theorem acceptDeadline_kept {p : Packet} {s : State} (h : Kept z s) : Kept z (acceptDeadline p s) :=
  acceptPacket_kept (fun _ _ hv => bodyDeadline_kept hv) h

theorem execDeadlineSet_kept {p : Packet} {s : State} (h : Kept z s) : OutKept z (execDeadlineSet p s) :=
  packetOut_kept (fun _ => acceptDeadline_kept) h

end

end Sys2Proof.Machine
end

section
/-! SUPPORT. What carries the invariants of every step through context faults, media and ingest (09, 07). -/
namespace Sys2Proof.Machine

section
variable {z : State}

theorem acceptFaultGet_kept {p : Packet} {s : State} (h : Kept z s) : Kept z (acceptFaultGet p s) :=
  acceptPacket_kept (fun _ _ hv => withCtx_kept hv (fun _ => finishSlot_kept hv)) h

theorem execFaultGet_kept {p : Packet} {s : State} (h : Kept z s) : OutKept z (execFaultGet p s) :=
  packetOut_kept (fun _ => acceptFaultGet_kept) h

theorem waitAgain_kept {c : Nat} {w : Work} {s : State} (h : Kept z s) : Kept z (waitAgain c w s) := by
  unfold waitAgain
  dsimp only
  split
  · exact presentWait_kept h
  · exact presentWait_kept h
  · exact presentWait_kept h
  · exact h

theorem freeRecordSlot_kept {c i : Nat} {s : State} (h : Kept z s) : Kept z (freeRecordSlot c i s) := by
  unfold freeRecordSlot
  dsimp only
  split
  · exact h
  · split
    · exact addFault_kept h
    · exact ite_kept h h

theorem resumeWork_kept {c : Nat} {f : FaultRec} {w : Work} {s : State} (h : Kept z s) : Kept z (resumeWork c f w s) := by
  refine ite_kept (placeKernel_kept h) (ite_kept ?_ (ite_kept h (ite_kept (goOn_kept h) (ite_kept (waitAgain_kept h) h))))
  split
  next t he =>
    have ht := applyScale_kept h _ he
    exact finishWork_kept ht
  · exact faultWork_kept (countPoison_kept h)

theorem doRetry_kept {c i : Nat} {s : State} (h : Kept z s) : Kept z (doRetry c i s) := by
  unfold doRetry
  dsimp only
  split
  · exact h
  · split
    · split
      · exact resumeWork_kept (freeRecordSlot_kept h)
      · exact freeRecordSlot_kept h
    · exact ite_kept (freeRecordSlot_kept h) (settleIngest_kept (freeRecordSlot_kept h))

theorem abortRecord_kept {c action : Nat} {f : FaultRec} {s : State} (h : Kept z s) : Kept z (abortRecord c action f s) :=
  manRecord_kept h

theorem abortWork_kept {c : Nat} {w : Work} {detail : Option Nat} {s : State} (h : Kept z s) : Kept z (abortWork c w detail s) :=
  endWork_kept (ite_kept (holdColl_kept h) (withRecords_kept (fun _ hv => foldl_kept (fun _ _ hu => mergeHeld_kept hu) hv) h))

theorem doAbort_kept {c i : Nat} {s : State} (h : Kept z s) : Kept z (doAbort c i s) := by
  unfold doAbort
  dsimp only
  split
  · exact h
  · split
    · split
      · exact abortWork_kept (freeRecordSlot_kept (abortRecord_kept h))
      · exact freeRecordSlot_kept (abortRecord_kept h)
    · exact ite_kept (freeRecordSlot_kept (abortRecord_kept h)) (freeRecordSlot_kept (abortRecord_kept h))

theorem emptyQueues_kept {c : Nat} {s : State} (h : Kept z s) : Kept z (emptyQueues c s) := by
  refine foldl_kept (fun u i hu => ?_) h
  exact kept_of_sizes hu rfl rfl

theorem abortStarts_kept {c : Nat} {s : State} (h : Kept z s) : Kept z (abortStarts c s) :=
  foldl_kept (fun _ _ hu => completeOpen_kept hu) h

theorem doAbortContext_kept {c i : Nat} {s : State} (h : Kept z s) : Kept z (doAbortContext c i s) := by
  unfold doAbortContext
  dsimp only
  split
  · exact h
  · refine settleIngest_kept (foldl_kept (fun _ _ hu => abortWork_kept hu) (abortStarts_kept (emptyQueues_kept ?_)))
    split
    · exact abortRecord_kept h
    · exact h

theorem bodyFaultResolve_kept {p : Packet} {s : State} (h : Kept z s) : Kept z (bodyFaultResolve p s) := by
  refine withCtx_kept h (fun _ => ?_)
  split
  · exact completeWith_kept h
  · refine ite_kept (completeWith_kept h) (completeOk_kept ?_)
    split
    · exact doRetry_kept h
    · exact doAbort_kept h
    · exact doAbortContext_kept h

theorem acceptFaultResolve_kept {p : Packet} {s : State} (h : Kept z s) : Kept z (acceptFaultResolve p s) :=
  acceptPacket_kept (fun _ _ hv => bodyFaultResolve_kept hv) h

theorem execFaultResolve_kept {p : Packet} {s : State} (h : Kept z s) : OutKept z (execFaultResolve p s) :=
  packetOut_kept (fun _ => acceptFaultResolve_kept) h

theorem execRetry_kept {c i : Nat} {s : State} (h : Kept z s) : OutKept z (execRetry c i s) :=
  gate_kept (doRetry_kept h)

theorem execAbortDescriptor_kept {c i : Nat} {s : State} (h : Kept z s) : OutKept z (execAbortDescriptor c i s) :=
  gate_kept (doAbort_kept h)

theorem execAbortContext_kept {c i : Nat} {s : State} (h : Kept z s) : OutKept z (execAbortContext c i s) :=
  gate_kept (doAbortContext_kept h)

theorem preempt_kept {c : Nat} {s : State} (h : Kept z s) : Kept z (preempt c s) :=
  stopGangs_kept h

theorem execSliceExpiry_kept {c : Nat} {s : State} (h : Kept z s) : OutKept z (execSliceExpiry c s) := by
  unfold execSliceExpiry
  split
  · exact refused_kept
  · exact gate_kept (ite_kept (preempt_kept h) h)

theorem saveHeader_kept {s : State} (h : Kept z s) : Kept z (saveHeader s).2 := by
  unfold saveHeader
  dsimp only
  exact freeBytes_kept h

theorem areaBytes_kept {c : Nat} {x : Ctx} {a : Nat × Nat} {s : State} (h : Kept z s) : Kept z (areaBytes c x a s).2 := by
  unfold areaBytes
  split
  · exact h
  · exact freeBytes_kept h

theorem saveAreas_kept {c : Nat} {x : Ctx} {l : List (Nat × Nat)} {s : State} (h : Kept z s) : Kept z (saveAreas c x l s).2 := by
  induction l generalizing s with
  | nil => exact h
  | cons a r ih => exact ih (moduleWrite_kept (areaBytes_kept h))

theorem execContextSaveComplete_kept {c : Nat} {s : State} (h : Kept z s) : OutKept z (execContextSaveComplete c s) := by
  unfold execContextSaveComplete
  dsimp only
  split
  · exact refused_kept
  · exact gate_kept (moduleWrite_kept (saveHeader_kept (saveAreas_kept h)))

theorem presentAll_kept {ws : List Wait} {s : State} (h : Kept z s) : Kept z (presentAll ws s) :=
  foldl_kept (fun _ _ hu => presentWait_kept hu) h

theorem restoreFault_kept {c : Nat} {d : FaultDetail} {s : State} (h : Kept z s) : Kept z (restoreFault c d s) :=
  addFault_kept h

theorem restoreContext_kept {c : Nat} {x : Ctx} {s : State} (h : Kept z s) : Kept z (restoreContext c x s) := by
  unfold restoreContext
  dsimp only
  split
  · exact restoreFault_kept (countPoison_kept h)
  · exact ite_kept (presentAll_kept h) (restoreFault_kept h)

theorem execContextRestore_kept {c : Nat} {s : State} (h : Kept z s) : OutKept z (execContextRestore c s) := by
  unfold execContextRestore
  split
  · exact refused_kept
  · exact gate_kept (restoreContext_kept h)

theorem bodyIngestSchedule_kept {p : Packet} {s : State} (h : Kept z s) : Kept z (bodyIngestSchedule p s) := by
  unfold bodyIngestSchedule
  split
  · exact completeWith_kept h
  · exact completeOk_kept (settleIngest_kept h)

theorem acceptIngestSchedule_kept {p : Packet} {s : State} (h : Kept z s) : Kept z (acceptIngestSchedule p s) :=
  acceptPacket_kept (fun _ _ hv => bodyIngestSchedule_kept hv) h

theorem execIngestSchedule_kept {p : Packet} {s : State} (h : Kept z s) : OutKept z (execIngestSchedule p s) :=
  packetOut_kept (fun _ => acceptIngestSchedule_kept) h

theorem bodyIngestStart_kept {p : Packet} {s : State} (h : Kept z s) : Kept z (bodyIngestStart p s) :=
  withCtx_kept h (fun _ => ite_kept (completeOpen_kept h) (completeOk_kept (settleIngest_kept h)))

theorem acceptIngestStart_kept {p : Packet} {s : State} (h : Kept z s) : Kept z (acceptIngestStart p s) :=
  acceptPacket_kept (fun _ _ hv => bodyIngestStart_kept hv) h

theorem execIngestStart_kept {p : Packet} {s : State} (h : Kept z s) : OutKept z (execIngestStart p s) :=
  packetOut_kept (fun _ => acceptIngestStart_kept) h

theorem bodyIngestStop_kept {p : Packet} {s : State} (h : Kept z s) : Kept z (bodyIngestStop p s) :=
  withCtx_kept h (fun _ => completeOk_kept (settleIngest_kept h))

theorem acceptIngestStop_kept {p : Packet} {s : State} (h : Kept z s) : Kept z (acceptIngestStop p s) :=
  acceptPacket_kept (fun _ _ hv => bodyIngestStop_kept hv) h

theorem execIngestStop_kept {p : Packet} {s : State} (h : Kept z s) : OutKept z (execIngestStop p s) :=
  packetOut_kept (fun _ => acceptIngestStop_kept) h

theorem bodyTokenTableLoad_kept {p : Packet} {s : State} (h : Kept z s) : Kept z (bodyTokenTableLoad p s) :=
  ite_kept (completeWith_kept h) (ite_kept (completeWith_kept h) (ite_kept (completeWith_kept h) (completeOk_kept h)))

theorem acceptTokenTableLoad_kept {p : Packet} {s : State} (h : Kept z s) : Kept z (acceptTokenTableLoad p s) :=
  acceptPacket_kept (fun _ _ hv => bodyTokenTableLoad_kept hv) h

theorem execTokenTableLoad_kept {p : Packet} {s : State} (h : Kept z s) : OutKept z (execTokenTableLoad p s) :=
  packetOut_kept (fun _ => acceptTokenTableLoad_kept) h

theorem bodyManifestGet_kept {p : Packet} {idx : Nat} {s : State} (h : Kept z s) : Kept z (bodyManifestGet p idx s) := by
  refine withCtx_kept h (fun _ => ?_)
  split
  · exact finishSlot_kept h
  · exact refuse8_kept h

theorem acceptManifestGet_kept {p : Packet} {s : State} (h : Kept z s) : Kept z (acceptManifestGet p s) :=
  acceptPacket_kept (fun _ _ hv => bodyManifestGet_kept hv) h

theorem execManifestGet_kept {p : Packet} {s : State} (h : Kept z s) : OutKept z (execManifestGet p s) :=
  packetOut_kept (fun _ => acceptManifestGet_kept) h

theorem ingestFault_kept {c : Nat} {d : FaultDetail} {resume : Nat} {s : State} (h : Kept z s) : Kept z (ingestFault c d resume s) := by
  unfold ingestFault
  dsimp only
  split
  · exact h
  · exact settleIngest_kept (addFault_kept h)

theorem replayMismatch_kept {step : Nat} {s : State} (h : Kept z s) : Kept z (replayMismatch step s) :=
  with_fix_kept (foldl_kept (fun _ _ hu => finishPending_kept hu) h)

theorem sealBatch_kept {c : Nat} {d : Sched} {g : Ingest} {s : State} (h : Kept z s) : Kept z (sealBatch c d g s) := by
  unfold sealBatch
  dsimp only
  have hv : Kept z (freshValue s).2 := h
  have hentry := moduleWrite_kept (c := c) (va := d.ringVa + g.batch % (d.readyDepth + 2) * d.batchBytes)
    (l := entryContents (freshValue s).1.toNat d.fields g.filled) hv
  exact ite_kept (commitBatch_kept (ctxMod_kept (moduleWrite_kept hentry))) (ctxMod_kept (moduleWrite_kept hentry))

theorem rebuildBatch_kept {c : Nat} {d : Sched} {g : Ingest} {m : BatchManifest} {s : State} (h : Kept z s) : Kept z (rebuildBatch c d g m s) :=
  ite_kept (replayMismatch_kept h) (ite_kept (sealBatch_kept h) h)

theorem fillSlots_kept {c : Nat} {s : State} (h : Kept z s) : Kept z (fillSlots c s) := by
  unfold fillSlots
  split
  · exact h
  · split
    · exact h
    · exact ite_kept (rebuildBatch_kept h) h
    · split
      · exact ingestFault_kept h
      · refine ite_kept h ?_
        split
        · exact sealBatch_kept h
        · exact ingestFault_kept h
        · exact h

theorem addSample_kept {c : Nat} {x : Sample} {s : State} (h : Kept z s) : Kept z (addSample c x s) :=
  fillSlots_kept h

theorem pickEngine_kept {s : State} {es : List Nat} (h : Kept z s) : Kept z (pickEngine s es).2 := by
  unfold pickEngine
  split
  · exact h
  · exact h

theorem pickEngines_kept {fs : List Field} {vs : List (Option (List Byte))} {s : State} (h : Kept z s) : Kept z (pickEngines fs vs s).2 := by
  fun_induction pickEngines fs vs s with
  | case1 f fs v vs s e t he l u hu ih => exact snd_kept hu (ih (snd_kept he (pickEngine_kept h)))
  | case2 f fs vs s ih => exact ih h
  | case3 => exact h

theorem readSample_kept {c j unit : Nat} {d : Sched} {s : State} (h : Kept z s) : Kept z (readSample c j unit d s) := by
  unfold readSample
  dsimp only
  split
  · exact addSample_kept h
  · split
    · exact ingestFault_kept (countPoison_kept h)
    · exact addSample_kept (countPoison_kept h)
    · exact addSample_kept h
    · exact addSample_kept (pickEngines_kept h)

theorem execXrsFrameParse_kept {c j engine : Nat} {s : State} (h : Kept z s) : OutKept z (execXrsFrameParse c j engine s) := by
  unfold execXrsFrameParse
  dsimp only
  split
  · exact refused_kept
  · split
    · exact refused_kept
    · exact gate_kept (readSample_kept h)

theorem markSlow_kept {c j : Nat} {s : State} (h : Kept z s) : Kept z (markSlow c j s) :=
  fillSlots_kept h

theorem finishDecode_kept {c : Nat} {x : Ctx} {d : Sched} {a : Sample} {ticks : Nat} {fields : List Decoded} {s : State} (h : Kept z s) :
    Kept z (finishDecode c x d a ticks fields s) := by
  unfold finishDecode
  dsimp only
  split
  · exact fillSlots_kept (ite_kept (markSlow_kept h) h)
  · exact fillSlots_kept (ite_kept (markSlow_kept h) h)

theorem restartSample_kept {u v c j : Nat} {s : State} (h : Kept z s) : Kept z (restartSample u v c j s) := by
  unfold restartSample
  split
  · exact h
  · split
    · exact ite_kept (readSample_kept h) h
    · exact h

theorem execSampleDecodeComplete_kept {c j ticks : Nat} {fields : List Decoded} {s : State} (h : Kept z s) :
    OutKept z (execSampleDecodeComplete c j ticks fields s) := by
  unfold execSampleDecodeComplete
  split
  · exact refused_kept
  · split
    · exact gate_kept (finishDecode_kept h)
    · exact refused_kept

theorem execAssemblyStart_kept {c : Nat} {s : State} (h : Kept z s) : OutKept z (execAssemblyStart c s) := by
  unfold execAssemblyStart
  split
  · exact refused_kept
  · split
    · exact refused_kept
    · exact gate_kept (fillSlots_kept h)

theorem execSampleSlow_kept {c j ticks : Nat} {s : State} (h : Kept z s) : OutKept z (execSampleSlow c j ticks s) := by
  unfold execSampleSlow
  split
  · exact refused_kept
  · split
    · exact refused_kept
    · exact gate_kept (ite_kept h (markSlow_kept h))

theorem execDecodeTimeout_kept {c j : Nat} {s : State} (h : Kept z s) : OutKept z (execDecodeTimeout c j s) := by
  unfold execDecodeTimeout
  split
  · exact refused_kept
  · split
    · exact refused_kept
    · exact gate_kept (ite_kept h (fillSlots_kept h))

end

end Sys2Proof.Machine
end

section
/-! SUPPORT. What carries the invariants of every step through chart changes, Fixes and recovery (01, 12). -/
namespace Sys2Proof.Machine

section
variable {z : State}

theorem takeToTest_kept {s : State} {die : Nat} (h : Kept z s) : Kept z (takeToTest s die) := by
  unfold takeToTest
  dsimp only
  split
  · exact h
  · exact ite_kept h (decideChange_kept h)

theorem startTest_kept {s : State} {die : Nat} (h : Kept z s) : Kept z (startTest s die) :=
  ite_kept h (ite_kept (takeToTest_kept h) (takeToTest_kept h))

theorem endTesting_kept {s : State} (h : Kept z s) : Kept z (endTesting s) := by
  unfold endTesting
  split
  · exact finishPending_kept h
  · exact h

theorem startTests_kept {s : State} (h : Kept z s) : Kept z (startTests s) :=
  foldl_kept (fun _ _ hu => startTest_kept hu) h

theorem goOnTesting_kept {s : State} (h : Kept z s) : Kept z (goOnTesting s) :=
  ite_kept (endTesting_kept (startTests_kept h)) (startTests_kept h)

theorem dropTest_kept {p : Nat} {s : State} (h : Kept z s) : Kept z (dropTest p s) :=
  ite_kept (goOnTesting_kept h) h

theorem endTest_kept {p : Nat} {pass : Bool} {s : State} (h : Kept z s) : Kept z (endTest p pass s) :=
  ite_kept (dropTest_kept h) h

theorem settleTests_kept {c : Change} {s : State} (h : Kept z s) : Kept z (settleTests c s) :=
  foldl_kept (fun _ _ hu => dropTest_kept hu) h

theorem bodyClusterTest_kept {p : Packet} {idx : Nat} {s : State} (h : Kept z s) : Kept z (bodyClusterTest p idx s) :=
  ite_kept (finishSlot_kept (endTesting_kept h)) (ite_kept (finishSlot_kept (startTests_kept h)) (complete_kept (startTests_kept h)))

theorem startClusterTest_kept {p : Packet} {s : State} (h : Kept z s) : Kept z (startClusterTest p s) := by
  unfold startClusterTest
  refine ite_kept (completeOpen_kept h) ?_
  split
  next idx t he => exact bodyClusterTest_kept (snd_kept he (allocSlot_kept h))

theorem moduleLoss_kept {s : State} (h : Kept z s) : Kept z (moduleLoss s) :=
  ite_kept (sendMsg_kept (ite_kept h (enterState_kept h))) (ite_kept h (enterState_kept h))

theorem noteAbsorbed_kept {s : State} (h : Kept z s) : Kept z (noteAbsorbed s) :=
  with_fix_kept (noteSoft_kept h)

theorem beginFixStop_kept {s : State} (h : Kept z s) : Kept z (beginFixStop s) :=
  enterState_kept h

theorem stopJob_kept {s : State} (h : Kept z s) : Kept z (stopJob s) :=
  enterState_kept h

theorem startOne_kept {a : Nat × Packet} {s : State} (h : Kept z s) : Kept z (startOne a s) := by
  unfold startOne
  split
  · exact bodyScaleSet_kept h
  · exact bodyPtRootSet_kept h
  · exact bodyTlbInvalidate_kept h
  · exact bodySyncAlloc_kept h
  · exact bodySyncFree_kept h
  · exact bodySyncOp_kept h
  · exact bodyIngestSchedule_kept h
  · exact bodyIngestStart_kept h
  · exact bodyIngestStop_kept h
  · exact bodyTokenTableLoad_kept h
  · exact bodyFaultResolve_kept h
  · exact startClusterTest_kept h
  · exact h

theorem startAccepted_kept {s : State} (h : Kept z s) : Kept z (startAccepted s) :=
  foldl_kept (fun _ _ hu => startOne_kept hu) h

theorem leaveFixing_kept {st : DevState} {detail : Nat} {s : State} (h : Kept z s) : Kept z (leaveFixing st detail s) :=
  startAccepted_kept (ite_kept (enterHold_kept h) (enterState_kept h))

theorem resumeRun_kept {s : State} (h : Kept z s) : Kept z (resumeRun s) :=
  ite_kept h (ite_kept (ite_kept (leaveFixing_kept h) (stopJob_kept (leaveFixing_kept h))) h)

theorem endStop_kept {s : State} (h : Kept z s) : Kept z (endStop s) :=
  ite_kept (resumeRun_kept h) h

theorem abortFix_kept {cause : Nat} {s : State} (h : Kept z s) : Kept z (abortFix cause s) :=
  ite_kept (resumeRun_kept (raiseEvent_kept h)) h

theorem loseLane_kept {k phys : Nat} {s : State} (h : Kept z s) : Kept z (loseLane k phys s) := by
  unfold loseLane
  split
  · exact ite_kept (ite_kept (narrowPort_kept h) (portGoesDown_kept h)) h
  · exact h

theorem moveEngine_kept {out : List Nat} {u : Nat} {s : State} (h : Kept z s) : Kept z (moveEngine out u s) := by
  unfold moveEngine
  split
  · exact h
  · exact foldl_kept (fun _ _ hu => restartSample_kept hu) h

theorem leaveService_kept {out : List Nat} {u : Nat} {s : State} (h : Kept z s) : Kept z (leaveService out u s) := by
  unfold leaveService
  split
  · exact abandonCluster_kept h
  · exact moveEngine_kept h
  · exact ite_kept (portGoesDown_kept h) h
  · exact loseLane_kept h
  · exact h

theorem decideLeaving_kept {c : Change} {s : State} (h : Kept z s) : Kept z (decideLeaving c s) :=
  ite_kept (moduleLoss_kept (decideChange_kept (foldl_kept (fun _ _ hu => leaveService_kept hu) h))) (decideChange_kept (foldl_kept (fun _ _ hu =>
      leaveService_kept hu) h))

theorem noteFault_kept {u : Nat} {permanent : Bool} {s : State} (h : Kept z s) : Kept z (noteFault u permanent s) :=
  ite_kept (decideChange_kept h) h

theorem dropPlanned_kept {ids carriers : List Nat} {s : State} (h : Kept z s) : Kept z (dropPlanned ids carriers s) :=
  kept_of_sizes h rfl rfl

theorem clusterFaulted_kept {phys : Nat} {permanent : Bool} {s : State} (h : Kept z s) : Kept z (clusterFaulted phys permanent s) := by
  refine ite_kept ?_ (endTest_kept (noteFault_kept (decideLeaving_kept (abortFix_kept h))))
  split
  · exact moduleLoss_kept (decideLeaving_kept (abortFix_kept h))
  · exact ite_kept (moduleLoss_kept (noteAbsorbed_kept (noteFault_kept (decideLeaving_kept (dropPlanned_kept (abortFix_kept h))))))
      (settleTests_kept (dropTest_kept (noteAbsorbed_kept (noteFault_kept (decideLeaving_kept (dropPlanned_kept (abortFix_kept h)))))))

theorem noteArray_kept {phys : Nat} {array : Option Nat} {s : State} (h : Kept z s) : Kept z (noteArray phys array s) := by
  unfold noteArray
  dsimp only
  split
  · exact h
  · exact h

theorem execClusterFault_kept {phys : Nat} {array : Option Nat} {permanent : Bool} {s : State} (h : Kept z s) :
    OutKept z (execClusterFault phys array permanent s) :=
  gate_kept (clusterFaulted_kept (noteArray_kept h))

theorem execClusterWatchdog_kept {l : Nat} {s : State} (h : Kept z s) : OutKept z (execClusterWatchdog l s) :=
  gate_kept (clusterFaulted_kept h)

theorem execPlannedMove_kept {l phys : Nat} {state : UnitState} {s : State} (h : Kept z s) : OutKept z (execPlannedMove l phys state s) := by
  unfold execPlannedMove
  dsimp only
  split
  · exact refused_kept
  · exact gate_kept (decideChange_kept h)

theorem planTake_kept {l phys : Nat} {s : State} (h : Kept z s) : Kept z (planTake l phys s) :=
  kept_of_sizes h rfl rfl

theorem orderOut_kept {p : Packet} {phys : Nat} {st : UnitState} {s : State} (h : Kept z s) : Kept z (orderOut p phys st s) := by
  unfold orderOut
  dsimp only
  split
  · exact completeWith_kept h
  · exact ite_kept (completeWith_kept h) (completeOk_kept (ite_kept h (settleTests_kept (dropTest_kept h))))

theorem bodyUnitState_kept {p : Packet} {s : State} (h : Kept z s) : Kept z (bodyUnitState p s) := by
  unfold bodyUnitState
  split
  · exact completeOpen_kept h
  · refine ite_kept (completeWith_kept h) (ite_kept (completeOpen_kept h) (ite_kept (orderOut_kept h) (ite_kept ?_ (completeOk_kept ?_))))
    · split
      · exact completeWith_kept h
      · exact completeOk_kept (planTake_kept h)
    · split
      · exact settleTests_kept (dropTest_kept (decideLeaving_kept h))
      · exact decideLeaving_kept h

theorem acceptUnitState_kept {p : Packet} {s : State} (h : Kept z s) : Kept z (acceptUnitState p s) :=
  acceptPacket_kept (fun _ _ hv => bodyUnitState_kept hv) h

theorem execUnitStateSet_kept {p : Packet} {s : State} (h : Kept z s) : OutKept z (execUnitStateSet p s) :=
  packetOut_kept (fun _ => acceptUnitState_kept) h

theorem rollOne_kept {u : Nat} {s : State} (h : Kept z s) : Kept z (rollOne u s) :=
  ite_kept h (ite_kept h (decideLeaving_kept h))

theorem execRollingTest_kept {u : Nat} {carrier : Option Nat} {s : State} (h : Kept z s) : OutKept z (execRollingTest u carrier s) :=
  gate_kept (rollOne_kept h)

theorem discardDie_kept {die : Nat} {s : State} (h : Kept z s) : Kept z (discardDie die s) :=
  foldl_kept (fun _ _ hu => abandonCluster_kept hu) h

theorem failDie_kept {sup : Nat} {s : State} (h : Kept z s) : Kept z (failDie sup s) :=
  ite_kept (ite_kept (decideLeaving_kept h) (moduleLoss_kept (decideLeaving_kept h))) (noteAbsorbed_kept (decideLeaving_kept h))

theorem supervisorFault_kept {sup : Nat} {s : State} (h : Kept z s) : Kept z (supervisorFault sup s) :=
  ite_kept (failDie_kept (abortFix_kept h)) (noteAbsorbed_kept (ite_kept (discardDie_kept (abortFix_kept h)) (abortFix_kept h)))

theorem execSupervisorHeartbeatMiss_kept {sup : Nat} {s : State} (h : Kept z s) : OutKept z (execSupervisorHeartbeatMiss sup s) :=
  gate_kept (supervisorFault_kept h)

theorem execSupervisorRestartEnd_kept {sup : Nat} {s : State} (h : Kept z s) : OutKept z (execSupervisorRestartEnd sup s) :=
  gate_kept (decideChange_kept h)

theorem execBinnacleTakeover_kept {s : State} (h : Kept z s) : OutKept z (execBinnacleTakeover s) :=
  gate_kept (ite_kept (abortFix_kept h) (moduleLoss_kept h))

theorem startRebuild_kept {s : State} {q : Nat} (h : Kept z s) : Kept z (startRebuild s q) :=
  ite_kept (setArmour_kept h) h

theorem takeUp_kept {e : Word} {c : Change} {s : State} (h : Kept z s) : Kept z (takeUp e c s) :=
  ite_kept h h

theorem endPublication_kept {b : Publication} {s : State} (h : Kept z s) : Kept z (endPublication b s) := by
  have hpub : Kept z ((List.range 4).foldl startRebuild (takeUp b.epoch (lawful s b.change) (publishChange (lawful s b.change) b.epoch s))) :=
    foldl_kept (fun _ _ hu => startRebuild_kept hu) (takeUp_kept h)
  unfold endPublication
  dsimp only
  generalize (List.range 4).foldl startRebuild (takeUp b.epoch (lawful s b.change) (publishChange (lawful s b.change) b.epoch s)) = t at hpub
  cases hw : t.chart.waiting with
  | nil => exact ite_kept (beginFixStop_kept hpub) hpub
  | cons c r =>
    have hnext : Kept z (decideChange c { t with chart := { t.chart with waiting := r } }) := decideChange_kept (kept_of_sizes hpub rfl rfl)
    exact ite_kept (beginFixStop_kept hnext) hnext

theorem execBinnacleTakeoverEnd_kept {s : State} (h : Kept z s) : OutKept z (execBinnacleTakeoverEnd s) := by
  refine gate_kept (decideChange_kept ?_)
  split
  · exact ite_kept (endPublication_kept h) h
  · exact h

theorem execChartChangeDecision_kept {changes : List (Nat × UnitState)} {moves : List (Nat × Nat)} {s : State} (h : Kept z s) :
    OutKept z (execChartChangeDecision changes moves s) :=
  gate_kept (settleTests_kept (decideLeaving_kept h))

theorem abandonOn_kept {us : List Nat} {s : State} (h : Kept z s) : Kept z (abandonOn us s) :=
  foldl_kept (fun _ _ hu => abandonCluster_kept hu) h

theorem execFenceAck_kept {s : State} (h : Kept z s) : OutKept z (execFenceAck s) := by
  unfold execFenceAck
  dsimp only
  split
  · exact refused_kept
  · exact gate_kept (abandonOn_kept h)

theorem execSupervisorApplyAck_kept {s : State} (h : Kept z s) : OutKept z (execSupervisorApplyAck s) := by
  unfold execSupervisorApplyAck
  split
  · exact refused_kept
  · exact gate_kept (ite_kept h (endPublication_kept h))

theorem execBinnacleMirrorAck_kept {s : State} (h : Kept z s) : OutKept z (execBinnacleMirrorAck s) := by
  unfold execBinnacleMirrorAck
  split
  · exact refused_kept
  · exact gate_kept (endPublication_kept h)

theorem execFencedOutputDiscard_kept {die unit : Nat} {epoch : Word} {s : State} (h : Kept z s) :
    OutKept z (execFencedOutputDiscard die unit epoch s) :=
  gate_kept (ite_kept h (logSkew_kept h))

theorem reconcile_kept {u : Nat} {s : State} (h : Kept z s) : Kept z (reconcile u s) :=
  decideChange_kept (leaveService_kept h)

theorem execSupervisorStateMismatch_kept {u : Nat} {reported : UnitState} {epoch : Word} {s : State} (h : Kept z s) :
    OutKept z (execSupervisorStateMismatch u reported epoch s) :=
  gate_kept (reconcile_kept (logSkew_kept h))

theorem execStaleProgressReport_kept {u : Nat} {epoch : Word} {s : State} (h : Kept z s) : OutKept z (execStaleProgressReport u epoch s) :=
  gate_kept (reconcile_kept (logSkew_kept h))

theorem execMediaEngineFault_kept {u : Nat} {s : State} (h : Kept z s) : OutKept z (execMediaEngineFault u s) :=
  gate_kept (ite_kept (ite_kept (moduleLoss_kept (noteFault_kept (decideLeaving_kept h)))
      (noteAbsorbed_kept (noteFault_kept (decideLeaving_kept h)))) (noteFault_kept (decideLeaving_kept h)))

theorem storeRegions_kept {n : Nat} {regions : List (Nat × Nat × Nat × Mem)} {s : State} (h : Kept z s) : Kept z (storeRegions n regions s) := by
  unfold storeRegions
  split
  · exact h
  · exact foldl_kept (fun _ _ hu => devStore_kept hu) h

theorem storeHeader_kept {n : Nat} {s : State} (h : Kept z s) : Kept z (storeHeader n s) := by
  unfold storeHeader
  split
  · exact devStore_kept h
  · exact h

theorem storeFlags_kept {n : Nat} {s : State} (h : Kept z s) : Kept z (storeFlags n s) := by
  unfold storeFlags
  split
  · exact devStore_kept h
  · exact h

theorem openSlot_kept {n : Nat} {s : State} (h : Kept z s) : Kept z (openSlot n s) := by
  unfold openSlot
  split
  · exact devStore_kept h
  · exact h

theorem undouble_kept {s : State} (h : Kept z s) : Kept z (undouble s) :=
  ite_kept h (decideChange_kept h)

theorem writeBackRegions_kept {s : State} (h : Kept z s) : Kept z (writeBackRegions s) :=
  ite_kept h h

theorem execFixQuiesceComplete_kept {s : State} (h : Kept z s) : OutKept z (execFixQuiesceComplete s) := by
  refine gate_kept (ite_kept (abortFix_kept h) ?_)
  dsimp only
  split
  · exact abortFix_kept (undouble_kept (writeBackRegions_kept h))
  · exact with_fix_kept (openSlot_kept (undouble_kept (writeBackRegions_kept h)))

theorem reportSeal_kept {step : Nat} {s : State} (h : Kept z s) : Kept z (reportSeal step s) :=
  ite_kept h (ite_kept h (sendMsg_kept h))

theorem groupSeal_kept {step : Nat} {s : State} (h : Kept z s) : Kept z (groupSeal step s) :=
  ite_kept (ite_kept h (sendMsg_kept h)) h

theorem sealOwn_kept {step : Nat} {s : State} (h : Kept z s) : Kept z (sealOwn step s) := by
  unfold sealOwn
  split
  · exact h
  · exact groupSeal_kept (reportSeal_kept (raiseEvent_kept (storeFlags_kept h)))

theorem sendChunk64_kept {rank : Nat} {i : FixImage} {base c : Nat} {s : State} (h : Kept z s) : Kept z (sendChunk64 rank i base c s) :=
  sendMsg_kept h

theorem addUncovered_kept {s : State} (h : Kept z s) : Kept z (addUncovered s) := by
  unfold addUncovered
  dsimp only
  exact with_fix_kept (orFree_kept h)

theorem abandonStream_kept {s : State} (h : Kept z s) : Kept z (abandonStream s) :=
  addUncovered_kept h

theorem startStream_kept {i : FixImage} {nowMs : Option Nat} {s : State} (h : Kept z s) : Kept z (startStream i nowMs s) := by
  unfold startStream
  dsimp only
  split
  · exact h
  · exact foldl_kept (fun _ _ hu => sendChunk64_kept hu) h

theorem execFixHeaderAck_kept {timeUs : Nat} {s : State} (h : Kept z s) : OutKept z (execFixHeaderAck timeUs s) := by
  unfold execFixHeaderAck
  dsimp only
  split
  · exact refused_kept
  · exact gate_kept (ite_kept (abortFix_kept h) (ite_kept (startStream_kept (resumeRun_kept (with_fix_kept (storeHeader_kept (orFree_kept h)))))
      (sealOwn_kept (resumeRun_kept (with_fix_kept (storeHeader_kept (orFree_kept h)))))))

theorem sealCopy_kept {partner : Nat} {s : State} (h : Kept z s) : Kept z (sealCopy partner s) := by
  unfold sealCopy
  dsimp only
  split
  · exact h
  · exact ite_kept (sendMsg_kept (with_fix_kept (devStore_kept h))) h

theorem putChunk_kept {chunk : Nat} {bytes : List Byte} {s : State} (h : Kept z s) : Kept z (putChunk chunk bytes s) :=
  with_fix_kept (devStore_kept h)

theorem execFixStreamChunkReceive_kept {chunk : Nat} {bytes : List Byte} {crc : Word} {s : State} (h : Kept z s) :
    OutKept z (execFixStreamChunkReceive chunk bytes crc s) := by
  unfold execFixStreamChunkReceive
  dsimp only
  split
  · exact refused_kept
  · exact gate_kept (ite_kept (sealCopy_kept (ite_kept (ite_kept (putChunk_kept h) h) (sendMsg_kept (ite_kept (putChunk_kept h) h))))
      (ite_kept (ite_kept (putChunk_kept h) h) (sendMsg_kept (ite_kept (putChunk_kept h) h))))

theorem execFixChunkAck_kept {chunk : Nat} {ok : Bool} {s : State} (h : Kept z s) : OutKept z (execFixChunkAck chunk ok s) := by
  refine gate_kept (ite_kept h (ite_kept (abandonStream_kept h) ?_))
  split
  · exact sendChunk64_kept h
  · exact h

theorem execSealAck_kept {timeMs : Nat} {s : State} (h : Kept z s) : OutKept z (execSealAck timeMs s) := by
  unfold execSealAck
  dsimp only
  split
  · exact refused_kept
  · exact gate_kept (sealOwn_kept h)

theorem execFixSealReport_kept {rank step : Nat} {s : State} (h : Kept z s) : OutKept z (execFixSealReport rank step s) :=
  gate_kept (groupSeal_kept h)

theorem execFixPullRequest_kept {rank step upTo : Nat} {s : State} (h : Kept z s) : OutKept z (execFixPullRequest rank step upTo s) := by
  unfold execFixPullRequest
  dsimp only
  split
  · exact refused_kept
  · exact gate_kept (foldl_kept (fun _ _ hu => sendMsg_kept hu) (foldl_kept (fun _ _ hu => sendChunk64_kept hu) h))

theorem bodyFixRequest_kept {p : Packet} {s : State} (h : Kept z s) : Kept z (bodyFixRequest p s) :=
  ite_kept (completeOpen_kept h) (completeOpen_kept h)

theorem acceptFixRequest_kept {p : Packet} {s : State} (h : Kept z s) : Kept z (acceptFixRequest p s) :=
  acceptPacket_kept (fun _ _ hv => bodyFixRequest_kept hv) h

theorem execFixRequest_kept {p : Packet} {s : State} (h : Kept z s) : OutKept z (execFixRequest p s) :=
  packetOut_kept (fun _ => acceptFixRequest_kept) h

theorem acceptFixStatus_kept {p : Packet} {s : State} (h : Kept z s) : Kept z (acceptFixStatus p s) :=
  acceptPacket_kept (fun _ _ hv => finishSlot_kept hv) h

theorem execFixStatusGet_kept {p : Packet} {s : State} (h : Kept z s) : OutKept z (execFixStatusGet p s) :=
  packetOut_kept (fun _ => acceptFixStatus_kept) h

theorem bodyFixExport_kept {p : Packet} {idx : Nat} {s : State} (h : Kept z s) : Kept z (bodyFixExport p idx s) :=
  ite_kept (refuse8_kept h) (complete_kept h)

theorem acceptFixExport_kept {p : Packet} {s : State} (h : Kept z s) : Kept z (acceptFixExport p s) :=
  acceptPacket_kept (fun _ _ hv => bodyFixExport_kept hv) h

theorem execFixExport_kept {p : Packet} {s : State} (h : Kept z s) : OutKept z (execFixExport p s) :=
  packetOut_kept (fun _ => acceptFixExport_kept) h

/-- What a filter leaves of a canonical list is canonical. -/
theorem wfFrom_filter {m : Mem} {lo : Option Nat} (p : Nat × Byte → Bool) (h : Memory.wfFrom lo m = true) :
    Memory.wfFrom lo (m.filter p) = true := by
  induction m generalizing lo with
  | nil => exact h
  | cons e r ih =>
    obtain ⟨a, b⟩ := e
    have hr : Memory.wfFrom (some a) r = true := by cases lo <;> simp_all [Memory.wfFrom]
    cases hp : p (a, b) with
    | true =>
      have htail := ih hr
      cases lo <;> simp_all [Memory.wfFrom]
    | false =>
      rw [List.filter_cons_of_neg (by simp [hp])]
      cases lo with
      | none => exact Memory.wf_of_from (ih hr)
      | some k => exact Memory.wfFrom_weaken (ih hr) (by simp [Memory.wfFrom] at h; omega)

theorem wf_pasteMem {base n : Nat} {cells m : Mem} (h : Memory.wf m = true) : Memory.wf (pasteMem base n cells m) = true :=
  List.foldlRecOn _ _ (motive := fun m => Memory.wf m = true) (wfFrom_filter _ h) fun _ ih _ _ => Memory.wf_set ih

/-- Another canonical memory of the host. -/
theorem with_hostMem_kept {m : Mem} {x : FixSys} {s : State} (hm : Memory.wf s.host.mem = true → Memory.wf m = true) (h : Kept z s) :
    Kept z { s with host := { s.host with mem := m }, fix := x } :=
  kept_of_canonical h (fun ⟨hhbm, hhost, hcxl⟩ => ⟨hhbm, hm hhost, hcxl⟩) rfl

theorem exportImage_kept {dest : Nat} {i : FixImage} {s : State} (h : Kept z s) : Kept z (exportImage dest i s) :=
  with_hostMem_kept (fun hm => List.foldlRecOn _ _ (motive := fun m => Memory.wf m = true) hm fun _ ih _ _ => wf_pasteMem ih) (hostWrite_kept h)

theorem execFixExportComplete_kept {s : State} (h : Kept z s) : OutKept z (execFixExportComplete s) := by
  unfold execFixExportComplete
  dsimp only
  split
  · exact next_kept (finishPending_kept (with_fix_kept (exportImage_kept h)))
  · exact refused_kept

theorem bodyManifest_kept {p : Packet} {idx : Nat} {s : State} (h : Kept z s) : Kept z (bodyManifest p idx s) := by
  unfold bodyManifest
  dsimp only
  split
  · exact refuse8_kept h
  · exact finishSlot_kept h

theorem acceptManifest_kept {p : Packet} {s : State} (h : Kept z s) : Kept z (acceptManifest p s) :=
  acceptPacket_kept (fun _ _ hv => bodyManifest_kept hv) h

theorem execStepManifestGet_kept {p : Packet} {s : State} (h : Kept z s) : OutKept z (execStepManifestGet p s) :=
  packetOut_kept (fun _ => acceptManifest_kept) h

theorem finalise_kept {s : State} (h : Kept z s) : Kept z (finalise s) :=
  storeManifest_kept h

theorem execManifestFinalise_kept {s : State} (h : Kept z s) : OutKept z (execManifestFinalise s) := by
  refine gate_kept (ite_kept (replayMismatch_kept (finalise_kept h)) ?_)
  split
  · exact sendMsg_kept (finalise_kept h)
  · exact enterMuster_kept (finalise_kept h)

theorem execStepManifestReceive_kept {bytes : List Byte} {s : State} (h : Kept z s) : OutKept z (execStepManifestReceive bytes s) := by
  unfold execStepManifestReceive
  split
  · exact next_kept (with_fix_kept h)
  · refine next_kept (sendMsg_kept (with_fix_kept ?_))
    split
    · exact storeRing_kept h
    · exact h
  · exact refused_kept

theorem execStepManifestAck_kept {step : Nat} {s : State} (h : Kept z s) : OutKept z (execStepManifestAck step s) :=
  gate_kept (offerMuster_kept h)

theorem discardWorks_kept {e : Nat × Ctx} {s : State} (h : Kept z s) : Kept z (discardWorks e s) :=
  foldl_kept (fun _ _ hu => abortWork_kept hu) h

theorem restoreRegions_kept {i : FixImage} {s : State} (h : Kept z s) : Kept z (restoreRegions i s) := by
  refine foldl_kept (fun _ _ hu => ?_) h
  split
  · exact foldl_kept (fun _ _ hu => moduleWrite_kept hu) hu

theorem dropWorks_kept {step dropped : Nat} {s : State} (h : Kept z s) : Kept z (dropWorks step dropped s) :=
  foldl_kept (fun _ _ hu => endWork_kept hu) h

theorem makeCut_kept {cut : Nat × Nat × Nat × Nat} {s : State} (h : Kept z s) : Kept z (makeCut cut s) := by
  unfold makeCut
  exact dropWorks_kept (with_ctxs_kept (manRecord_kept (with_bnd_kept h)))

theorem openReplay_kept {s : State} (h : Kept z s) : Kept z (openReplay s) := by
  unfold openReplay
  split
  · exact makeCut_kept h
  · exact h

theorem endReplay_kept {s : State} (h : Kept z s) : Kept z (endReplay s) :=
  ite_kept h (with_fix_kept (ite_kept (foldl_kept (fun _ _ hu => finishPending_kept hu) h) h))

theorem discardStarts_kept {s : State} (h : Kept z s) : Kept z (discardStarts s) :=
  foldl_kept (fun _ _ hu => completeWith_kept hu) h

theorem applyRestore_kept {i : FixImage} {step replayTo : Nat} {log : List Manifest} {s : State} (h : Kept z s) :
    Kept z (applyRestore i step replayTo log s) := by
  refine settleIngest_kept (openReplay_kept (openStep_kept (restoreRegions_kept ?_)))
  refine foldl_kept (fun _ _ hu => ?_) (foldl_kept (fun _ _ hu => discardWorks_kept hu) (discardStarts_kept h))
  exact kept_of_sizes hu rfl rfl

theorem beginRestore_kept {r : Restore} {s : State} (h : Kept z s) : Kept z (beginRestore r s) :=
  ite_kept (with_fix_kept (abortFix_kept h)) (enterState_kept (with_fix_kept (abortFix_kept h)))

theorem restoreEnds_kept {r : Restore} {s : State} (h : Kept z s) : Kept z (restoreEnds r s) :=
  ite_kept (ite_kept h (ite_kept h (finishPending_kept h))) (leaveFixing_kept (ite_kept h (ite_kept h (finishPending_kept h))))

theorem forgetRank_kept {s : State} {rank : Nat} (h : Kept z s) : Kept z (forgetRank s rank) :=
  ite_kept (abandonStream_kept h) h

theorem restream_kept {old : List GroupRec} {oldConsort : Nat} {s : State} (h : Kept z s) : Kept z (restream old oldConsort s) := by
  refine ite_kept ?_ h
  split
  · exact startStream_kept (addUncovered_kept h)
  · exact h

theorem chartTaken_kept {old : List GroupRec} {oldConsort : Nat} {s0 : State} (h : Kept z s0) : Kept z (chartTaken old oldConsort s0) :=
  restream_kept (with_grp_kept (foldl_kept (fun _ _ hu => forgetRank_kept hu) (ite_kept h h)))

theorem changeChart_kept {recs : List GroupRec} {s : State} (h : Kept z s) : Kept z (changeChart recs s) :=
  chartTaken_kept (changeGroup_kept h)

theorem pairConsorts_kept {s : State} (h : Kept z s) : Kept z (pairConsorts s) :=
  ite_kept (with_grp_kept (changeChart_kept h)) h

theorem sendAssume_kept {f : Nat} {s : State} {e : Nat × Nat} (h : Kept z s) : Kept z (sendAssume f s e) :=
  sendMsg_kept (ite_kept h (sendMsg_kept h))

theorem ownRestore_kept {p : Packet} {slot f upTo : Nat} {s : State} (h : Kept z s) : Kept z (ownRestore p slot f upTo s) :=
  beginRestore_kept h

theorem mirrorRecovery_kept {f upTo : Nat} {s : State} (h : Kept z s) : Kept z (mirrorRecovery f upTo s) :=
  ite_kept h (sendMsg_kept h)

theorem runRecovery_kept {recs : List GroupRec} {lost : List Nat} {standbys : List (Nat × Nat)} {tried : List Nat} {p : Packet} {slot f upTo : Nat}
    {s : State} (h : Kept z s) :
    Kept z (runRecovery recs lost standbys tried p slot f upTo s) :=
  ownRestore_kept (with_fix_kept (sendAll_kept (foldl_kept (fun _ _ hu => sendAssume_kept hu)
      (abortEpoch_kept (sendAll_kept (changeChart_kept (with_grp_kept (mirrorRecovery_kept h))))))))

theorem markFailed_kept {rank : Nat} {s : State} (h : Kept z s) : Kept z (markFailed rank s) :=
  ite_kept (with_grp_kept (changeChart_kept h)) (changeChart_kept h)

theorem loseMember_kept {rank : Nat} {s : State} (h : Kept z s) : Kept z (loseMember rank s) := by
  unfold loseMember
  dsimp only
  split
  · exact ite_kept (markFailed_kept h) (runRecovery_kept h)
  · exact markFailed_kept h

theorem nextStandby_kept {b : Nat} {s : State} (h : Kept z s) : Kept z (nextStandby b s) := by
  unfold nextStandby
  dsimp only
  split
  · exact h
  · split
    · exact h
    · split
      · exact h
      · exact sendAssume_kept h

theorem declareLost_kept {rank : Nat} {s : State} (h : Kept z s) : Kept z (declareLost rank s) := by
  unfold declareLost
  split
  · exact h
  · exact ite_kept (nextStandby_kept (markFailed_kept h)) (ite_kept (markFailed_kept h) (ite_kept (loseMember_kept h) (markFailed_kept h)))

theorem rollBack_kept {s : State} (h : Kept z s) : Kept z (rollBack s) := by
  refine ite_kept h (ite_kept ?_ (sendMsg_kept h))
  dsimp only
  split
  · exact runRecovery_kept h
  · exact h

theorem restoreDone_kept {rank : Nat} {s : State} (h : Kept z s) : Kept z (restoreDone rank s) := by
  unfold restoreDone
  dsimp only
  split
  · exact h
  · exact ite_kept (sendAll_kept h) h

theorem recoveryFails_kept {s : State} (h : Kept z s) : Kept z (recoveryFails s) :=
  with_fix_kept (replayMismatch_kept h)

theorem substituted_kept {b : Nat} {s : State} (h : Kept z s) : Kept z (substituted b s) := by
  unfold substituted
  dsimp only
  split
  · exact h
  · split
    · exact restoreDone_kept (with_fix_kept (changeChart_kept h))
    · exact h

theorem bodyFixRestore_kept {p : Packet} {idx : Nat} {s : State} (h : Kept z s) : Kept z (bodyFixRestore p idx s) := by
  refine ite_kept (refuse8_kept h) ?_
  split
  · exact refuse8_kept h
  · exact ite_kept (refuse8_kept h) (ite_kept (runRecovery_kept (complete_kept h)) (beginRestore_kept (complete_kept h)))

theorem acceptFixRestore_kept {p : Packet} {s : State} (h : Kept z s) : Kept z (acceptFixRestore p s) :=
  acceptPacket_kept (fun _ _ hv => bodyFixRestore_kept hv) h

theorem execFixRestore_kept {p : Packet} {s : State} (h : Kept z s) : OutKept z (execFixRestore p s) :=
  packetOut_kept (fun _ => acceptFixRestore_kept) h

theorem leavePlace_kept {s : State} (h : Kept z s) : Kept z (leavePlace s) := by
  unfold leavePlace
  dsimp only
  split
  · exact h
  · exact h

theorem refuseRestore_kept {r : Restore} {s : State} (h : Kept z s) : Kept z (refuseRestore r s) :=
  ite_kept (recoveryFails_kept (ite_kept (leavePlace_kept h) (leaveFixing_kept h)))
      (finishPending_kept (recoveryFails_kept (ite_kept (leavePlace_kept h) (leaveFixing_kept h))))

theorem execFixRestoreComplete_kept {s : State} (h : Kept z s) : OutKept z (execFixRestoreComplete s) := by
  unfold execFixRestoreComplete
  dsimp only
  split
  · exact refused_kept
  · split
    · exact refused_kept
    · exact gate_kept (ite_kept (refuseRestore_kept h) (restoreDone_kept (restoreEnds_kept (applyRestore_kept (ite_kept h h)))))

theorem bodyAssume_kept {p : Packet} {idx : Nat} {s : State} (h : Kept z s) : Kept z (bodyAssume p idx s) :=
  ite_kept (refuse8_kept h) (sendMsg_kept (with_fix_kept (complete_kept h)))

theorem acceptAssume_kept {p : Packet} {s : State} (h : Kept z s) : Kept z (acceptAssume p s) :=
  acceptPacket_kept (fun _ _ hv => bodyAssume_kept hv) h

theorem execStandbyAssume_kept {p : Packet} {s : State} (h : Kept z s) : OutKept z (execStandbyAssume p s) :=
  packetOut_kept (fun _ => acceptAssume_kept) h

theorem pullEnds_kept {r : Restore} {h : List Byte} {s : State} (hs : Kept z s) : Kept z (pullEnds r h s) :=
  ite_kept (finishPending_kept (leavePlace_kept hs)) (ite_kept (finishPending_kept (leavePlace_kept hs)) hs)

theorem execStandbyPullComplete_kept {s : State} (h : Kept z s) : OutKept z (execStandbyPullComplete s) := by
  unfold execStandbyPullComplete
  split
  · exact refused_kept
  · split
    · exact refused_kept
    · exact gate_kept (pullEnds_kept h)

theorem execFixCopyComplete_kept {s : State} (h : Kept z s) : OutKept z (execFixCopyComplete s) := by
  refine gate_kept (ite_kept (abortFix_kept h) ?_)
  split
  · exact ite_kept (rollBack_kept (abortFix_kept (countPoison_kept h))) (abortFix_kept h)
  · exact rollBack_kept (abortFix_kept (countPoison_kept h))
  · exact with_fix_kept (storeRegions_kept h)

theorem bodyFeedOverride_kept {p : Packet} {s : State} (h : Kept z s) : Kept z (bodyFeedOverride p s) :=
  ite_kept (completeOpen_kept h) (completeOk_kept h)

theorem acceptFeedOverride_kept {p : Packet} {s : State} (h : Kept z s) : Kept z (acceptFeedOverride p s) :=
  acceptPacket_kept (fun _ _ hv => bodyFeedOverride_kept hv) h

theorem execFeedOverride_kept {p : Packet} {s : State} (h : Kept z s) : OutKept z (execFeedOverride p s) :=
  packetOut_kept (fun _ => acceptFeedOverride_kept) h

theorem bodyRoleSet_kept {p : Packet} {s : State} (h : Kept z s) : Kept z (bodyRoleSet p s) :=
  ite_kept (completeWith_kept h) (completeOk_kept (takeRole_kept h))

theorem acceptRoleSet_kept {p : Packet} {s : State} (h : Kept z s) : Kept z (acceptRoleSet p s) :=
  acceptPacket_kept (fun _ _ hv => bodyRoleSet_kept hv) h

theorem execRoleSet_kept {p : Packet} {s : State} (h : Kept z s) : OutKept z (execRoleSet p s) :=
  packetOut_kept (fun _ => acceptRoleSet_kept) h

theorem bodyGroupJoin_kept {p : Packet} {s : State} (h : Kept z s) : Kept z (bodyGroupJoin p s) := by
  refine ite_kept (completeOpen_kept h) (ite_kept (completeWith_kept h) ?_)
  split
  · exact completeWith_kept h
  · exact ite_kept (completeWith_kept h) (changeChart_kept (complete_kept h))

theorem acceptGroupJoin_kept {p : Packet} {s : State} (h : Kept z s) : Kept z (acceptGroupJoin p s) :=
  acceptPacket_kept (fun _ _ hv => bodyGroupJoin_kept hv) h

theorem execGroupJoin_kept {p : Packet} {s : State} (h : Kept z s) : OutKept z (execGroupJoin p s) :=
  packetOut_kept (fun _ => acceptGroupJoin_kept) h

theorem acceptGroupChart_kept {p : Packet} {s : State} (h : Kept z s) : Kept z (acceptGroupChart p s) :=
  acceptPacket_kept (fun _ _ hv => finishSlot_kept hv) h

theorem execGroupChartGet_kept {p : Packet} {s : State} (h : Kept z s) : OutKept z (execGroupChartGet p s) :=
  packetOut_kept (fun _ => acceptGroupChart_kept) h

theorem takeRoutes_kept {routes : List (Nat × List Nat)} {s : State} (h : Kept z s) : Kept z (takeRoutes routes s) :=
  kept_of_sizes h rfl (by simp [sizes, takeRoutes])

theorem execGroupChartChange_kept {recs : List GroupRec} {routes : List (Nat × List Nat)} {s : State} (h : Kept z s) :
    OutKept z (execGroupChartChange recs routes s) :=
  gate_kept (sendAll_kept (ite_kept (changeChart_kept (takeRoutes_kept h)) (with_grp_kept (changeChart_kept (takeRoutes_kept h)))))

theorem execGroupChartPublication_kept {epoch : Word} {gen manager deputy : Nat} {recs : List GroupRec} {routes : List (Nat × List Nat)}
    {s : State} (h : Kept z s) :
    OutKept z (execGroupChartPublication epoch gen manager deputy recs routes s) :=
  gate_kept (chartTaken_kept (takeRoutes_kept h))

theorem execGroupHeartbeatSend_kept {s : State} (h : Kept z s) : OutKept z (execGroupHeartbeatSend s) :=
  gate_kept (ite_kept (sendAll_kept h) (sendMsg_kept h))

theorem execGroupHeartbeatReceive_kept {rank sea : Nat} {reefHigh thermal : Bool} {s : State} (h : Kept z s) :
    OutKept z (execGroupHeartbeatReceive rank sea reefHigh thermal s) :=
  gate_kept h

theorem execHeartbeatTimeout_kept {rank : Nat} {s : State} (h : Kept z s) : OutKept z (execHeartbeatTimeout rank s) :=
  gate_kept (sendMsg_kept (sendMsg_kept h))

theorem takeOver_kept {s : State} (h : Kept z s) : Kept z (takeOver s) :=
  declareLost_kept h

theorem execProbeTimeout_kept {rank : Nat} {s : State} (h : Kept z s) : OutKept z (execProbeTimeout rank s) :=
  gate_kept (ite_kept (declareLost_kept h) (takeOver_kept h))

theorem execProbeReceive_kept {rank port : Nat} {s : State} (h : Kept z s) : OutKept z (execProbeReceive rank port s) :=
  gate_kept (sendMsg_kept h)

theorem execFailedNotice_kept {rank : Nat} {s : State} (h : Kept z s) : OutKept z (execFailedNotice rank s) :=
  gate_kept (declareLost_kept h)

theorem execMusterLimitExpiry_kept {rank : Nat} {s : State} (h : Kept z s) : OutKept z (execMusterLimitExpiry rank s) :=
  gate_kept (declareLost_kept h)

theorem joinGroup_kept {manager rank : Nat} {s : State} (h : Kept z s) : Kept z (joinGroup manager rank s) :=
  ite_kept (enterState_kept h) h

theorem recoveryReply_kept {rank opcode status : Nat} {s : State} (h : Kept z s) : Kept z (recoveryReply rank opcode status s) :=
  ite_kept h (ite_kept (ite_kept (restoreDone_kept h) (recoveryFails_kept h)) (ite_kept (substituted_kept h) (nextStandby_kept h)))

theorem execIlzanReplyReceive_kept {rank opcode status : Nat} {value : BitVec 64} {s : State} (h : Kept z s) :
    OutKept z (execIlzanReplyReceive rank opcode status value s) :=
  gate_kept (ite_kept (joinGroup_kept h) (ite_kept (declareLost_kept h) (ite_kept (recoveryReply_kept h) h)))

end

end Sys2Proof.Machine
end

section
/-! SUPPORT. What carries the invariants of every step through memory, the group step, updates, kernel images and stripes (08, 11, 06, 05). -/
namespace Sys2Proof.Machine

section
variable {z : State}

theorem stopKernel_kept {c : Nat} {w : Work} {d : FaultDetail} {s : State} (h : Kept z s) : Kept z (stopKernel c w d s) :=
  faultWork_kept h

theorem faultGranule_kept {c : Nat} {w : Work} {i g : Nat} {d : FaultDetail} {s : State} (h : Kept z s) : Kept z (faultGranule c w i g d s) := by
  unfold faultGranule
  dsimp only
  split
  · exact faultWork_kept h
  · exact h

theorem pcieTarget_kept {c va : Nat} {acc : Access} {id : Nat} {s : State} (h : Kept z s) : OutKept z (pcieTarget c va acc id s) := by
  unfold pcieTarget
  dsimp only
  split
  · exact refused_kept
  · split
    · exact refused_kept
    · refine ite_outKept refused_kept (ite_outKept ?_ (ite_outKept ?_ ?_))
      · split
        next hu _ =>
          split
          · exact gate_kept (faultGranule_kept (snd_kept hu h))
          · exact refused_kept
        · exact refused_kept
      · split
        · exact gate_kept (faultWork_kept h)
        · exact refused_kept
      · split
        · exact gate_kept (stopKernel_kept h)
        · exact refused_kept

theorem pcieShard_kept {c va unit : Nat} {s : State} (h : Kept z s) : OutKept z (pcieShard c va unit s) := by
  unfold pcieShard
  split
  · exact refused_kept
  · split
    · exact gate_kept (ingestFault_kept h)
    · exact refused_kept

theorem takeSlot_kept {src : Source} {s : State} (h : Kept z s) : Kept z (takeSlot src s) := by
  unfold takeSlot
  dsimp only
  split
  · exact h
  · exact h

theorem execPcieCompletionTimeout_kept {r : PcieRequest} {s : State} (h : Kept z s) : OutKept z (execPcieCompletionTimeout r s) := by
  unfold execPcieCompletionTimeout
  split
  · split
    · exact gate_kept (queueError_kept h)
    · exact refused_kept
  · exact gate_kept (completeWith_kept (owe_kept (takeSlot_kept h)))
  · exact pcieTarget_kept h
  · exact pcieShard_kept h

theorem execHostLinkDlActive_kept {active : Bool} {s : State} (h : Kept z s) : OutKept z (execHostLinkDlActive active s) :=
  gate_kept h

theorem placeTlb_kept {e : TlbEntry} {s : State} (h : Kept z s) : Kept z (placeTlb e s) :=
  ite_kept h (ite_kept h h)

theorem fillTlb_kept {unit c va : Nat} {s : State} (h : Kept z s) : Kept z (fillTlb unit c va s) := by
  unfold fillTlb
  split
  · exact placeTlb_kept h
  · exact h

theorem translationFault_kept {c va unit : Nat} {access : Access} {f : TFault} {x : Ctx} {s t : State}
    (ht : translationFault c va unit access f x s = some t) (h : Kept z s) : Kept z t := by
  unfold translationFault at ht
  dsimp only at ht
  have hs := countPoison_kept (e := .tf va f) h
  split at ht
  · obtain ⟨w, -, rfl⟩ := Option.map_eq_some_iff.mp ht
    exact stopKernel_kept hs
  · obtain ⟨w, -, hw⟩ := Option.bind_eq_some_iff.mp ht
    obtain ⟨e, -, rfl⟩ := Option.map_eq_some_iff.mp hw
    exact faultGranule_kept hs
  · split at ht
    · cases ht
      exact ingestFault_kept hs
    · cases ht
  · obtain ⟨w, -, rfl⟩ := Option.map_eq_some_iff.mp ht
    exact faultWork_kept (kept_of_sizes hs rfl rfl)
  · obtain ⟨w, -, rfl⟩ := Option.map_eq_some_iff.mp ht
    exact faultWork_kept hs
  · cases ht

theorem execAddressTranslation_kept {c va unit : Nat} {access : Access} {s : State} (h : Kept z s) :
    OutKept z (execAddressTranslation c va unit access s) := by
  unfold execAddressTranslation
  split
  · exact refused_kept
  · refine ite_outKept refused_kept ?_
    split
    · exact next_kept (fillTlb_kept h)
    · split
      next t he => exact next_kept (translationFault_kept he h)
      · exact refused_kept

theorem countUe_kept {stack : Nat} {s : State} (h : Kept z s) : Kept z (countUe stack s) :=
  kept_of_sizes h rfl rfl

theorem poisonGranule_kept {key : Nat} {s : State} (h : Kept z s) : Kept z (poisonGranule key s) := by
  unfold poisonGranule
  refine foldl_kept (fun _ _ hu => ?_) h
  exact kept_of_sizes hu rfl rfl

theorem writeGranule_kept {key : Nat} {l : List Byte} {s : State} (h : Kept z s) : Kept z (writeGranule key l s) :=
  kept_of_canonical h (fun hc => ⟨Memory.wf_setN hc.1, hc.2⟩) rfl

theorem kept_of_poolError {stack stripe : Nat} {s t : State} {lost : Bool} (h : Kept z s) (he : poolError stack stripe s = (t, lost)) : Kept z t := by
  have hc : Kept z (countMem stack (fun m => { m with recon := sat32 m.recon 1 }) s) := kept_of_sizes h rfl rfl
  unfold poolError at he
  dsimp only at he
  split at he
  · split at he
    · cases he
      exact writeGranule_kept hc
    · cases he
      exact poisonGranule_kept h
  · cases he
    exact poisonGranule_kept h

theorem escalate_kept {block : Nat} {armoured : Bool} {s : State} (h : Kept z s) : Kept z (escalate block armoured s) :=
  ite_kept (rollBack_kept (abortFix_kept h)) (ite_kept (rollBack_kept h) h)

theorem uncorrectable_kept {stack off : Nat} {s : State} (h : Kept z s) : Kept z (uncorrectable stack off s) := by
  have ht := countUe_kept (stack := stack) h
  cases hp : stackPart s stack off with
  | plain =>
    rw [uncorrectable_of_part hp]
    exact escalate_kept (kept_of_sizes ht rfl rfl)
  | pool r =>
    rw [uncorrectable_of_part hp]
    dsimp only
    split
    next u he => exact escalate_kept (kept_of_poolError ht he)
    next u he => exact kept_of_poolError ht he
  | reserve r =>
    rw [uncorrectable_of_part hp]
    exact escalate_kept (poisonGranule_kept ht)

theorem lineError_kept {l : Line} {s : State} (h : Kept z s) : Kept z (lineError l s) :=
  ite_kept h h

theorem eccFound_kept {read : Bool} {stack off : Nat} {f : EccFinding} {s : State} (h : Kept z s) : Kept z (eccFound read stack off f s) := by
  unfold eccFound
  dsimp only
  split
  · exact ite_kept h h
  · exact ite_kept h h
  · exact noteSoft_kept (ite_kept h h)
  · exact uncorrectable_kept (ite_kept h h)
  · split
    · exact lineError_kept (ite_kept h h)
    · exact ite_kept h h

theorem execMemoryRead_kept {stack off : Nat} {found : ReadFound} {s : State} (h : Kept z s) : OutKept z (execMemoryRead stack off found s) := by
  unfold execMemoryRead
  split
  · exact refused_kept
  · exact gate_kept (touchLine_kept (eccFound_kept h))

theorem execPatrolScrub_kept {stack off : Nat} {finding : EccFinding} {s : State} (h : Kept z s) : OutKept z (execPatrolScrub stack off finding s) :=
  gate_kept (eccFound_kept h)

theorem execArmouredWrite_kept {dpa : Nat} {data : List Byte} {s : State} (h : Kept z s) : OutKept z (execArmouredWrite dpa data s) := by
  unfold execArmouredWrite
  split
  · exact refused_kept
  · exact gate_kept (devStore_kept h)

theorem execArmouredWriteAck_kept {q r : Nat} {s : State} (h : Kept z s) : OutKept z (execArmouredWriteAck q r s) :=
  gate_kept h

theorem loseLines_kept {stack : Nat} {s : State} (h : Kept z s) : Kept z (loseLines stack s) :=
  kept_of_sizes h rfl rfl

theorem loseStack_kept {stack : Nat} {s : State} (h : Kept z s) : Kept z (loseStack stack s) :=
  ite_kept (noteSoft_kept (decideLeaving_kept (setArmour_kept (abortFix_kept (loseLines_kept h)))))
      (moduleLoss_kept (decideLeaving_kept (setArmour_kept (abortFix_kept (loseLines_kept h)))))

theorem execStackLoss_kept {stack : Nat} {s : State} (h : Kept z s) : OutKept z (execStackLoss stack s) :=
  gate_kept (loseStack_kept h)

theorem advanceCursor_kept {q : Nat} {s : State} (h : Kept z s) : Kept z (advanceCursor q s) :=
  setArmour_kept h

theorem rebuildFails_kept {q j : Nat} {s : State} (h : Kept z s) : Kept z (rebuildFails q j s) := by
  unfold rebuildFails
  dsimp only
  exact rollBack_kept (advanceCursor_kept (countUe_kept (countUe_kept (poisonGranule_kept (poisonGranule_kept h)))))

theorem rebuildOne_kept {q : Nat} {error : Option Nat} {s : State} (h : Kept z s) : Kept z (rebuildOne q error s) := by
  by_cases hp : parityJ (armourOf s q).cursor = (armourOf s q).lostJ
  · rw [rebuildOne_parity error hp]
    exact advanceCursor_kept h
  · cases error with
    | some j =>
      rw [rebuildOne, if_neg hp]
      exact rebuildFails_kept h
    | none =>
      cases hl : rebuiltBytes s q (armourOf s q).cursor (survivors (armourOf s q).lostJ) with
      | some l =>
        rw [rebuildOne_data hp hl]
        exact advanceCursor_kept (writeGranule_kept h)
      | none =>
        rw [rebuildOne, if_neg hp]
        generalize rebuiltBytes s q (armourOf s q).cursor (survivors (armourOf s q).lostJ) = o at hl
        subst hl
        dsimp only
        generalize (survivors (armourOf s q).lostJ).find? _ = o
        cases o with
        | some j => exact rebuildFails_kept h
        | none => exact h

theorem execRebuildStripe_kept {q : Nat} {error : Option Nat} {s : State} (h : Kept z s) : OutKept z (execRebuildStripe q error s) :=
  gate_kept (rebuildOne_kept h)

theorem remoteOp_kept {rank cell : Nat} {act : SyncAct} {s : State} (h : Kept z s) : Kept z (remoteOp rank cell act s) :=
  ite_kept h (ite_kept (syncApply_kept h) (ite_kept (syncApply_kept h) h))

theorem execRemoteSyncOperation_kept {rank cell : Nat} {act : SyncAct} {s : State} (h : Kept z s) :
    OutKept z (execRemoteSyncOperation rank cell act s) :=
  gate_kept (remoteOp_kept h)

theorem execHandover_kept {rank step : Nat} {s : State} (h : Kept z s) : OutKept z (execHandover rank step s) :=
  gate_kept (ite_kept h (takeHandover_kept h))

theorem execDeadlineExpiry_kept {step : Nat} {s : State} (h : Kept z s) : OutKept z (execDeadlineExpiry step s) :=
  gate_kept (ite_kept h (sendDecision_kept h))

theorem takeDecision_kept {l : List LateEntry} {s : State} (h : Kept z s) : Kept z (takeDecision l s) :=
  settleDecision_kept (ite_kept (makeCut_kept (with_grp_kept (ite_kept h (recordStragglers_kept h)))) (with_grp_kept (ite_kept h
      (recordStragglers_kept h))))

theorem execDecision_kept {step : Nat} {entries : List LateEntry} {s : State} (h : Kept z s) : OutKept z (execDecision step entries s) :=
  gate_kept (takeDecision_kept h)

theorem newScratch_kept {c id : Nat} {s : State} (h : Kept z s) : Kept z (newScratch c id s) :=
  kept_of_sizes h rfl rfl

theorem ensureScratch_kept {c base : Nat} {s : State} (h : Kept z s) : Kept z (ensureScratch c base s) :=
  foldl_kept (fun _ _ hu => ite_kept hu (newScratch_kept hu)) h

theorem keepScratch_kept {c : Nat} {o : OrthoOut} {s : State} (h : Kept z s) : Kept z (keepScratch c o s) := by
  unfold keepScratch
  refine foldl_kept (fun _ _ hu => ?_) (ite_kept h h)
  exact kept_of_sizes hu rfl rfl

theorem bumpGroup_kept {c va off n : Nat} {s : State} (h : Kept z s) : OkKept z (bumpGroup c va off n s) := by
  refine ite_okKept (ok_kept h) ?_
  split
  · exact error_kept
  · exact vaWrite_kept h

theorem writeLows_kept {c : Nat} {p : Param} {l : List (Nat × FNum)} {s : State} (h : Kept z s) : OkKept z (writeLows c p l s) := by
  induction l generalizing s with
  | nil => exact ok_kept h
  | cons e r ih =>
    unfold writeLows
    split
    · exact error_kept
    · split
      · exact error_kept
      next t he => exact ih (vaWrite_kept h _ he)

theorem writeParamGranule_kept {c : Nat} {w : Work} {p : Param} {part : Nat} {l : List (Nat × FNum × FNum)} {s : State} (h : Kept z s) :
    OkKept z (writeParamGranule c w p part l s) := by
  unfold writeParamGranule
  dsimp only
  split
  · exact error_kept
  next t1 _ _ he1 =>
    have ht1 : Kept z t1 := writeElems_kept h _ he1
    split
    · exact error_kept
    next t2 _ _ he2 =>
      have ht2 : Kept z t2 := writeElems_kept ht1 _ he2
      split
      · exact error_kept
      next t3 he3 => exact ok_kept (ctxMod_kept (writeLows_kept ht2 _ he3))

theorem writeParamAll_kept {c : Nat} {w : Work} {p : Param} {l : List (Nat × FNum × FNum)} {k part : Nat} {s : State} (h : Kept z s) :
    OkKept z (writeParamAll c w p l k part s) := by
  induction k generalizing l part s with
  | zero => exact ok_kept h
  | succ k ih =>
    unfold writeParamAll
    dsimp only
    split
    · exact ok_kept h
    · split
      · exact error_kept
      next t he => exact ih (writeParamGranule_kept h _ he)

theorem updateParam_kept {c : Nat} {w : Work} {p : Param} {part : Nat} {s : State} (h : Kept z s) : OkKept z (updateParam c w p part s) := by
  unfold updateParam
  dsimp only
  split
  · exact error_kept
  · split
    · exact error_kept
    next t he =>
      have ht := writeParamAll_kept (keepScratch_kept (ite_kept (ensureScratch_kept h) h)) _ he
      split
      · exact error_kept
      next t he =>
        have ht := bumpGroup_kept ht _ he
        split
        · exact error_kept
        next t he =>
          have ht := bumpGroup_kept ht _ he
          exact ok_kept ht

theorem stampGroup_kept {c : Nat} {w : Work} {p : Param} {rest : List Param} {s : State} (h : Kept z s) : OkKept z (stampGroup c w p rest s) :=
  ite_okKept (ok_kept h) (vaWrite_kept h)

theorem updateParams_kept {c : Nat} {w : Work} {l : List Param} {part : Nat} {s : State} (h : Kept z s) : Kept z (updateParams c w l part s).1 := by
  induction l generalizing part s with
  | nil => exact h
  | cons p r ih =>
    unfold updateParams
    split
    · exact ih h
    · split
      · exact h
      next t he =>
        have ht : Kept z t := updateParam_kept h _ he
        split
        · exact h
        next u hu => exact ih (stampGroup_kept ht _ hu)

theorem runParams_kept {c : Nat} {w : Work} {ps : List Param} {s : State} (h : Kept z s) : Kept z (runParams c w ps s) := by
  unfold runParams
  dsimp only
  split
  next t he =>
    have ht := fst_kept he (updateParams_kept h)
    exact ht
  next t _ _ _ he =>
    have ht := fst_kept he (updateParams_kept h)
    exact faultKernel_kept ht

theorem runUpdate_kept {c : Nat} {x1 : Ctx} {w : Work} {s : State} (h : Kept z s) : Kept z (runUpdate c x1 w s) := by
  unfold runUpdate
  split
  · refine ite_kept (endWork_kept h) ?_
    split
    · exact endWork_kept h
    · exact ite_kept (endWork_kept h) (ite_kept (endWork_kept h) (runParams_kept h))
  · exact faultKernel_kept h
  · exact faultKernel_kept h

theorem execUpdate_kept {c id : Nat} {s : State} (h : Kept z s) : OutKept z (execUpdate c id s) :=
  kernelRow_kept (fun _ _ _ hv => runUpdate_kept hv) h

theorem mergeWrite_kept {c : Nat} {w : Work} {d : Elem} {r : Except AccErr (State × WatchLive × Nat)} (h : OkFstKept z r) :
    VecKept z (mergeWrite c w d r) := by
  unfold mergeWrite
  split
  · exact vecFault_kept
  next t counts flags => exact vecOk_kept (mergeHeld_kept (h _ rfl))

theorem writeTo_kept {c : Nat} {w : Work} {f : Fmt} {pair : Bool} {r : Round} {d : Elem} {v : OutVal} {fl : Nat} {s : State} (h : Kept z s) :
    VecKept z (writeTo c w f pair r d v fl s) :=
  mergeWrite_kept (writeElem_kept h)

theorem emitTo_kept {c : Nat} {w : Work} {f : Fmt} {d : Elem} {emit : Int → Written} {fl : Nat} {s : State} (h : Kept z s) :
    VecKept z (emitTo c w f d emit fl s) :=
  mergeWrite_kept (putElem_kept h)

theorem putNum_kept {c n d v fl : Nat} {s : State} (h : Kept z s) : VecKept z (putNum c n d v fl s) := by
  unfold putNum
  split
  next t he => exact vecOk_kept (vaWrite_kept h _ he)
  · exact vecFault_kept

theorem elem2_kept {c : Nat} {fa fb : Fmt} {a b : Elem} {s : State} {k : OutVal → OutVal → Nat → VecEnd} (hf : ∀ x y fl, VecKept z (k x y fl)) :
    VecKept z (elem2 c fa fb a b s k) := by
  unfold elem2
  split
  · exact hf _ _ _
  · exact vecFault_kept
  · exact vecFault_kept

theorem elem1_kept {c : Nat} {f : Fmt} {a : Elem} {s : State} {k : OutVal → Nat → VecEnd} (hf : ∀ x fl, VecKept z (k x fl)) :
    VecKept z (elem1 c f a s k) := by
  unfold elem1
  split
  · exact hf _ _
  · exact vecFault_kept

theorem binTo_kept {c : Nat} {w : Work} {f : Bin} {m : Rm} {d : Elem} {r : Val × Nat} {s : State} (h : Kept z s) : VecKept z (binTo c w f m d r s) :=
  emitTo_kept h

theorem bin2_kept {c : Nat} {w : Work} {f : Bin} {m : Rm} {op : Val → Val → Val × Nat} {a b d : Elem} {s : State} (h : Kept z s) :
    VecKept z (bin2 c w f m op a b d s) :=
  elem2_kept (fun _ _ _ => binTo_kept h)

theorem productTo_kept {c : Nat} {w : Work} {fd : Fmt} {r : Round} {d : Elem} {p q : Operand} {fl : Nat} {s : State} (h : Kept z s) :
    VecKept z (productTo c w fd r d p q fl s) := by
  unfold productTo
  split
  exact mergeWrite_kept (putElem_kept h)

theorem storeSet_kept {c l off : Nat} {bytes : List Byte} {s : State} (h : Kept z s) : Kept z (storeSet c l off bytes s) :=
  kept_of_sizes h rfl rfl

theorem turnStore_kept {c : Nat} {w : Work} {l width base pitch d : Nat} {s : State} (h : Kept z s) :
    VecKept z (turnStore c w l width base pitch d s) := by
  unfold turnStore
  split
  · exact vecBad_kept
  · split
    · exact vecBad_kept
    · exact vecOk_kept (storeSet_kept h)

theorem convTo_kept {c : Nat} {w : Work} {src dst : Fmt} {r : Round} {pair : Bool} {d : Elem} {v : OutVal} {fl : Nat} {s : State} (h : Kept z s) :
    VecKept z (convTo c w src dst r pair d v fl s) := by
  unfold convTo
  split
  · exact binTo_kept h
  · exact binTo_kept h
  · exact writeTo_kept h

theorem vecStep_kept {c : Nat} {w : Work} {op : VecOp} {s : State} (h : Kept z s) : VecKept z (vecStep c w op s) := by
  unfold vecStep
  split
  · exact bin2_kept h
  · exact bin2_kept h
  · exact bin2_kept h
  · exact bin2_kept h
  · exact elem2_kept (fun _ _ _ => elem1_kept (fun _ _ => binTo_kept h))
  · exact elem1_kept (fun _ _ => binTo_kept h)
  · exact elem1_kept (fun _ _ => binTo_kept h)
  · refine elem1_kept (fun x _ => ?_)
    split
    · exact putNum_kept h
    · exact putNum_kept h
  · split
    · exact vecFault_kept
    · dsimp only
      split
      · exact emitTo_kept h
      · exact binTo_kept h
  · exact elem2_kept (fun _ _ _ => writeTo_kept h)
  · exact elem2_kept (fun _ _ _ => writeTo_kept h)
  · exact elem2_kept (fun _ _ _ => putNum_kept h)
  · exact elem1_kept (fun _ _ => convTo_kept h)
  · exact elem2_kept (fun _ _ _ => writeTo_kept h)
  · refine elem2_kept (fun x y fl => ?_)
    split
    · exact productTo_kept h
    · exact writeTo_kept h
  · split
    · exact vecFault_kept
    · exact writeTo_kept h
  · split
    · exact vecBad_kept
    · split
      · exact vecOk_kept (storeSet_kept h)
      · exact vecFault_kept
  · split
    next t he => exact vecOk_kept (vaWrite_kept h _ he)
    · exact vecFault_kept
  · split
    · exact vecBad_kept
    · split
      · exact vecOk_kept (storeSet_kept h)
      · exact vecFault_kept
  · split
    · exact vecBad_kept
    · split
      next t he => exact vecOk_kept (vaWrite_kept h _ he)
      · exact vecFault_kept
  · exact turnStore_kept h

theorem noteFrame_kept {c : Nat} {w : Work} {op : VecOp} {s : State} (h : Kept z s) : Kept z (noteFrame c w op s) := by
  unfold noteFrame
  dsimp only
  split
  · exact h
  · refine ite_kept ?_ (ite_kept (noteMiss_kept h) h)
    split
    · exact ite_kept h h
    · exact h

theorem runOps_kept {c id : Nat} {w : Work} {l : List VecOp} {k : Nat} {s : State} (h : Kept z s) : Kept z (runOps c id w l k s) := by
  induction l generalizing k s with
  | nil => exact h
  | cons op r ih =>
    unfold runOps
    split
    · exact ih h
    · split
      next t fl he =>
        have ht : Kept z (raiseFp c fl t) := kept_of_sizes (vecStep_kept h _ _ he) rfl rfl
        exact ih (noteFrame_kept ht)
      · exact faultKernel_kept h
      · exact endWork_kept h

theorem runProgram_kept {ops : List VecOp} {c : Nat} {x : Ctx} {w : Work} {s : State} (h : Kept z s) : Kept z (runProgram ops c x w s) := by
  unfold runProgram
  split
  · exact endWork_kept h
  · split
    · exact faultKernel_kept h
    next t he =>
      have ht := writeFrame_kept h _ he
      exact runOps_kept ht

theorem execProgram_kept {c id : Nat} {ops : List VecOp} {s : State} (h : Kept z s) : OutKept z (execProgram c id ops s) :=
  kernelRow_kept (fun _ _ _ hv => runProgram_kept hv) h

theorem bodyStripeSet_kept {p : Packet} {s : State} (h : Kept z s) : Kept z (bodyStripeSet p s) :=
  withCtx_kept h (fun _ => ite_kept (completeWith_kept h) (completeOk_kept h))

theorem acceptStripeSet_kept {p : Packet} {s : State} (h : Kept z s) : Kept z (acceptStripeSet p s) :=
  acceptPacket_kept (fun _ _ hv => bodyStripeSet_kept hv) h

theorem execStripeSet_kept {p : Packet} {s : State} (h : Kept z s) : OutKept z (execStripeSet p s) :=
  packetOut_kept (fun _ => acceptStripeSet_kept) h

theorem bodyStripeGet_kept {p : Packet} {idx : Nat} {s : State} (h : Kept z s) : Kept z (bodyStripeGet p idx s) := by
  refine withCtx_kept h (fun _ => ?_)
  split
  · exact refuse8_kept h
  · exact finishSlot_kept h

theorem acceptStripeGet_kept {p : Packet} {s : State} (h : Kept z s) : Kept z (acceptStripeGet p s) :=
  acceptPacket_kept (fun _ _ hv => bodyStripeGet_kept hv) h

theorem execStripeGet_kept {p : Packet} {s : State} (h : Kept z s) : OutKept z (execStripeGet p s) :=
  packetOut_kept (fun _ => acceptStripeGet_kept) h

end

end Sys2Proof.Machine
end

section
/-! SUPPORT. What carries the invariants of every step through the step boundary, telemetry, power and self-tests (06, 13, 14). -/
namespace Sys2Proof.Machine

section
variable {z : State}

theorem freeIf_kept {n : Nat} {s : State} (h : Kept z s) : Kept z (freeIf n s).2 := by
  unfold freeIf
  split
  · exact h
  · exact h

theorem freeList_kept {l : List Nat} {s : State} (h : Kept z s) : Kept z (freeList l s).2 := by
  induction l generalizing s with
  | nil => exact h
  | cons n r ih => exact ih (freeIf_kept h)

theorem latchStripes_kept {l : Table StripeSet} {s : State} (h : Kept z s) : Kept z (latchStripes l s).2 := by
  induction l generalizing s with
  | nil => exact h
  | cons e r ih => exact ih (freeList_kept (freeList_kept h))

theorem latchCtx_kept {step c : Nat} {s : State} (h : Kept z s) : Kept z (latchCtx step c s) := by
  unfold latchCtx
  dsimp only
  split
  · exact h
  · exact ite_kept h (latchStripes_kept (freeIf_kept (freeIf_kept h)))

theorem latchArrayCounts_kept {l : Table ArrayCounts} {s : State} (h : Kept z s) : Kept z (latchArrayCounts l s).2 := by
  induction l generalizing s with
  | nil => exact h
  | cons e r ih =>
    unfold latchArrayCounts
    dsimp only
    exact ih (freeList_kept h)

theorem latchArrays_kept {s : State} (h : Kept z s) : Kept z (latchArrays s) :=
  with_arrays_kept (latchArrayCounts_kept h)

theorem latchMem_kept {s : State} (h : Kept z s) : Kept z (latchMem s) :=
  kept_of_sizes h rfl rfl

theorem reefShareNow_kept {s : State} (h : Kept z s) : Kept z (reefShareNow s).2 := by
  unfold reefShareNow
  split
  · exact h
  · exact h

theorem meanWNow_kept {s : State} (h : Kept z s) : Kept z (meanWNow s).2 := by
  unfold meanWNow
  split
  · exact h
  · exact h

theorem latchPower_kept {s : State} (h : Kept z s) : Kept z (latchPower s) :=
  kept_of_sizes (meanWNow_kept (reefShareNow_kept h)) rfl (by simp [sizes, latchPower])

theorem latchColls_kept {s : State} (h : Kept z s) : Kept z (latchColls s) :=
  kept_of_sizes h rfl rfl

theorem latchAll_kept {step : Nat} {s : State} (h : Kept z s) : Kept z (latchAll step s) :=
  latchColls_kept (latchPower_kept (latchMem_kept (latchPorts_kept (latchArrays_kept (foldl_kept (fun _ _ hu => latchCtx_kept hu) h)))))

theorem marginLevel_kept {s : State} (h : Kept z s) : Kept z (marginLevel s).2 := by
  have hv : Kept z (freshValue s).2 := h
  unfold marginLevel
  split
  next v t hf _ => exact snd_kept hf hv
  next v t m hf _ =>
    split
    · exact h
    · exact snd_kept hf hv

theorem sextantLevels_kept {s : State} (h : Kept z s) : Kept z (sextantLevels s).2 :=
  marginLevel_kept h

theorem sextant_kept {now : Nat} {s : State} (h : Kept z s) : Kept z (sextant now s) :=
  with_fix_kept (sextantLevels_kept h)

theorem applyEdit_kept {s : State} {x1 : BoundaryEdit} (h : Kept z s) : Kept z (applyEdit s x1) := by
  unfold applyEdit
  split
  · exact applyLive_kept h
  · exact moduleWrite_kept (moduleWrite_kept h)

theorem secondAction_kept {n : Nat} {s : State} (h : Kept z s) : Kept z (secondAction n s) :=
  foldl_kept (fun _ _ hu => applyEdit_kept hu) h

theorem noteTrigger_kept {m : CloseMsg} {triggered : Bool} {s : State} (h : Kept z s) : Kept z (noteTrigger m triggered s) :=
  ite_kept (ite_kept h (ite_kept h h)) (ite_kept h h)

theorem clearBitmaps_kept {c step : Nat} {s : State} (h : Kept z s) : Kept z (clearBitmaps c step s) := by
  unfold clearBitmaps
  split
  · exact h
  · exact foldl_kept (fun _ _ hu => moduleWrite_kept hu) h

theorem scaleEdit_kept {c : Nat} {s : State} {b : List Byte} (h : Kept z s) : Kept z (scaleEdit c s b) := by
  unfold scaleEdit
  dsimp only
  split
  next t he =>
    have ht := applyScale_kept h _ he
    exact ht
  · exact moduleFault_kept h

theorem fourthCtx_kept {n : Nat} {s : State} {c : Nat} (h : Kept z s) : Kept z (fourthCtx n s c) := by
  unfold fourthCtx
  dsimp only
  split
  · exact h
  · exact ite_kept h (clearBitmaps_kept (foldl_kept (fun _ _ hu => scaleEdit_kept hu) h))

theorem fourthAction_kept {n : Nat} {s : State} (h : Kept z s) : Kept z (fourthAction n s) :=
  foldl_kept (fun _ _ hu => fourthCtx_kept hu) h

theorem fifthAction_kept {s : State} (h : Kept z s) : Kept z (fifthAction s) :=
  kept_of_sizes h rfl rfl

theorem lowAlarm_kept {step : Nat} {s : State} {c : Nat} (h : Kept z s) : Kept z (lowAlarm step s c) := by
  unfold lowAlarm
  dsimp only
  split
  · exact h
  · exact ite_kept h (ite_kept (ite_kept h (raiseEvent_kept h)) h)

theorem sixthAction_kept {m : CloseMsg} {edits : List BoundaryEdit} {s : State} (h : Kept z s) : Kept z (sixthAction m edits s) :=
  endReplay_kept (foldl_kept (fun _ _ hu => lowAlarm_kept hu) (openReplay_kept (openStepWith_kept h)))

theorem twoActions_kept {m : CloseMsg} {s : State} (h : Kept z s) : Kept z (twoActions m s) :=
  secondAction_kept (sextant_kept (latchAll_kept h))

theorem sendClose_kept {m : CloseMsg} {s : State} (h : Kept z s) : Kept z (sendClose m s) :=
  ite_kept (sendAll_kept (ite_kept h (sendMsg_kept h))) h

theorem reportOf_kept {m : CloseMsg} {triggered : Bool} {low : Nat} {before now : State} (h : Kept z now) :
    Kept z (reportOf m triggered low before now).2 := by
  unfold reportOf
  dsimp only
  split
  · exact h
  · exact h

theorem afterActions_kept {m : CloseMsg} {s : State} (h : Kept z s) : Kept z (afterActions m s) :=
  ite_kept (ite_kept h (beginFixStop_kept h)) (ite_kept (stopJob_kept h) (settleIngest_kept h))

theorem closeStep_kept {m : CloseMsg} {s : State} (h : Kept z s) : Kept z (closeStep m s) := by
  unfold closeStep
  extract_lets triggered s0 s1 edits
  have h0 : Kept z s0 := commitCounts_kept (sendClose_kept (ite_kept h h))
  have h1 : Kept z s1 := sextant_kept (latchAll_kept h0)
  split
  next report u hu =>
    have h3 := noteTrigger_kept (m := m) (triggered := triggered)
      (secondAction_kept (n := m.step) (with_fix_kept (x := { u.fix with absorbed := 0 }) (snd_kept hu (reportOf_kept h1))))
    have h5 := fifthAction_kept (fourthAction_kept (n := m.step) h3)
    exact afterActions_kept (when_kept (f := addUncovered) (fun _ => addUncovered_kept)
      (when_kept (f := fun t => pairConsorts (settleJoins t)) (fun _ ht => pairConsorts_kept (settleJoins_kept ht))
        (with_bnd_kept (sixthAction_kept h5))))

theorem execClose_kept {m : CloseMsg} {s : State} (h : Kept z s) : OutKept z (execClose m s) :=
  gate_kept (closeStep_kept h)

theorem writeSlot_kept {c step : Nat} {s : State} {r : ScaleRec} (h : Kept z s) : Kept z (writeSlot c step s r) :=
  moduleWrite_kept h

theorem execWatchSlotWrite_kept {c : Nat} {s : State} (h : Kept z s) : OutKept z (execWatchSlotWrite c s) := by
  unfold execWatchSlotWrite
  split
  · exact refused_kept
  · exact gate_kept (foldl_kept (fun _ _ hu => writeSlot_kept hu) h)

theorem fuseDies_kept {l : List DiePower} {s : State} (h : Kept z s) : Kept z (fuseDies l s).2 := by
  induction l generalizing s with
  | nil => exact h
  | cons d r ih => exact ih h

theorem fuseDies_length (l : List DiePower) (s : State) : (fuseDies l s).1.length = l.length := by
  induction l generalizing s with
  | nil => rfl
  | cons d r ih => exact congrArg (· + 1) (ih _)

theorem execRetuneComplete_kept {s : State} (h : Kept z s) : OutKept z (execRetuneComplete s) := by
  refine gate_kept (endStop_kept (kept_of_sizes (fuseDies_kept h) rfl ?_))
  have hpow : (fuseDies s.pow.dies s).2.pow = s.pow := fuseDies_changes s.pow.dies s .pow (by decide)
  simp only [sizes, fuseDies_length, hpow]

theorem execDescriptorReleaseWave_kept {wave : Nat} {s : State} (h : Kept z s) : OutKept z (execDescriptorReleaseWave wave s) :=
  gate_kept h

theorem acceptStepReport_kept {p : Packet} {s : State} (h : Kept z s) : Kept z (acceptStepReport p s) :=
  acceptPacket_kept (fun _ _ hv => finishSlot_kept hv) h

theorem execStepReportGet_kept {p : Packet} {s : State} (h : Kept z s) : OutKept z (execStepReportGet p s) :=
  packetOut_kept (fun _ => acceptStepReport_kept) h

theorem setLate_kept {s : State} (h : Kept z s) : Kept z (setLate s).2 :=
  orFree_kept (orFree_kept h)

theorem sensorBytes_kept {u : Nat} {s : State} (h : Kept z s) : Kept z (sensorBytes u s).2 := by
  unfold sensorBytes
  split
  · exact h
  · exact h

theorem setThermal_kept {s : State} (h : Kept z s) : Kept z (setThermal s).2 := by
  refine foldl_snd_kept (fun a u ha => ?_) h
  dsimp only
  exact sensorBytes_kept ha

theorem telemetry_kept {set first count : Nat} {s : State} (h : Kept z s) : Kept z (telemetry set first count s).2 := by
  unfold telemetry
  split
  · exact h
  · exact h
  · exact h
  · exact h
  · exact laneSets_kept h
  · exact h
  · exact setLate_kept h
  · exact h
  · exact h
  · exact setThermal_kept h
  · exact h

theorem bodyTelemetry_kept {p : Packet} {idx : Nat} {s : State} (h : Kept z s) : Kept z (bodyTelemetry p idx s) :=
  ite_kept (refuse8_kept h) (finishSlot_kept (telemetry_kept h))

theorem acceptTelemetry_kept {p : Packet} {s : State} (h : Kept z s) : Kept z (acceptTelemetry p s) :=
  acceptPacket_kept (fun _ _ hv => bodyTelemetry_kept hv) h

theorem execTelemetryGet_kept {p : Packet} {s : State} (h : Kept z s) : OutKept z (execTelemetryGet p s) :=
  packetOut_kept (fun _ => acceptTelemetry_kept) h

theorem sensorEvents_kept {before after : State} (_ : Kept z before) (h : Kept z after) : Kept z (sensorEvents before after) :=
  foldl_kept (fun _ _ hu => sensorEvent_kept hu) h

theorem bodyFreqSet_kept {p : Packet} {s : State} (h : Kept z s) : Kept z (bodyFreqSet p s) :=
  ite_kept (completeWith_kept h) (ite_kept (completeOpen_kept h) (completeOk_kept (setTarget_kept h)))

theorem acceptFreqSet_kept {p : Packet} {s : State} (h : Kept z s) : Kept z (acceptFreqSet p s) :=
  acceptPacket_kept (fun _ _ hv => bodyFreqSet_kept hv) h

theorem execFreqSet_kept {p : Packet} {s : State} (h : Kept z s) : OutKept z (execFreqSet p s) :=
  packetOut_kept (fun _ => acceptFreqSet_kept) h

theorem bodyPowerCap_kept {p : Packet} {s : State} (h : Kept z s) : Kept z (bodyPowerCap p s) :=
  ite_kept (completeWith_kept h) (completeOk_kept h)

theorem acceptPowerCap_kept {p : Packet} {s : State} (h : Kept z s) : Kept z (acceptPowerCap p s) :=
  acceptPacket_kept (fun _ _ hv => bodyPowerCap_kept hv) h

theorem execPowerCapSet_kept {p : Packet} {s : State} (h : Kept z s) : OutKept z (execPowerCapSet p s) :=
  packetOut_kept (fun _ => acceptPowerCap_kept) h

theorem execPowerSample_kept {mw : Nat} {mv ma : Int} {s : State} (h : Kept z s) : OutKept z (execPowerSample mw mv ma s) :=
  gate_kept (sensorEvents_kept h (kept_of_sizes h rfl (by simp [sizes, takeSample, addEnergy])))

theorem execAvsAdjust_kept {die : Nat} {up : Bool} {s : State} (h : Kept z s) : OutKept z (execAvsAdjust die up s) :=
  gate_kept (kept_of_sizes h rfl (by simp [sizes]))

theorem execDroopStretch_kept {die : Nat} {s : State} (h : Kept z s) : OutKept z (execDroopStretch die s) :=
  gate_kept (kept_of_sizes h rfl (by simp [sizes]))

theorem execDroopStretchEnd_kept {die periods : Nat} {s : State} (h : Kept z s) : OutKept z (execDroopStretchEnd die periods s) :=
  gate_kept (kept_of_sizes h rfl (by simp [sizes]))

theorem takeReadings_kept {temps : List TempRead} {inlet : Int} {flow : Nat} {s : State} (h : Kept z s) :
    Kept z (takeReadings temps inlet flow s) :=
  kept_of_sizes h rfl (by simp [sizes, takeReadings])

theorem throttle_kept {s : State} (h : Kept z s) : Kept z (throttle s) :=
  ite_kept (ite_kept h (raiseEvent_kept h)) h

theorem silencePorts_kept {s : State} (h : Kept z s) : Kept z (silencePorts s) :=
  kept_of_sizes h rfl (by simp [sizes, silencePorts])

theorem protectiveShutdown_kept {s : State} (h : Kept z s) : Kept z (protectiveShutdown s) :=
  ite_kept h (silencePorts_kept (moduleLoss_kept h))

theorem execThermalReading_kept {temps : List TempRead} {inlet : Int} {flow : Nat} {s : State} (h : Kept z s) :
    OutKept z (execThermalReading temps inlet flow s) :=
  gate_kept (sensorEvents_kept h (ite_kept (protectiveShutdown_kept (throttle_kept (takeReadings_kept h))) (throttle_kept (takeReadings_kept h))))

theorem execThermalReefDecay_kept {s : State} (h : Kept z s) : OutKept z (execThermalReefDecay s) :=
  gate_kept (kept_of_sizes h rfl (by simp [sizes]))

theorem execCoolantFlowLow_kept {flow : Nat} {s : State} (h : Kept z s) : OutKept z (execCoolantFlowLow flow s) :=
  gate_kept (sensorEvents_kept h h)

theorem execHeartbeat_kept {s : State} (h : Kept z s) : OutKept z (execHeartbeat s) :=
  gate_kept h

theorem bodyAnchorEnter_kept {p : Packet} {s : State} (h : Kept z s) : Kept z (bodyAnchorEnter p s) :=
  ite_kept (completeWith_kept h) (ite_kept (completeWith_kept h) h)

theorem acceptAnchorEnter_kept {p : Packet} {s : State} (h : Kept z s) : Kept z (acceptAnchorEnter p s) :=
  acceptPacket_kept (fun _ _ hv => bodyAnchorEnter_kept hv) h

theorem execAnchorEnter_kept {p : Packet} {s : State} (h : Kept z s) : OutKept z (execAnchorEnter p s) :=
  packetOut_kept (fun _ => acceptAnchorEnter_kept) h

theorem execAnchorEnterComplete_kept {s : State} (h : Kept z s) : OutKept z (execAnchorEnterComplete s) := by
  unfold execAnchorEnterComplete
  dsimp only
  split
  · exact refused_kept
  · exact gate_kept (enterState_kept (completeOk_kept (silencePorts_kept h)))

theorem bodyAnchorExit_kept {p : Packet} {s : State} (h : Kept z s) : Kept z (bodyAnchorExit p s) :=
  ite_kept h (completeOk_kept h)

theorem acceptAnchorExit_kept {p : Packet} {s : State} (h : Kept z s) : Kept z (acceptAnchorExit p s) :=
  acceptPacket_kept (fun _ _ hv => bodyAnchorExit_kept hv) h

theorem execAnchorExit_kept {p : Packet} {s : State} (h : Kept z s) : OutKept z (execAnchorExit p s) :=
  packetOut_kept (fun _ => acceptAnchorExit_kept) h

theorem execAnchorExitComplete_kept {s : State} (h : Kept z s) : OutKept z (execAnchorExitComplete s) := by
  refine gate_kept (enterState_kept (foldl_kept (fun _ _ hu => completeOk_kept hu) (kept_of_sizes (fuseDies_kept h) rfl ?_)))
  have hpow : (fuseDies s.pow.dies s).2.pow = s.pow := fuseDies_changes s.pow.dies s .pow (by decide)
  simp only [sizes, fuseDies_length, hpow]

theorem bodyBistRun_kept {p : Packet} {idx : Nat} {s : State} (h : Kept z s) : Kept z (bodyBistRun p idx s) :=
  ite_kept (refuse8_kept h) (complete_kept h)

theorem acceptBistRun_kept {p : Packet} {s : State} (h : Kept z s) : Kept z (acceptBistRun p s) :=
  acceptPacket_kept (fun _ _ hv => bodyBistRun_kept hv) h

theorem execBistRun_kept {p : Packet} {s : State} (h : Kept z s) : OutKept z (execBistRun p s) :=
  packetOut_kept (fun _ => acceptBistRun_kept) h

theorem bistChange_kept {fails : List BistFail} {s : State} (h : Kept z s) : Kept z (bistChange fails s) :=
  ite_kept h (ite_kept (moduleLoss_kept (settleTests_kept (decideLeaving_kept h))) (settleTests_kept (decideLeaving_kept h)))

theorem wipeMemory_kept {s : State} (h : Kept z s) : Kept z (wipeMemory s) :=
  kept_of_canonical h (fun hc => ⟨rfl, hc.2⟩) rfl

theorem execBistComplete_kept {tested : Nat} {fails : List BistFail} {s : State} (h : Kept z s) : OutKept z (execBistComplete tested fails s) := by
  unfold execBistComplete
  dsimp only
  split
  · exact refused_kept
  · exact gate_kept (bistChange_kept (enterHold_kept (with_conf_kept (finishPending_kept (wipeMemory_kept h)))))

theorem acceptClusterTest_kept {p : Packet} {s : State} (h : Kept z s) : Kept z (acceptClusterTest p s) :=
  acceptPacket_kept (fun _ _ hv => bodyClusterTest_kept hv) h

theorem execClusterTest_kept {p : Packet} {s : State} (h : Kept z s) : OutKept z (execClusterTest p s) :=
  packetOut_kept (fun _ => acceptClusterTest_kept) h

theorem execClusterTestResult_kept {phys : Nat} {pass : Bool} {s : State} (h : Kept z s) : OutKept z (execClusterTestResult phys pass s) :=
  gate_kept (endTest_kept (decideChange_kept h))

theorem bodyMarginScan_kept {p : Packet} {idx : Nat} {s : State} (h : Kept z s) : Kept z (bodyMarginScan p idx s) :=
  complete_kept h

theorem acceptMarginScan_kept {p : Packet} {s : State} (h : Kept z s) : Kept z (acceptMarginScan p s) :=
  acceptPacket_kept (fun _ _ hv => bodyMarginScan_kept hv) h

theorem execMarginScan_kept {p : Packet} {s : State} (h : Kept z s) : OutKept z (execMarginScan p s) :=
  packetOut_kept (fun _ => acceptMarginScan_kept) h

theorem eyeBytes_kept {mask k l : Nat} {e : LaneEye} {s : State} (h : Kept z s) : Kept z (eyeBytes mask k l e s).2 := by
  unfold eyeBytes
  dsimp only
  split
  · exact h
  · split
    · exact h
    · exact freeBytes_kept h

theorem eyesBytes_kept {mask : Nat} {eyes : List LaneEye} {s : State} (h : Kept z s) : Kept z (eyesBytes mask eyes s).2 := by
  refine foldl_snd_kept (fun a e ha => ?_) h
  dsimp only
  exact eyeBytes_kept ha

theorem execMarginScanComplete_kept {eyes : List LaneEye} {s : State} (h : Kept z s) : OutKept z (execMarginScanComplete eyes s) := by
  unfold execMarginScanComplete
  dsimp only
  split
  · exact refused_kept
  · exact gate_kept (finishPending_kept (with_test_kept (eyesBytes_kept h)))

theorem bodyHbmRecal_kept {p : Packet} {s : State} (h : Kept z s) : Kept z (bodyHbmRecal p s) :=
  ite_kept (completeOk_kept h) h

theorem acceptHbmRecal_kept {p : Packet} {s : State} (h : Kept z s) : Kept z (acceptHbmRecal p s) :=
  acceptPacket_kept (fun _ _ hv => bodyHbmRecal_kept hv) h

theorem execHbmRecal_kept {p : Packet} {s : State} (h : Kept z s) : OutKept z (execHbmRecal p s) :=
  packetOut_kept (fun _ => acceptHbmRecal_kept) h

theorem execHbmRecalStackComplete_kept {stack : Nat} {s : State} (h : Kept z s) : OutKept z (execHbmRecalStackComplete stack s) := by
  unfold execHbmRecalStackComplete
  dsimp only
  split
  · exact refused_kept
  · exact gate_kept (ite_kept (completeOk_kept h) h)

end

end Sys2Proof.Machine
end

section
/-! SUPPORT. What carries the invariants of every step through board power, management, queues and fetching (15, 14, 10). -/
namespace Sys2Proof.Machine

section
variable {z : State}

theorem execStrapRead_kept {slot feed : List StrapRead} {s : State} (h : Kept z s) : OutKept z (execStrapRead slot feed s) :=
  gate_kept (sensorEvents_kept h h)

/-- Power comes with erased memory, and a port for each stored mode (R249, R274). -/
theorem powerUp_kept {s : State} (h : Kept z s) : Kept z (powerUp s) := by
  refine ⟨fun hz => ⟨rfl, (h.1 hz).2⟩, fun hz => ?_⟩
  obtain ⟨-, hmodes, -, -, -⟩ := h.2 hz
  exact ⟨(List.length_map _).trans hmodes, hmodes, rfl, rfl, Nat.zero_le _⟩

theorem execPwrEnRise_kept {mv : Int} {s : State} (h : Kept z s) : OutKept z (execPwrEnRise mv s) :=
  gate_kept (sensorEvents_kept h (ite_kept (sensorEvent_kept (raiseEvent_kept (powerUp_kept h))) h))

theorem inputLost_kept {s : State} (h : Kept z s) : Kept z (inputLost s) :=
  with_board_kept (silencePorts_kept (ite_kept h (moduleLoss_kept h)))

theorem execPwrEnFall_kept {s : State} (h : Kept z s) : OutKept z (execPwrEnFall s) :=
  gate_kept (with_board_kept (ite_kept (inputLost_kept h) h))

theorem execInputPowerLoss_kept {mv : Int} {s : State} (h : Kept z s) : OutKept z (execInputPowerLoss mv s) :=
  gate_kept (sensorEvents_kept h (inputLost_kept h))

theorem execAux3v3Loss_kept {s : State} (h : Kept z s) : OutKept z (execAux3v3Loss s) := by
  refine gate_kept ⟨fun hz => ⟨rfl, (h.1 hz).2⟩, fun hz => ?_⟩
  obtain ⟨-, hmodes, -, -, -⟩ := h.2 hz
  exact ⟨rfl, hmodes, rfl, rfl, Nat.zero_le _⟩

theorem execAux3v3Rise_kept {slot feed : List StrapRead} {s : State} (h : Kept z s) : OutKept z (execAux3v3Rise slot feed s) :=
  gate_kept h

theorem execLeakLoopSample_kept {ohms : Nat} {s : State} (h : Kept z s) : OutKept z (execLeakLoopSample ohms s) :=
  gate_kept (sensorEvents_kept h h)

theorem execLeakTimeout_kept {s : State} (h : Kept z s) : OutKept z (execLeakTimeout s) :=
  gate_kept (ite_kept (protectiveShutdown_kept h) h)

theorem chooseBinnacle_kept {baOk : Bool} {s : State} (h : Kept z s) : Kept z (chooseBinnacle baOk s) :=
  ite_kept h h

theorem execFirmwareImageSelect_kept {baOk : Bool} {imgA imgB : ImageFound} {s : State} (h : Kept z s) :
    OutKept z (execFirmwareImageSelect baOk imgA imgB s) := by
  refine gate_kept ?_
  split
  · exact chooseBinnacle_kept h
  · exact chooseBinnacle_kept h

theorem bootChart_kept {quickFail fabricFail : List Nat} {s : State} (h : Kept z s) : Kept z (bootChart quickFail fabricFail s) :=
  kept_of_sizes h rfl rfl

/-- The boot trains as many ports as it finds (R273). -/
theorem bootPorts_kept {found : List (PeerFound × List LaneFound)} {s : State} (hl : found.length = 6) (h : Kept z s) :
    Kept z (bootPorts found s) := by
  refine ⟨h.1, fun hz => ?_⟩
  obtain ⟨-, hmodes, harmour, hdies, hskews⟩ := h.2 hz
  exact ⟨by simp [bootPorts, numbered, hl], hmodes, harmour, hdies, hskews⟩

theorem execBootComplete_kept {quickFail : List Nat} {trainFail : Bool} {fabricFail : List Nat} {ports : List (PeerFound × List LaneFound)}
    {s : State} (h : Kept z s) : OutKept z (execBootComplete quickFail trainFail fabricFail ports s) := by
  refine gate_kept_of (fun hc => ?_)
  have hl : ports.length = 6 := by
    simp only [Bool.and_eq_true, beq_iff_eq] at hc
    exact hc.1.2
  exact ite_kept (moduleLoss_kept (bootChart_kept h)) (enterState_kept (bootPorts_kept hl (bootChart_kept h)))

theorem managed_kept {s t : State} (_ : Kept z s) (h : Kept z t) : OutKept z (managed s t) :=
  gate_kept h

theorem execSetEndpointId_kept {eid : Nat} {s : State} (h : Kept z s) : OutKept z (execSetEndpointId eid s) :=
  managed_kept h (ite_kept h h)

theorem execGetEndpointId_kept {s : State} (h : Kept z s) : OutKept z (execGetEndpointId s) :=
  managed_kept h h

theorem execGetMctpVersionSupport_kept {type : Nat} {s : State} (h : Kept z s) : OutKept z (execGetMctpVersionSupport type s) :=
  managed_kept h (ite_kept h h)

theorem execGetMessageTypeSupport_kept {s : State} (h : Kept z s) : OutKept z (execGetMessageTypeSupport s) :=
  managed_kept h h

theorem execGetVendorDefinedMessageSupport_kept {s : State} (h : Kept z s) : OutKept z (execGetVendorDefinedMessageSupport s) :=
  managed_kept h h

theorem execUnsupportedMctpControlCommand_kept {cmd : Nat} {s : State} (h : Kept z s) : OutKept z (execUnsupportedMctpControlCommand cmd s) :=
  gate_kept h

theorem execPldmDiscovery_kept {cmd : Nat} {s : State} (h : Kept z s) : OutKept z (execPldmDiscovery cmd s) :=
  managed_kept h h

theorem openInt_kept {v : Option Int} {s : State} (h : Kept z s) : Kept z (openInt v s).2 := by
  unfold openInt
  split
  · exact h
  · exact h

theorem execGetSensorReading_kept {sensor : Nat} {s : State} (h : Kept z s) : OutKept z (execGetSensorReading sensor s) :=
  managed_kept h (ite_kept (openInt_kept h) h)

theorem execGetStateSensorReadings_kept {sensor : Nat} {s : State} (h : Kept z s) : OutKept z (execGetStateSensorReadings sensor s) :=
  managed_kept h (ite_kept h h)

theorem execSetEventReceiver_kept {enable : Bool} {eid : Nat} {s : State} (h : Kept z s) : OutKept z (execSetEventReceiver enable eid s) :=
  managed_kept h h

theorem execFruDataRead_kept {s : State} (h : Kept z s) : OutKept z (execFruDataRead s) :=
  managed_kept h h

theorem writeImage_kept {l : List Byte} {s : State} (h : Kept z s) : Kept z (writeImage l s) :=
  ite_kept h h

theorem endTransfer_kept {l : List Byte} {checksOk : Bool} {s : State} (h : Kept z s) : Kept z (endTransfer l checksOk s) :=
  ite_kept (writeImage_kept h) (writeImage_kept h)

theorem execPldmFirmwareUpdate_kept {first : Bool} {bytes : List Byte} {checksOk last : Bool} {s : State} (h : Kept z s) :
    OutKept z (execPldmFirmwareUpdate first bytes checksOk last s) := by
  refine managed_kept h ?_
  split
  · exact h
  · exact h
  · exact ite_kept (endTransfer_kept h) h

theorem execActivateFirmware_kept {s : State} (h : Kept z s) : OutKept z (execActivateFirmware s) :=
  managed_kept h (ite_kept h h)

theorem bodyQueueCreate_kept {p : Packet} {s : State} (h : Kept z s) : Kept z (bodyQueueCreate p s) :=
  ite_kept (completeWith_kept h) (ite_kept (completeWith_kept h) (ite_kept (completeWith_kept h) (completeOk_kept h)))

theorem acceptQueueCreate_kept {p : Packet} {s : State} (h : Kept z s) : Kept z (acceptQueueCreate p s) :=
  acceptPacket_kept (fun _ _ hv => bodyQueueCreate_kept hv) h

theorem execQueueCreate_kept {p : Packet} {s : State} (h : Kept z s) : OutKept z (execQueueCreate p s) :=
  packetOut_kept (fun _ => acceptQueueCreate_kept) h

theorem bodyQueueDelete_kept {p : Packet} {s : State} (h : Kept z s) : Kept z (bodyQueueDelete p s) := by
  unfold bodyQueueDelete
  dsimp only
  split
  · exact completeWith_kept h
  · exact ite_kept (completeOpen_kept h) (completeOk_kept h)

theorem acceptQueueDelete_kept {p : Packet} {s : State} (h : Kept z s) : Kept z (acceptQueueDelete p s) :=
  acceptPacket_kept (fun _ _ hv => bodyQueueDelete_kept hv) h

theorem execQueueDelete_kept {p : Packet} {s : State} (h : Kept z s) : OutKept z (execQueueDelete p s) :=
  packetOut_kept (fun _ => acceptQueueDelete_kept) h

theorem queueMod_kept {q : Nat} {f : Queue → Queue} {s : State} (h : Kept z s) : Kept z (queueMod q f s) :=
  kept_of_sizes h rfl rfl

theorem doorbellSq_kept {q v : Nat} {s : State} (h : Kept z s) : Kept z (doorbellSq q v s) := by
  unfold doorbellSq
  split
  · exact queueError_kept h
  · exact ite_kept h (ite_kept (queueError_kept h) (ite_kept (queueError_kept h) (queueMod_kept h)))

theorem doorbellCq_kept {q v : Nat} {s : State} (h : Kept z s) : Kept z (doorbellCq q v s) := by
  unfold doorbellCq
  dsimp only
  split
  · exact queueError_kept h
  · exact ite_kept (queueError_kept h) (queueMod_kept h)

theorem execSqTail_kept {q : Nat} {v : Word} {s : State} (h : Kept z s) : OutKept z (execSqTail q v s) :=
  gate_kept (doorbellSq_kept h)

theorem execCqHead_kept {q : Nat} {v : Word} {s : State} (h : Kept z s) : OutKept z (execCqHead q v s) :=
  gate_kept (doorbellCq_kept h)

theorem startAdmin_kept {s : State} (h : Kept z s) : Kept z (startAdmin s) :=
  ite_kept (queueError_kept h) h

theorem endAdminStop_kept {s : State} (h : Kept z s) : Kept z (endAdminStop s) := by
  unfold endAdminStop
  dsimp only
  split
  · exact ite_kept (ite_kept (startAdmin_kept h) h) h
  · exact h

theorem writeAdminCtrl_kept {v : Nat} {s : State} (h : Kept z s) : Kept z (writeAdminCtrl v s) :=
  ite_kept (ite_kept h (endAdminStop_kept (queueMod_kept h))) (ite_kept (startAdmin_kept h) h)

theorem execAdminEnable_kept {v : Word} {s : State} (h : Kept z s) : OutKept z (execAdminEnable v s) :=
  gate_kept (writeAdminCtrl_kept h)

theorem execAdminDisable_kept {v : Word} {s : State} (h : Kept z s) : OutKept z (execAdminDisable v s) :=
  gate_kept (writeAdminCtrl_kept h)

theorem writeEventCause_kept {v : Word} {s : State} (h : Kept z s) : Kept z (writeEventCause v s) :=
  kept_of_sizes h rfl rfl

theorem writeEventMask_kept {v : Word} {s : State} (h : Kept z s) : Kept z (writeEventMask v s) :=
  ite_kept h (sendMsix_kept h)

theorem writeFpFlags_kept {c : Nat} {v : Word} {s : State} (h : Kept z s) : Kept z (writeFpFlags c v s) :=
  kept_of_sizes h rfl rfl

theorem execEventCause_kept {v : Word} {s : State} (h : Kept z s) : OutKept z (execEventCause v s) :=
  next_kept (writeEventCause_kept h)

theorem execEventMask_kept {v : Word} {s : State} (h : Kept z s) : OutKept z (execEventMask v s) :=
  next_kept (writeEventMask_kept h)

theorem execQueueErr_kept {s : State} (h : Kept z s) : OutKept z (execQueueErr s) :=
  next_kept h

theorem execFpFlags_kept {ctx : Nat} {v : Word} {s : State} (h : Kept z s) : OutKept z (execFpFlags ctx v s) :=
  gate_kept (writeFpFlags_kept h)

theorem writeReg_kept {off : Nat} {v : Word} {s : State} (h : Kept z s) : Kept z (writeReg off v s) := by
  have hbase : ∀ x : Regs, Kept z (if s.regs.adminEnable then s else { s with regs := x }) := fun x => ite_kept h (with_regs_kept h)
  unfold writeReg
  refine ite_kept h (ite_kept (ite_kept (writeFpFlags_kept h) h) (ite_kept (ite_kept (doorbellSq_kept h) (doorbellCq_kept h)) ?_))
  split
  · exact writeEventCause_kept h
  · exact writeEventMask_kept h
  · exact hbase _
  · exact hbase _
  · exact hbase _
  · exact hbase _
  · exact writeAdminCtrl_kept h
  · exact h

theorem execRegisterWrite_kept {off : Nat} {v : Word} {s : State} (h : Kept z s) : OutKept z (execRegisterWrite off v s) :=
  next_kept (writeReg_kept h)

theorem postEntry_kept {q : Nat} {x : Queue} {c : Completion} {s : State} (h : Kept z s) : Kept z (postEntry q x c s) := by
  have hw := queueMod_kept (q := q) (f := fun _ => afterPost x c)
    (hostWrite_kept (addr := x.cqBase + 32 * x.cqTail) (l := entryBytes q x s.chart.epoch c) h)
  unfold postEntry
  exact endAdminStop_kept (ite_kept (sendMsix_kept hw) hw)

theorem dropEntry_kept {q : Nat} {c : Completion} {s : State} (h : Kept z s) : Kept z (dropEntry q c s) :=
  queueMod_kept h

theorem execCompletionPost_kept {q : Nat} {s : State} (h : Kept z s) : OutKept z (execCompletionPost q s) := by
  unfold execCompletionPost
  split
  · exact refused_kept
  · split
    · exact refused_kept
    · exact ite_outKept (next_kept (dropEntry_kept h)) (gate_kept (postEntry_kept h))

theorem execPerstN_kept {asserted : Bool} {s : State} (h : Kept z s) : OutKept z (execPerstN asserted s) :=
  next_kept (ite_kept h h)

theorem writeDpas_kept {ds : List Nat} {l : List Byte} {s : State} (h : Kept z s) : Kept z (writeDpas ds l s) :=
  foldl_kept (fun _ _ hu => devStore_kept hu) h

theorem execCxlMemAccess_kept {write : Bool} {off len : Nat} {data : List Byte} {s : State} (h : Kept z s) :
    OutKept z (execCxlMemAccess write off len data s) := by
  refine ite_outKept refused_kept ?_
  split
  · exact next_kept (ite_kept h h)
  · exact ite_outKept (gate_kept (writeDpas_kept h)) (next_kept h)

theorem acceptGroup0_kept {op : Nat} : AcceptKept z (acceptGroup0 op) := by
  unfold acceptGroup0
  split
  · exact some_acceptKept (fun _ _ => acceptNop_kept)
  · exact some_acceptKept (fun _ _ => acceptIdentify_kept)
  · exact some_acceptKept (fun _ _ => acceptQueueCreate_kept)
  · exact some_acceptKept (fun _ _ => acceptQueueDelete_kept)
  · exact some_acceptKept (fun _ _ => acceptResultRead_kept)
  · exact some_acceptKept (fun _ _ => acceptResultRelease_kept)
  · exact some_acceptKept (fun _ _ => acceptChartGet_kept)
  · exact some_acceptKept (fun _ _ => acceptSkewLogGet_kept)
  · exact some_acceptKept (fun _ _ => acceptStatusGet_kept)
  · exact some_acceptKept (fun _ _ => acceptRegRead_kept)
  · exact none_acceptKept

theorem acceptGroup1_kept {op : Nat} : AcceptKept z (acceptGroup1 op) := by
  unfold acceptGroup1
  split
  · exact some_acceptKept (fun _ _ => acceptConfigBegin_kept)
  · exact some_acceptKept (fun _ _ => acceptConfigWrite_kept)
  · exact some_acceptKept (fun _ _ => acceptConfigCommit_kept)
  · exact some_acceptKept (fun _ _ => acceptConfigAbort_kept)
  · exact some_acceptKept (fun _ _ => acceptConfigRead_kept)
  · exact some_acceptKept (fun _ _ => acceptLiveSet_kept)
  · exact some_acceptKept (fun _ _ => acceptContextSet_kept)
  · exact some_acceptKept (fun _ _ => acceptContextGet_kept)
  · exact some_acceptKept (fun _ _ => acceptContextClear_kept)
  · exact some_acceptKept (fun _ _ => acceptScaleSet_kept)
  · exact some_acceptKept (fun _ _ => acceptScaleGet_kept)
  · exact some_acceptKept (fun _ _ => acceptGroupSet_kept)
  · exact some_acceptKept (fun _ _ => acceptAstkSet_kept)
  · exact some_acceptKept (fun _ _ => acceptJobStart_kept)
  · exact some_acceptKept (fun _ _ => acceptJobStop_kept)
  · exact none_acceptKept

theorem acceptGroups24_kept {op : Nat} : AcceptKept z (acceptGroups24 op) := by
  unfold acceptGroups24
  split
  · exact some_acceptKept (fun _ _ => acceptPtRootSet_kept)
  · exact some_acceptKept (fun _ _ => acceptTlbInvalidate_kept)
  · exact some_acceptKept (fun _ _ => acceptDmaSubmit_kept)
  · exact some_acceptKept (fun _ _ => acceptSyncAlloc_kept)
  · exact some_acceptKept (fun _ _ => acceptSyncFree_kept)
  · exact some_acceptKept (fun _ _ => acceptSyncOp_kept)
  · exact some_acceptKept (fun _ _ => acceptKernel_kept)
  · exact some_acceptKept (fun _ _ => acceptStripeSet_kept)
  · exact some_acceptKept (fun _ _ => acceptStripeGet_kept)
  · exact some_acceptKept (fun _ _ => acceptIngestSchedule_kept)
  · exact some_acceptKept (fun _ _ => acceptIngestStart_kept)
  · exact some_acceptKept (fun _ _ => acceptIngestStop_kept)
  · exact some_acceptKept (fun _ _ => acceptTokenTableLoad_kept)
  · exact some_acceptKept (fun _ _ => acceptManifestGet_kept)
  · exact none_acceptKept

theorem acceptGroups56_kept {op : Nat} : AcceptKept z (acceptGroups56 op) := by
  unfold acceptGroups56
  split
  · exact some_acceptKept (fun _ _ => acceptPortStatus_kept)
  · exact some_acceptKept (fun _ _ => acceptGroupJoin_kept)
  · exact some_acceptKept (fun _ _ => acceptGroupChart_kept)
  · exact some_acceptKept (fun _ _ => acceptColl_kept)
  · exact some_acceptKept (fun _ _ => acceptEpochAbort_kept)
  · exact some_acceptKept (fun _ _ => acceptDeadline_kept)
  · exact some_acceptKept (fun _ _ => acceptFaultGet_kept)
  · exact some_acceptKept (fun _ _ => acceptFaultResolve_kept)
  · exact some_acceptKept (fun _ _ => acceptUnitState_kept)
  · exact some_acceptKept (fun _ _ => acceptFixRequest_kept)
  · exact some_acceptKept (fun _ _ => acceptFixStatus_kept)
  · exact some_acceptKept (fun _ _ => acceptFixExport_kept)
  · exact some_acceptKept (fun _ _ => acceptFixRestore_kept)
  · exact some_acceptKept (fun _ _ => acceptRoleSet_kept)
  · exact some_acceptKept (fun _ _ => acceptAssume_kept)
  · exact some_acceptKept (fun _ _ => acceptFeedOverride_kept)
  · exact some_acceptKept (fun _ _ => acceptManifest_kept)
  · exact none_acceptKept

theorem acceptGroups78_kept {op : Nat} : AcceptKept z (acceptGroups78 op) := by
  unfold acceptGroups78
  split
  · exact some_acceptKept (fun _ _ => acceptTelemetry_kept)
  · exact some_acceptKept (fun _ _ => acceptStepReport_kept)
  · exact some_acceptKept (fun _ _ => acceptPowerCap_kept)
  · exact some_acceptKept (fun _ _ => acceptFreqSet_kept)
  · exact some_acceptKept (fun _ _ => acceptAnchorEnter_kept)
  · exact some_acceptKept (fun _ _ => acceptAnchorExit_kept)
  · exact some_acceptKept (fun _ _ => acceptBistRun_kept)
  · exact some_acceptKept (fun _ _ => acceptClusterTest_kept)
  · exact some_acceptKept (fun _ _ => acceptMarginScan_kept)
  · exact some_acceptKept (fun _ _ => acceptHbmRecal_kept)
  · exact none_acceptKept

theorem acceptOp_kept {op : Nat} {p : Packet} {s : State} (h : Kept z s) : Kept z (acceptOp op p s) := by
  have hrows := or_acceptKept (acceptGroup0_kept (z := z) (op := op)) (or_acceptKept (acceptGroup1_kept (op := op))
    (or_acceptKept (acceptGroups24_kept (op := op)) (or_acceptKept (acceptGroups56_kept (op := op)) (acceptGroups78_kept (op := op)))))
  unfold acceptOp
  generalize (acceptGroup0 op).or ((acceptGroup1 op).or ((acceptGroups24 op).or ((acceptGroups56 op).or (acceptGroups78 op)))) = row at hrows
  cases row with
  | none => exact acceptPacket_kept (fun _ _ ht => ht) h
  | some f => exact hrows f rfl p s h

theorem fetchSlot_kept {q : Nat} {x : Queue} {s : State} (h : Kept z s) : Kept z (fetchSlot q x s) :=
  runPacket_kept (fun _ _ hv => acceptOp_kept hv) (queueMod_kept h)

theorem execSqFetch_kept {q : Nat} {s : State} (h : Kept z s) : OutKept z (execSqFetch q s) := by
  unfold execSqFetch
  split
  · exact refused_kept
  · split
    · exact gate_kept (acceptOp_kept (queueMod_kept h))
    · exact gate_kept (fetchSlot_kept h)

theorem execFabricPacket_kept {sender : Nat} {bytes : List Byte} {s : State} (h : Kept z s) : OutKept z (execFabricPacket sender bytes s) :=
  gate_kept (runPacket_kept (fun _ _ hv => acceptOp_kept hv) h)

theorem execMctpIlzanRequest_kept {endpoint : Nat} {bytes : List Byte} {s : State} (h : Kept z s) :
    OutKept z (execMctpIlzanRequest endpoint bytes s) :=
  gate_kept (runPacket_kept (fun _ _ hv => acceptOp_kept hv) h)

end

end Sys2Proof.Machine
end

section
/-! SUPPORT. What carries the invariants of every step through every command and every step. -/
namespace Sys2Proof.Machine

section
variable {z : State}

theorem exec_kept {i : Instr} {s : State} (h : Kept z s) : OutKept z (exec i s) := by
  cases i with
  | nop => exact execNop_kept h
  | identify => exact execIdentify_kept h
  | queueCreate => exact execQueueCreate_kept h
  | queueDelete => exact execQueueDelete_kept h
  | resultRead => exact execResultRead_kept h
  | resultRelease => exact execResultRelease_kept h
  | chartGet => exact execChartGet_kept h
  | skewLogGet => exact execSkewLogGet_kept h
  | statusGet => exact execStatusGet_kept h
  | regRead => exact execRegRead_kept h
  | configBegin => exact execConfigBegin_kept h
  | configWrite => exact execConfigWrite_kept h
  | configCommit => exact execConfigCommit_kept h
  | configCommitApplied => exact execConfigCommitApplied_kept h
  | configAbort => exact execConfigAbort_kept h
  | configRead => exact execConfigRead_kept h
  | liveSet => exact execLiveSet_kept h
  | contextSet => exact execContextSet_kept h
  | contextGet => exact execContextGet_kept h
  | contextClear => exact execContextClear_kept h
  | scaleSetCreateReplace => exact execScaleSetCreateReplace_kept h
  | scaleSetDelete => exact execScaleSetDelete_kept h
  | scaleRecordRemove => exact execScaleRecordRemove_kept h
  | scaleGet => exact execScaleGet_kept h
  | groupSet => exact execGroupSet_kept h
  | astkSet => exact execAstkSet_kept h
  | jobStart => exact execJobStart_kept h
  | jobStop => exact execJobStop_kept h
  | ptRootSet => exact execPtRootSet_kept h
  | tlbInvalidate => exact execTlbInvalidate_kept h
  | tlbInvalidateComplete => exact execTlbInvalidateComplete_kept h
  | dmaSubmit => exact execDmaSubmit_kept h
  | copy => exact execCopy_kept h
  | fill => exact execFill_kept h
  | copy2d => exact execCopy2d_kept h
  | dmaGranuleWriteAck => exact execDmaGranuleWriteAck_kept h
  | syncAlloc => exact execSyncAlloc_kept h
  | syncFree => exact execSyncFree_kept h
  | syncOp => exact execSyncOp_kept h
  | read => exact execRead_kept h
  | write => exact execWrite_kept h
  | add => exact execAdd_kept h
  | cas => exact execCas_kept h
  | waitEq => exact execWaitEq_kept h
  | waitGe => exact execWaitGe_kept h
  | arrive => exact execArrive_kept h
  | waitReleaseWave => exact execWaitReleaseWave_kept h
  | waitEntryFree => exact execWaitEntryFree_kept h
  | remoteSyncOperation => exact execRemoteSyncOperation_kept h
  | kernelDispatch => exact execKernelDispatch_kept h
  | conv => exact execConv_kept h
  | convT => exact execConvT_kept h
  | poolMax => exact execPoolMax_kept h
  | poolAvg => exact execPoolAvg_kept h
  | argmaxC => exact execArgmaxC_kept h
  | matmul => exact execMatmul_kept h
  | gatherSum => exact execGatherSum_kept h
  | update => exact execUpdate_kept h
  | program => exact execProgram_kept h
  | deferredIdleIssue => exact execDeferredIdleIssue_kept h
  | descriptorIssue => exact execDescriptorIssue_kept h
  | chainStart => exact execChainStart_kept h
  | shadowLoadComplete => exact execShadowLoadComplete_kept h
  | swapToken => exact execSwapToken_kept h
  | chainComplete => exact execChainComplete_kept h
  | drainComplete => exact execDrainComplete_kept h
  | vectorGranuleComplete => exact execVectorGranuleComplete_kept h
  | kernelComplete => exact execKernelComplete_kept h
  | haloStamp => exact execHaloStamp_kept h
  | stripeSet => exact execStripeSet_kept h
  | stripeGet => exact execStripeGet_kept h
  | ingestSchedule => exact execIngestSchedule_kept h
  | ingestStart => exact execIngestStart_kept h
  | ingestStop => exact execIngestStop_kept h
  | tokenTableLoad => exact execTokenTableLoad_kept h
  | manifestGet => exact execManifestGet_kept h
  | xrsFrameParse => exact execXrsFrameParse_kept h
  | sampleDecodeComplete => exact execSampleDecodeComplete_kept h
  | assemblyStart => exact execAssemblyStart_kept h
  | sampleSlow => exact execSampleSlow_kept h
  | decodeTimeout => exact execDecodeTimeout_kept h
  | portStatusGet => exact execPortStatusGet_kept h
  | groupJoin => exact execGroupJoin_kept h
  | groupChartGet => exact execGroupChartGet_kept h
  | collectiveSubmit => exact execCollectiveSubmit_kept h
  | reduce => exact execReduce_kept h
  | allReduce => exact execAllReduce_kept h
  | allGather => exact execAllGather_kept h
  | reduceScatter => exact execReduceScatter_kept h
  | broadcast => exact execBroadcast_kept h
  | collectiveSignature => exact execCollectiveSignature_kept h
  | collectiveChunkReceive => exact execCollectiveChunkReceive_kept h
  | collectiveResultReceive => exact execCollectiveResultReceive_kept h
  | collectiveChunkAck => exact execCollectiveChunkAck_kept h
  | epochAbort => exact execEpochAbort_kept h
  | deadlineSet => exact execDeadlineSet_kept h
  | faultGet => exact execFaultGet_kept h
  | faultResolve => exact execFaultResolve_kept h
  | retry => exact execRetry_kept h
  | abortDescriptor => exact execAbortDescriptor_kept h
  | abortContext => exact execAbortContext_kept h
  | unitStateSet => exact execUnitStateSet_kept h
  | plannedMove => exact execPlannedMove_kept h
  | fixRequest => exact execFixRequest_kept h
  | fixStatusGet => exact execFixStatusGet_kept h
  | fixExport => exact execFixExport_kept h
  | fixRestore => exact execFixRestore_kept h
  | fixRestoreComplete => exact execFixRestoreComplete_kept h
  | roleSet => exact execRoleSet_kept h
  | standbyAssume => exact execStandbyAssume_kept h
  | standbyPullComplete => exact execStandbyPullComplete_kept h
  | feedOverride => exact execFeedOverride_kept h
  | stepManifestGet => exact execStepManifestGet_kept h
  | telemetryGet => exact execTelemetryGet_kept h
  | stepReportGet => exact execStepReportGet_kept h
  | powerCapSet => exact execPowerCapSet_kept h
  | freqSet => exact execFreqSet_kept h
  | anchorEnter => exact execAnchorEnter_kept h
  | anchorEnterComplete => exact execAnchorEnterComplete_kept h
  | anchorExit => exact execAnchorExit_kept h
  | anchorExitComplete => exact execAnchorExitComplete_kept h
  | bistRun => exact execBistRun_kept h
  | bistComplete => exact execBistComplete_kept h
  | clusterTest => exact execClusterTest_kept h
  | clusterTestResult => exact execClusterTestResult_kept h
  | marginScan => exact execMarginScan_kept h
  | marginScanComplete => exact execMarginScanComplete_kept h
  | hbmRecal => exact execHbmRecal_kept h
  | hbmRecalStackComplete => exact execHbmRecalStackComplete_kept h
  | sqTail => exact execSqTail_kept h
  | cqHead => exact execCqHead_kept h
  | sqFetch => exact execSqFetch_kept h
  | completionPost => exact execCompletionPost_kept h
  | pcieCompletionTimeout => exact execPcieCompletionTimeout_kept h
  | eventCause => exact execEventCause_kept h
  | eventMask => exact execEventMask_kept h
  | queueErr => exact execQueueErr_kept h
  | adminEnable => exact execAdminEnable_kept h
  | adminDisable => exact execAdminDisable_kept h
  | fpFlags => exact execFpFlags_kept h
  | registerWrite => exact execRegisterWrite_kept h
  | perstN => exact execPerstN_kept h
  | cxlMemAccess => exact execCxlMemAccess_kept h
  | fabricPacket => exact execFabricPacket_kept h
  | mctpIlzanRequest => exact execMctpIlzanRequest_kept h
  | setEndpointId => exact execSetEndpointId_kept h
  | getEndpointId => exact execGetEndpointId_kept h
  | getMctpVersionSupport => exact execGetMctpVersionSupport_kept h
  | getMessageTypeSupport => exact execGetMessageTypeSupport_kept h
  | getVendorDefinedMessageSupport => exact execGetVendorDefinedMessageSupport_kept h
  | unsupportedMctpControlCommand => exact execUnsupportedMctpControlCommand_kept h
  | pldmDiscovery => exact execPldmDiscovery_kept h
  | getSensorReading => exact execGetSensorReading_kept h
  | getStateSensorReadings => exact execGetStateSensorReadings_kept h
  | setEventReceiver => exact execSetEventReceiver_kept h
  | fruDataRead => exact execFruDataRead_kept h
  | pldmFirmwareUpdate => exact execPldmFirmwareUpdate_kept h
  | activateFirmware => exact execActivateFirmware_kept h
  | pwrEnRise => exact execPwrEnRise_kept h
  | pwrEnFall => exact execPwrEnFall_kept h
  | aux3v3Rise => exact execAux3v3Rise_kept h
  | aux3v3Loss => exact execAux3v3Loss_kept h
  | inputPowerLoss => exact execInputPowerLoss_kept h
  | firmwareImageSelect => exact execFirmwareImageSelect_kept h
  | bootComplete => exact execBootComplete_kept h
  | powerSample => exact execPowerSample_kept h
  | thermalReading => exact execThermalReading_kept h
  | thermalReefDecay => exact execThermalReefDecay_kept h
  | coolantFlowLow => exact execCoolantFlowLow_kept h
  | leakLoopSample => exact execLeakLoopSample_kept h
  | leakTimeout => exact execLeakTimeout_kept h
  | strapRead => exact execStrapRead_kept h
  | heartbeat => exact execHeartbeat_kept h
  | avsAdjust => exact execAvsAdjust_kept h
  | droopStretch => exact execDroopStretch_kept h
  | droopStretchEnd => exact execDroopStretchEnd_kept h
  | chartChangeDecision => exact execChartChangeDecision_kept h
  | fenceAck => exact execFenceAck_kept h
  | supervisorApplyAck => exact execSupervisorApplyAck_kept h
  | binnacleMirrorAck => exact execBinnacleMirrorAck_kept h
  | fencedOutputDiscard => exact execFencedOutputDiscard_kept h
  | supervisorStateMismatch => exact execSupervisorStateMismatch_kept h
  | staleProgressReport => exact execStaleProgressReport_kept h
  | clusterFault => exact execClusterFault_kept h
  | clusterWatchdog => exact execClusterWatchdog_kept h
  | supervisorHeartbeatMiss => exact execSupervisorHeartbeatMiss_kept h
  | supervisorRestartEnd => exact execSupervisorRestartEnd_kept h
  | binnacleTakeover => exact execBinnacleTakeover_kept h
  | binnacleTakeoverEnd => exact execBinnacleTakeoverEnd_kept h
  | mediaEngineFault => exact execMediaEngineFault_kept h
  | addressTranslation => exact execAddressTranslation_kept h
  | memoryRead => exact execMemoryRead_kept h
  | armouredWrite => exact execArmouredWrite_kept h
  | armouredWriteAck => exact execArmouredWriteAck_kept h
  | patrolScrub => exact execPatrolScrub_kept h
  | stackLoss => exact execStackLoss_kept h
  | rebuildStripe => exact execRebuildStripe_kept h
  | sliceExpiry => exact execSliceExpiry_kept h
  | contextSaveComplete => exact execContextSaveComplete_kept h
  | contextRestore => exact execContextRestore_kept h
  | handover => exact execHandover_kept h
  | deadlineExpiry => exact execDeadlineExpiry_kept h
  | decision => exact execDecision_kept h
  | manifestFinalise => exact execManifestFinalise_kept h
  | stepManifestReceive => exact execStepManifestReceive_kept h
  | stepManifestAck => exact execStepManifestAck_kept h
  | close => exact execClose_kept h
  | watchSlotWrite => exact execWatchSlotWrite_kept h
  | retuneComplete => exact execRetuneComplete_kept h
  | descriptorReleaseWave => exact execDescriptorReleaseWave_kept h
  | musterLimitExpiry => exact execMusterLimitExpiry_kept h
  | groupHeartbeatSend => exact execGroupHeartbeatSend_kept h
  | groupHeartbeatReceive => exact execGroupHeartbeatReceive_kept h
  | heartbeatTimeout => exact execHeartbeatTimeout_kept h
  | probeTimeout => exact execProbeTimeout_kept h
  | failedNotice => exact execFailedNotice_kept h
  | groupChartChange => exact execGroupChartChange_kept h
  | portTraining => exact execPortTraining_kept h
  | portTrainingComplete => exact execPortTrainingComplete_kept h
  | laneFailure => exact execLaneFailure_kept h
  | portDown => exact execPortDown_kept h
  | flitReceive => exact execFlitReceive_kept h
  | flitReplay => exact execFlitReplay_kept h
  | rocePacketReceive => exact execRocePacketReceive_kept h
  | cnpReceive => exact execCnpReceive_kept h
  | sendRateRise => exact execSendRateRise_kept h
  | fixQuiesceComplete => exact execFixQuiesceComplete_kept h
  | fixCopyComplete => exact execFixCopyComplete_kept h
  | fixHeaderAck => exact execFixHeaderAck_kept h
  | fixStreamChunkReceive => exact execFixStreamChunkReceive_kept h
  | fixChunkAck => exact execFixChunkAck_kept h
  | sealAck => exact execSealAck_kept h
  | fixSealReport => exact execFixSealReport_kept h
  | ilzanReplyReceive => exact execIlzanReplyReceive_kept h
  | groupChartPublication => exact execGroupChartPublication_kept h
  | remoteSyncReply => exact execRemoteSyncReply_kept h
  | probeReceive => exact execProbeReceive_kept h
  | laneDownReceive => exact execLaneDownReceive_kept h
  | hostLinkDlActive => exact execHostLinkDlActive_kept h
  | fixExportComplete => exact execFixExportComplete_kept h
  | rollingTest => exact execRollingTest_kept h
  | fixPullRequest => exact execFixPullRequest_kept h

theorem step_kept {s : State} (h : Kept z s) : OutKept z (step s) := by
  unfold step
  split
  · exact next_kept h
  · exact exec_kept h

end

end Sys2Proof.Machine

namespace Sys2Proof
open Sys2Proof.Machine

/-- Settles O60: every command carries the canonical form of the memories and the fixed sizes, by the lemma of each function it runs. -/
theorem stepInvariants : Obligations.StepInvariants := by
  refine ⟨fun s t hstep hcanonical => ?_, fun s t hstep hsized => ?_⟩
  · exact (step_kept (Kept.refl s) t hstep).1 hcanonical
  · exact (step_kept (Kept.refl s) t hstep).2 hsized

end Sys2Proof
end
